-- ==== Sys2Proof/Word.lean ====
section
/-! DEFINITION. Word.lean: the byte and word types, the sparse map every table of the state is held in, and the
plainest arithmetic on them. Bit 0 is the least significant bit of any field and multi-byte data are little-endian (R5). -/

namespace Sys2Proof

/-- One byte of memory. -/
abbrev Byte := BitVec 8

/-- A 64-bit word: a register, a quadword of a descriptor, a data word of a scratchpad row (R11, R57). -/
abbrev Word := BitVec 64

/-- A sparse table: pairs of a key and a value, keys strictly rising. A key that is not listed reads as the table's
default, and no listed value equals it, so equal tables are equal lists. -/
abbrev SMap (α : Type) := List (Nat × α)

/-- The natural number that a little-endian byte list spells (R5). -/
def leNat : List Byte → Nat
  | [] => 0
  | b :: bs => b.toNat + 256 * leNat bs

/-- The `n` little-endian bytes of a natural number (R5). -/
def leBytes : Nat → Nat → List Byte
  | 0, _ => []
  | n + 1, v => BitVec.ofNat 8 v :: leBytes n (v / 256)

end Sys2Proof
end

