-- ==== Sys2Proof/Syntax.lean ====
section
/-! DEFINITION. Syntax.lean: the commands the part takes, one constructor per row of spec/opcode_table.json, with the
operands each takes. The table gives a row no bits, so a command is its constructor and operands. Where the physical
world decides something (a sensor reading, which of several unordered units lands next, the answer of a host or of
another die, fresh random bits), the command carries what the world decided as an operand (DESIGN CHOICE, log entry 2). -/

namespace Sys2Proof

/-- Who makes an access or issues a command: the host's physical function, a virtual function (R344), a core (with
its privilege, R272, R478), the Cocoon die, a tensor mover, the Hawkmoth, the tier manager, a geyser engine, or
another module over the Obneurn Link. -/
inductive Origin where
  | pf
  | vf (v : Fin 64)
  | core (h : Fin 96) (mmode : Bool)
  | cocoon
  | mover (c : Fin 512) (m : Fin 2)
  | hawkmoth
  | tierManager
  | geyser
  | peer (module : Nat)
  deriving DecidableEq, Repr, Inhabited

/-- What the training of a pseudo-channel found (R313): the failing lanes and whether lane repair covers them. -/
structure PcFinding where
  pc : Fin 768
  repairable : Bool
  deriving DecidableEq, Repr, Inhabited

/-- What the lane test of a bundle found (R374): failing lanes, and whether both wires of a pair are lost. -/
structure BundleFinding where
  link : Fin 15
  dir : Bool
  bundle : Nat
  failingLanes : Nat
  pairLost : Bool
  deriving DecidableEq, Repr, Inhabited

/-- What a logic test of a cluster found (R453, R456): the cells that failed on the first run and on the second. -/
structure CellFinding where
  cluster : Fin 512
  failFirst : List Nat
  failSecond : List Nat
  deriving DecidableEq, Repr, Inhabited

/-- What the tests at a module power-on or at the exit from a reset found (R444 orders 4 and 5, R313, R314, R374): cells, pseudo-channels, bundles. -/
structure ResetIn where
  cells : List CellFinding
  hbm : List PcFinding
  bundles : List BundleFinding
  deriving DecidableEq, Repr, Inhabited

/-- A record of the ageing history (R35): a unit's degradation, trim and margin (R434), the retired cells of a cluster
(R56), the V_MIN of a matrix die or the guard of a core group (R434), the failed lanes of a bundle by link × 256 +
direction × 128 + bundle (R374), or a disabled way by hub × 16 + way (R329). -/
inductive HistRec where
  | unit (u : Nat)
  | cells (c : Nat)
  | vmin (d : Nat)
  | guard (g : Nat)
  | lanes (k : Nat)
  | way (k : Nat)
  deriving DecidableEq, Repr, Inhabited

/-- What is known physically at boot (R36, R463, R464): the seed the fuzzy extractor recovers from the power-up state of
the PUF array (none when the helper data cannot correct it), whether the flash answers with the paired area, and the
records of the ageing history and of the event log, by place, whose signatures fail on read. -/
structure BootIn where
  seed : Option (BitVec 256)
  areaAuthentic : Bool
  badHistory : List HistRec
  badLog : List Nat
  deriving DecidableEq, Repr, Inhabited

/-- The source of a THERMTRIP (R428, PWR_LAST_OFF): a logic die or a stack. -/
inductive TripSource where
  | die (d : Fin 7)
  | stack (m : Fin 12)
  deriving DecidableEq, Repr, Inhabited

/-- The header of a management-chain frame (R406), with whether its CRC-32C was good. -/
structure ChainHdr where
  dest : BitVec 16
  src : BitVec 16
  tag : BitVec 16
  crcOk : Bool
  deriving DecidableEq, Repr, Inhabited

/-- A requester of a scratchpad bank (R61). -/
inductive BankUser where
  | feeder | drain | vector | mover (m : Fin 2) | scrub | window
  deriving DecidableEq, Repr, Inhabited

/-- A row access asked of a bank (R60): the row, and for a write the word within the row, its bytes and the byte
offset they start at. -/
structure BankReq where
  user : BankUser
  row : Fin 1024
  word : Fin 8
  data : Option (List Byte)
  waited : Nat
  deriving DecidableEq, Repr, Inhabited

/-- Where a cube is executed: the column of the cell, and whether what the cell reads, its caldera or an operand queue, has
a parity error (R438). -/
structure CubeIn where
  col : Fin 32
  parity : Bool
  deriving DecidableEq, Repr, Inhabited

/-- What a landing meets: the host denies its access, and the counter it advances has an uncorrectable error (R438). -/
structure LandIn where
  hostDenies : Bool
  counterBad : Bool
  deriving DecidableEq, Repr, Inhabited

/-- One side of a cluster's feeders (R45): the A feeders of the rows or the B feeders of the columns. -/
inductive Side where
  | a | b
  deriving DecidableEq, Repr, Inhabited

/-- The target of a transaction that a mover watchdog found unanswered (R185). -/
inductive WdogTarget where
  | peer | host | package
  deriving DecidableEq, Repr, Inhabited

/-- How a tier copy fails (R228). -/
inductive CopyFailure where
  | hostLost | eccT1 | checksum
  deriving DecidableEq, Repr, Inhabited

/-- The atomic operations of the cores (R256, R319). -/
inductive AmoOp where
  | swap | add | and | or | xor | min | max | minu | maxu | cas
  deriving DecidableEq, Repr, Inhabited

/-- How a core reaches memory (R246): cached, or through a PTE with PBMT NC or IO. -/
inductive Pbmt where
  | none | nc | io
  deriving DecidableEq, Repr, Inhabited

/-- What wakes a core (R268). -/
inductive WakeSource where
  | interrupt | mImsic | hawkmoth
  deriving DecidableEq, Repr, Inhabited

/-- Which comparator mtime reached (R267). -/
inductive TimerKind where
  | mtimecmp | stimecmp | vstimecmp
  deriving DecidableEq, Repr, Inhabited

/-- The level of an IMSIC interrupt file (R265). -/
inductive ImsicFile where
  | m | s | guest (g : Fin 7)
  deriving DecidableEq, Repr, Inhabited

/-- The three MetaValues of CXL.mem (R301). -/
inductive Meta where
  | i | s | a
  deriving DecidableEq, Repr, Inhabited

/-- A line: its line address (address divided by 64), and whether it is host memory (R275). -/
structure Line where
  hostMem : Bool
  addr : Nat
  deriving DecidableEq, Repr, Inhabited

/-- The errors that a test of a pseudo-channel found (R334): words that ECC corrected, and all others, words that it could not
correct or that differ. -/
structure CheckErrors where
  corr : BitVec 32
  uncorr : BitVec 32
  deriving DecidableEq, Repr, Inhabited

/-- The error count of a test (R334): it saturates. -/
def CheckErrors.count (e : CheckErrors) : Nat := min (e.corr.toNat + e.uncorr.toNat) (2 ^ 32 - 1)

/-- The host pages that an ATS invalidation names (R349): the first, of 4 KiB, and their number as a power of two. -/
structure PageRange where
  first : Nat
  order : Fin 53
  deriving DecidableEq, Repr, Inhabited

/-- The data of a message, with its POISON flag (R279). -/
structure DataMsg where
  bytes : List Byte
  poison : Bool
  deriving DecidableEq, Repr, Inhabited

/-- A requester of a home (R274): its agent number when it is a caching agent, and its stream identifier (R283). -/
structure Requester where
  agent : Option (Fin 97)
  stream : Nat
  deriving DecidableEq, Repr, Inhabited

/-- The state a snooped holder answers with (R279, R288). -/
inductive LState where
  | i | s | e | o | m
  deriving DecidableEq, Repr, Inhabited

/-- A class of droop rail (R426). -/
inductive DroopRail where
  | vfab (d : Fin 4) | vcg (g : Fin 12) | vhub (n : Fin 2)
  deriving DecidableEq, Repr, Inhabited

/-- What the host link trained to (R28, R340, R367): HOST_LINK.SPEED, the lanes in use, whether in flit mode, and the
connectors present by CBL_PRES#. -/
structure LinkIn where
  speed : Fin 16
  width : Fin 64
  flit : Bool
  cableA : Bool
  cableB : Bool
  deriving DecidableEq, Repr, Inhabited

/-- What the host answers to a read of its memory (R350, R359): the data, a refusal, or data marked poisoned. -/
inductive HostAnswer where
  | data | refused | poisoned
  deriving DecidableEq, Repr, Inhabited

/-- The readings of one PMBus poll (R415): input voltage in 10 mV, current in 10 mA, power in W, the rail powers by
class of R418, the Cocoon rail in 0.25 W, by die the power of the rails that supply it in W (R416), and the input stage's temperature in
°C (R26). -/
structure PmbusIn where
  vin : Nat
  iin : Nat
  pin : Nat
  links : Nat
  memory : Nat
  cores : Nat
  fabric : Nat
  cocoon : Nat
  perDie : List Nat
  stageTemp : Nat
  deriving DecidableEq, Repr, Inhabited

/-- The findings of one logic test (R453): failing cells on the first and on the second run, and the signature. -/
structure LogicFinding where
  failFirst : List Nat
  failSecond : List Nat
  sig : BitVec 64
  deriving DecidableEq, Repr, Inhabited

/-- The findings of one memory test (R453, R454): the failing rows (bank, row, word). -/
structure MemFinding where
  rows : List (Nat × Nat × Nat)
  deriving DecidableEq, Repr, Inhabited

/-- One ageing measurement (R430): the unit, its four monitors in 0.01 %, the margin in 0.01 %, its powered hours. -/
structure AgeReading where
  unit : Nat
  monitors : List Nat
  margin : Nat
  hours : Nat
  deriving DecidableEq, Repr, Inhabited

/-- The header of a run or a GET on the Obneurn Link (R395, R400). -/
structure ObHdr where
  dest : Nat
  src : Nat
  job : Nat
  tag : Nat
  reply : Bool
  add : Bool
  efmt : Nat
  spad : Bool
  addr : Nat
  lcntEn : Bool
  lcnt : Nat
  lclu : Nat
  hops : Nat
  repoch : Nat
  deriving DecidableEq, Repr, Inhabited

/-- The link-level part of a received frame (R394, R398): the port, virtual channel and sequence number, and whether
its CRC was good. -/
structure ObLink where
  port : Fin 16
  vc : Bool
  seq : Nat
  crcOk : Bool
  deriving DecidableEq, Repr, Inhabited

/-- The body of an ACK or a NACK (R399, R402). -/
structure ObAck where
  dest : Nat
  src : Nat
  tag : Nat
  status : Nat
  bytes : Nat
  deriving DecidableEq, Repr, Inhabited

/-- The body of a CTL frame (R397). -/
structure ObCtl where
  ackSeq : Nat
  nak : Bool
  credits : List Nat
  deriving DecidableEq, Repr, Inhabited

/-- The commands, one constructor per row of spec/opcode_table.json, in the table's order. -/
inductive Instr where
  -- The module: power, connectors, boot, firmware (R19 to R42, R463)
  | powerOn (t : ResetIn)
  | undervoltage
  | overvoltage
  | enableLow
  | currentLimit
  | currentLimitRelease
  | pmbusWrite (reg : Byte) (data : List Byte)
  | thermtrip (src : TripSource)
  | cageInsert (cage : Fin 8) (supported : Bool)
  | cageRemove (cage : Fin 8)
  | chPresChange (low : Bool)
  | boot (b : BootIn)
  | activate (h : ChainHdr) (wrong : List (Nat × Byte))
  | stage (h : ChainHdr) (payload : List Byte)
  -- Registers and windows (R7 to R13, R65 to R67, R346)
  | registerWrite (o : Origin) (addr size val : Nat)
  | registerReadClear (o : Origin) (addr size : Nat)
  | unmappedAccess (o : Origin) (addr : Nat) (write : Bool)
  | registerAccessBadSize (o : Origin) (addr size : Nat) (write : Bool)
  | windowAccess (o : Origin) (addr size : Nat) (data : Option (List Byte))
  | windowTlp (addr : Nat) (enables : List Bool) (data : Option (List Byte)) (poisoned : Bool)
  -- Cells, banks and cluster power (R43 to R78, R97 to R112)
  | feederBlockIssue (c : Fin 512) (side : Side) (index : Fin 32)
  | cubeExecute (c : Fin 512) (row : Fin 20) (x : CubeIn)
  | patchComplete (c : Fin 512) (row : Fin 20) (col : Fin 32)
  | drainHandshake (c : Fin 512) (row : Fin 20) (col : Fin 32)
  | drainWrite (c : Fin 512) (col : Fin 32)
  | bankAccess (c : Fin 512) (bank : Fin 48) (arrive : List BankReq) (upset : List (Fin 1024 × Fin 8 × BitVec 72))
  | bankWake (c : Fin 512) (bank : Fin 48)
  | correctedRowWriteback (c : Fin 512) (bank : Fin 48) (row : Fin 1024)
  | scrubRead (c : Fin 512) (bank : Fin 48) (row : Fin 1024) (upset : List (Fin 8 × BitVec 72))
  | scrubPassEnd (c : Fin 512)
  | bankPowerRequest (c : Fin 512) (bank : Fin 48) (state : Fin 4)
  | gateClose (c : Fin 512) (bank : Fin 48)
  | clusterPowerOff (c : Fin 512)
  | clusterWake (c : Fin 512)
  | cluFaultClear (c : Fin 512)
  | calPeek (c : Fin 512) (val : Nat)
  -- Cell operations (R123)
  | mac (c : Fin 512) (row : Fin 20) (col : Fin 32)
  | red (c : Fin 512) (row : Fin 20) (col : Fin 32)
  | fwd (c : Fin 512) (row : Fin 20) (col : Fin 32)
  | cellEnd (c : Fin 512) (row : Fin 20) (col : Fin 32)
  -- Steps (R128) and passes (R151 to R166)
  | endPass (c : Fin 512)
  | wait (c : Fin 512)
  | run (c : Fin 512)
  | runAdmit (d : Fin 4)
  | runComplete (c : Fin 512)
  | vec (c : Fin 512)
  | move (c : Fin 512)
  | sync (c : Fin 512)
  | waitdl (c : Fin 512)
  | jump (c : Fin 512)
  | passBegin (c : Fin 512)
  | deadlineExpiry (c : Fin 512)
  | beatStallWatchdog (c : Fin 512)
  -- Vector instructions (R130): the cluster whose vector unit stands at that instruction
  | vecEnd (c : Fin 512)
  | ld (c : Fin 512)
  | st (c : Fin 512)
  | ldlp (c : Fin 512)
  | stt (c : Fin 512)
  | add (c : Fin 512)
  | mul (c : Fin 512)
  | fma (c : Fin 512)
  | min (c : Fin 512)
  | max (c : Fin 512)
  | cmp (c : Fin 512)
  | sel (c : Fin 512)
  | abs (c : Fin 512)
  | cvti (c : Fin 512)
  | cvto (c : Fin 512)
  | cvtmx (c : Fin 512)
  | rcp (c : Fin 512)
  | rsq (c : Fin 512)
  | exp2 (c : Fin 512)
  | log2 (c : Fin 512)
  | rsum (c : Fin 512)
  | rmax (c : Fin 512)
  | rmin (c : Fin 512)
  | scan (c : Fin 512)
  | topk (c : Fin 512)
  | seta (c : Fin 512)
  | adda (c : Fin 512)
  | setl (c : Fin 512)
  | loop (c : Fin 512)
  -- Plan slots (R138 to R145) and grants (R150, R167)
  | load (o : Origin) (slot : Fin 16)
  | loadStandby (o : Origin) (slot pred : Fin 16)
  | unload (o : Origin) (slot : Fin 16)
  | standbyTakeover (slot : Fin 16)
  | planReapply (slot : Fin 16)
  | passStart (o : Origin) (slot : Fin 16) (passes : BitVec 32)
  | passStartContinuous (o : Origin) (slot : Fin 16)
  | passStop (o : Origin) (slot : Fin 16)
  | molt (o : Origin) (slot : Fin 16) (passes : BitVec 32) (cont : Bool)
  | moltSwap (slot : Fin 16)
  -- Tensor moves and landing counters (R174 to R207)
  | copy (c : Fin 512) (m : Fin 2)
  | gather (c : Fin 512) (m : Fin 2)
  | scatter (c : Fin 512) (m : Fin 2)
  | scatterAdd (c : Fin 512) (m : Fin 2)
  | get (c : Fin 512) (m : Fin 2)
  | objectResolve (c : Fin 512) (m : Fin 2)
  | landing (c : Fin 512) (m : Fin 2) (unit : Nat) (l : LandIn)
  | moveComplete (c : Fin 512) (m : Fin 2)
  | moverWatchdog (c : Fin 512) (m : Fin 2) (target : WdogTarget)
  | lndAdd (o : Origin) (c : Fin 512) (cnt : Fin 256) (amount : BitVec 32)
  | lndWatch (o : Origin) (c : Fin 512) (cnt : Fin 256) (target : BitVec 48)
  | lndClear (o : Origin) (c : Fin 512) (cnt : Fin 256) (all : Bool)
  | counterWaitTimeout (c : Fin 512)
  -- The tier manager (R208 to R240)
  | tierEnableFresh (o : Origin) (share : Fin 16)
  | tierEnableRecover (o : Origin) (share : Fin 16)
  | tierDisable (o : Origin)
  | tierReady
  | ctxCreate (f : Fin 65) (ctx : BitVec 24) (part : Fin 16) (quota : BitVec 40)
  | ctxDestroy (f : Fin 65) (ctx : BitVec 24)
  | allocOpen (f : Fin 65) (ctx : BitVec 24) (length : BitVec 40)
  | seal (f : Fin 65) (ctx : BitVec 24) (handle : BitVec 32) (length : BitVec 40) (crc : Bool)
  | adopt (f : Fin 65) (ctx : BitVec 24) (addr : BitVec 64) (length : BitVec 40) (pasid : BitVec 20) (pv : Bool)
  | evict (f : Fin 65) (ctx : BitVec 24) (handle : BitVec 32) (addr : BitVec 64) (pasid : BitVec 20) (pv : Bool)
  | fetch (f : Fin 65) (ctx : BitVec 24) (handle : BitVec 32) (pin verify : Bool)
  | unpin (f : Fin 65) (ctx : BitVec 24) (handle : BitVec 32)
  | free (f : Fin 65) (ctx : BitVec 24) (handle : BitVec 32)
  | releaseT2 (f : Fin 65) (ctx : BitVec 24) (handle : BitVec 32)
  | verify (f : Fin 65) (ctx : BitVec 24) (handle : BitVec 32)
  | query (f : Fin 65) (ctx : BitVec 24) (handle : BitVec 32) (addr : BitVec 64)
  | evictionCopyLands (entry : Fin 4194304)
  | fetchCopyLands (entry : Fin 4194304)
  | copyFails (entry : Fin 4194304) (why : CopyFailure)
  | eraseComplete (unit : BitVec 24)
  | checksumComplete (entry : Fin 4194304)
  -- The core complex (R241 to R273)
  | coreLoad (h : Fin 96) (rd : Fin 32) (addr : BitVec 64) (size : Fin 4) (signed : Bool) (pbmt : Pbmt)
  | coreStore (h : Fin 96) (rs : Fin 32) (addr : BitVec 64) (size : Fin 4) (pbmt : Pbmt)
  | storeBufferDrain (h : Fin 96)
  | uncachedStoreFail (h : Fin 96) (addr : BitVec 40) (status : Fin 17)
  | amo (h : Fin 96) (op : AmoOp) (rd rs : Fin 32) (addr : BitVec 64) (size : Fin 5) (pbmt : Pbmt)
  | lr (h : Fin 96) (rd : Fin 32) (addr : BitVec 64) (size : Fin 4) (pbmt : Pbmt)
  | sc (h : Fin 96) (rd rs : Fin 32) (addr : BitVec 64) (size : Fin 4) (pbmt : Pbmt)
  | fence (h : Fin 96) (predW succR : Bool)
  | cboZero (h : Fin 96) (addr : BitVec 64)
  | cboInval (h : Fin 96) (addr : BitVec 64) (mmode : Bool) (cbie : Fin 4)
  | cboClean (h : Fin 96) (addr : BitVec 64)
  | cboFlush (h : Fin 96) (addr : BitVec 64)
  | wfi (h : Fin 96)
  | coreWake (h : Fin 96) (src : WakeSource)
  | interrupt (h : Fin 96) (rnmi : Bool) (cause : BitVec 64)
  | imsicWrite (o : Origin) (h : Fin 96) (file : ImsicFile) (identity : BitVec 32)
  | timerCompare (h : Fin 96) (k : TimerKind)
  | coreWatchdog (h : Fin 96)
  | kick (h : Fin 96)
  | flush (h : Fin 96)
  -- The coherence protocol (R274 to R306)
  | rds (l : Line) (r : Requester) (token : Option (Fin 8192)) (dirErr scErr : Fin 3)
  | rdx (l : Line) (r : Requester) (token : Option (Fin 8192)) (dirErr : Fin 3)
  | upg (l : Line) (r : Requester) (token : Option (Fin 8192))
  | puts (l : Line) (agent : Fin 97)
  | pute (l : Line) (agent : Fin 97)
  | putm (l : Line) (agent : Fin 97) (data : List Byte) (poison : Bool)
  | rdcur (l : Line) (r : Requester)
  | wrfull (l : Line) (r : Requester) (data : List Byte) (poison : Bool)
  | wrpart (l : Line) (r : Requester) (mask : BitVec 64) (data : DataMsg)
  | atomf (l : Line) (r : Requester) (op : AmoOp) (off : Fin 64) (size : Fin 5) (operand compare : BitVec 128)
  | addm (l : Line) (r : Requester) (off : Fin 64) (efmt : Fin 4) (elements : List Byte)
  | snps (l : Line) (agent : Fin 96)
  | snpx (l : Line) (agent : Fin 96)
  | snpinv (l : Line) (agent : Fin 96)
  | snpcur (l : Line) (agent : Fin 96)
  | rsp (l : Line) (agent : Fin 97) (st : LState) (wb : Bool)
  | rspd (l : Line) (agent : Fin 97) (st : LState) (data : List Byte) (dirty poison : Bool)
  | memoryData (l : Line) (upset : Fin 3)
  | gnts (l : Line) (agent : Fin 96) (data : List Byte) (poison : Bool)
  | gnte (l : Line) (agent : Fin 96) (data : List Byte) (poison : Bool)
  | gntm (l : Line) (agent : Fin 96) (data : List Byte) (poison : Bool)
  | gntma (l : Line) (agent : Fin 96)
  | cmpd (l : Line) (r : Requester) (data : List Byte) (poison : Bool)
  | cmpput (l : Line) (agent : Fin 96)
  | retry (l : Line) (agent : Fin 96) (token : Fin 8192)
  | memrd (addr : Nat) (m : Meta)
  | memrddata (addr : Nat) (m : Meta)
  | meminv (addr : Nat) (m : Meta)
  | meminvnt (addr : Nat) (m : Meta)
  | memwr (addr : Nat) (m : Meta) (data : List Byte) (poison : Bool)
  | memwrptl (addr : Nat) (mask : BitVec 64) (data : List Byte) (poison : Bool)
  | memspecrd (addr : Nat)
  | birsp (l : Line) (st : LState)
  | birspTimeout (l : Line)
  | hostSnpdata (addr : Nat)
  | hostSnpinv (addr : Nat)
  | hostSnpcur (addr : Nat)
  | hostCacheResponse (l : Line) (granted : LState) (data : List Byte) (poison : Bool)
  | dirLookup (o : Origin) (n : Fin 2) (hostMem : Bool) (line : BitVec 58)
  | coreWritebackTimeout
  | recallTimeout (n : Fin 2)
  -- HBM, the system cache and the geyser engines (R307 to R339)
  | hbmScrubRead (n : Fin 2) (line : Nat) (upset : Fin 3)
  | refresh (pc : Fin 768)
  | stackTemperatureRead (temps : List Nat)
  | pseudoChannelPowerDown (pc : Fin 768)
  | pseudoChannelFailed (pc : Fin 768)
  | hbmPolicyWrite (o : Origin) (policy : Bool)
  | partitionRefill (n : Fin 2)
  | scPreload (o : Origin) (n : Fin 2) (ways : BitVec 16)
  | preloadDone (n : Fin 2)
  | scLock (o : Origin) (n : Fin 2) (ways : BitVec 16)
  | wayOffReq (o : Origin) (n : Fin 2) (way : Fin 16)
  | wayOnReq (o : Origin) (n : Fin 2) (way : Fin 16)
  | wayGateClose (n : Fin 2) (way : Fin 16)
  | wayReenable (o : Origin) (n : Fin 2) (way : Fin 16)
  | fill (o : Origin)
  | crc (o : Origin)
  | geyserComplete
  | geyDone (o : Origin)
  | readCheck (o : Origin) (n : Fin 2) (pc : Fin 1024)
  | writeCheck (o : Origin) (n : Fin 2) (pc : Fin 1024) (pattern : Fin 8)
  | geyTestDone (n : Fin 2) (errors : CheckErrors) (row : BitVec 14) (bank : BitVec 6) (col : BitVec 10)
  -- The host port (R340 to R369)
  | perstAssert
  | perstDeassert
  | hotReset
  | hostDownTimeout
  | linkRetrain (errors : BitVec 16)
  | configRequest (f : Fin 65) (reg : Fin 1024) (data : Option (BitVec 32))
  | functionLevelReset (f : Fin 65)
  | atsInvalidation (f : Fin 65) (pasid : BitVec 20) (page : PageRange)
  | mctpMessage (msg : List Byte)
  | ringDbSq (o : Origin) (ring : Fin 1024) (tail : BitVec 16)
  | ringDbCq (o : Origin) (ring : Fin 1024) (head : BitVec 16)
  | descriptorFetch (ring : Fin 1024) (a : HostAnswer)
  | nop (ring : Fin 1024) (slot : Fin 65536)
  | inline (ring : Fin 1024) (slot : Fin 65536)
  | moveClass (ring : Fin 1024) (slot : Fin 65536)
  | exec (ring : Fin 1024) (slot : Fin 65536)
  | tier (ring : Fin 1024) (slot : Fin 65536)
  | land (ring : Fin 1024) (slot : Fin 65536)
  | ringEnable (o : Origin) (ring : Fin 1024)
  | ringDrain (o : Origin) (ring : Fin 1024)
  | msixHoldoffExpiry (ring : Fin 1024)
  | hostEvtRearm (o : Origin) (source : Fin 549)
  -- Die-to-die links and the Cocoon site (R370 to R391)
  | d2dTransfer (link : Fin 15) (dir : Bool) (bundle : Fin 100) (found : Fin 3)
  | budget (die : Fin 7) (epoch : BitVec 16) (limit : BitVec 16) (slew : BitVec 16)
  | budgetAck (die : Fin 7) (epoch : BitVec 16) (draw : BitVec 16)
  | bringup (o : Origin) (discovery : List Byte)
  | siteRailRemoval
  | accept (epoch : BitVec 16)
  | request (limit : BitVec 16)
  | offerTimeout
  | graceExpiry
  | cocoonLinkDownTimeout
  | cocoonWindowAccess (o : Origin) (addr size : Nat) (data : Option (List Byte)) (answer : Option (List Byte))
  | windowAnswerTimeout (o : Origin) (addr : Nat) (write : Bool)
  | cocoonPut (cluster : Bool) (addr : Nat) (data : List Byte) (lcnt : Option (Fin 256)) (lclu : Nat)
  | cocoonGet (cluster : Bool) (addr : Nat) (len : Fin 257)
  -- The Obneurn Link and the management chain (R392 to R414)
  | hdr (k : ObLink) (h : ObHdr)
  | data (k : ObLink) (payload : List Byte)
  | getFrame (k : ObLink) (h : ObHdr) (desc : List Word)
  | replyEngineStart (n : Fin 2)
  | ack (k : ObLink) (a : ObAck)
  | nack (k : ObLink) (a : ObAck)
  | ctl (port : Fin 16) (crcOk : Bool) (b : ObCtl)
  | ident (port : Fin 16) (crcOk : Bool) (addr : BitVec 16) (epoch : BitVec 16) (partnerPort : BitVec 4)
  | frameSend (port : Fin 16) (cls : Fin 3) (vc : Bool)
  | ctlPeriod (port : Fin 16)
  | replayTimeout (port : Fin 16)
  | recoveryTimeout (port : Fin 16)
  | trainingRetry (port : Fin 16)
  | quietEnd
  | assign (h : ChainHdr) (n : BitVec 16)
  | telemetry (h : ChainHdr)
  | identify (h : ChainHdr) (on : Bool)
  | reset (h : ChainHdr) (which : Byte)
  | mctp (h : ChainHdr) (packet : List Byte)
  -- Power, heat and ageing (R415 to R437)
  | pmbusPoll (r : PmbusIn)
  | capInterval
  | pwrCapWrite (o : Origin) (watts : BitVec 13) (windowS : BitVec 5)
  | supplyStep (d : Fin 4)
  | holdDutyStep (d : Fin 4) (up : Bool)
  | droop (r : DroopRail) (beyondLimit : Bool)
  | droopRecovery (r : DroopRail)
  | tjRead (tj : List Nat)
  | coolantRead (inlet outlet : Nat)
  | sensorFail
  | ageingMeasurement (rs : List AgeReading)
  | ageingHistoryWrite
  -- Resets, error reporting and self-test (R438 to R460)
  | clusterReset (o : Origin) (c : Fin 512)
  | matrixDieReset (o : Origin) (d : Fin 4)
  | hubDieReset (o : Origin) (n : Fin 2)
  | coreDieReset (o : Origin)
  | packageReset (o : Origin)
  | resetComplete (domain : Fin 5) (target : Fin 512) (t : ResetIn)
  | hawkmothWatchdog
  | clusterResetTimeout (c : Fin 512)
  | controllerTimeout (n : Fin 2)
  | configScrub (corrected : List (Fin 512)) (uncorrectable : List (Fin 512))
  | pop (o : Origin)
  | ueAck (o : Origin)
  | restore (o : Origin)
  | heldRelease (o : Origin) (c : Fin 512)
  | logicTest (o : Origin) (kind : Fin 4) (target : Fin 1024)
  | memoryTest (o : Origin) (kind : Fin 4) (target : Fin 1024)
  | logicAndMemoryTest (o : Origin) (kind : Fin 4) (target : Fin 1024)
  | bistDone (logic : Option LogicFinding) (mem : Option MemFinding)
  | bistRotation (d : Fin 4)
  | bistOverdue (c : Fin 512)
  -- Trust, identity and attestation (R461 to R479)
  | installPlanKey (o : Origin)
  | revokePlanKey (o : Origin)
  | raisePlanCounter (o : Origin)
  | debugUnlock (o : Origin)
  | setOwnerKey (o : Origin)
  | attest (o : Origin)
  | commitFw (o : Origin)
  | wipe (o : Origin)
  | wipeDone
  -- Events the table gives last
  | loadComplete (slot : Fin 16)
  | enableHigh (t : ResetIn)
  | lossOfSignal (port : Fin 16)
  | debugHalt (h : Fin 96)
  | hostLinkUp (l : LinkIn)
  | biconflict (l : Line)
  | cocoonLinkDown
  | cocoonLinkRetrain
  deriving DecidableEq, Repr, Inhabited

end Sys2Proof
end

