-- ==== Sys2Proof/Decode.lean ====
section
/-! DEFINITION. Decode.lean: the commands that words spell by the bits of spec/opcode_table.json. The table gives no row
any bits: a command reaches the part as a register access, a message or an event, never as a word of an instruction
stream, so no word spells a command. -/

namespace Sys2Proof

/-- No row of the table gives bits, so no word spells a command. -/
def decodeTableWord (_nbits _w : Nat) : Option Instr := none

end Sys2Proof
end

