-- ==== Sys2Proof/Config.lean ====
section
/-! DEFINITION. Config.lean: what an implementation fixes and the spec leaves open: free values, opaque constants with
no body, applied to what they depend on. Nothing can be proved of the value of any of them. -/

namespace Sys2Proof.Config

/-- Which of the candidates within the error bound of R74 (1 ulp, 2 ulp) a reciprocal, reciprocal square root, base-2
exponential or logarithm returns: the vector operation and the operand bits (log entry 10). -/
opaque ulpPick : Nat → Nat → Nat

/-- The result of a vector operation for operands for which the spec states none (RCP of 0, RSQ and LOG2 of a negative
number and of 0, a comparison with a predicate code above 2): operation and operand bits (log entry 11). -/
opaque vecOpen : Nat → Nat → Nat → Nat

/-- The lane a CMP writes where its predicate holds, of which R130 says only that SEL takes it as not 0 (log entry
11). -/
opaque cmpTrue : Nat

/-- The anchor of a long partial whose VALUE is not 0 and whose ANCHOR is 0x8000, unanchored (R102; log entry 167): by
its image. -/
opaque unanchored : Nat → Nat

/-- The seed the Hawkmoth derives its keys from, by purpose: the key material a derivation returns (log entry 12). -/
opaque derive : Nat → Nat → Nat

/-- Which of a set's candidate ways the pseudo-LRU of R321 replaces: the set and the use stamp (log entry 18). -/
opaque scVictim : Nat → Nat → Nat

/-- The bytes of the PRBS-31 pattern of R331: seed and offset from the range's start. The spec names the sequence and its
order, not how its bits fill bytes (log entry 23). -/
opaque prbsByte : Nat → Nat → Nat

/-- What a configuration dword that nothing has written reads as: function and dword (R341; log entry 39). The spec gives
only the IDs, the class code and the BAR sizes. -/
opaque configDword : Nat → Nat → Nat

/-- The limit of the first power offer of a bring-up, which R386 only bounds by MAX_W: the epoch before it (log entry
44). -/
opaque firstOffer : Nat → Nat

/-- The current-slew limit of a BUDGET message, by die and epoch, which R377 gives no value (log entry 194). -/
opaque budgetSlew : Nat → Nat → Nat

/-- A die's measured beat rate within the tolerance of R155: die, supply in mV, Tj in °C and microsecond, as hundredths
of a percent above the lowest rate R155 allows (log entry 45). -/
opaque beatRate : Nat → Nat → Nat → Nat → Nat

/-- The expected signature of a BIST target for stepping B0, which the firmware holds (R453): kind and target (log entry
54). -/
opaque bistExpect : Nat → Nat → Nat

/-- The length and the SVN that a firmware image's header gives, whose layout the spec does not give (R463): the number
its first 64 bytes make (log entry 55). -/
opaque fwLength : Nat → Nat
opaque fwSvn : Nat → Nat

/-- The two Plovton firmware public keys of the boot ROM (R463), each as a 256-bit number (log entry 56). -/
opaque romKey : Nat → Nat

/-- Plovton's PCI-SIG vendor ID, which every function reads and the spec does not give (R344; log entry 62). -/
opaque pciVendor : Nat

/-- An entry of the CDAT that the DOE mailbox returns, whose contents the spec does not give: the next handle, and the dwords, by
handle (R340; log entry 189). -/
opaque cdatEntry : Nat → Nat × List Nat

/-- The size of the translation that the host gives for a page, as a power of two of pages of 4 KiB, modulo 19: function, PASID and
page (R349; log entry 190). -/
opaque atsOrder : Nat → Nat → Nat → Nat

/-- What the ECC of the system cache finds in a line that is looked up or written back (R328): the line and the use stamp;
modulo 3, 0 nothing, 1 a corrected error, 2 an uncorrectable one (log entry 181). -/
opaque scUpset : Nat → Nat → Nat

/-- Which of a full L2 set's lines a core replaces: the core and the time (R245; log entry 177). -/
opaque l2Victim : Nat → Nat → Nat

/-- Where in what R244 allows the Hawkmoth puts a core group's frequency: group and time (log entry 178). -/
opaque coreFreq : Nat → Nat → Nat

/-- The reset vector that the Hawkmoth writes before it releases a hart (R242): by hart (log entry 57). -/
opaque resetVector : Nat → Nat

/-- The bytes of a TELEMETRY answer, of which R408 names the contents and not the layout: the contents as numbers, and
the byte's offset (log entry 58). -/
opaque telemetryByte : List Nat → Nat → Nat

/-- The MCTP packet with which the Hawkmoth answers one (R408): the packet, and the byte's offset; the length by the
packet (log entry 59). -/
opaque mctpLength : List Nat → Nat
opaque mctpByte : List Nat → Nat → Nat

/-- What an MCTP message asks of the Hawkmoth, whose coding the spec does not give (R35, R39): the offset in the staging
region and the bytes of a firmware piece it carries, if it carries one, and whether it sets or clears IDENTIFY, if it does
either: by the message's bytes (log entry 155). -/
opaque mctpFirmware : List Nat → Option (Nat × List Nat)
opaque mctpIdentify : List Nat → Option Bool

/-- What the Hawkmoth's entropy source gives (R239, R412, R470), 256 bits a draw: the number of the draw (log entry
60). -/
opaque entropy : Nat → Nat

/-- Plovton's JEDEC-assigned vendor value, which mvendorid reads and the spec does not give (R242; log entry 62). -/
opaque vendorId : Nat

end Sys2Proof.Config
end

