-- ==== Sys2Proof/Machine/SMap.lean ====
section
/-! DEFINITION. Machine/SMap.lean: reading and writing sparse tables and byte memories in their canonical form: keys
strictly rising, no entry equal to what an unlisted key reads as. Bit-field helpers. -/

namespace Sys2Proof.Machine

/-- The value at a key, `d` where the key is not listed. -/
def getK {α : Type} (d : α) : SMap α → Nat → α
  | [], _ => d
  | (k, v) :: m, x => if k = x then v else getK d m x

/-- Remove a key. -/
def eraseK {α : Type} : SMap α → Nat → SMap α
  | [], _ => []
  | (k, v) :: m, x => if k = x then eraseK m x else (k, v) :: eraseK m x

/-- Put a value at a key, keeping the keys rising. -/
def insK {α : Type} : SMap α → Nat → α → SMap α
  | [], x, v => [(x, v)]
  | (k, w) :: m, x, v =>
    if x < k then (x, v) :: (k, w) :: m
    else if k = x then (x, v) :: m
    else (k, w) :: insK m x v

/-- Write a value at a key: writing the default removes the entry. -/
def setK {α : Type} [DecidableEq α] (d : α) (m : SMap α) (x : Nat) (v : α) : SMap α :=
  if v = d then eraseK m x else insK m x v

/-- Remove every key of a range [lo, hi). -/
def dropRange {α : Type} (m : SMap α) (lo hi : Nat) : SMap α :=
  m.filter fun e => e.1 < lo ∨ hi ≤ e.1

/-- Keys strictly rising, from a lower bound on. -/
def risingFrom {α : Type} : Nat → SMap α → Bool
  | _, [] => true
  | b, (k, _) :: m => decide (b ≤ k) && risingFrom (k + 1) m

/-- The canonical form of a table whose unlisted keys read as `d`. -/
def canonK {α : Type} [DecidableEq α] (d : α) (m : SMap α) : Bool :=
  risingFrom 0 m && m.all fun e => decide (e.2 ≠ d)

/-- What a byte of memory that nothing has written reads as: zero (DESIGN CHOICE, log entry 5). -/
def blankByte : Byte := 0

/-- One byte of a byte memory. -/
def memGet (m : List (Nat × Byte)) (a : Nat) : Byte := getK blankByte m a

/-- `n` bytes of a byte memory, from an address on. -/
def memRead (m : List (Nat × Byte)) (a : Nat) : Nat → List Byte
  | 0 => []
  | n + 1 => memGet m a :: memRead m (a + 1) n

/-- Write one byte. -/
def memSet (m : List (Nat × Byte)) (a : Nat) (b : Byte) : List (Nat × Byte) := setK blankByte m a b

/-- Write bytes to consecutive addresses. -/
def memWrite (m : List (Nat × Byte)) (a : Nat) : List Byte → List (Nat × Byte)
  | [] => m
  | b :: bs => memWrite (memSet m a b) (a + 1) bs

/-- Erase a range of bytes to zero. -/
def memErase (m : List (Nat × Byte)) (lo hi : Nat) : List (Nat × Byte) := dropRange m lo hi

/-- The canonical form of a byte memory. -/
def Memory.wf (m : List (Nat × Byte)) : Bool := canonK blankByte m

/-- Bits [lo + w - 1 : lo] of a number. -/
def bits (x lo w : Nat) : Nat := (x >>> lo) % 2 ^ w

/-- Bit `i` of a number. -/
def bit (x i : Nat) : Bool := (x >>> i) % 2 == 1

/-- A number with bit `i` set to `b`. -/
def setBit (x i : Nat) (b : Bool) : Nat :=
  if bit x i = b then x else if b then x + 2 ^ i else x - 2 ^ i

/-- A `w`-bit field read as two's complement. -/
def sext (x w : Nat) : Int := if bit x (w - 1) then (x : Int) - (2 ^ w : Nat) else (x : Int)

/-- The low `w` bits of an integer. -/
def wrap (x : Int) (w : Nat) : Nat := (x % ((2 ^ w : Nat) : Int)).toNat

/-- Addition of counters that saturate at the largest value of `w` bits. -/
def satAdd (x y w : Nat) : Nat := min (x + y) (2 ^ w - 1)

/-- Ceiling division. -/
def cdiv (a b : Nat) : Nat := (a + b - 1) / b

/-- The number of bits set among the low `n` bits. -/
def popBits (x : Nat) : Nat → Nat
  | 0 => 0
  | n + 1 => (if bit x n then 1 else 0) + popBits x n

/-- Update the element of a list at a position. -/
def modAt {α : Type} (l : List α) (i : Nat) (f : α → α) : List α := l.modify i f

/-- A Bool as a bit. -/
def b2n (b : Bool) : Nat := if b then 1 else 0

end Sys2Proof.Machine
end

