-- ==== Sys2Proof/Machine/State.lean ====
section
/-! DEFINITION. Machine/State.lean: everything the spec gives the part, as plain data: the registers by field, the
memories, and what each unit holds beside its registers; the state after reset. -/

namespace Sys2Proof.Machine

/-- The reasons a command stops the part. The spec stops the part on no command: every access it forbids is answered
(all ones, a dropped write, a status), so the type has no constructor. -/
inductive Fault where
  deriving DecidableEq, Repr

/-- The reasons a command has no meaning here. -/
inductive Refusal where
  /-- Raised by exec's arm of a command that has no meaning yet, with its mnemonic. Safe: the model stops. -/
  | notModelled (mnemonic : String)
  deriving DecidableEq, Repr

/-- The answer the part gave to the last bus access (R9 to R13): the bytes read, whether the request completed as an
unsupported one, and whether the data are poisoned. -/
structure Resp where
  data : List Byte
  ur : Bool
  poison : Bool
  deriving DecidableEq, Repr

/-- One record of the RAS event queue (R439). -/
structure RasRec where
  status : Nat
  block : Nat
  uncorr : Bool
  logged : Bool
  unit : Nat
  time : Nat
  loc : Nat
  detail : Nat
  deriving DecidableEq, Repr

/-! ## Arithmetic and clusters (chapters 2 to 6) -/

/-- The mode of a caldera (R83). -/
inductive CalMode where
  | fixed | scaled | float
  deriving DecidableEq, Repr

/-- One caldera accumulator (R44, R84): the value V, the anchor (−32768 marks it unanchored), the sticky count, the
flags and the mode; whether an addition has saturated V (R87); for SCALED mode the largest combined scale exponent seen (R88) and the smallest
over nonzero blocks (CAL_SPREAD). -/
structure Cal where
  v : Int
  anchor : Int
  sticky : Nat
  nan : Bool
  pinf : Bool
  ninf : Bool
  ovf : Bool
  cap : Bool
  mode : CalMode
  cmax : Option Int
  nzMin : Option Int
  sat : Bool
  deriving DecidableEq, Repr

/-- The +0 of R73: no value, unanchored, no flag. -/
def Cal.zero : Cal := ⟨0, -32768, 0, false, false, false, false, false, .fixed, none, none, false⟩

/-- One set of 16 calderas (R44): its product count (R84), how many of its drain handshakes have not been written yet,
and whether a patch holds it. -/
structure CalSet where
  cals : List Cal
  count : Nat
  out : Nat
  busy : Bool
  deriving DecidableEq, Repr

/-- A set that holds +0 (R73). -/
def CalSet.zero : CalSet := ⟨List.replicate 16 Cal.zero, 0, 0, false⟩

/-- A block on an A or B link (R45): its bytes and, when its feeder sends scales, the four scale bytes of its K
block. -/
structure Block where
  bytes : List Byte
  scales : Option (List Byte)
  deriving DecidableEq, Repr

/-- A drain handshake (R51): the cell and caldera set it comes from, the bytes it writes, each with its scratchpad
offset and the mask of the bits that are its outputs', and the PM tiles its patch claims (R161). -/
structure Handshake where
  row : Nat
  col : Nat
  set1 : Bool
  puts : List (Nat × Byte × Byte)
  tiles : List Nat
  last : Bool
  deriving DecidableEq, Repr

/-- Where a cell stands in its operation sequence (R121, R123). -/
inductive CellPhase where
  | idle | atOp | inOp | ended
  deriving DecidableEq, Repr

/-- One cell: its elastic queues (R47), its caldera sets (R44), its place in the operation sequence, the patch and how
many cubes or partials of it are taken, the preload
terms not yet added (R94: value, exponent, whether a long partial), its own finished handshakes and those arriving from the north (R52). -/
structure Cell where
  aq : List Block
  bq : List Block
  set0 : CalSet
  set1 : CalSet
  cur : Bool
  phase : CellPhase
  op : Nat
  patch : Nat
  k : Nat
  opened : Bool
  pre : List (Int × Int × Bool)
  own : List Handshake
  north : List Handshake
  northTurn : Bool
  cubes : Nat
  deriving DecidableEq, Repr

/-- A cell at rest, both sets +0. Its drain link takes a handshake from the north first (DESIGN CHOICE, log entry 163). -/
def Cell.rest : Cell :=
  ⟨[], [], .zero, .zero, false, .idle, 0, 0, 0, false, [], [], [], true, 0⟩

/-- Who holds a claim on a PM tile (R161): a cell, by row, column and caldera set, or the vector unit. -/
inductive Claimant where
  | cell (row col : Nat) (set1 : Bool)
  | vector
  deriving DecidableEq, Repr

/-- The configuration of one cluster as a plan gives it (R119), the words as the image holds them: the slot, the plan
cluster header, the operation words, the feeder sets, the cell words, the steps, the vector program, and the remap of
retired cells to spares (R144). -/
structure CluCfg where
  slot : Nat
  stage : Nat
  rows : Nat
  cols : Nat
  banks : Nat
  lndExt : Nat
  ops : List Nat
  feed : List (List Nat)
  cells : List Nat
  steps : List Nat
  vec : List Nat
  spareUsed : Nat
  deriving DecidableEq, Repr

/-- A RUN in progress (R128): its feeder set and sequence offset, whether the release tree has admitted it (R158), the
die's beat at the request, how many blocks each feeder has issued (rows 0 to 19, then columns as 20 + column), and the die's
beat at its start (R157), and where its step stands (R196). -/
structure RunSt where
  fset : Nat
  seqOff : Nat
  admitted : Bool
  asked : Nat
  issued : SMap Nat
  start : Nat
  place : Nat
  deriving DecidableEq, Repr

/-- Who issued a move (MOV_STATE.SRC): a MOVE step, a migration entry, or the host through a descriptor of a ring. -/
inductive MoveSrc where
  | step
  | migrate (entry : Nat)
  | host (ring slot : Nat)
  deriving DecidableEq, Repr

/-- What a move's OBJECT source resolved to (R231), and the object's length at that moment. -/
inductive ObjLoc where
  | t1 (entry addr len : Nat)
  | t2 (entry addr pasid : Nat) (pv : Bool) (len : Nat)
  deriving DecidableEq, Repr

/-- A move of a mover (R176, R182): the descriptor's quadwords after translation, the issuer, the base of the window of a GX3 plan, the offset in an OBJECT source, the resolved object,
whether the check of R181 has passed, the units dealt with (R186), the bytes landed, those of each row,
the bytes of units that could not land
(R63), and the error met if any; where its cluster stood when its mover took it (R196); the microsecond of its last answer
(R185); the units that the hub has read ahead (R194); and of a put to another module the bytes that wait for the link and
those of each run on it that no answer covers yet (R183, R399). -/
structure Move where
  desc : List Nat
  src : MoveSrc
  func : Nat
  window : Option Nat
  objOff : Nat
  obj : Option ObjLoc
  begun : Bool
  units : SMap Bool
  landed : Nat
  rows : SMap Nat
  lost : Nat
  err : Option Nat
  place : Nat
  since : Nat
  ahead : SMap (List Byte)
  queued : Nat
  flight : List Nat
  deriving DecidableEq, Repr

/-- A move the host queued (R182), with the ring descriptor it came in. -/
structure HostMove where
  desc : List Nat
  func : Nat
  ring : Nat
  slot : Nat
  deriving DecidableEq, Repr

/-- One tensor mover (R75). -/
structure Mover where
  cur : Option Move
  hostq : List HostMove
  deriving DecidableEq, Repr

/-- A mover with nothing to do. -/
def Mover.free : Mover := ⟨none, []⟩

/-- What the vector unit still has to write of an STT (R161): the tile, the byte offset of the write and the bytes. -/
structure VecStore where
  tile : Nat
  off : Nat
  bytes : List Byte
  deriving DecidableEq, Repr

/-- One cluster: its slot, configurations and pass; its step list, RUN and waits; its drain ports and claims; its vector unit
and movers; its migration entries; and by bank its requests and their turns (key: bank × 2 the mover served last, bank × 2 + 1
the last of feeder 0 and drain port 1, R53, R61), rows to write back and scrubbed; by feeder the beats, of the last 64, in which
it issued (R423). -/
structure Clu where
  owner : Option Nat
  act : Option CluCfg
  shadow : Option CluCfg
  inPass : Bool
  pass : Nat
  begun : Nat
  done : Nat
  pc : Nat
  passStart : Nat
  waitFrom : Option Nat
  late : Bool
  lastProgress : Nat
  run : Option RunSt
  portq : SMap (List Handshake)
  claims : List (Nat × Claimant)
  vact : Bool
  vplace : Nat
  vpc : Nat
  vregs : SMap Nat
  areg : SMap Nat
  lreg : SMap Nat
  vst : Option VecStore
  mov0 : Mover
  mov1 : Mover
  migSeen : List Nat
  migReady : List Nat
  cntAdv : SMap Nat
  bankq : SMap (List BankReq)
  turns : SMap Nat
  rowOut : Option (BankUser × Nat × List Byte × Bool)
  fixq : List (Nat × Nat)
  scrubbed : SMap Bool
  offInPass : Nat
  scrubPeriod : Nat
  halting : Bool
  bist : Bool
  adds : List (Nat × Nat)
  fed : SMap (List Nat)
  deriving DecidableEq, Repr

/-- A cluster after reset: owned by no slot, no plan, nothing in progress. -/
def Clu.rest : Clu :=
  { owner := none, act := none, shadow := none, inPass := false, pass := 0, begun := 0, done := 0, pc := 0,
    passStart := 0, waitFrom := none, late := false, lastProgress := 0, run := none, portq := [], claims := [],
    vact := false, vplace := 0, vpc := 0, vregs := [], areg := [], lreg := [], vst := none, mov0 := .free, mov1 := .free,
    migSeen := [], migReady := [], cntAdv := [], bankq := [], turns := [], rowOut := none, fixq := [],
    scrubbed := [], offInPass := 0, scrubPeriod := 10, halting := false, bist := false, adds := [], fed := [] }

/-- A preload record after placement (R136): the physical cluster, the destination, the bytes when they come from the
image, else the object and the offset in it. -/
structure Preload where
  cluster : Nat
  dest : Nat
  len : Nat
  bytes : Option (List Byte)
  handle : Nat
  srcOff : Nat
  deriving DecidableEq, Repr

/-- What a loaded plan fixes beside its clusters' configuration: stages, MOVE templates after translation (R131),
deadlines (R132), fumarole records (R134), migration records (R133), preloads (R136), the objects it references
(R137), the clusters placed with their configuration, and the window base of a GX3 plan (R146). -/
structure PlanCfg where
  templates : List (List Nat)
  deadlines : List Nat
  fum : List Nat
  mig : List Nat
  preloads : List Preload
  objs : List Nat
  clus : List (Nat × CluCfg)
  window : Option Nat
  deriving DecidableEq, Repr

/-- A load in progress (R138): whether it is a LOAD_STANDBY, and the image once the bytes have been read and the clusters
claimed (orders 1 and 2). -/
structure Loading where
  standby : Bool
  image : Option (List Byte)
  deriving DecidableEq, Repr

/-- One plan slot (R141): the configuration it holds, the load in progress, the predecessor of a standby load, the slot
of the other side of a molt in progress and its first grant (R150), the clusters whose plan a reset makes the Hawkmoth
apply again (R143), and whether a STANDBY slot's predecessor has been unloaded (R142). -/
structure Slot where
  cfg : Option PlanCfg
  load : Option Loading
  pred : Option Nat
  molt : Option Nat
  firstGrant : Nat
  reapply : List Nat
  takeover : Bool
  deriving DecidableEq, Repr

/-- An empty slot. -/
def Slot.empty : Slot := ⟨none, none, none, none, 0, [], false⟩

/-! ## Error reporting and interrupts (chapters 8 and 15) -/

/-- The RAS event queue of 1,024 records, the event log in the flash, and when a corrected error of a block was last
logged, and whether an uncorrected error is logged since the last acknowledgement (R40, R439). -/
structure Ras where
  queue : List RasRec
  log : List RasRec
  corrAt : SMap Nat
  ueOpen : Bool
  deriving DecidableEq, Repr

/-- The interrupt controllers (R265): the APLIC domains' registers by byte offset (the S-level domain from 0x10000 on),
and the IMSIC files' registers, 4096 keys a file; and the MSI-X messages that are pending, by function and vector (R358). -/
structure Irq where
  aplic : SMap Nat
  imsic : SMap Nat
  msix : List (Nat × Nat)
  deriving DecidableEq, Repr


/-! ## Coherence (chapter 9) -/

/-- The state of a line in a caching agent (R276, R288), stable and transient. -/
inductive CState where
  | i | s | e | o | m | isD | imD | smA | omA | imA | miA | oiA | eiA | siA | iiA
  deriving DecidableEq, Repr

/-- The four snoops (R279). -/
inductive SnpKind where
  | snpS | snpX | snpInv | snpCur
  deriving DecidableEq, Repr

/-- The access of a core that waits for a line (R289, R290): the core's own kind of access, its address, size,
register and value. -/
inductive Access where
  | load (rd addr size : Nat) (signed : Bool)
  | store (addr : Nat) (bytes : List Byte)
  | amo (op : AmoOp) (rd addr size : Nat) (rs cmp : Nat)
  | lr (rd addr size : Nat)
  | sc (rd addr size rs : Nat)
  deriving DecidableEq, Repr

/-- A line in a caching agent: its state, bytes, poison, the snoop it holds (R289), the access that missed, and the
starvation token it was given (R297). -/
structure CLine where
  st : CState
  data : List Byte
  poison : Bool
  held : Option SnpKind
  miss : Option Access
  token : Option Nat
  deriving DecidableEq, Repr

/-- No copy. -/
def CLine.none : CLine := ⟨.i, [], false, Option.none, Option.none, Option.none⟩

/-- A directory entry (R278, R295): whether its owner is in O, the owner, up to three sharers, in group mode one bit
for each core group and bit 12 for the host, and its way and last use. -/
structure DirEnt where
  ownedO : Bool
  owner : Option Nat
  sharers : List Nat
  group : Option Nat
  way : Nat
  used : Nat
  deriving DecidableEq, Repr

/-- What a request asks (R279), and a snoop of the host that waits for its line (R303). -/
inductive ReqKind where
  | rds | rdx | upg | puts | pute
  | putm (data : List Byte) (poison : Bool)
  | rdcur
  | wrfull (data : List Byte) (poison : Bool)
  | wrpart (mask : Nat) (data : List Byte) (poison : Bool)
  | atomf (op : AmoOp) (off size operand compare : Nat)
  | addm (off efmt : Nat) (elements : List Byte)
  | hostSnp (kind : SnpKind)
  deriving DecidableEq, Repr

/-- A request at a home: what, from whom, with its token, and the host's `keepS`: its MemWr keeps a shared copy, its MemInv is
answered with no data (R301). -/
structure Req where
  kind : ReqKind
  agent : Option Nat
  stream : Nat
  token : Option Nat
  keepS : Bool
  deriving DecidableEq, Repr

/-- Why a home runs a transaction: a request; a victim of R296; the broadcast of R299; the recall of R304; a snoop of
the host for a host-memory line (R303); an engine's own access that meets a copy in the host (R302); the answers to a read whose requester is lost (R304). -/
inductive TxnWhy where
  | request | victim | recover | recall
  | hostSnp (k : SnpKind)
  | engine
  | dropped
  deriving DecidableEq, Repr

/-- An open transaction of a line (R287): its request, or none for a back-invalidated victim, a recall or a recovery
broadcast; the agents still to answer; the agents whose Put is awaited and those whose Put was taken as their
write-back (R285); whether memory is awaited, the data it gave, and the way the system cache chose for it (R326); the
data an answer gave, with its dirty and poison marks; what each answering agent kept; for a victim the request that
waits for its way; whether it grants on the copy held (R284), whether the host's answer is awaited (R303), why it runs,
and when its last snoops were sent, in µs (R302). -/
structure Txn where
  req : Option Req
  waiting : List Nat
  puts : List Nat
  crossed : List Nat
  needMem : Bool
  mem : Option (List Byte × Bool)
  scWay : Option Nat
  ans : Option (List Byte × Bool × Bool)
  kept : List (Nat × LState)
  forLine : Option (Nat × Req)
  upg : Bool
  asked : Bool
  why : TxnWhy
  sentAt : Nat
  deriving DecidableEq, Repr

/-- A starvation token (R297): its slot, the line of its request, the way reserved for it, when it was issued. -/
structure Tok where
  token : Nat
  line : Nat
  way : Option Nat
  at_ : Nat
  deriving DecidableEq, Repr

/-- A message in flight (R279). -/
inductive Msg where
  | req (line : Nat) (r : Req)
  | snp (line : Nat) (k : SnpKind) (agent : Nat)
  | rsp (line agent : Nat) (st : LState) (wb : Bool)
  | rspd (line agent : Nat) (st : LState) (data : List Byte) (dirty poison : Bool)
  | gnt (line agent : Nat) (st : LState) (data : List Byte) (poison : Bool)
  | gntma (line agent : Nat)
  | cmpd (line stream : Nat) (data : List Byte) (poison : Bool)
  | cmp (line stream : Nat)
  | cmpput (line agent : Nat)
  | retry (line agent token : Nat)
  | bisnp (line : Nat) (k : SnpKind)
  | toHost (line : Nat) (what : String)
  deriving DecidableEq, Repr

/-- The coherent domain: the agents' lines (key: line key × 128 + agent), the directories by line, open transactions
and request queues by line, each set's token queue (R297; key: hub × 2^18 + set) and the token slots in use (key: hub ×
8192 + slot), the messages in flight, what HD0 holds of host lines: 1 shared, 2 exclusive (R303), lines whose holder in
the host has just answered a snoop for an engine (R302), the core (plus one) whose far AMO was the last request to touch a
line (R257), and the next use stamp. -/
structure Coh where
  caches : SMap CLine
  dir : SMap DirEnt
  txns : SMap Txn
  lineq : SMap (List Req)
  tokq : SMap (List Tok)
  tokUsed : SMap Bool
  net : List Msg
  hostGrant : SMap Nat
  fresh : SMap Bool
  far : SMap Nat
  hostBad : SMap Bool
  tick : Nat
  deriving DecidableEq, Repr


/-! ## System cache and HBM (chapter 10) -/

/-- A line of a system cache (R321): its line address, dirty mark, last use, whether a preload placed it
and whether a prefetch brought it and no demand has hit it yet. -/
structure ScLine where
  line : Nat
  dirty : Bool
  used : Nat
  preload : Bool
  pf : Bool
  deriving DecidableEq, Repr

/-- A stride tracker (R325): its stream, the last miss on the stride, the stride and how many misses in a row have kept it, the
miss off the stride that came last, and its last use. -/
structure Tracker where
  stream : Nat
  last : Nat
  stride : Int
  run : Nat
  off : Option Nat
  used : Nat
  deriving DecidableEq, Repr

/-- A geyser command (R331). -/
structure GeyCmd where
  op : Nat
  pattern : Nat
  part : Nat
  tag : Nat
  base : Nat
  length : Nat
  value : Nat
  deriving DecidableEq, Repr

/-- A geyser completion (R333): status, tag and CRC. -/
structure GeyDone where
  status : Nat
  tag : Nat
  crc : Nat
  deriving DecidableEq, Repr

/-- The memory side beside its registers: the system caches' lines (key: hub, set, way), errors of ways by time, add
buffers by controller in LRU order (R319), partition credits and charges by hub and partition (R317), the partition
map (R316), stride trackers, latent HBM errors by line (1 correctable, 2 uncorrectable), pseudo-channels in power-down,
stacks in self-refresh and at doubled refresh (R310), preloads in progress (first line, end, ways with the partition above bit 16), the geyser queue and
its completions (R331, R333), the geyser tests running, the ways that the ageing
history names as disabled (R329; it is in the module flash), the lines that the patrol scrub's pass has read (R312), and
the next use stamp. -/
structure MemSys where
  sc : SMap ScLine
  corrTimes : SMap (List Nat)
  uncorrAt : SMap Nat
  addbuf : SMap (List Nat)
  credit : SMap Int
  charged : SMap Nat
  pmap : SMap Nat
  trackers : SMap (List Tracker)
  err : SMap Nat
  powerDown : SMap Bool
  selfRef : SMap Bool
  fastRef : SMap Bool
  refreshed : SMap Nat
  mapNext : SMap Nat
  turns : SMap Nat
  disabling : SMap Bool
  preload : SMap (Nat × Nat × Nat)
  geyq : List GeyCmd
  geyDone : List GeyDone
  geyTest : SMap (Nat × Nat × Nat)
  testMem : SMap Nat
  wayHist : SMap Bool
  scrubSeen : SMap Bool
  stamp : Nat
  deriving DecidableEq, Repr



/-! ## The core complex (chapter 8) -/

/-- A store-buffer entry (R250): the line address and the bytes stored by offset in it; for an uncached or I/O store its
physical address and bytes as one access; whether it is a store through a mapping with PBMT NC, whether it is a CBO.ZERO
of the line, and whether it has begun to drain. -/
structure SbEnt where
  line : Nat
  bytes : List (Nat × Byte)
  io : Option (Nat × List Byte)
  nc : Bool
  zero : Bool
  begun : Bool
  deriving DecidableEq, Repr

/-- An uncached or far access of a core in progress: the access, the line keys still to come and the bytes so far, each by
its place in the access. -/
structure CorePend where
  acc : Access
  need : List Nat
  got : List (Nat × Byte)
  deriving DecidableEq, Repr

/-- One core (R250 to R272): its power state (0 RUN, 1 WAIT, 2 RETAIN, 3 OFF, 4 held until the Hawkmoth releases it),
the state a WFI is on its way to and whether an interrupt became pending meanwhile (R269), the store buffer, a FENCE
that waits for it, the access that waits for a line or a completion, the reservation of LR (a line key), the contention predictor
(line, counter; most recently used last, R257), the lines of the near AMOs of the last 1,000
cycles and their times, the last trap's cause and
mtval, mncause, mip, mie, the indirect selectors miselect and siselect of the AIA specification, the ticks that the watchdog has counted and whether it has expired once since its last kick (R270), the debug state (1 halting,
2 halted, R253), and the reset vector the Hawkmoth wrote (R242). -/
structure Core where
  power : Nat
  going : Option Nat
  wakeDue : Bool
  buf : List SbEnt
  fenced : Bool
  pend : Option CorePend
  resv : Option Nat
  pred : List (Nat × Nat)
  nearAmo : List (Nat × Nat)
  mcause : Nat
  mtval : Nat
  mncause : Nat
  mip : Nat
  mie : Nat
  msel : Nat
  ssel : Nat
  dog : Nat
  expired : Bool
  debug : Nat
  vector : Nat
  deriving DecidableEq, Repr

/-- A core after reset: held until the Hawkmoth releases it (R242). -/
def Core.held : Core :=
  { power := 4, going := none, wakeDue := false, buf := [], fenced := false, pend := none, resv := none, pred := [],
    nearAmo := [], mcause := 0, mtval := 0, mncause := 0, mip := 0, mie := 0, msel := 0, ssel := 0, dog := 0, expired := false, debug := 0,
    vector := 0 }

/-- The core complex: the cores, their integer registers (key: hart × 32 + register), mtime, the comparators (key: hart
× 4 + 0 mtimecmp, 1 stimecmp, 2 vstimecmp), the performance counters and event selectors (key: hart × 64 + n,
events from 32 on), and the hart's other CSRs of the published specifications (key: hart × 4096 + number; R241). -/
structure Cores where
  core : SMap Core
  xregs : SMap Nat
  mtime : Nat
  cmp : SMap Nat
  hpm : SMap Nat
  csrs : SMap Nat
  deriving DecidableEq, Repr




/-! ## Resets (chapter 15) -/

/-- A repair entry of the replay-protected area (R454): the cluster, or 512 + the core group; the bank, or the core whose
L2 it is; the row; and whether a reset of the target has put it into effect. -/
structure Repair where
  unit : Nat
  bank : Nat
  row : Nat
  used : Bool
  deriving DecidableEq, Repr

/-- What the always-on domain, the Hawkmoth and the flash keep of resets and tests: the resets in progress as (domain,
target), domains numbered as in RAS_RESET; the start times of counted resets of the module and of each cluster (R449);
the repair entries (R454); when each cluster was last tested (in seconds, plus one) and the rotation tests that run, as
(cluster, logic only) (R455); the retired cells (cluster × 1024 + cell number, spares from 640 on: 640 + 4 × band +
spare, R35, R456); a package reset that the Hawkmoth owes, as (source, cause) (R443); the cause of the escalation that a
reset in progress ends in (R449); whether RESTORE leads the package reset in progress (R451); the resets in progress that
a FAILED link caused, as (domain, target) (R375); the core groups kept OFF
(R454); the clusters past PERIOD_H (R455); and when boot last kicked the Hawkmoth watchdog, in µs (R441). -/
structure Rst where
  busy : List (Nat × Nat)
  modTimes : List Nat
  cluTimes : SMap (List Nat)
  repairs : List Repair
  tested : SMap Nat
  rot : List (Nat × Bool)
  retired : SMap Bool
  due : Option (Nat × Nat)
  escalated : Option Nat
  restoring : Bool
  linkResets : List (Nat × Nat)
  groupsOff : List Nat
  overdue : List Nat
  hmKick : Nat
  deriving DecidableEq, Repr



/-! ## The host port (chapter 11) -/

/-- A descriptor of a ring that is fetched and not completed (R352): its submission slot, its bytes, whether it has
begun (R356). -/
structure RingDesc where
  slot : Nat
  bytes : List Byte
  begun : Bool
  deriving DecidableEq, Repr

/-- A work ring beside its registers (R351 to R360): the descriptors in flight in ring order, and whether a
message is due whose holdoff runs, and since when in µs (R358). -/
structure Ring where
  inflight : List RingDesc
  due : Option Nat
  deriving DecidableEq, Repr

/-- A ring after reset. -/
def Ring.idle : Ring := ⟨[], none⟩

/-- A completion record that waits to be written (R357): its ring, the submission slot, status, class, SKIPPED, tag, the
result words, whether its completion is due for a message, and whether a record is written at all (QUIET). -/
structure RingRec where
  ring : Nat
  slot : Nat
  status : Nat
  cls : Nat
  skipped : Bool
  tag : Nat
  q2 : Nat
  q3 : Nat
  irq : Bool
  write : Bool
  deriving DecidableEq, Repr

/-- An entry of the address translation cache (R349): its function and PASID, its first page of 4 KiB, and its pages as a power of
two. -/
structure AtcEnt where
  func : Nat
  pasid : Nat
  page : Nat
  order : Nat
  deriving DecidableEq, Repr

/-- The host port beside its registers: configuration space by function and dword (key: function × 1024 + dword), the
CXL component registers by byte offset, the slots each VF may command (R347), the rings, and the translation cache's
entries (R349), the completion records not yet written, oldest first, whether PERST# is
asserted (R341), the MCTP messages handed to the Hawkmoth (R340), the CBL_PRES# of connectors A and B (R27), the
lanes the link trained to (R28), and the DOE mailbox: the dwords of the object being written, of the answer not yet read, and its
error bit (R340), and when a reset of HD0 took the link down, in µs (R341, R362). -/
structure HostPort where
  cfg : SMap Nat
  comp : SMap Nat
  vfSlots : SMap Nat
  rings : SMap Ring
  atc : List AtcEnt
  compq : List RingRec
  perst : Bool
  mctp : List (List Byte)
  cableA : Bool
  cableB : Bool
  trained : Nat
  doeIn : List Nat
  doeOut : List Nat
  doeBad : Bool
  downAt : Nat
  deriving DecidableEq, Repr


/-! ## The tier manager (chapter 7) -/

/-- Where the result of a tier command goes (R218): TIER_RESULT, the completion record of a ring descriptor, out of the
part for a command given directly by a function, or nowhere (a FETCH of the plan loader, R231). -/
inductive TierReply where
  | regs
  | ring (ring slot : Nat)
  | direct (func : Nat)
  | loader
  deriving DecidableEq, Repr

/-- A tier command record (R218) by its fields. -/
structure TierCmd where
  cmd : Nat
  pin : Bool
  crc : Bool
  verify : Bool
  ctx : Nat
  handle : Nat
  addr : Nat
  length : Nat
  part : Nat
  pasid : Nat
  pv : Bool
  quota : Nat
  bad : Bool
  deriving DecidableEq, Repr

/-- A command that waits on an object (R228): its CMD, its reply, whether it added a pin, and for a FETCH whether it
joined one in progress. -/
structure TierWait where
  cmd : Nat
  reply : TierReply
  pinned : Bool
  joined : Bool
  deriving DecidableEq, Repr

/-- An object-table entry (R226, R227): state, generation, owning context, length, units of its T1 extent and their
address, INTENT (IN), pins, the moves reading T1 and T2, slot references, T2_VALID, the T2 address with its PASID, the
stored checksum, whether the FETCH in progress verifies, the checksum runs in progress (CMD and reply of SEAL, VERIFY, or the
FETCH's), and the commands that wait. -/
structure Obj where
  state : Nat
  gen : Nat
  ctx : Nat
  len : Nat
  units : Nat
  t1 : Nat
  intentIn : Bool
  pins : Nat
  t1refs : Nat
  t2refs : Nat
  slotRefs : Nat
  t2valid : Bool
  t2addr : Nat
  pasid : Nat
  pv : Bool
  crc : Option Nat
  verify : Bool
  sums : List (Nat × TierReply)
  waits : List TierWait
  deriving DecidableEq, Repr

/-- A FREE entry at generation 0. -/
def Obj.free : Obj :=
  { state := 0, gen := 0, ctx := 0, len := 0, units := 0, t1 := 0, intentIn := false, pins := 0, t1refs := 0,
    t2refs := 0, slotRefs := 0, t2valid := false, t2addr := 0, pasid := 0, pv := false, crc := none, verify := false,
    sums := [], waits := [] }

/-- A context record (R215): owning function (0 the physical function), partition and quota. -/
structure Ctx where
  func : Nat
  part : Nat
  quota : Nat
  deriving DecidableEq, Repr

/-- An extent that has been released (R230, R232): its first unit's address and its units, the entry and context it
belonged to, the extent the moves resolved to that it is part of, and how many of them still read it. It is erased once
none does. -/
structure Ext where
  addr : Nat
  units : Nat
  entry : Option Nat
  ctx : Nat
  base : Nat
  refs : Nat
  deriving DecidableEq, Repr

/-- The tier manager beside its registers: the object table, the context table, the free queue of R501 (every FREE entry
from `cursor` on that is not in `tail`, then `tail`), the released extents, the commands that wait for READY with the
function they act for, and whether the write that enabled the tier manager named MODE RECOVER (R212). -/
structure Tier where
  objs : SMap Obj
  ctxs : SMap Ctx
  cursor : Nat
  tail : List Nat
  exts : List Ext
  waiting : List (TierCmd × Nat × TierReply)
  recovering : Bool
  deriving DecidableEq, Repr


/-! ## The Obneurn Link (chapter 13) -/

/-- What a port sends for a mover, a reply engine, an acknowledgement or a forwarder (R394 to R400): a packet with the
header of its run, whose address is the packet's own; a GET; an ACK; a NACK. -/
inductive ObPkt where
  | put (h : ObHdr) (bytes : List Byte)
  | get (h : ObHdr) (desc : List Nat)
  | ack (a : ObAck)
  | nack (a : ObAck)
  deriving DecidableEq, Repr

/-- A sequenced frame (R394). -/
inductive ObFrame where
  | hdr (h : ObHdr)
  | data (bytes : List Byte)
  | get (h : ObHdr) (desc : List Nat)
  | ack (a : ObAck)
  | nack (a : ObAck)
  deriving DecidableEq, Repr

/-- A run being received on a VC of a port (R395): its header, the payload bytes so far, and whether the rest of
it is dropped. -/
structure ObRun where
  h : ObHdr
  off : Nat
  refused : Bool
  deriving DecidableEq, Repr

/-- A port (R393 to R398): whether a supported device is in its half of the cage, the packets waiting by class × 2 + VC,
each with where it came from (0 this module, 1 + p port p), the run being continued on each PUT VC with its next header
and the frames since its HDR, the next SEQ to send, the frames sent and not acknowledged, the resends without progress,
the credits the partner has granted and those used, the next SEQ expected, the runs being received by VC, the frames
received since the last CTL, the credits returned, and the times of the frames sent and resent within the last second
(R39); and since when it is in RECOVERY, in µs (R393). -/
structure ObPort where
  present : Bool
  txq : SMap (List (Nat × ObPkt))
  txRun : SMap (ObHdr × Nat)
  seq : Nat
  replay : List (Nat × Nat × ObFrame)
  resends : Nat
  granted : SMap Nat
  used : SMap Nat
  rxSeq : Nat
  rxRun : SMap ObRun
  rxCount : Nat
  returned : SMap Nat
  sentAt : List Nat
  resentAt : List Nat
  recAt : Nat
  deriving DecidableEq, Repr

/-- A port after reset. -/
def ObPort.idle : ObPort :=
  { present := false, txq := [], txRun := [], seq := 0, replay := [], resends := 0, granted := [], used := [],
    rxSeq := 0, rxRun := [], rxCount := 0, returned := [], sentAt := [], resentAt := [], recAt := 0 }

/-- The Obneurn Link beside its registers: the ports, the GETs that wait for a reply engine by hub with the port and VC
they came in on, the function job table (R401), and when the quiet period began, in µs (R410). -/
structure Obl where
  ports : SMap ObPort
  getq : SMap (List (ObHdr × List Nat × Nat))
  jobFunc : SMap Nat
  quietAt : Nat
  deriving DecidableEq, Repr



/-! ## Beats (chapter 5) -/

/-- Each matrix die's beat monitor (R155, R158): the beats since reset in hundredths (key: die), and the beats at which
the last RUN starts were admitted, newest first. -/
structure Beats where
  acc : SMap Nat
  admits : SMap (List Nat)
  deriving DecidableEq, Repr



/-! ## Trust (chapter 16) -/

/-- What the replay-protected area and the factory record hold of trust (R41, R461, R462, R466), and what the Hawkmoth
keeps of a boot (R463, R464): the two counters, whether ROM key 0 is retired, the owner key, the plan-signing keys (a slot
not listed is not INSTALLED) and the REVOKED bits, the next-boot selector (true for image B), the part number, the serial
number, the stepping, the manufacturing test summary, the Cocoon population code, the PUF helper data (R35), the endorsement, the seed of the identity key, the digest and
ROM key of the running image, and how many draws of the entropy source have been taken. Keys are
their 32 bytes. -/
structure Trust where
  fwCounter : Nat
  planCounter : Nat
  romRetired : Bool
  owner : Option (List Byte)
  keys : SMap (List Byte)
  revoked : Nat
  selectB : Bool
  partNumber : List Byte
  serial : Nat
  stepping : Nat
  testSummary : List Byte
  cocoonCode : Nat
  helper : List Byte
  endorse : List Byte
  seed : Option Nat
  fwDigest : List Byte
  fwKey : Nat
  draws : Nat
  deriving DecidableEq, Repr

/-- The order code of a module with an empty site, PLV-GX4-60L (R41), as its part number. -/
def orderCode : List Byte := [0x50, 0x4C, 0x56, 0x2D, 0x47, 0x58, 0x34, 0x2D, 0x36, 0x30, 0x4C]

/-- A module as it leaves manufacture: order code and stepping B0; the spec gives no other value (log entry 4). -/
def Trust.factory : Trust :=
  { fwCounter := 0, planCounter := 0, romRetired := false, owner := none, keys := [], revoked := 0, selectB := false,
    partNumber := orderCode, serial := 0, stepping := 0xB0, testSummary := [], cocoonCode := 0, helper := [], endorse := List.replicate 128 0, seed := none, fwDigest := List.replicate 64 0,
    fwKey := 0, draws := 0 }


/-! ## Die-to-die links and the Cocoon site (chapter 12) -/

/-- The die-to-die links beside their registers, keyed link × 256 + direction × 128 + bundle: the role of each bundle (0
DOWN, 1 REQ, 2 SNP, 3 RSP, 4 DAT, 5 CTL, 6 SPARE), the lanes replaced, the failed attempts of the transfer it carries
(R372), and the failed lanes the ageing history names (R35, R374). By die: the budget each holds, as epoch, limit and
slew limit (a die not listed holds its boot budget), what it has acknowledged to the Hawkmoth, as the limit, and the
budgets sent and not acknowledged yet, as epoch and limit, oldest first (R377, R379), and the draws it has reported in
this interval (R416). -/
structure D2d where
  role : SMap Nat
  repaired : SMap Nat
  fails : SMap Nat
  lanes : SMap Nat
  held : SMap (Nat × Nat × Nat)
  acked : SMap Nat
  sent : SMap (List (Nat × Nat))
  draws : SMap (List Nat)
  deriving DecidableEq, Repr

/-- The Cocoon site beside its registers: whether a bring-up is due (R382), whether its rail is on, whether a fence is in
progress (R387), whether the draw is above its threshold (R386), whether the link is down, and the window accesses that
the die has not answered, as (address, whether a write, size, since when in µs) (R385), the discovery block of a bring-up in
training (R382), and since when the link is down, in µs. -/
structure Coc where
  due : Bool
  rail : Bool
  fencing : Bool
  above : Bool
  down : Bool
  open_ : List (Nat × Bool × Nat × Nat)
  found : Option (List Byte)
  downAt : Nat
  deriving DecidableEq, Repr

/-! ## Power, heat and ageing (chapter 14) -/

/-- The Hawkmoth's power control: the input power of each millisecond, newest first, at most 30 s (R417); the readings
since the last interval; by die the cut of R428 in percent, whether it is held at its boot budget, and since when (ms) it
has been cool; by hub the cut of its MEMORY share, and whether a stack is at 95 °C; since when (ms) the inlet has been
above 40 °C and 50 °C and the outlet too warm (R429), whether coolant readings fail; whether the input stage limits
current (R23, R425); the rails in a droop (R426); by die the ratio of its rail
reading to its estimate (R416); the beat of each die's last
step of D (R424), and the derating applied at the last interval (R429). -/
structure Pwr where
  samples : List Nat
  polls : List PmbusIn
  cut : SMap Nat
  hot : SMap Bool
  cool : SMap Nat
  hubCut : SMap Nat
  stackHot : SMap Bool
  warm40 : Option Nat
  warm50 : Option Nat
  slow : Option Nat
  limiting : Bool
  droops : List DroopRail
  holdAt : SMap Nat
  derated : Nat
  scale : SMap (Nat × Nat)
  deriving DecidableEq, Repr

/-- What the ageing history holds of a unit, a cluster or core group 512 + g (R430 to R434): its four monitors'
degradations and its margin in 0.01 %, its trim, its state (0 untrimmed, 1 trimmed, 2 WORN), its monitors' powered
hours, and whether its trim is being raised until the margin is regained (R431). -/
structure AgeUnit where
  mons : List Nat
  margin : Nat
  trim : Nat
  state : Nat
  hours : Nat
  rising : Bool
  deriving DecidableEq, Repr

/-- A unit as manufacture leaves it: the margin of R431, no degradation; trim 0, which the spec does not give (log entry
4). -/
def AgeUnit.fresh : AgeUnit := ⟨[0, 0, 0, 0], 1400, 0, 0, 0, false⟩

/-- Ageing: the units as last measured, the history in the flash (R434), and by die V_MIN in mV and by group the guard
in 5 mV, as they act and as the history holds them, and when the monitors were last measured, in µs (R430). -/
structure Age where
  units : SMap AgeUnit
  hist : SMap AgeUnit
  vmin : SMap Nat
  guard : SMap Nat
  vminHist : SMap Nat
  guardHist : SMap Nat
  measured : Option Nat
  deriving DecidableEq, Repr



/-! ## The module (chapter 1) -/

/-- How far the boot of R463 has come: to be run; the firmware runs; stopped at order 2 without a seed; stopped at order
3, the area not authentic; in the ROM, both images bad. -/
inductive BootStage where
  | pending | running | noSeed | badArea | romOnly
  deriving DecidableEq, Repr

/-- What the input stage measures (R26): voltage in 10 mV, current in 10 mA, power in W, its temperature in °C. -/
structure InStage where
  vin : Nat
  iin : Nat
  pin : Nat
  temp : Nat
  deriving DecidableEq, Repr

/-- The module's terminals and boot: whether the regulators run (R22), ENABLE (R25), whether the input is in range, whether
the input stage has tripped (R25 S5), its last measurements (R26), whether the chain or the host has requested IDENTIFY
(R39), when the last chain frame with a bad CRC came (R39), the boot, and the ACTIVATE whose copied image is to be checked
(R37). -/
structure Mod where
  powered : Bool
  enable : Bool
  vin : Bool
  tripped : Bool
  stage : InStage
  identify : Bool
  chainErrAt : Option Nat
  boot : BootStage
  activating : Option ChainHdr
  deriving DecidableEq, Repr


/-! ## What leaves the part -/

/-- What the part sends to the outside, newest last. -/
inductive Out where
  /-- An MSI-X message (R358): the function and the vector. -/
  | msix (func vector : Nat)
  /-- A sequenced frame on an OBL port (R394): port, SEQ, VC. -/
  | frame (port seq vc : Nat) (f : ObFrame)
  /-- A CTL frame (R397): ACKSEQ, NAK, the cumulative credits by class × 2 + VC. -/
  | ctl (port ackSeq : Nat) (nak : Bool) (credits : List Nat)
  /-- An IDENT frame (R392): module address and reset epoch. -/
  | ident (port addr epoch : Nat)
  /-- A management-chain frame (R406), the module's own or one it repeats: destination, source, command, tag, payload. -/
  | chain (dest src cmd tag : Nat) (payload : List Byte)
  /-- An MCTP message or packet with which the Hawkmoth answers (R340, R408, R473). -/
  | mctp (payload : List Byte)
  /-- The result record of a tier command that a function gave directly (R220). -/
  | tierResult (func q0 q1 : Nat)
  /-- A write of the part to the Cocoon die's register window, or a put that answers its GET (R384, R385). -/
  | cocoonWrite (addr : Nat) (bytes : List Byte)
  | cocoonPut (addr : Nat) (bytes : List Byte)
  /-- A power offer to the Cocoon die (R386). -/
  | cocoonOffer (epoch limit : Nat)
  /-- A BUDGET message to a die, with its slew limit (R377). -/
  | budget (die epoch limit slew : Nat)
  deriving DecidableEq, Repr


/-- The state of the part. -/
structure State where
  pending : List Instr
  clock : Nat
  regs : SMap Nat
  hbm : List (Nat × Byte)
  hbmPoison : SMap Bool
  spad : List (Nat × Byte)
  spadErr : SMap (BitVec 72)
  hostMem : List (Nat × Byte)
  flash : List (Nat × Byte)
  clus : SMap Clu
  cells : SMap Cell
  slots : SMap Slot
  ras : Ras
  irq : Irq
  coh : Coh
  mem : MemSys
  cores : Cores
  rst : Rst
  host : HostPort
  tier : Tier
  obl : Obl
  beats : Beats
  trust : Trust
  d2d : D2d
  coc : Coc
  pwr : Pwr
  age : Age
  board : Mod
  out : List Out
  resp : Resp
  deriving DecidableEq, Repr

/-- The part after a reset of the module domain (R24), every register at its reset value (R14): the regulators are off and
ENABLE is high, so that the input's rise is POWER_ON (R22): see log entry 3. -/
def State.reset : State :=
  { pending := [], clock := 0, regs := [], hbm := [], hbmPoison := [], spad := [], spadErr := [], hostMem := [],
    flash := [], clus := [], cells := [], slots := [], ras := ⟨[], [], [], false⟩, irq := ⟨[], [], []⟩,
    coh := ⟨[], [], [], [], [], [], [], [], [], [], [], 0⟩,
    mem := ⟨[], [], [], [], [], [], [], [], [], [], [], [], [], [], [], [], [], [], [], [], [], [], [], 0⟩,
    cores := ⟨[], [], 0, [], [], []⟩, rst := ⟨[], [], [], [], [], [], [], none, none, false, [], [], [], 0⟩,
    host := ⟨[], [], [], [], [], [], false, [], false, false, 0, [], [], false, 0⟩, tier := ⟨[], [], 0, [], [], [], false⟩, obl := ⟨[], [], [], 0⟩, beats := ⟨[], []⟩,
    trust := Trust.factory, d2d := ⟨[], [], [], [], [], [], [], []⟩, coc := ⟨false, false, false, false, false, [], none, 0⟩,
    pwr := ⟨[], [], [], [], [], [], [], none, none, none, false, [], [], 0, []⟩, age := ⟨[], [], [], [], [], [], none⟩,
    board := ⟨false, true, false, false, ⟨0, 0, 0, 0⟩, false, none, .pending, none⟩, out := [],
    resp := ⟨[], false, false⟩ }

end Sys2Proof.Machine
end

