-- ==== Sys2Proof/Machine/Flags.lean ====
section
/-! DEFINITION. Machine/Flags.lean: the number formats (R79 to R81), rounding and overflow (R97 to R99), and the flag
rules that decide an output (R93, R100). -/

namespace Sys2Proof.Machine

/-- A number an element holds: NaN, an infinity, or the sign and magnitude m × 2^e. -/
inductive Num where
  | nan
  | inf (neg : Bool)
  | fin (neg : Bool) (m : Nat) (e : Int)
  deriving DecidableEq, Repr

/-- A binary floating-point format: mantissa and exponent bits, bias, the magnitude pattern of the largest finite
value, and whether the patterns above it are an infinity and NaNs (R79). -/
structure FloatFmt where
  mant : Nat
  ebits : Nat
  bias : Nat
  maxFin : Nat
  ieee : Bool
  deriving DecidableEq, Repr

/-- The floating-point formats by code (R79); none for the integers and the reserved codes. -/
def floatFmt : Nat → Option FloatFmt
  | 1 => some ⟨1, 2, 1, 0x7, false⟩
  | 2 => some ⟨3, 2, 1, 0x1F, false⟩
  | 3 => some ⟨2, 3, 3, 0x1F, false⟩
  | 5 => some ⟨3, 4, 7, 0x7E, false⟩
  | 6 => some ⟨2, 5, 15, 0x7B, true⟩
  | 7 => some ⟨10, 5, 15, 0x7BFF, true⟩
  | 8 => some ⟨7, 8, 127, 0x7F7F, true⟩
  | 9 => some ⟨23, 8, 127, 0x7F7FFFFF, true⟩
  | _ => none

/-- Bits of an element of a format code (R79). -/
def fmtBits : Nat → Nat
  | 0 => 4
  | 1 => 4
  | 2 => 6
  | 3 => 6
  | 4 => 8
  | 5 => 8
  | 6 => 8
  | 7 => 16
  | 8 => 16
  | 9 => 32
  | 10 => 192
  | _ => 0

/-- The exponent L of a format's lowest nonzero bit (R79); an MXINT8 element is its integer times 2^−6 (R81). -/
def fmtL (code : Nat) (mx : Bool) : Int :=
  match code with
  | 0 => 0
  | 1 => -1
  | 2 => -3
  | 3 => -4
  | 4 => if mx then -6 else 0
  | 5 => -9
  | 6 => -16
  | 7 => -24
  | 8 => -133
  | 9 => -149
  | _ => 0

/-- The exponent H of the highest power of two of a format (R79, R81). -/
def fmtH (code : Nat) (mx : Bool) : Int :=
  match code with
  | 0 => 3
  | 1 => 2
  | 2 => 2
  | 3 => 4
  | 4 => if mx then 1 else 7
  | 5 => 8
  | 6 => 15
  | 7 => 15
  | 8 => 127
  | 9 => 127
  | _ => 0

/-- The number a floating-point pattern holds (R80: subnormals are kept). -/
def FloatFmt.decode (f : FloatFmt) (code : Nat) (x : Nat) : Num :=
  let neg := bit x (f.mant + f.ebits)
  let mag := x % 2 ^ (f.mant + f.ebits)
  let ex := mag / 2 ^ f.mant
  let fr := mag % 2 ^ f.mant
  if code = 5 ∧ mag = 0x7F then .nan
  else if f.ieee ∧ ex = 2 ^ f.ebits - 1 then (if fr = 0 then .inf neg else .nan)
  else if ex = 0 then .fin neg fr (1 - (f.bias : Int) - f.mant)
  else .fin neg (2 ^ f.mant + fr) ((ex : Int) - f.bias - f.mant)

/-- The number an element pattern of a format code holds (R79 to R81). -/
def decodeElem (code : Nat) (mx : Bool) (x : Nat) : Num :=
  match floatFmt code with
  | some f => f.decode code (x % 2 ^ fmtBits code)
  | none =>
    let v := sext (x % 2 ^ fmtBits code) (fmtBits code)
    .fin (decide (v < 0)) v.natAbs (fmtL code mx)

/-- Rounding modes by code (R97): to nearest even, toward zero, down, up. Whether a magnitude with remainder `rem` of
`2 ^ s` and quotient `q` is raised. -/
def roundsUp (rnd : Nat) (neg : Bool) (q rem s : Nat) : Bool :=
  match rnd with
  | 0 => decide (2 * rem > 2 ^ s) || (decide (2 * rem = 2 ^ s) && q % 2 == 1)
  | 1 => false
  | 2 => neg && decide (rem ≠ 0)
  | _ => !neg && decide (rem ≠ 0)

/-- A magnitude m × 2^e rounded to a multiple of 2^q. -/
def roundTo (rnd : Nat) (neg : Bool) (m : Nat) (e q : Int) : Nat :=
  if q ≤ e then m * 2 ^ (e - q).toNat
  else
    let s := (q - e).toNat
    let n := m >>> s
    n + b2n (roundsUp rnd neg n (m % 2 ^ s) s)

/-- The length of a number in bits. -/
def nbits (m : Nat) : Nat := if m = 0 then 0 else m.log2 + 1

/-- Rounding of a nonzero magnitude to a floating-point format, exponent unbounded above: the magnitude pattern, which
exceeds `maxFin` when the output overflows (R97, R99). -/
def FloatFmt.round (f : FloatFmt) (rnd : Nat) (neg : Bool) (m : Nat) (e : Int) : Nat :=
  let emin : Int := 1 - (f.bias : Int) - f.mant
  let q := max ((nbits m : Int) + e - (f.mant + 1)) emin
  let n := roundTo rnd neg m e q
  let n' := if n = 2 ^ (f.mant + 1) then 2 ^ f.mant else n
  let q' := if n = 2 ^ (f.mant + 1) then q + 1 else q
  if n' < 2 ^ f.mant then n' else (q' - emin + 1).toNat * 2 ^ f.mant + (n' - 2 ^ f.mant)

/-- The sign bit of a format code's pattern. -/
def signBit (code : Nat) (neg : Bool) : Nat := if neg then 2 ^ (fmtBits code - 1) else 0

/-- The canonical NaN of an output format; +0 where the format has none (R100). -/
def nanPattern : Nat → Nat
  | 9 => 0x7FC00000
  | 8 => 0x7FC0
  | 7 => 0x7E00
  | 6 => 0x7E
  | 5 => 0x7F
  | _ => 0

/-- What an overflowed output becomes (R99): `sat` the SAT mode or a rounding toward zero for its sign. -/
def overflowPattern (code : Nat) (neg sat : Bool) : Nat :=
  match code with
  | 0 => if neg then 8 else 7
  | 4 => if neg then 0x80 else 0x7F
  | _ =>
    match floatFmt code with
    | none => 0
    | some f =>
      if sat ∨ ¬ (f.ieee ∨ code = 5) then signBit code neg + f.maxFin
      else if code = 5 then 0x7F
      else signBit code neg + (f.maxFin + 1)

/-- Rounding toward zero for a sign (R99): RTZ, RDN of a positive and RUP of a negative value. -/
def towardZero (rnd : Nat) (neg : Bool) : Bool := rnd == 1 || (rnd == 2 && !neg) || (rnd == 3 && neg)

/-- An output: its pattern, whether it overflowed (counted in CAL_SAT_OUT) and whether it is a NaN, or +0 in place of
one (counted in CAL_NAN_OUT). -/
structure Rounded where
  pat : Nat
  sat : Bool
  nan : Bool
  deriving DecidableEq, Repr

/-- A finite nonzero or zero value rounded to an output format (R97 to R99); `ovf` is 0 SAT, 1 INF. A value of zero
gives +0 whatever its sign (R98). -/
def roundOut (code rnd ovf : Nat) (neg : Bool) (m : Nat) (e : Int) : Rounded :=
  if m = 0 then ⟨0, false, false⟩
  else
    let satMode := ovf == 0 || towardZero rnd neg
    match floatFmt code with
    | some f =>
      let p := f.round rnd neg m e
      if p ≤ f.maxFin then ⟨signBit code neg + p, false, false⟩
      else ⟨overflowPattern code neg satMode, true, false⟩
    | none =>
      let n := roundTo rnd neg m e 0
      let lim := 2 ^ (fmtBits code - 1) - 1 + b2n neg
      if n ≤ lim then ⟨wrap (if neg then -(n : Int) else n) (fmtBits code), false, false⟩
      else ⟨overflowPattern code neg true, true, false⟩

/-- What an infinity flag alone makes of an output (R100): the overflowed output of its sign in the overflow mode, not
counted as an overflow. -/
def infOut (code ovf : Nat) (neg : Bool) : Rounded :=
  let p := overflowPattern code neg (ovf == 0)
  ⟨p, false, code == 5 && ovf == 1⟩

/-- The NaN output (R100). -/
def nanOut (code : Nat) : Rounded := ⟨nanPattern code, false, true⟩

/-- Any number rounded to a format, as a conversion of the vector unit does (R101). -/
def Num.toFmt (x : Num) (code rnd ovf : Nat) : Rounded :=
  match x with
  | .nan => nanOut code
  | .inf neg => infOut code ovf neg
  | .fin neg m e => roundOut code rnd ovf neg m e

end Sys2Proof.Machine
end

