-- ==== Sys2Proof/Machine/Caldera.lean ====
section
/-! DEFINITION. Machine/Caldera.lean: what one accumulation step does to a caldera (R83 to R95, R103, R105, R106), the
products of a cube (R43, R80, R81), long partials (R102) and the output of a patch (R97 to R100). -/

namespace Sys2Proof.Machine

/-- A term of an accumulation step: m × 2^e. -/
structure Term where
  m : Int
  e : Int
  deriving DecidableEq, Repr

/-- A term in units of 2^a, truncated toward −∞ (R91). -/
def Term.at (t : Term) (a : Int) : Int :=
  if a ≤ t.e then t.m * 2 ^ (t.e - a).toNat else t.m / 2 ^ (a - t.e).toNat

/-- Whether a term loses a nonzero bit below 2^a. -/
def Term.drops (t : Term) (a : Int) : Bool :=
  decide (t.e < a) && decide (t.m % 2 ^ (a - t.e).toNat ≠ 0)

/-- The caldera's value as a term. -/
def Cal.term (c : Cal) : Term := ⟨c.v, if c.v = 0 then 0 else c.anchor⟩

/-- Whether an integer fits V (R87, R91). -/
def fitsV (v : Int) : Bool := decide (-(2 ^ 127 : Nat) ≤ v) && decide (v < (2 ^ 127 : Nat))

/-- V and the step's terms, each truncated to an anchor, added. -/
def sumAt (ts : List Term) (a : Int) : Int := ts.foldl (fun s t => s + t.at a) 0

/-- The smallest anchor at or above `a`, within `fuel`, at which the sum is representable (R91). -/
def settle (ts : List Term) : Nat → Int → Int
  | 0, a => a
  | n + 1, a => if fitsV (sumAt ts a) then a else settle ts n (a + 1)

/-- An anchor below which no sum of these terms is representable: 130 below the top bit. -/
def lowAnchor (ts : List Term) : Int :=
  ts.foldl (fun a t => if t.m = 0 then a else max a (t.e + nbits t.m.natAbs - 130)) (-32767)

/-- How many of the terms lose bits at an anchor. -/
def countDrops (ts : List Term) (a : Int) : Nat := (ts.filter (·.drops a)).length

/-- The larger of two anchors, of which either may be missing. -/
def maxAnchor : Option Int → Option Int → Option Int
  | none, b => b
  | a, none => a
  | some a, some b => some (max a b)

/-- One accumulation step (R91, R106; FIXED by R85 and R87): the step's terms are truncated to the new anchor and added
exactly. In FIXED mode V stays where an addition of this caldera has saturated it; an OVERFLOW flag that a partial brought
in does not stop it (R93). `stepA` is the anchor that R88, R90 or a long partial gives for the step. -/
def Cal.accum (c : Cal) (stepA : Option Int) (ts : List Term) : Cal :=
  match c.mode with
  | .fixed =>
    if c.sat then c
    else
      let v := c.v + sumAt ts c.anchor
      let st := satAdd c.sticky (countDrops ts c.anchor) 24
      if fitsV v then { c with v := v, sticky := st }
      else { c with v := if v < 0 then -(2 ^ 127 : Nat) else (2 ^ 127 : Nat) - 1, sticky := st, ovf := true, sat := true }
  | _ =>
    let nz := ts.filter (fun t => decide (t.m ≠ 0))
    if nz.isEmpty ∧ c.anchor = -32768 then c
    else
      let all := if c.v = 0 then nz else c.term :: nz
      let cur := if c.anchor = -32768 then none else some c.anchor
      let a := settle all 400 ((maxAnchor cur stepA).getD (lowAnchor all))
      { c with v := sumAt all a, anchor := a, sticky := satAdd c.sticky (countDrops all a) 24 }

/-- The anchor of a FLOAT step (R90): 101 below the highest bit of the largest term. -/
def floatAnchor (ts : List Term) : Option Int :=
  ts.foldl (fun a t => if t.m = 0 then a else maxAnchor a (some (t.e + nbits t.m.natAbs - 1 - 101))) none

/-- The width class of a format code (R82): 0 the 4-bit, 1 the 6- and 8-bit, 2 the 16-bit, 3 the FP32 class. -/
def fmtClass (code : Nat) : Nat :=
  if code ≤ 1 then 0 else if code ≤ 6 then 1 else if code ≤ 8 then 2 else 3

/-- M, K and N of the cube of a format code (R43). -/
def cubeM (code : Nat) : Nat := if fmtClass code = 3 then 1 else 4
def cubeK (code : Nat) : Nat := if fmtClass code = 0 then 8 else 4
def cubeN (code : Nat) : Nat := if fmtClass code ≤ 1 then 4 else 1

/-- What a product of two elements does (R93): a term, or flags. -/
structure Prod where
  terms : List Term
  nan : Bool
  pinf : Bool
  ninf : Bool
  deriving DecidableEq, Repr

/-- The signed value of a finite number. -/
def Num.term : Num → Term
  | .fin neg m e => ⟨if neg then -(m : Int) else m, e⟩
  | _ => ⟨0, 0⟩

/-- The sign and top 12 significand bits of an FP32 number (R105). -/
def highPart : Num → Num
  | .fin neg m e => .fin neg ((m >>> 12) <<< 12) e
  | x => x

/-- What the high part leaves of an FP32 number (R105). -/
def lowPart : Num → Num
  | .fin neg m e => .fin neg (m % 2 ^ 12) e
  | x => x

/-- The product of two terms, scaled by 2^c. -/
def Term.mul (x y : Term) (c : Int) : Term := ⟨x.m * y.m, x.e + y.e + c⟩

/-- The terms of one product of an A and a B element with combined scale exponent c (R80, R81, R93, R105): one product,
or for FP32 the four partial products. -/
def product (fp32 : Bool) (a b : Num) (c : Int) : Prod :=
  match a, b with
  | .nan, _ => ⟨[], true, false, false⟩
  | _, .nan => ⟨[], true, false, false⟩
  | .inf s, .inf t => ⟨[], false, s == t, s != t⟩
  | .inf s, .fin t m _ => if m = 0 then ⟨[], true, false, false⟩ else ⟨[], false, s == t, s != t⟩
  | .fin t m _, .inf s => if m = 0 then ⟨[], true, false, false⟩ else ⟨[], false, s == t, s != t⟩
  | a, b =>
    if fp32 then
      ⟨[(highPart a).term.mul (highPart b).term c, (highPart a).term.mul (lowPart b).term c,
        (lowPart a).term.mul (highPart b).term c, (lowPart a).term.mul (lowPart b).term c], false, false, false⟩
    else ⟨[a.term.mul b.term c], false, false, false⟩

/-- Element `i` of a block's bytes (R496). -/
def blockElem (code : Nat) (mx : Bool) (bytes : Nat) (i : Nat) : Num :=
  decodeElem code mx (bits bytes (i * fmtBits code) (fmtBits code))

/-- ORs special-value flags into a caldera (R93). -/
def Cal.flag (c : Cal) (nan pinf ninf : Bool) : Cal :=
  { c with nan := c.nan || nan, pinf := c.pinf || pinf, ninf := c.ninf || ninf }

/-- La + Lb − D of SCALED mode (R85, R88). -/
def scaledOffset (ca cb : Nat) : Int :=
  let l := fmtL ca true + fmtL cb true
  l - (103 - ((fmtH ca true + fmtH cb true + 2) - l))

/-- A preload term of a pair (value, exponent, long partial). -/
def preTerm (p : Int × Int × Bool) : Term := ⟨p.1, p.2.1⟩

/-- One step of a MAC for the caldera of output (m, n) (R43, R81, R85 to R94, R105): the products of the cube's K
values, with the preload as a term of the first block step in SCALED mode. A block whose scale byte is 0xFF has no scale
exponent and leaves cmax and the window as they are (DESIGN CHOICE, log entry 166). -/
def Cal.cubeStep (c : Cal) (ca cb : Nat) (mx : Bool) (a b : Block) (m n : Nat) (pre : Option (Int × Int × Bool)) : Cal :=
  let an := leNat a.bytes
  let bn := leNat b.bytes
  let ea := match a.scales with | some l => (l.getD m 127).toNat | none => 127
  let eb := match b.scales with | some l => (l.getD n 127).toNat | none => 127
  let sc : Int := if mx then (ea : Int) + eb - 254 else 0
  let badScale := mx && (ea == 255 || eb == 255)
  let ps := (List.range (cubeK ca)).map fun k =>
    product (fmtClass ca == 3) (blockElem ca mx an (m * cubeK ca + k)) (blockElem cb mx bn (k * cubeN cb + n)) sc
  let c := c.flag (badScale || ps.any (·.nan)) (!badScale && ps.any (·.pinf)) (!badScale && ps.any (·.ninf))
  let prods := if badScale then [] else ps.flatMap (·.terms)
  let ts := prods ++ (pre.toList.map preTerm)
  match c.mode with
  | .fixed => c.accum none ts
  | .float => c.accum (floatAnchor ts) ts
  | .scaled =>
    let cm := if badScale then c.cmax else maxAnchor c.cmax (some sc)
    let nz := !badScale && prods.any (fun t => decide (t.m ≠ 0))
    let c := { c with cmax := cm,
                      nzMin := if nz then some (match c.nzMin with | none => sc | some x => min x sc) else c.nzMin }
    let pa := match pre with | some (v, e, true) => if v = 0 then none else some e | _ => none
    c.accum (maxAnchor (cm.map (· + scaledOffset ca cb)) pa) ts

/-- The 24-byte image of a caldera, as a number (R102), with its anchor raised by an output shift (R97). -/
def Cal.image (c : Cal) (osh : Int) : Nat :=
  wrap c.v 128 + (wrap (if c.anchor = -32768 then -32768 else c.anchor + osh) 16) * 2 ^ 128 + c.sticky * 2 ^ 144
    + b2n c.nan * 2 ^ 168 + b2n c.pinf * 2 ^ 169 + b2n c.ninf * 2 ^ 170 + b2n c.ovf * 2 ^ 171 + b2n c.cap * 2 ^ 172
    + (match c.mode with | .fixed => 0 | .scaled => 1 | .float => 2) * 2 ^ 176

/-- The anchor of a long partial: that of a value other than 0 marked unanchored is a free value (R102; DESIGN CHOICE, log
entry 167). -/
def imageAnchor (x : Nat) : Int :=
  if bits x 0 128 ≠ 0 ∧ bits x 128 16 = 0x8000 then max (-32767) (sext (Config.unanchored x % 2 ^ 16) 16)
  else sext (bits x 128 16) 16

/-- The caldera that a long-partial image holds (R102: MODE 3 is FLOAT, unlisted bits are ignored). -/
def Cal.ofImage (x : Nat) : Cal :=
  { Cal.zero with
    v := sext (bits x 0 128) 128, anchor := imageAnchor x, sticky := bits x 144 24, nan := bit x 168,
    pinf := bit x 169, ninf := bit x 170, ovf := bit x 171, cap := bit x 172,
    mode := match bits x 176 2 with | 0 => .fixed | 1 => .scaled | _ => .float }

/-- Adds a long partial as one term (R103): sticky counts add, flags are ORed. -/
def Cal.addPartial (c : Cal) (p : Cal) : Cal :=
  let c := { c with sticky := satAdd c.sticky p.sticky 24, nan := c.nan || p.nan, pinf := c.pinf || p.pinf,
                    ninf := c.ninf || p.ninf, cap := c.cap || p.cap }
  let a := if p.v = 0 then none else some p.anchor
  match c.mode with
  | .fixed => { c.accum none [p.term] with ovf := (c.accum none [p.term]).ovf || p.ovf }
  | _ => { c.accum a [p.term] with ovf := c.ovf || p.ovf }

/-- What an output other than a long partial is (R97 to R100). An infinity flag alone decides it even where OVERFLOW is
set (DESIGN CHOICE, log entry 168). -/
def Cal.output (c : Cal) (code rnd ovf : Nat) (osh : Int) : Rounded :=
  if c.nan || (c.pinf && c.ninf) then nanOut code
  else if c.pinf then infOut code ovf false
  else if c.ninf then infOut code ovf true
  else
    let neg := decide (c.v < 0)
    if c.ovf then
      ⟨overflowPattern code neg (ovf == 0 || towardZero rnd neg), true, false⟩
    else roundOut code rnd ovf neg c.v.natAbs (c.anchor + osh)

end Sys2Proof.Machine
end

