-- ==== Sys2Proof/Machine/Crypto.lean ====
section
/-! DEFINITION. Machine/Crypto.lean: SHA-512 (FIPS 180-4) and pure Ed25519 (RFC 8032), as R116, R463 and R469 name
them: the digest of a message, and the verification and making of a signature. -/

namespace Sys2Proof.Machine

/-! ## Integer roots, which give the constants of SHA-512 -/

/-- The largest r below 2^n more than `acc` whose power `k` is at most x, found bit by bit from bit n − 1 down. -/
def rootBits (k x : Nat) : Nat → Nat → Nat
  | 0, acc => acc
  | n + 1, acc => rootBits k x n (if (acc + 2 ^ n) ^ k ≤ x then acc + 2 ^ n else acc)

/-- Whether a number above 1 has no divisor from 2 up to itself. -/
def isPrime (n : Nat) : Bool := decide (2 ≤ n) && (List.range n).all fun d => decide (d < 2) || n % d != 0

/-- The first 80 primes: those below 410. -/
def primes80 : List Nat := (List.range 410).filter isPrime

/-- The first 64 bits of the fractional parts of the square roots of the first eight primes. -/
def shaInit : List (BitVec 64) := (primes80.take 8).map fun p => BitVec.ofNat 64 (rootBits 2 (p * 2 ^ 128) 72 0)

/-- The first 64 bits of the fractional parts of the cube roots of the first 80 primes. -/
def shaK : List (BitVec 64) := primes80.map fun p => BitVec.ofNat 64 (rootBits 3 (p * 2 ^ 192) 72 0)

/-! ## SHA-512 -/

/-- Eight bytes as a big-endian word. -/
def beWord (l : List Byte) : BitVec 64 := l.foldl (fun w b => (w <<< 8) ||| (b.zeroExtend 64)) 0

/-- A word as eight big-endian bytes. -/
def wordBytes (w : BitVec 64) : List Byte := (List.range 8).map fun i => (w >>> (56 - 8 * i)).truncate 8

/-- The sixteen words of a block. -/
def blockWords (l : List Byte) : List (BitVec 64) := (List.range 16).map fun i => beWord ((l.drop (8 * i)).take 8)

/-- The message schedule: the window of the last sixteen words, oldest first, gives each next word. -/
def schedule : Nat → List (BitVec 64) → List (BitVec 64)
  | 0, _ => []
  | n + 1, w =>
    let w0 := w.getD 0 0
    let w1 := w.getD 1 0
    let w14 := w.getD 14 0
    let s0 := w1.rotateRight 1 ^^^ w1.rotateRight 8 ^^^ (w1 >>> 7)
    let s1 := w14.rotateRight 19 ^^^ w14.rotateRight 61 ^^^ (w14 >>> 6)
    w0 :: schedule n (w.drop 1 ++ [w0 + s0 + w.getD 9 0 + s1])

/-- One round on the eight working words. -/
def shaRound (h : List (BitVec 64)) (k w : BitVec 64) : List (BitVec 64) :=
  match h with
  | [a, b, c, d, e, f, g, h] =>
    let t1 := h + (e.rotateRight 14 ^^^ e.rotateRight 18 ^^^ e.rotateRight 41) + ((e &&& f) ^^^ (~~~e &&& g)) + k + w
    let t2 := (a.rotateRight 28 ^^^ a.rotateRight 34 ^^^ a.rotateRight 39) + ((a &&& b) ^^^ (a &&& c) ^^^ (b &&& c))
    [t1 + t2, a, b, c, d + t1, e, f, g]
  | l => l

/-- One block. -/
def shaBlock (h : List (BitVec 64)) (l : List Byte) : List (BitVec 64) :=
  let v := (shaK.zip (schedule 80 (blockWords l))).foldl (fun v p => shaRound v p.1 p.2) h
  (h.zip v).map fun p => p.1 + p.2

/-- Block after block, at most `n`. -/
def shaBlocks : Nat → List (BitVec 64) → List Byte → List (BitVec 64)
  | 0, h, _ => h
  | _, h, [] => h
  | n + 1, h, l => shaBlocks n (shaBlock h (l.take 128)) (l.drop 128)

/-- The padding of a message of n bytes: 0x80, zeros, and its length in bits as 128 bits. -/
def shaPad (n : Nat) : List Byte :=
  0x80 :: (List.replicate ((239 - n % 128) % 128) 0 ++ ((List.range 16).map fun i => BitVec.ofNat 8 (n * 8 / 256 ^ (15 - i))))

/-- SHA-512: 64 bytes. -/
def sha512 (m : List Byte) : List Byte :=
  (shaBlocks (m.length / 128 + 2) shaInit (m ++ shaPad m.length)).flatMap wordBytes

/-! ## Ed25519 -/

/-- The field's prime. -/
def edP : Nat := 2 ^ 255 - 19

/-- The order of the base point. -/
def edL : Nat := 2 ^ 252 + 27742317777372353535851937790883648493

/-- A power modulo m, by the exponent's low n bits. -/
def powMod (m b e : Nat) : Nat → Nat
  | 0 => 1 % m
  | n + 1 =>
    let h := powMod m (b * b % m) (e / 2) n
    if e % 2 = 1 then b * h % m else h

/-- Inverse in the field. -/
def edInv (x : Nat) : Nat := powMod edP x (edP - 2) 255

/-- The curve's constant d = −121665/121666. -/
def edD : Nat := (edP - 121665) * edInv 121666 % edP

/-- A square root of −1. -/
def edI : Nat := powMod edP 2 ((edP - 1) / 4) 255

/-- A point: X, Y, Z, T with x = X/Z, y = Y/Z, xy = T/Z. -/
structure EdPoint where
  x : Nat
  y : Nat
  z : Nat
  t : Nat
  deriving DecidableEq, Repr

/-- The neutral point. -/
def EdPoint.zero : EdPoint := ⟨0, 1, 1, 0⟩

/-- Addition on the twisted Edwards curve −x² + y² = 1 + d x² y². -/
def EdPoint.add (p q : EdPoint) : EdPoint :=
  let a := (p.y + edP - p.x) * (q.y + edP - q.x) % edP
  let b := (p.y + p.x) * (q.y + q.x) % edP
  let c := 2 * p.t * q.t % edP * edD % edP
  let d := 2 * p.z * q.z % edP
  let e := (b + edP - a) % edP
  let f := (d + edP - c) % edP
  let g := (d + c) % edP
  let h := (b + a) % edP
  ⟨e * f % edP, g * h % edP, f * g % edP, e * h % edP⟩

/-- A multiple of a point, by the scalar's low n bits. -/
def EdPoint.mul (p : EdPoint) (k : Nat) : Nat → EdPoint
  | 0 => .zero
  | n + 1 =>
    let h := (p.add p).mul (k / 2) n
    if k % 2 = 1 then p.add h else h

/-- Equality of points. -/
def EdPoint.same (p q : EdPoint) : Bool := p.x * q.z % edP == q.x * p.z % edP && p.y * q.z % edP == q.y * p.z % edP

/-- The x of a point with a given y and sign, if there is one. -/
def edX (y : Nat) (sign : Bool) : Option Nat :=
  if edP ≤ y then none
  else
    let u := (y * y + edP - 1) % edP
    let v := (edD * (y * y % edP) + 1) % edP
    let x2 := u * edInv v % edP
    let r := powMod edP x2 ((edP + 3) / 8) 255
    let x := if r * r % edP = x2 then r else r * edI % edP
    if x * x % edP ≠ x2 then none
    else if x = 0 ∧ sign then none
    else some (if (x % 2 == 1) = sign then x else edP - x)

/-- A point from 32 bytes. -/
def edDecode (l : List Byte) : Option EdPoint :=
  let n := leNat l
  let y := n % 2 ^ 255
  (edX y (decide (2 ^ 255 ≤ n))).map fun x => ⟨x, y, 1, x * y % edP⟩

/-- 32 bytes of a point. -/
def edEncode (p : EdPoint) : List Byte :=
  let i := edInv p.z
  leBytes 32 (p.y * i % edP + (p.x * i % edP) % 2 * 2 ^ 255)

/-- The base point: y = 4/5, x even. -/
def edBase : EdPoint :=
  let y := 4 * edInv 5 % edP
  match edX y false with
  | some x => ⟨x, y, 1, x * y % edP⟩
  | none => .zero

/-- Whether a 64-byte signature of a message verifies under a 32-byte public key (RFC 8032, 5.1.7, with the cofactor: log
entry 32). -/
def edVerify (key msg sig : List Byte) : Bool :=
  let s := leNat (sig.drop 32)
  match edDecode key, edDecode (sig.take 32) with
  | some a, some r =>
    if key.length ≠ 32 ∨ sig.length ≠ 64 ∨ edL ≤ s then false
    else
      let k := leNat (sha512 (sig.take 32 ++ key ++ msg)) % edL
      ((edBase.mul s 256).mul 8 4).same ((r.add (a.mul k 256)).mul 8 4)
  | _, _ => false

/-- The scalar of a secret seed. -/
def edScalar (seed : List Byte) : Nat :=
  let n := leNat ((sha512 seed).take 32)
  n % 2 ^ 254 / 8 * 8 + 2 ^ 254

/-- The public key of a secret seed. -/
def edPublic (seed : List Byte) : List Byte := edEncode (edBase.mul (edScalar seed) 256)

/-- The signature of a message under a secret seed (RFC 8032, 5.1.6). -/
def edSign (seed msg : List Byte) : List Byte :=
  let r := leNat (sha512 ((sha512 seed).drop 32 ++ msg)) % edL
  let rb := edEncode (edBase.mul r 256)
  let k := leNat (sha512 (rb ++ edPublic seed ++ msg)) % edL
  rb ++ leBytes 32 ((r + k * edScalar seed) % edL)

end Sys2Proof.Machine
end

