-- ==== Sys2Proof/Machine/Regs.lean ====
section
/-! DEFINITION. Machine/Regs.lean: the register blocks of the part (R486) and every field of every register table, as
the spec's tables give them: offset, bits, access code (R12) and reset value (R14). A reset value the spec does not
give as a number is named in log entry 4. -/

namespace Sys2Proof.Machine

/-- The register blocks of R486, and the Plovton CSRs of a hart (R272). -/
inductive Blk where
  | clu | cal | plnSlot | plnGlobal | dlnDie | dlnSlot | mov | lnd | tier | sc | dir | hbmGlobal | hbmHub
  | geyCmd | geyTest | host | ring | ringGlobal | d2dLink | d2dGlobal | coc | oblGlobal | oblPort | oblRoute
  | chn | pwr | age | ras | bist | sec | hub | csr
  deriving DecidableEq, Repr

/-- Base address of a block's instance 0 (R486). The CSRs lie outside the physical address map, in a space of the
model's own above 2^48. -/
def Blk.base : Blk → Nat
  | .clu => 0xF000000000
  | .cal => 0xF002000000
  | .plnSlot => 0xF003000000
  | .plnGlobal => 0xF003010000
  | .dlnDie => 0xF004000000
  | .dlnSlot => 0xF004010000
  | .mov => 0xF005000000
  | .lnd => 0xF006000000
  | .tier => 0xF007000000
  | .sc => 0xF008000000
  | .dir => 0xF009000000
  | .hbmGlobal => 0xF00A000000
  | .hbmHub => 0xF00A010000
  | .geyCmd => 0xF00B000000
  | .geyTest => 0xF00B010000
  | .host => 0xF00C000000
  | .ring => 0xF00D000000
  | .ringGlobal => 0xF00D040000
  | .d2dLink => 0xF00F000000
  | .d2dGlobal => 0xF00F010000
  | .coc => 0xF010000000
  | .oblGlobal => 0xF011000000
  | .oblPort => 0xF011001000
  | .oblRoute => 0xF011010000
  | .chn => 0xF012000000
  | .pwr => 0xF013000000
  | .age => 0xF014000000
  | .ras => 0xF015000000
  | .bist => 0xF016000000
  | .sec => 0xF017000000
  | .hub => 0xF018000000
  | .csr => 0x1000000000000

/-- Distance between the instances of a block (R486). -/
def Blk.stride : Blk → Nat
  | .clu => 0x10000
  | .ring | .d2dLink | .oblPort => 0x100
  | .oblRoute => 8
  | .host => 0x20000
  | .csr => 0x10000
  | _ => 0x1000

/-- Span of one instance (R486). -/
def Blk.span : Blk → Nat
  | .clu => 0x10000
  | .ring | .d2dLink | .oblPort => 0x100
  | .oblRoute => 8
  | .host => 0x20000
  | .csr => 0x10000
  | _ => 0x1000

/-- Number of instances (R486). -/
def Blk.count : Blk → Nat
  | .clu | .cal | .mov | .lnd => 512
  | .plnSlot | .dlnSlot | .oblPort => 16
  | .dlnDie => 4
  | .sc | .dir | .hbmHub | .geyTest | .hub => 2
  | .ring => 1024
  | .d2dLink => 15
  | .oblRoute => 8192
  | .csr => 96
  | _ => 1

/-- Access codes of R12. -/
inductive Acc where
  | ro | rw | wo | w1c | w1s | rc
  deriving DecidableEq, Repr

/-- A reset value: one number, one number for each array index, block instance or packed position, or bits of the
instance number. -/
inductive RVal where
  | const (n : Nat)
  | byIdx (l : List Nat)
  | byInst (l : List Nat)
  | byRep (l : List Nat)
  | instBits (lo width : Nat)
  deriving DecidableEq, Repr

/-- A field of a register table: its block, the offset of the register, for an array of registers the number and the
distance, for like fields packed in one register their number and pitch in bits, the lowest bit, the width, the
access code and the reset value. -/
structure Fld where
  blk : Blk
  off : Nat
  num : Nat
  step : Nat
  reps : Nat
  pitch : Nat
  lo : Nat
  width : Nat
  acc : Acc
  rst : RVal
  deriving DecidableEq, Repr

/-- The address of the register that holds a field: block instance `i`, array index `j`. -/
def Fld.addr (f : Fld) (i j : Nat) : Nat := f.blk.base + i * f.blk.stride + f.off + j * f.step

/-- The key a field's value is held under: 64 keys for each register address, one for each bit position. -/
def Fld.key (f : Fld) (i j r : Nat) : Nat := f.addr i j * 64 + f.lo + r * f.pitch

/-- The reset value of a field (R14). -/
def Fld.reset (f : Fld) (i j r : Nat) : Nat :=
  match f.rst with
  | .const n => n
  | .byIdx l => l.getD j 0
  | .byInst l => l.getD i 0
  | .byRep l => l.getD r 0
  | .instBits lo w => i / 2 ^ lo % 2 ^ w

/-- The largest value a field holds. -/
def Fld.maxVal (f : Fld) : Nat := 2 ^ f.width - 1


/-! ## Cells, clusters and scratchpads (R77, R78) -/

def CLU_ID.COL : Fld := ⟨.clu, 0x000, 1, 8, 1, 0, 0, 4, .ro, .instBits 0 4⟩
def CLU_ID.ROW : Fld := ⟨.clu, 0x000, 1, 8, 1, 0, 4, 3, .ro, .instBits 4 3⟩
def CLU_ID.DIE : Fld := ⟨.clu, 0x000, 1, 8, 1, 0, 7, 2, .ro, .instBits 7 2⟩
def CLU_ID.INDEX : Fld := ⟨.clu, 0x000, 1, 8, 1, 0, 9, 9, .ro, .instBits 0 9⟩
def CLU_ID.STEPPING : Fld := ⟨.clu, 0x000, 1, 8, 1, 0, 24, 8, .ro, .const 176⟩
def CLU_STATUS.STATE : Fld := ⟨.clu, 0x008, 1, 8, 1, 0, 0, 3, .ro, .const 1⟩
def CLU_STATUS.LAST_STATUS : Fld := ⟨.clu, 0x008, 1, 8, 1, 0, 8, 8, .ro, .const 0⟩
def CLU_STATUS.SPARE_SHORT : Fld := ⟨.clu, 0x008, 1, 8, 1, 0, 16, 1, .ro, .const 0⟩
def CLU_STATUS.GATE_ANY : Fld := ⟨.clu, 0x008, 1, 8, 1, 0, 17, 1, .ro, .const 0⟩
def CLU_STATUS.INUSE_VALID : Fld := ⟨.clu, 0x008, 1, 8, 1, 0, 18, 1, .ro, .const 0⟩
def CLU_POWER.OFF_REQ : Fld := ⟨.clu, 0x010, 1, 8, 1, 0, 0, 1, .rw, .const 0⟩
def CLU_FAULT.STATUS : Fld := ⟨.clu, 0x018, 1, 8, 1, 0, 0, 8, .ro, .const 0⟩
def CLU_FAULT.CELL_ROW : Fld := ⟨.clu, 0x018, 1, 8, 1, 0, 8, 5, .ro, .const 0⟩
def CLU_FAULT.CELL_COL : Fld := ⟨.clu, 0x018, 1, 8, 1, 0, 13, 5, .ro, .const 0⟩
def CLU_FAULT.BANK : Fld := ⟨.clu, 0x018, 1, 8, 1, 0, 18, 6, .ro, .const 0⟩
def CLU_FAULT.BANK_ROW : Fld := ⟨.clu, 0x018, 1, 8, 1, 0, 24, 10, .ro, .const 0⟩
def CLU_FAULT.WORD : Fld := ⟨.clu, 0x018, 1, 8, 1, 0, 34, 3, .ro, .const 0⟩
def CLU_FAULT.SOURCE : Fld := ⟨.clu, 0x018, 1, 8, 1, 0, 37, 3, .ro, .const 0⟩
def CLU_FAULT.CLEAR : Fld := ⟨.clu, 0x018, 1, 8, 1, 0, 63, 1, .wo, .const 0⟩
def CLU_BANK_PWR_WM.PWR : Fld := ⟨.clu, 0x020, 1, 8, 24, 2, 0, 2, .rw, .const 0⟩
def CLU_BANK_PWR_AP.PWR : Fld := ⟨.clu, 0x028, 1, 8, 24, 2, 0, 2, .rw, .const 0⟩
def CLU_GATE_PENDING.PENDING : Fld := ⟨.clu, 0x030, 1, 8, 1, 0, 0, 48, .ro, .const 0⟩
def CLU_BANK_INUSE.INUSE : Fld := ⟨.clu, 0x038, 1, 8, 1, 0, 0, 48, .ro, .const 0⟩
def CLU_ECC_CORR.COUNT : Fld := ⟨.clu, 0x040, 1, 8, 1, 0, 0, 32, .rc, .const 0⟩
def CLU_ECC_LAST.BANK : Fld := ⟨.clu, 0x048, 1, 8, 1, 0, 0, 6, .ro, .const 0⟩
def CLU_ECC_LAST.ROW : Fld := ⟨.clu, 0x048, 1, 8, 1, 0, 6, 10, .ro, .const 0⟩
def CLU_ECC_LAST.WORD : Fld := ⟨.clu, 0x048, 1, 8, 1, 0, 16, 3, .ro, .const 0⟩
def CLU_ECC_LAST.SYNDROME : Fld := ⟨.clu, 0x048, 1, 8, 1, 0, 24, 8, .ro, .const 0⟩
def CLU_ECC_LAST.VALID : Fld := ⟨.clu, 0x048, 1, 8, 1, 0, 32, 1, .rc, .const 0⟩
def CLU_SCRUB.EN : Fld := ⟨.clu, 0x050, 1, 8, 1, 0, 0, 1, .rw, .const 1⟩
def CLU_SCRUB.PERIOD_S : Fld := ⟨.clu, 0x050, 1, 8, 1, 0, 8, 8, .rw, .const 10⟩
def CLU_SCRUB.REJECT : Fld := ⟨.clu, 0x050, 1, 8, 1, 0, 24, 8, .ro, .const 0⟩
def CLU_SCRUB.PASS_DONE : Fld := ⟨.clu, 0x050, 1, 8, 1, 0, 32, 1, .rc, .const 0⟩
def CLU_WAKE_COUNT.BANK_WAKES : Fld := ⟨.clu, 0x058, 1, 8, 1, 0, 0, 32, .rc, .const 0⟩
def CLU_WAKE_COUNT.CLUSTER_WAKES : Fld := ⟨.clu, 0x058, 1, 8, 1, 0, 32, 16, .rc, .const 0⟩
def CLU_FEED_STALL.BEATS : Fld := ⟨.clu, 0x060, 1, 8, 1, 0, 0, 48, .rc, .const 0⟩
def CLU_DRAIN_STALL.BEATS : Fld := ⟨.clu, 0x068, 1, 8, 1, 0, 0, 48, .rc, .const 0⟩
def CLU_BEATS.BEATS : Fld := ⟨.clu, 0x070, 1, 8, 1, 0, 0, 48, .rc, .const 0⟩
def CLU_SPARE.USED : Fld := ⟨.clu, 0x078, 1, 8, 1, 0, 0, 16, .ro, .const 0⟩
def CLU_SPARE.RETIRED : Fld := ⟨.clu, 0x078, 1, 8, 1, 0, 16, 16, .ro, .const 0⟩
def CLU_INT_EN.FAULT : Fld := ⟨.clu, 0x080, 1, 8, 1, 0, 0, 1, .rw, .const 0⟩
def CLU_INT_STATUS.FAULT : Fld := ⟨.clu, 0x088, 1, 8, 1, 0, 0, 1, .w1c, .const 0⟩
def CLU_INT_EN.ECC_THRESH : Fld := ⟨.clu, 0x080, 1, 8, 1, 0, 1, 1, .rw, .const 0⟩
def CLU_INT_STATUS.ECC_THRESH : Fld := ⟨.clu, 0x088, 1, 8, 1, 0, 1, 1, .w1c, .const 0⟩
def CLU_INT_EN.BANK_WAKE : Fld := ⟨.clu, 0x080, 1, 8, 1, 0, 2, 1, .rw, .const 0⟩
def CLU_INT_STATUS.BANK_WAKE : Fld := ⟨.clu, 0x088, 1, 8, 1, 0, 2, 1, .w1c, .const 0⟩
def CLU_INT_EN.GATE_DONE : Fld := ⟨.clu, 0x080, 1, 8, 1, 0, 3, 1, .rw, .const 0⟩
def CLU_INT_STATUS.GATE_DONE : Fld := ⟨.clu, 0x088, 1, 8, 1, 0, 3, 1, .w1c, .const 0⟩
def CLU_INT_EN.CLUSTER_WAKE : Fld := ⟨.clu, 0x080, 1, 8, 1, 0, 4, 1, .rw, .const 0⟩
def CLU_INT_STATUS.CLUSTER_WAKE : Fld := ⟨.clu, 0x088, 1, 8, 1, 0, 4, 1, .w1c, .const 0⟩
def CLU_ECC_THRESH.THRESH : Fld := ⟨.clu, 0x090, 1, 8, 1, 0, 0, 32, .rw, .const 64⟩

/-- Fields of spec/02, part 0. -/
def fields02_0 : List Fld :=
  [CLU_ID.COL, CLU_ID.ROW, CLU_ID.DIE, CLU_ID.INDEX,
   CLU_ID.STEPPING, CLU_STATUS.STATE, CLU_STATUS.LAST_STATUS, CLU_STATUS.SPARE_SHORT,
   CLU_STATUS.GATE_ANY, CLU_STATUS.INUSE_VALID, CLU_POWER.OFF_REQ, CLU_FAULT.STATUS,
   CLU_FAULT.CELL_ROW, CLU_FAULT.CELL_COL, CLU_FAULT.BANK, CLU_FAULT.BANK_ROW,
   CLU_FAULT.WORD, CLU_FAULT.SOURCE, CLU_FAULT.CLEAR, CLU_BANK_PWR_WM.PWR,
   CLU_BANK_PWR_AP.PWR, CLU_GATE_PENDING.PENDING, CLU_BANK_INUSE.INUSE, CLU_ECC_CORR.COUNT,
   CLU_ECC_LAST.BANK, CLU_ECC_LAST.ROW, CLU_ECC_LAST.WORD, CLU_ECC_LAST.SYNDROME,
   CLU_ECC_LAST.VALID, CLU_SCRUB.EN, CLU_SCRUB.PERIOD_S, CLU_SCRUB.REJECT,
   CLU_SCRUB.PASS_DONE, CLU_WAKE_COUNT.BANK_WAKES, CLU_WAKE_COUNT.CLUSTER_WAKES, CLU_FEED_STALL.BEATS,
   CLU_DRAIN_STALL.BEATS, CLU_BEATS.BEATS, CLU_SPARE.USED, CLU_SPARE.RETIRED]

/-- Fields of spec/02, part 1. -/
def fields02_1 : List Fld :=
  [CLU_INT_EN.FAULT, CLU_INT_STATUS.FAULT, CLU_INT_EN.ECC_THRESH, CLU_INT_STATUS.ECC_THRESH,
   CLU_INT_EN.BANK_WAKE, CLU_INT_STATUS.BANK_WAKE, CLU_INT_EN.GATE_DONE, CLU_INT_STATUS.GATE_DONE,
   CLU_INT_EN.CLUSTER_WAKE, CLU_INT_STATUS.CLUSTER_WAKE, CLU_ECC_THRESH.THRESH]

/-! ## Calderas (R110) -/

def CAL_CAPS.FORMATS : Fld := ⟨.cal, 0x000, 1, 8, 1, 0, 0, 16, .ro, .const 2047⟩
def CAL_CAPS.MX : Fld := ⟨.cal, 0x000, 1, 8, 1, 0, 16, 1, .ro, .const 1⟩
def CAL_CAPS.LIMIT_LOG2 : Fld := ⟨.cal, 0x000, 1, 8, 1, 0, 24, 8, .ro, .const 24⟩
def CAL_CAPS.WIDTH : Fld := ⟨.cal, 0x000, 1, 8, 1, 0, 32, 8, .ro, .const 128⟩
def CAL_STICKY_PATCHES.COUNT : Fld := ⟨.cal, 0x008, 1, 8, 1, 0, 0, 48, .rc, .const 0⟩
def CAL_CAPACITY.COUNT : Fld := ⟨.cal, 0x010, 1, 8, 1, 0, 0, 48, .rc, .const 0⟩
def CAL_NAN_OUT.COUNT : Fld := ⟨.cal, 0x018, 1, 8, 1, 0, 0, 48, .rc, .const 0⟩
def CAL_SAT_OUT.COUNT : Fld := ⟨.cal, 0x020, 1, 8, 1, 0, 0, 48, .rc, .const 0⟩
def CAL_OVERFLOW.COUNT : Fld := ⟨.cal, 0x028, 1, 8, 1, 0, 0, 48, .rc, .const 0⟩
def CAL_SPREAD.MAX : Fld := ⟨.cal, 0x030, 1, 8, 1, 0, 0, 9, .rc, .const 0⟩
def CAL_SPREAD.LAST : Fld := ⟨.cal, 0x030, 1, 8, 1, 0, 16, 9, .ro, .const 0⟩
def CAL_PEEK_SEL.CELL_ROW : Fld := ⟨.cal, 0x038, 1, 8, 1, 0, 0, 5, .rw, .const 0⟩
def CAL_PEEK_SEL.CELL_COL : Fld := ⟨.cal, 0x038, 1, 8, 1, 0, 5, 5, .rw, .const 0⟩
def CAL_PEEK_SEL.SET : Fld := ⟨.cal, 0x038, 1, 8, 1, 0, 10, 1, .rw, .const 0⟩
def CAL_PEEK_SEL.CALDERA : Fld := ⟨.cal, 0x038, 1, 8, 1, 0, 11, 4, .rw, .const 0⟩
def CAL_PEEK_SEL.STATUS : Fld := ⟨.cal, 0x038, 1, 8, 1, 0, 16, 8, .ro, .const 0⟩
def CAL_PEEK_DATA0.DATA : Fld := ⟨.cal, 0x040, 1, 8, 1, 0, 0, 64, .ro, .const 0⟩
def CAL_PEEK_DATA1.DATA : Fld := ⟨.cal, 0x048, 1, 8, 1, 0, 0, 64, .ro, .const 0⟩
def CAL_PEEK_DATA2.DATA : Fld := ⟨.cal, 0x050, 1, 8, 1, 0, 0, 64, .ro, .const 0⟩
def CAL_INT_EN.STICKY : Fld := ⟨.cal, 0x058, 1, 8, 1, 0, 0, 1, .rw, .const 0⟩
def CAL_INT_STATUS.STICKY : Fld := ⟨.cal, 0x060, 1, 8, 1, 0, 0, 1, .w1c, .const 0⟩
def CAL_INT_EN.NAN_OUT : Fld := ⟨.cal, 0x058, 1, 8, 1, 0, 1, 1, .rw, .const 0⟩
def CAL_INT_STATUS.NAN_OUT : Fld := ⟨.cal, 0x060, 1, 8, 1, 0, 1, 1, .w1c, .const 0⟩
def CAL_INT_EN.SAT_OUT : Fld := ⟨.cal, 0x058, 1, 8, 1, 0, 2, 1, .rw, .const 0⟩
def CAL_INT_STATUS.SAT_OUT : Fld := ⟨.cal, 0x060, 1, 8, 1, 0, 2, 1, .w1c, .const 0⟩
def CAL_INT_EN.CAPACITY : Fld := ⟨.cal, 0x058, 1, 8, 1, 0, 3, 1, .rw, .const 0⟩
def CAL_INT_STATUS.CAPACITY : Fld := ⟨.cal, 0x060, 1, 8, 1, 0, 3, 1, .w1c, .const 0⟩
def CAL_INT_EN.OVERFLOW : Fld := ⟨.cal, 0x058, 1, 8, 1, 0, 4, 1, .rw, .const 0⟩
def CAL_INT_STATUS.OVERFLOW : Fld := ⟨.cal, 0x060, 1, 8, 1, 0, 4, 1, .w1c, .const 0⟩

/-- Fields of spec/03, part 0. -/
def fields03_0 : List Fld :=
  [CAL_CAPS.FORMATS, CAL_CAPS.MX, CAL_CAPS.LIMIT_LOG2, CAL_CAPS.WIDTH,
   CAL_STICKY_PATCHES.COUNT, CAL_CAPACITY.COUNT, CAL_NAN_OUT.COUNT, CAL_SAT_OUT.COUNT,
   CAL_OVERFLOW.COUNT, CAL_SPREAD.MAX, CAL_SPREAD.LAST, CAL_PEEK_SEL.CELL_ROW,
   CAL_PEEK_SEL.CELL_COL, CAL_PEEK_SEL.SET, CAL_PEEK_SEL.CALDERA, CAL_PEEK_SEL.STATUS,
   CAL_PEEK_DATA0.DATA, CAL_PEEK_DATA1.DATA, CAL_PEEK_DATA2.DATA, CAL_INT_EN.STICKY,
   CAL_INT_STATUS.STICKY, CAL_INT_EN.NAN_OUT, CAL_INT_STATUS.NAN_OUT, CAL_INT_EN.SAT_OUT,
   CAL_INT_STATUS.SAT_OUT, CAL_INT_EN.CAPACITY, CAL_INT_STATUS.CAPACITY, CAL_INT_EN.OVERFLOW,
   CAL_INT_STATUS.OVERFLOW]

/-! ## Plan slots (R148) -/

def PLN_SLOT_CTRL.CMD : Fld := ⟨.plnSlot, 0x000, 1, 8, 1, 0, 0, 3, .wo, .const 0⟩
def PLN_SLOT_CTRL.PRED : Fld := ⟨.plnSlot, 0x000, 1, 8, 1, 0, 8, 4, .rw, .const 0⟩
def PLN_SLOT_STATUS.STATE : Fld := ⟨.plnSlot, 0x008, 1, 8, 1, 0, 0, 3, .ro, .const 0⟩
def PLN_SLOT_STATUS.STATUS : Fld := ⟨.plnSlot, 0x008, 1, 8, 1, 0, 8, 8, .ro, .const 0⟩
def PLN_SLOT_STATUS.CHECK : Fld := ⟨.plnSlot, 0x008, 1, 8, 1, 0, 16, 8, .ro, .const 0⟩
def PLN_SLOT_STATUS.SECTION : Fld := ⟨.plnSlot, 0x008, 1, 8, 1, 0, 24, 6, .ro, .const 0⟩
def PLN_SLOT_STATUS.CMD_REJECT : Fld := ⟨.plnSlot, 0x008, 1, 8, 1, 0, 31, 1, .rc, .const 0⟩
def PLN_SLOT_STATUS.ITEM : Fld := ⟨.plnSlot, 0x008, 1, 8, 1, 0, 32, 16, .ro, .const 0⟩
def PLN_IMG_ADDR.ADDR : Fld := ⟨.plnSlot, 0x010, 1, 8, 1, 0, 12, 28, .rw, .const 0⟩
def PLN_IMG_LEN.LEN : Fld := ⟨.plnSlot, 0x018, 1, 8, 1, 0, 0, 27, .rw, .const 0⟩
def PLN_PLACE.DD : Fld := ⟨.plnSlot, 0x020, 1, 8, 1, 0, 0, 2, .rw, .const 0⟩
def PLN_PLACE.DR : Fld := ⟨.plnSlot, 0x020, 1, 8, 1, 0, 2, 3, .rw, .const 0⟩
def PLN_PLACE.DC : Fld := ⟨.plnSlot, 0x020, 1, 8, 1, 0, 5, 4, .rw, .const 0⟩
def PLN_WINDOW.BASE_GIB : Fld := ⟨.plnSlot, 0x028, 1, 8, 1, 0, 0, 10, .rw, .const 0⟩
def PLN_DIGEST.DIGEST : Fld := ⟨.plnSlot, 0x030, 8, 8, 1, 0, 0, 64, .ro, .const 0⟩
def PLN_INFO.VERSION : Fld := ⟨.plnSlot, 0x070, 1, 8, 1, 0, 0, 16, .ro, .const 0⟩
def PLN_INFO.CLUSTERS : Fld := ⟨.plnSlot, 0x070, 1, 8, 1, 0, 16, 10, .ro, .const 0⟩
def PLN_INFO.STAGES : Fld := ⟨.plnSlot, 0x070, 1, 8, 1, 0, 32, 9, .ro, .const 0⟩
def PLN_SVN.SVN_TAG : Fld := ⟨.plnSlot, 0x078, 1, 8, 1, 0, 0, 64, .ro, .const 0⟩
def PLN_CLUSTERS.OWNED : Fld := ⟨.plnSlot, 0x080, 8, 8, 1, 0, 0, 64, .ro, .const 0⟩
def PLN_CAPS.SLOTS : Fld := ⟨.plnGlobal, 0x000, 1, 8, 1, 0, 0, 5, .ro, .const 16⟩
def PLN_CAPS.MAX_IMAGE_LOG2 : Fld := ⟨.plnGlobal, 0x000, 1, 8, 1, 0, 8, 8, .ro, .const 26⟩
def PLN_CAPS.WINDOW : Fld := ⟨.plnGlobal, 0x000, 1, 8, 1, 0, 16, 1, .ro, .const 1⟩
def PLN_INT_EN.DONE : Fld := ⟨.plnGlobal, 0x008, 1, 8, 1, 0, 0, 16, .rw, .const 0⟩
def PLN_INT_STATUS.DONE : Fld := ⟨.plnGlobal, 0x010, 1, 8, 1, 0, 0, 16, .w1c, .const 0⟩
def PLN_INT_EN.FAIL : Fld := ⟨.plnGlobal, 0x008, 1, 8, 1, 0, 16, 16, .rw, .const 0⟩
def PLN_INT_STATUS.FAIL : Fld := ⟨.plnGlobal, 0x010, 1, 8, 1, 0, 16, 16, .w1c, .const 0⟩
def PLN_INT_EN.RETIRE : Fld := ⟨.plnGlobal, 0x008, 1, 8, 1, 0, 32, 16, .rw, .const 0⟩
def PLN_INT_STATUS.RETIRE : Fld := ⟨.plnGlobal, 0x010, 1, 8, 1, 0, 32, 16, .w1c, .const 0⟩
def PLN_INT_EN.RELOAD : Fld := ⟨.plnGlobal, 0x008, 1, 8, 1, 0, 48, 16, .rw, .const 0⟩
def PLN_INT_STATUS.RELOAD : Fld := ⟨.plnGlobal, 0x010, 1, 8, 1, 0, 48, 16, .w1c, .const 0⟩

/-- Fields of spec/04, part 0. -/
def fields04_0 : List Fld :=
  [PLN_SLOT_CTRL.CMD, PLN_SLOT_CTRL.PRED, PLN_SLOT_STATUS.STATE, PLN_SLOT_STATUS.STATUS,
   PLN_SLOT_STATUS.CHECK, PLN_SLOT_STATUS.SECTION, PLN_SLOT_STATUS.CMD_REJECT, PLN_SLOT_STATUS.ITEM,
   PLN_IMG_ADDR.ADDR, PLN_IMG_LEN.LEN, PLN_PLACE.DD, PLN_PLACE.DR,
   PLN_PLACE.DC, PLN_WINDOW.BASE_GIB, PLN_DIGEST.DIGEST, PLN_INFO.VERSION,
   PLN_INFO.CLUSTERS, PLN_INFO.STAGES, PLN_SVN.SVN_TAG, PLN_CLUSTERS.OWNED,
   PLN_CAPS.SLOTS, PLN_CAPS.MAX_IMAGE_LOG2, PLN_CAPS.WINDOW, PLN_INT_EN.DONE,
   PLN_INT_STATUS.DONE, PLN_INT_EN.FAIL, PLN_INT_STATUS.FAIL, PLN_INT_EN.RETIRE,
   PLN_INT_STATUS.RETIRE, PLN_INT_EN.RELOAD, PLN_INT_STATUS.RELOAD]

/-! ## Deadlines and execution (R171, R172) -/

def DLN_TIMER.NS : Fld := ⟨.dlnDie, 0x000, 1, 8, 1, 0, 0, 64, .ro, .const 0⟩
def DLN_BEAT.RATE : Fld := ⟨.dlnDie, 0x008, 1, 8, 1, 0, 0, 16, .ro, .const 0⟩
def DLN_BEAT.MIN : Fld := ⟨.dlnDie, 0x008, 1, 8, 1, 0, 16, 16, .rc, .const 65535⟩
def DLN_BEAT.MAX : Fld := ⟨.dlnDie, 0x008, 1, 8, 1, 0, 32, 16, .rc, .const 0⟩
def DLN_WDOG.PERIOD_US : Fld := ⟨.dlnDie, 0x010, 1, 8, 1, 0, 0, 32, .rw, .const 100000⟩
def DLN_WDOG.EN : Fld := ⟨.dlnDie, 0x010, 1, 8, 1, 0, 32, 1, .rw, .const 1⟩
def DLN_WDOG.REJECT : Fld := ⟨.dlnDie, 0x010, 1, 8, 1, 0, 40, 8, .ro, .const 0⟩
def DLN_ADMIT.GROUP : Fld := ⟨.dlnDie, 0x018, 1, 8, 1, 0, 0, 4, .ro, .const 8⟩
def DLN_ADMIT.WINDOW : Fld := ⟨.dlnDie, 0x018, 1, 8, 1, 0, 8, 8, .ro, .const 48⟩
def DLN_ADMIT.MAX_WAIT : Fld := ⟨.dlnDie, 0x018, 1, 8, 1, 0, 16, 16, .rc, .const 0⟩
def DLN_ADMIT.DELAYED : Fld := ⟨.dlnDie, 0x018, 1, 8, 1, 0, 32, 32, .rc, .const 0⟩
def DLN_SLOT_CMD.CMD : Fld := ⟨.dlnSlot, 0x000, 1, 8, 1, 0, 0, 3, .wo, .const 0⟩
def DLN_SLOT_CMD.CONT : Fld := ⟨.dlnSlot, 0x000, 1, 8, 1, 0, 3, 1, .wo, .const 0⟩
def DLN_SLOT_CMD.PASSES : Fld := ⟨.dlnSlot, 0x000, 1, 8, 1, 0, 8, 32, .wo, .const 0⟩
def DLN_SLOT_EXEC.EXEC : Fld := ⟨.dlnSlot, 0x008, 1, 8, 1, 0, 0, 2, .ro, .const 0⟩
def DLN_SLOT_EXEC.CONT : Fld := ⟨.dlnSlot, 0x008, 1, 8, 1, 0, 2, 1, .ro, .const 0⟩
def DLN_SLOT_EXEC.HALT_STATUS : Fld := ⟨.dlnSlot, 0x008, 1, 8, 1, 0, 8, 8, .ro, .const 0⟩
def DLN_SLOT_EXEC.HALT_CLUSTER : Fld := ⟨.dlnSlot, 0x008, 1, 8, 1, 0, 16, 9, .ro, .const 0⟩
def DLN_SLOT_EXEC.CMD_REJECT : Fld := ⟨.dlnSlot, 0x008, 1, 8, 1, 0, 32, 1, .rc, .const 0⟩
def DLN_GRANT.G : Fld := ⟨.dlnSlot, 0x010, 1, 8, 1, 0, 0, 48, .ro, .const 0⟩
def DLN_STARTED.BEGUN : Fld := ⟨.dlnSlot, 0x018, 1, 8, 1, 0, 0, 48, .ro, .const 0⟩
def DLN_DONE.DONE : Fld := ⟨.dlnSlot, 0x020, 1, 8, 1, 0, 0, 48, .ro, .const 0⟩
def DLN_FALLBACK.COUNT : Fld := ⟨.dlnSlot, 0x028, 1, 8, 1, 0, 0, 48, .rc, .const 0⟩
def DLN_LATE.COUNT : Fld := ⟨.dlnSlot, 0x030, 1, 8, 1, 0, 0, 48, .rc, .const 0⟩
def DLN_LATE_MAX.NS : Fld := ⟨.dlnSlot, 0x038, 1, 8, 1, 0, 0, 32, .rc, .const 0⟩
def DLN_MISS_LAST.ENTRY : Fld := ⟨.dlnSlot, 0x040, 1, 8, 1, 0, 0, 16, .ro, .const 0⟩
def DLN_MISS_LAST.CLUSTER : Fld := ⟨.dlnSlot, 0x040, 1, 8, 1, 0, 16, 9, .ro, .const 0⟩
def DLN_MISS_LAST.KIND : Fld := ⟨.dlnSlot, 0x040, 1, 8, 1, 0, 25, 2, .ro, .const 0⟩
def DLN_MISS_LAST.VALID : Fld := ⟨.dlnSlot, 0x040, 1, 8, 1, 0, 27, 1, .rc, .const 0⟩
def DLN_MISS_LAST.PASS : Fld := ⟨.dlnSlot, 0x040, 1, 8, 1, 0, 32, 32, .ro, .const 0⟩
def DLN_STALL.STEP : Fld := ⟨.dlnSlot, 0x048, 1, 8, 1, 0, 0, 10, .ro, .const 0⟩
def DLN_STALL.STEP_OPC : Fld := ⟨.dlnSlot, 0x048, 1, 8, 1, 0, 10, 4, .ro, .const 0⟩
def DLN_STALL.CNT : Fld := ⟨.dlnSlot, 0x048, 1, 8, 1, 0, 14, 8, .ro, .const 0⟩
def DLN_STALL.CLUSTER : Fld := ⟨.dlnSlot, 0x048, 1, 8, 1, 0, 22, 9, .ro, .const 0⟩
def DLN_STALL.VALID : Fld := ⟨.dlnSlot, 0x048, 1, 8, 1, 0, 31, 1, .rc, .const 0⟩
def DLN_INT_EN.IDLE : Fld := ⟨.dlnSlot, 0x050, 1, 8, 1, 0, 0, 1, .rw, .const 0⟩
def DLN_INT_STATUS.IDLE : Fld := ⟨.dlnSlot, 0x058, 1, 8, 1, 0, 0, 1, .w1c, .const 0⟩
def DLN_INT_EN.FALLBACK : Fld := ⟨.dlnSlot, 0x050, 1, 8, 1, 0, 1, 1, .rw, .const 0⟩
def DLN_INT_STATUS.FALLBACK : Fld := ⟨.dlnSlot, 0x058, 1, 8, 1, 0, 1, 1, .w1c, .const 0⟩
def DLN_INT_EN.LATE : Fld := ⟨.dlnSlot, 0x050, 1, 8, 1, 0, 2, 1, .rw, .const 0⟩
def DLN_INT_STATUS.LATE : Fld := ⟨.dlnSlot, 0x058, 1, 8, 1, 0, 2, 1, .w1c, .const 0⟩
def DLN_INT_EN.HALT : Fld := ⟨.dlnSlot, 0x050, 1, 8, 1, 0, 3, 1, .rw, .const 0⟩
def DLN_INT_STATUS.HALT : Fld := ⟨.dlnSlot, 0x058, 1, 8, 1, 0, 3, 1, .w1c, .const 0⟩
def DLN_INT_EN.MOLT_DONE : Fld := ⟨.dlnSlot, 0x050, 1, 8, 1, 0, 4, 1, .rw, .const 0⟩
def DLN_INT_STATUS.MOLT_DONE : Fld := ⟨.dlnSlot, 0x058, 1, 8, 1, 0, 4, 1, .w1c, .const 0⟩
def DLN_INT_EN.MOLT_CANCEL : Fld := ⟨.dlnSlot, 0x050, 1, 8, 1, 0, 5, 1, .rw, .const 0⟩
def DLN_INT_STATUS.MOLT_CANCEL : Fld := ⟨.dlnSlot, 0x058, 1, 8, 1, 0, 5, 1, .w1c, .const 0⟩

/-- Fields of spec/05, part 0. -/
def fields05_0 : List Fld :=
  [DLN_TIMER.NS, DLN_BEAT.RATE, DLN_BEAT.MIN, DLN_BEAT.MAX,
   DLN_WDOG.PERIOD_US, DLN_WDOG.EN, DLN_WDOG.REJECT, DLN_ADMIT.GROUP,
   DLN_ADMIT.WINDOW, DLN_ADMIT.MAX_WAIT, DLN_ADMIT.DELAYED, DLN_SLOT_CMD.CMD,
   DLN_SLOT_CMD.CONT, DLN_SLOT_CMD.PASSES, DLN_SLOT_EXEC.EXEC, DLN_SLOT_EXEC.CONT,
   DLN_SLOT_EXEC.HALT_STATUS, DLN_SLOT_EXEC.HALT_CLUSTER, DLN_SLOT_EXEC.CMD_REJECT, DLN_GRANT.G,
   DLN_STARTED.BEGUN, DLN_DONE.DONE, DLN_FALLBACK.COUNT, DLN_LATE.COUNT,
   DLN_LATE_MAX.NS, DLN_MISS_LAST.ENTRY, DLN_MISS_LAST.CLUSTER, DLN_MISS_LAST.KIND,
   DLN_MISS_LAST.VALID, DLN_MISS_LAST.PASS, DLN_STALL.STEP, DLN_STALL.STEP_OPC,
   DLN_STALL.CNT, DLN_STALL.CLUSTER, DLN_STALL.VALID, DLN_INT_EN.IDLE,
   DLN_INT_STATUS.IDLE, DLN_INT_EN.FALLBACK, DLN_INT_STATUS.FALLBACK, DLN_INT_EN.LATE]

/-- Fields of spec/05, part 1. -/
def fields05_1 : List Fld :=
  [DLN_INT_STATUS.LATE, DLN_INT_EN.HALT, DLN_INT_STATUS.HALT, DLN_INT_EN.MOLT_DONE,
   DLN_INT_STATUS.MOLT_DONE, DLN_INT_EN.MOLT_CANCEL, DLN_INT_STATUS.MOLT_CANCEL]

/-! ## Movers and landing counters (R204, R206) -/

def MOV_STATE.STATE0 : Fld := ⟨.mov, 0x000, 1, 8, 1, 0, 0, 2, .ro, .const 0⟩
def MOV_STATE.OP0 : Fld := ⟨.mov, 0x000, 1, 8, 1, 0, 2, 4, .ro, .const 0⟩
def MOV_STATE.SRC0 : Fld := ⟨.mov, 0x000, 1, 8, 1, 0, 6, 2, .ro, .const 0⟩
def MOV_STATE.STATE1 : Fld := ⟨.mov, 0x000, 1, 8, 1, 0, 8, 2, .ro, .const 0⟩
def MOV_STATE.OP1 : Fld := ⟨.mov, 0x000, 1, 8, 1, 0, 10, 4, .ro, .const 0⟩
def MOV_STATE.SRC1 : Fld := ⟨.mov, 0x000, 1, 8, 1, 0, 14, 2, .ro, .const 0⟩
def MOV_STATE.HOSTQ0 : Fld := ⟨.mov, 0x000, 1, 8, 1, 0, 16, 1, .ro, .const 0⟩
def MOV_STATE.HOSTQ1 : Fld := ⟨.mov, 0x000, 1, 8, 1, 0, 17, 1, .ro, .const 0⟩
def MOV_DONE0.MOVES : Fld := ⟨.mov, 0x008, 1, 8, 1, 0, 0, 48, .rc, .const 0⟩
def MOV_DONE1.MOVES : Fld := ⟨.mov, 0x010, 1, 8, 1, 0, 0, 48, .rc, .const 0⟩
def MOV_BYTES0.BYTES : Fld := ⟨.mov, 0x018, 1, 8, 1, 0, 0, 48, .rc, .const 0⟩
def MOV_BYTES1.BYTES : Fld := ⟨.mov, 0x020, 1, 8, 1, 0, 0, 48, .rc, .const 0⟩
def MOV_ERR.STATUS : Fld := ⟨.mov, 0x028, 1, 8, 1, 0, 0, 8, .ro, .const 0⟩
def MOV_ERR.MOVER : Fld := ⟨.mov, 0x028, 1, 8, 1, 0, 8, 1, .ro, .const 0⟩
def MOV_ERR.SRC : Fld := ⟨.mov, 0x028, 1, 8, 1, 0, 9, 2, .ro, .const 0⟩
def MOV_ERR.VALID : Fld := ⟨.mov, 0x028, 1, 8, 1, 0, 11, 1, .rc, .const 0⟩
def MOV_ERR.LANDED : Fld := ⟨.mov, 0x028, 1, 8, 1, 0, 16, 48, .ro, .const 0⟩
def MOV_ERR_DESC.Q : Fld := ⟨.mov, 0x030, 8, 8, 1, 0, 0, 64, .ro, .const 0⟩
def MOV_WDOG.PERIOD_US : Fld := ⟨.mov, 0x070, 1, 8, 1, 0, 0, 32, .rw, .const 100000⟩
def MOV_WDOG.EN : Fld := ⟨.mov, 0x070, 1, 8, 1, 0, 32, 1, .rw, .const 1⟩
def MOV_WDOG.REJECT : Fld := ⟨.mov, 0x070, 1, 8, 1, 0, 40, 8, .ro, .const 0⟩
def MOV_ROWS.ROWS : Fld := ⟨.mov, 0x078, 1, 8, 1, 0, 0, 48, .rc, .const 0⟩
def MOV_INT_EN.ERR : Fld := ⟨.mov, 0x080, 1, 8, 1, 0, 0, 1, .rw, .const 0⟩
def MOV_INT_STATUS.ERR : Fld := ⟨.mov, 0x088, 1, 8, 1, 0, 0, 1, .w1c, .const 0⟩
def MOV_INT_EN.WDOG : Fld := ⟨.mov, 0x080, 1, 8, 1, 0, 1, 1, .rw, .const 0⟩
def MOV_INT_STATUS.WDOG : Fld := ⟨.mov, 0x088, 1, 8, 1, 0, 1, 1, .w1c, .const 0⟩
def LND_CNT.COUNT : Fld := ⟨.lnd, 0x000, 256, 8, 1, 0, 0, 48, .ro, .const 0⟩
def LND_ADD.CNT : Fld := ⟨.lnd, 0x800, 1, 8, 1, 0, 0, 8, .wo, .const 0⟩
def LND_ADD.AMOUNT : Fld := ⟨.lnd, 0x800, 1, 8, 1, 0, 16, 32, .wo, .const 0⟩
def LND_TIMEOUT.US : Fld := ⟨.lnd, 0x808, 1, 8, 1, 0, 0, 32, .rw, .const 1000000⟩
def LND_TIMEOUT.REJECT : Fld := ⟨.lnd, 0x808, 1, 8, 1, 0, 40, 8, .ro, .const 0⟩
def LND_WATCH.CNT : Fld := ⟨.lnd, 0x810, 1, 8, 1, 0, 0, 8, .rw, .const 0⟩
def LND_WATCH.ARMED : Fld := ⟨.lnd, 0x810, 1, 8, 1, 0, 8, 1, .ro, .const 0⟩
def LND_WATCH.TARGET : Fld := ⟨.lnd, 0x810, 1, 8, 1, 0, 16, 48, .rw, .const 0⟩
def LND_WAITING.CNT : Fld := ⟨.lnd, 0x818, 1, 8, 1, 0, 0, 8, .ro, .const 0⟩
def LND_WAITING.ACTIVE : Fld := ⟨.lnd, 0x818, 1, 8, 1, 0, 8, 1, .ro, .const 0⟩
def LND_WAITING.TARGET : Fld := ⟨.lnd, 0x818, 1, 8, 1, 0, 16, 48, .ro, .const 0⟩
def LND_TIMEOUT_LAST.CNT : Fld := ⟨.lnd, 0x820, 1, 8, 1, 0, 0, 8, .ro, .const 0⟩
def LND_TIMEOUT_LAST.VALID : Fld := ⟨.lnd, 0x820, 1, 8, 1, 0, 8, 1, .rc, .const 0⟩
def LND_TIMEOUT_LAST.TARGET : Fld := ⟨.lnd, 0x820, 1, 8, 1, 0, 16, 48, .ro, .const 0⟩
def LND_TIMEOUT_COUNT.COUNT : Fld := ⟨.lnd, 0x828, 1, 8, 1, 0, 0, 48, .ro, .const 0⟩
def LND_CLEAR.CNT : Fld := ⟨.lnd, 0x830, 1, 8, 1, 0, 0, 8, .wo, .const 0⟩
def LND_CLEAR.ALL : Fld := ⟨.lnd, 0x830, 1, 8, 1, 0, 8, 1, .wo, .const 0⟩
def LND_INT_EN.WATCH : Fld := ⟨.lnd, 0x838, 1, 8, 1, 0, 0, 1, .rw, .const 0⟩
def LND_INT_STATUS.WATCH : Fld := ⟨.lnd, 0x840, 1, 8, 1, 0, 0, 1, .w1c, .const 0⟩
def LND_INT_EN.TIMEOUT : Fld := ⟨.lnd, 0x838, 1, 8, 1, 0, 1, 1, .rw, .const 0⟩
def LND_INT_STATUS.TIMEOUT : Fld := ⟨.lnd, 0x840, 1, 8, 1, 0, 1, 1, .w1c, .const 0⟩

/-- Fields of spec/06, part 0. -/
def fields06_0 : List Fld :=
  [MOV_STATE.STATE0, MOV_STATE.OP0, MOV_STATE.SRC0, MOV_STATE.STATE1,
   MOV_STATE.OP1, MOV_STATE.SRC1, MOV_STATE.HOSTQ0, MOV_STATE.HOSTQ1,
   MOV_DONE0.MOVES, MOV_DONE1.MOVES, MOV_BYTES0.BYTES, MOV_BYTES1.BYTES,
   MOV_ERR.STATUS, MOV_ERR.MOVER, MOV_ERR.SRC, MOV_ERR.VALID,
   MOV_ERR.LANDED, MOV_ERR_DESC.Q, MOV_WDOG.PERIOD_US, MOV_WDOG.EN,
   MOV_WDOG.REJECT, MOV_ROWS.ROWS, MOV_INT_EN.ERR, MOV_INT_STATUS.ERR,
   MOV_INT_EN.WDOG, MOV_INT_STATUS.WDOG, LND_CNT.COUNT, LND_ADD.CNT,
   LND_ADD.AMOUNT, LND_TIMEOUT.US, LND_TIMEOUT.REJECT, LND_WATCH.CNT,
   LND_WATCH.ARMED, LND_WATCH.TARGET, LND_WAITING.CNT, LND_WAITING.ACTIVE,
   LND_WAITING.TARGET, LND_TIMEOUT_LAST.CNT, LND_TIMEOUT_LAST.VALID, LND_TIMEOUT_LAST.TARGET]

/-- Fields of spec/06, part 1. -/
def fields06_1 : List Fld :=
  [LND_TIMEOUT_COUNT.COUNT, LND_CLEAR.CNT, LND_CLEAR.ALL, LND_INT_EN.WATCH,
   LND_INT_STATUS.WATCH, LND_INT_EN.TIMEOUT, LND_INT_STATUS.TIMEOUT]

/-! ## The tier manager (R239) -/

def TIER_CTRL.EN : Fld := ⟨.tier, 0x000, 1, 8, 1, 0, 0, 1, .rw, .const 0⟩
def TIER_CTRL.MODE : Fld := ⟨.tier, 0x000, 1, 8, 1, 0, 1, 1, .rw, .const 0⟩
def TIER_CTRL.READY : Fld := ⟨.tier, 0x000, 1, 8, 1, 0, 2, 1, .ro, .const 0⟩
def TIER_CTRL.REJECT : Fld := ⟨.tier, 0x000, 1, 8, 1, 0, 8, 8, .ro, .const 0⟩
def TIER_CTRL.ERASE_SHARE : Fld := ⟨.tier, 0x000, 1, 8, 1, 0, 16, 4, .rw, .const 4⟩
def TIER_META_BASE.BASE : Fld := ⟨.tier, 0x008, 1, 8, 1, 0, 21, 19, .rw, .const 0⟩
def TIER_POOL_BASE.BASE : Fld := ⟨.tier, 0x010, 1, 8, 1, 0, 16, 24, .rw, .const 0⟩
def TIER_POOL_LIMIT.LIMIT : Fld := ⟨.tier, 0x018, 1, 8, 1, 0, 16, 24, .rw, .const 0⟩
def TIER_CMD.Q : Fld := ⟨.tier, 0x020, 4, 8, 1, 0, 0, 64, .rw, .const 0⟩
def TIER_CMD_GO.GO : Fld := ⟨.tier, 0x040, 1, 8, 1, 0, 0, 1, .wo, .const 0⟩
def TIER_CMD_GO.BUSY : Fld := ⟨.tier, 0x040, 1, 8, 1, 0, 1, 1, .ro, .const 0⟩
def TIER_RESULT0.Q : Fld := ⟨.tier, 0x048, 1, 8, 1, 0, 0, 64, .ro, .const 0⟩
def TIER_RESULT1.Q : Fld := ⟨.tier, 0x050, 1, 8, 1, 0, 0, 64, .ro, .const 0⟩
def TIER_OBJ_USED.COUNT : Fld := ⟨.tier, 0x058, 1, 8, 1, 0, 0, 23, .ro, .const 0⟩
def TIER_CTX_USED.COUNT : Fld := ⟨.tier, 0x060, 1, 8, 1, 0, 0, 21, .ro, .const 0⟩
def TIER_T1_FREE.UNITS : Fld := ⟨.tier, 0x068, 1, 8, 1, 0, 0, 24, .ro, .const 0⟩
def TIER_T1_LARGEST.UNITS : Fld := ⟨.tier, 0x070, 1, 8, 1, 0, 0, 24, .ro, .const 0⟩
def TIER_ERASE_PENDING.UNITS : Fld := ⟨.tier, 0x078, 1, 8, 1, 0, 0, 24, .ro, .const 0⟩
def TIER_EVICTS.COUNT : Fld := ⟨.tier, 0x080, 1, 8, 1, 0, 0, 48, .rc, .const 0⟩
def TIER_FETCHES.COUNT : Fld := ⟨.tier, 0x088, 1, 8, 1, 0, 0, 48, .rc, .const 0⟩
def TIER_CANCELS.COUNT : Fld := ⟨.tier, 0x090, 1, 8, 1, 0, 0, 48, .rc, .const 0⟩
def TIER_T2_BYTES.BYTES : Fld := ⟨.tier, 0x098, 1, 8, 1, 0, 0, 48, .rc, .const 0⟩
def TIER_ERR.STATUS : Fld := ⟨.tier, 0x0A0, 1, 8, 1, 0, 0, 8, .ro, .const 0⟩
def TIER_ERR.CMD : Fld := ⟨.tier, 0x0A0, 1, 8, 1, 0, 8, 5, .ro, .const 0⟩
def TIER_ERR.DETAIL : Fld := ⟨.tier, 0x0A0, 1, 8, 1, 0, 13, 4, .ro, .const 0⟩
def TIER_ERR.VALID : Fld := ⟨.tier, 0x0A0, 1, 8, 1, 0, 17, 1, .rc, .const 0⟩
def TIER_ERR.HANDLE : Fld := ⟨.tier, 0x0A0, 1, 8, 1, 0, 32, 32, .ro, .const 0⟩
def TIER_INT_EN.ERR : Fld := ⟨.tier, 0x0A8, 1, 8, 1, 0, 0, 1, .rw, .const 0⟩
def TIER_INT_STATUS.ERR : Fld := ⟨.tier, 0x0B0, 1, 8, 1, 0, 0, 1, .w1c, .const 0⟩
def TIER_INT_EN.UNITS_LOW : Fld := ⟨.tier, 0x0A8, 1, 8, 1, 0, 1, 1, .rw, .const 0⟩
def TIER_INT_STATUS.UNITS_LOW : Fld := ⟨.tier, 0x0B0, 1, 8, 1, 0, 1, 1, .w1c, .const 0⟩
def TIER_INT_EN.TABLE_LOW : Fld := ⟨.tier, 0x0A8, 1, 8, 1, 0, 2, 1, .rw, .const 0⟩
def TIER_INT_STATUS.TABLE_LOW : Fld := ⟨.tier, 0x0B0, 1, 8, 1, 0, 2, 1, .w1c, .const 0⟩
def TIER_INT_EN.READY : Fld := ⟨.tier, 0x0A8, 1, 8, 1, 0, 3, 1, .rw, .const 0⟩
def TIER_INT_STATUS.READY : Fld := ⟨.tier, 0x0B0, 1, 8, 1, 0, 3, 1, .w1c, .const 0⟩
def TIER_LOW_MARK.UNITS : Fld := ⟨.tier, 0x0B8, 1, 8, 1, 0, 0, 24, .rw, .const 0⟩
def TIER_LOW_MARK.ENTRIES : Fld := ⟨.tier, 0x0B8, 1, 8, 1, 0, 24, 23, .rw, .const 0⟩
def TIER_CAPS.OBJECTS_LOG2 : Fld := ⟨.tier, 0x0C0, 1, 8, 1, 0, 0, 8, .ro, .const 22⟩
def TIER_CAPS.CONTEXTS_LOG2 : Fld := ⟨.tier, 0x0C0, 1, 8, 1, 0, 8, 8, .ro, .const 20⟩
def TIER_CAPS.UNIT_LOG2 : Fld := ⟨.tier, 0x0C0, 1, 8, 1, 0, 16, 8, .ro, .const 16⟩
def TIER_CAPS.MAX_OBJECT_LOG2 : Fld := ⟨.tier, 0x0C0, 1, 8, 1, 0, 24, 8, .ro, .const 34⟩
def TIER_CAPS.CHANNELS : Fld := ⟨.tier, 0x0C0, 1, 8, 1, 0, 32, 8, .ro, .const 16⟩
def TIER_SESSION.SESSION : Fld := ⟨.tier, 0x0C8, 1, 8, 1, 0, 0, 64, .ro, .const 0⟩

/-- Fields of spec/07, part 0. -/
def fields07_0 : List Fld :=
  [TIER_CTRL.EN, TIER_CTRL.MODE, TIER_CTRL.READY, TIER_CTRL.REJECT,
   TIER_CTRL.ERASE_SHARE, TIER_META_BASE.BASE, TIER_POOL_BASE.BASE, TIER_POOL_LIMIT.LIMIT,
   TIER_CMD.Q, TIER_CMD_GO.GO, TIER_CMD_GO.BUSY, TIER_RESULT0.Q,
   TIER_RESULT1.Q, TIER_OBJ_USED.COUNT, TIER_CTX_USED.COUNT, TIER_T1_FREE.UNITS,
   TIER_T1_LARGEST.UNITS, TIER_ERASE_PENDING.UNITS, TIER_EVICTS.COUNT, TIER_FETCHES.COUNT,
   TIER_CANCELS.COUNT, TIER_T2_BYTES.BYTES, TIER_ERR.STATUS, TIER_ERR.CMD,
   TIER_ERR.DETAIL, TIER_ERR.VALID, TIER_ERR.HANDLE, TIER_INT_EN.ERR,
   TIER_INT_STATUS.ERR, TIER_INT_EN.UNITS_LOW, TIER_INT_STATUS.UNITS_LOW, TIER_INT_EN.TABLE_LOW,
   TIER_INT_STATUS.TABLE_LOW, TIER_INT_EN.READY, TIER_INT_STATUS.READY, TIER_LOW_MARK.UNITS,
   TIER_LOW_MARK.ENTRIES, TIER_CAPS.OBJECTS_LOG2, TIER_CAPS.CONTEXTS_LOG2, TIER_CAPS.UNIT_LOG2]

/-- Fields of spec/07, part 1. -/
def fields07_1 : List Fld :=
  [TIER_CAPS.MAX_OBJECT_LOG2, TIER_CAPS.CHANNELS, TIER_SESSION.SESSION]

/-! ## Core CSRs (R272) -/

def mcoreinfo.HART : Fld := ⟨.csr, 0x7E00, 1, 8, 1, 0, 0, 7, .ro, .instBits 0 7⟩
def mcoreinfo.GROUP : Fld := ⟨.csr, 0x7E00, 1, 8, 1, 0, 8, 4, .ro, .instBits 3 4⟩
def mcoreinfo.STEPPING : Fld := ⟨.csr, 0x7E00, 1, 8, 1, 0, 16, 8, .ro, .const 176⟩
def mcoreinfo.FREQ : Fld := ⟨.csr, 0x7E00, 1, 8, 1, 0, 32, 8, .ro, .const 36⟩
def mcorepwr.DEEP : Fld := ⟨.csr, 0x3E00, 1, 8, 1, 0, 0, 2, .rw, .const 0⟩
def mcorepwr.WAKE_IMSIC : Fld := ⟨.csr, 0x3E00, 1, 8, 1, 0, 2, 1, .rw, .const 1⟩
def mcorepwr.LAST : Fld := ⟨.csr, 0x3E00, 1, 8, 1, 0, 4, 2, .ro, .const 0⟩
def matomic.MODE : Fld := ⟨.csr, 0x3E08, 1, 8, 1, 0, 0, 2, .rw, .const 0⟩
def matomic.FLUSH : Fld := ⟨.csr, 0x3E08, 1, 8, 1, 0, 2, 1, .wo, .const 0⟩
def mwdog.EN : Fld := ⟨.csr, 0x3E10, 1, 8, 1, 0, 0, 1, .rw, .const 0⟩
def mwdog.KICK : Fld := ⟨.csr, 0x3E10, 1, 8, 1, 0, 1, 1, .wo, .const 0⟩
def mwdog.FIRED : Fld := ⟨.csr, 0x3E10, 1, 8, 1, 0, 2, 1, .w1c, .const 0⟩
def mwdog.PERIOD_MS : Fld := ⟨.csr, 0x3E10, 1, 8, 1, 0, 8, 24, .rw, .const 1000⟩
def mwdog.REJECT : Fld := ⟨.csr, 0x3E10, 1, 8, 1, 0, 40, 8, .ro, .const 0⟩
def mbuserr.ADDR : Fld := ⟨.csr, 0x3E18, 1, 8, 1, 0, 0, 40, .ro, .const 0⟩
def mbuserr.STATUS : Fld := ⟨.csr, 0x3E18, 1, 8, 1, 0, 40, 8, .ro, .const 0⟩
def mbuserr.VALID : Fld := ⟨.csr, 0x3E18, 1, 8, 1, 0, 48, 1, .rc, .const 0⟩
def mbuserr.MORE : Fld := ⟨.csr, 0x3E18, 1, 8, 1, 0, 49, 1, .rc, .const 0⟩

/-- Fields of spec/08, part 0. -/
def fields08_0 : List Fld :=
  [mcoreinfo.HART, mcoreinfo.GROUP, mcoreinfo.STEPPING, mcoreinfo.FREQ,
   mcorepwr.DEEP, mcorepwr.WAKE_IMSIC, mcorepwr.LAST, matomic.MODE,
   matomic.FLUSH, mwdog.EN, mwdog.KICK, mwdog.FIRED,
   mwdog.PERIOD_MS, mwdog.REJECT, mbuserr.ADDR, mbuserr.STATUS,
   mbuserr.VALID, mbuserr.MORE]

/-! ## The directory (R305) -/

def DIR_CAPS.ENTRIES : Fld := ⟨.dir, 0x000, 1, 8, 1, 0, 0, 24, .ro, .const 4194304⟩
def DIR_CAPS.WAYS : Fld := ⟨.dir, 0x000, 1, 8, 1, 0, 24, 8, .ro, .const 16⟩
def DIR_CAPS.TOKENS : Fld := ⟨.dir, 0x000, 1, 8, 1, 0, 32, 14, .ro, .const 8192⟩
def DIR_CAPS.POINTERS : Fld := ⟨.dir, 0x000, 1, 8, 1, 0, 48, 4, .ro, .const 3⟩
def DIR_CAPS.AGENTS : Fld := ⟨.dir, 0x000, 1, 8, 1, 0, 52, 7, .ro, .const 97⟩
def DIR_USED.COUNT : Fld := ⟨.dir, 0x008, 1, 8, 1, 0, 0, 23, .ro, .const 0⟩
def DIR_BUSY.NOW : Fld := ⟨.dir, 0x010, 1, 8, 1, 0, 0, 15, .ro, .const 0⟩
def DIR_BUSY.MAX : Fld := ⟨.dir, 0x010, 1, 8, 1, 0, 32, 15, .rc, .const 0⟩
def DIR_VICTIMS.COUNT : Fld := ⟨.dir, 0x018, 1, 8, 1, 0, 0, 48, .rc, .const 0⟩
def DIR_RETRIES.COUNT : Fld := ⟨.dir, 0x020, 1, 8, 1, 0, 0, 48, .rc, .const 0⟩
def DIR_CROSS.COUNT : Fld := ⟨.dir, 0x028, 1, 8, 1, 0, 0, 48, .rc, .const 0⟩
def DIR_STALE.COUNT : Fld := ⟨.dir, 0x030, 1, 8, 1, 0, 0, 48, .rc, .const 0⟩
def DIR_TOKENS.NOW : Fld := ⟨.dir, 0x038, 1, 8, 1, 0, 0, 14, .ro, .const 0⟩
def DIR_TOKENS.MAX : Fld := ⟨.dir, 0x038, 1, 8, 1, 0, 16, 14, .rc, .const 0⟩
def DIR_TOKENS.WAIT_MAX_NS : Fld := ⟨.dir, 0x038, 1, 8, 1, 0, 32, 32, .rc, .const 0⟩
def DIR_SNOOPS.COUNT : Fld := ⟨.dir, 0x040, 1, 8, 1, 0, 0, 48, .rc, .const 0⟩
def DIR_BISNP.COUNT : Fld := ⟨.dir, 0x048, 1, 8, 1, 0, 0, 48, .rc, .const 0⟩
def DIR_POISONED.COUNT : Fld := ⟨.dir, 0x050, 1, 8, 1, 0, 0, 48, .rc, .const 0⟩
def DIR_HOST_TMO.US : Fld := ⟨.dir, 0x058, 1, 8, 1, 0, 0, 32, .rw, .const 10000⟩
def DIR_HOST_TMO.REJECT : Fld := ⟨.dir, 0x058, 1, 8, 1, 0, 40, 8, .ro, .const 0⟩
def DIR_ECC.CORR : Fld := ⟨.dir, 0x060, 1, 8, 1, 0, 0, 32, .rc, .const 0⟩
def DIR_ECC.UNCORR : Fld := ⟨.dir, 0x060, 1, 8, 1, 0, 32, 16, .rc, .const 0⟩
def DIR_ERR.STATUS : Fld := ⟨.dir, 0x068, 1, 8, 1, 0, 0, 8, .ro, .const 0⟩
def DIR_ERR.AGENT : Fld := ⟨.dir, 0x068, 1, 8, 1, 0, 8, 7, .ro, .const 0⟩
def DIR_ERR.HOSTMEM : Fld := ⟨.dir, 0x068, 1, 8, 1, 0, 15, 1, .ro, .const 0⟩
def DIR_ERR.VALID : Fld := ⟨.dir, 0x068, 1, 8, 1, 0, 16, 1, .rc, .const 0⟩
def DIR_ERR_ADDR.LINE : Fld := ⟨.dir, 0x070, 1, 8, 1, 0, 6, 58, .ro, .const 0⟩
def DIR_LOOKUP_ADDR.HOSTMEM : Fld := ⟨.dir, 0x078, 1, 8, 1, 0, 0, 1, .rw, .const 0⟩
def DIR_LOOKUP_ADDR.LINE : Fld := ⟨.dir, 0x078, 1, 8, 1, 0, 6, 58, .rw, .const 0⟩
def DIR_LOOKUP_DATA.STATE : Fld := ⟨.dir, 0x080, 1, 8, 1, 0, 0, 2, .ro, .const 0⟩
def DIR_LOOKUP_DATA.HIT : Fld := ⟨.dir, 0x080, 1, 8, 1, 0, 2, 1, .ro, .const 0⟩
def DIR_LOOKUP_DATA.BUSY : Fld := ⟨.dir, 0x080, 1, 8, 1, 0, 3, 1, .ro, .const 0⟩
def DIR_LOOKUP_DATA.MODE : Fld := ⟨.dir, 0x080, 1, 8, 1, 0, 4, 1, .ro, .const 0⟩
def DIR_LOOKUP_DATA.OWNER : Fld := ⟨.dir, 0x080, 1, 8, 1, 0, 5, 7, .ro, .const 127⟩
def DIR_LOOKUP_DATA.SHARERS : Fld := ⟨.dir, 0x080, 1, 8, 1, 0, 12, 21, .ro, .const 2097151⟩
def DIR_LOOKUP_DATA.WAY : Fld := ⟨.dir, 0x080, 1, 8, 1, 0, 33, 4, .ro, .const 0⟩
def DIR_LOOKUP_DATA.SET : Fld := ⟨.dir, 0x080, 1, 8, 1, 0, 37, 18, .ro, .const 0⟩
def DIR_LOOKUP_DATA.VALID : Fld := ⟨.dir, 0x080, 1, 8, 1, 0, 55, 1, .rc, .const 0⟩
def DIR_INT_EN.ERR : Fld := ⟨.dir, 0x088, 1, 8, 1, 0, 0, 1, .rw, .const 0⟩
def DIR_INT_STATUS.ERR : Fld := ⟨.dir, 0x090, 1, 8, 1, 0, 0, 1, .w1c, .const 0⟩
def DIR_INT_EN.POISON : Fld := ⟨.dir, 0x088, 1, 8, 1, 0, 1, 1, .rw, .const 0⟩
def DIR_INT_STATUS.POISON : Fld := ⟨.dir, 0x090, 1, 8, 1, 0, 1, 1, .w1c, .const 0⟩
def DIR_INT_EN.HOST_TMO : Fld := ⟨.dir, 0x088, 1, 8, 1, 0, 2, 1, .rw, .const 0⟩
def DIR_INT_STATUS.HOST_TMO : Fld := ⟨.dir, 0x090, 1, 8, 1, 0, 2, 1, .w1c, .const 0⟩
def DIR_INT_EN.ECC_UNCORR : Fld := ⟨.dir, 0x088, 1, 8, 1, 0, 3, 1, .rw, .const 0⟩
def DIR_INT_STATUS.ECC_UNCORR : Fld := ⟨.dir, 0x090, 1, 8, 1, 0, 3, 1, .w1c, .const 0⟩
def DIR_INT_EN.TOKEN_HIGH : Fld := ⟨.dir, 0x088, 1, 8, 1, 0, 4, 1, .rw, .const 0⟩
def DIR_INT_STATUS.TOKEN_HIGH : Fld := ⟨.dir, 0x090, 1, 8, 1, 0, 4, 1, .w1c, .const 0⟩
def DIR_TOKEN_MARK.MARK : Fld := ⟨.dir, 0x098, 1, 8, 1, 0, 0, 14, .rw, .const 1024⟩

/-- Fields of spec/09, part 0. -/
def fields09_0 : List Fld :=
  [DIR_CAPS.ENTRIES, DIR_CAPS.WAYS, DIR_CAPS.TOKENS, DIR_CAPS.POINTERS,
   DIR_CAPS.AGENTS, DIR_USED.COUNT, DIR_BUSY.NOW, DIR_BUSY.MAX,
   DIR_VICTIMS.COUNT, DIR_RETRIES.COUNT, DIR_CROSS.COUNT, DIR_STALE.COUNT,
   DIR_TOKENS.NOW, DIR_TOKENS.MAX, DIR_TOKENS.WAIT_MAX_NS, DIR_SNOOPS.COUNT,
   DIR_BISNP.COUNT, DIR_POISONED.COUNT, DIR_HOST_TMO.US, DIR_HOST_TMO.REJECT,
   DIR_ECC.CORR, DIR_ECC.UNCORR, DIR_ERR.STATUS, DIR_ERR.AGENT,
   DIR_ERR.HOSTMEM, DIR_ERR.VALID, DIR_ERR_ADDR.LINE, DIR_LOOKUP_ADDR.HOSTMEM,
   DIR_LOOKUP_ADDR.LINE, DIR_LOOKUP_DATA.STATE, DIR_LOOKUP_DATA.HIT, DIR_LOOKUP_DATA.BUSY,
   DIR_LOOKUP_DATA.MODE, DIR_LOOKUP_DATA.OWNER, DIR_LOOKUP_DATA.SHARERS, DIR_LOOKUP_DATA.WAY,
   DIR_LOOKUP_DATA.SET, DIR_LOOKUP_DATA.VALID, DIR_INT_EN.ERR, DIR_INT_STATUS.ERR]

/-- Fields of spec/09, part 1. -/
def fields09_1 : List Fld :=
  [DIR_INT_EN.POISON, DIR_INT_STATUS.POISON, DIR_INT_EN.HOST_TMO, DIR_INT_STATUS.HOST_TMO,
   DIR_INT_EN.ECC_UNCORR, DIR_INT_STATUS.ECC_UNCORR, DIR_INT_EN.TOKEN_HIGH, DIR_INT_STATUS.TOKEN_HIGH,
   DIR_TOKEN_MARK.MARK]

/-! ## System cache, HBM, geyser engines (R336 to R338) -/

def SC_CAPS.SIZE_MIB : Fld := ⟨.sc, 0x000, 1, 8, 1, 0, 0, 16, .ro, .const 128⟩
def SC_CAPS.WAYS : Fld := ⟨.sc, 0x000, 1, 8, 1, 0, 16, 8, .ro, .const 16⟩
def SC_CAPS.SETS_LOG2 : Fld := ⟨.sc, 0x000, 1, 8, 1, 0, 24, 8, .ro, .const 17⟩
def SC_CAPS.LOCK_MAX : Fld := ⟨.sc, 0x000, 1, 8, 1, 0, 32, 8, .ro, .const 12⟩
def SC_ALLOC.CORE : Fld := ⟨.sc, 0x008, 1, 8, 1, 0, 0, 1, .rw, .const 1⟩
def SC_ALLOC.HOST : Fld := ⟨.sc, 0x008, 1, 8, 1, 0, 1, 1, .rw, .const 1⟩
def SC_ALLOC.MOVER : Fld := ⟨.sc, 0x008, 1, 8, 1, 0, 2, 1, .rw, .const 0⟩
def SC_ALLOC.COCOON : Fld := ⟨.sc, 0x008, 1, 8, 1, 0, 3, 1, .rw, .const 0⟩
def SC_WAY_STATE.STATE : Fld := ⟨.sc, 0x010, 1, 8, 16, 2, 0, 2, .ro, .const 0⟩
def SC_WAY_PWR.OFF_REQ : Fld := ⟨.sc, 0x018, 1, 8, 1, 0, 0, 16, .rw, .const 0⟩
def SC_WAY_PWR.REJECT : Fld := ⟨.sc, 0x018, 1, 8, 1, 0, 24, 8, .ro, .const 0⟩
def SC_LOCK.LOCKED : Fld := ⟨.sc, 0x020, 1, 8, 1, 0, 0, 16, .rw, .const 0⟩
def SC_LOCK.REJECT : Fld := ⟨.sc, 0x020, 1, 8, 1, 0, 24, 8, .ro, .const 0⟩
def SC_PRELOAD_BASE.BASE : Fld := ⟨.sc, 0x028, 1, 8, 1, 0, 6, 34, .rw, .const 0⟩
def SC_PRELOAD_LEN.LEN : Fld := ⟨.sc, 0x030, 1, 8, 1, 0, 0, 40, .rw, .const 0⟩
def SC_PRELOAD_CTRL.WAYS : Fld := ⟨.sc, 0x038, 1, 8, 1, 0, 0, 16, .wo, .const 0⟩
def SC_PRELOAD_CTRL.GO : Fld := ⟨.sc, 0x038, 1, 8, 1, 0, 16, 1, .wo, .const 0⟩
def SC_PRELOAD_CTRL.BUSY : Fld := ⟨.sc, 0x038, 1, 8, 1, 0, 17, 1, .ro, .const 0⟩
def SC_PRELOAD_CTRL.STATUS : Fld := ⟨.sc, 0x038, 1, 8, 1, 0, 24, 8, .ro, .const 0⟩
def SC_PRELOAD_RESULT.LOADED : Fld := ⟨.sc, 0x040, 1, 8, 1, 0, 0, 24, .ro, .const 0⟩
def SC_PRELOAD_RESULT.SKIPPED : Fld := ⟨.sc, 0x040, 1, 8, 1, 0, 24, 24, .ro, .const 0⟩
def SC_PF.EN : Fld := ⟨.sc, 0x048, 1, 8, 1, 0, 0, 1, .rw, .const 1⟩
def SC_PF.DIST : Fld := ⟨.sc, 0x048, 1, 8, 1, 0, 8, 6, .rw, .const 8⟩
def SC_PF.REJECT : Fld := ⟨.sc, 0x048, 1, 8, 1, 0, 24, 8, .ro, .const 0⟩
def SC_HITS.COUNT : Fld := ⟨.sc, 0x050, 1, 8, 1, 0, 0, 48, .rc, .const 0⟩
def SC_MISSES.COUNT : Fld := ⟨.sc, 0x058, 1, 8, 1, 0, 0, 48, .rc, .const 0⟩
def SC_PF_ISSUED.COUNT : Fld := ⟨.sc, 0x060, 1, 8, 1, 0, 0, 48, .rc, .const 0⟩
def SC_PF_USED.COUNT : Fld := ⟨.sc, 0x068, 1, 8, 1, 0, 0, 48, .rc, .const 0⟩
def SC_ECC.CORR : Fld := ⟨.sc, 0x070, 1, 8, 1, 0, 0, 32, .rc, .const 0⟩
def SC_ECC.REFETCH : Fld := ⟨.sc, 0x070, 1, 8, 1, 0, 32, 16, .rc, .const 0⟩
def SC_ECC.UNCORR : Fld := ⟨.sc, 0x070, 1, 8, 1, 0, 48, 16, .rc, .const 0⟩
def SC_WAY_THRESH.CORR_PER_S : Fld := ⟨.sc, 0x078, 1, 8, 1, 0, 0, 16, .rw, .const 32⟩
def SC_WAY_DISABLE.DISABLED : Fld := ⟨.sc, 0x080, 1, 8, 1, 0, 0, 16, .w1c, .const 0⟩
def SC_INT_EN.GATE_DONE : Fld := ⟨.sc, 0x088, 1, 8, 1, 0, 0, 1, .rw, .const 0⟩
def SC_INT_STATUS.GATE_DONE : Fld := ⟨.sc, 0x090, 1, 8, 1, 0, 0, 1, .w1c, .const 0⟩
def SC_INT_EN.WAY_DISABLED : Fld := ⟨.sc, 0x088, 1, 8, 1, 0, 1, 1, .rw, .const 0⟩
def SC_INT_STATUS.WAY_DISABLED : Fld := ⟨.sc, 0x090, 1, 8, 1, 0, 1, 1, .w1c, .const 0⟩
def SC_INT_EN.PRELOAD_DONE : Fld := ⟨.sc, 0x088, 1, 8, 1, 0, 2, 1, .rw, .const 0⟩
def SC_INT_STATUS.PRELOAD_DONE : Fld := ⟨.sc, 0x090, 1, 8, 1, 0, 2, 1, .w1c, .const 0⟩
def SC_INT_EN.ECC_UNCORR : Fld := ⟨.sc, 0x088, 1, 8, 1, 0, 3, 1, .rw, .const 0⟩
def SC_INT_STATUS.ECC_UNCORR : Fld := ⟨.sc, 0x090, 1, 8, 1, 0, 3, 1, .w1c, .const 0⟩
def SC_INT_EN.WAKE : Fld := ⟨.sc, 0x088, 1, 8, 1, 0, 4, 1, .rw, .const 0⟩
def SC_INT_STATUS.WAKE : Fld := ⟨.sc, 0x090, 1, 8, 1, 0, 4, 1, .w1c, .const 0⟩
def HBM_CAPS.PCS : Fld := ⟨.hbmGlobal, 0x000, 1, 8, 1, 0, 0, 10, .ro, .const 768⟩
def HBM_CAPS.STACKS : Fld := ⟨.hbmGlobal, 0x000, 1, 8, 1, 0, 10, 6, .ro, .const 12⟩
def HBM_MAP.P : Fld := ⟨.hbmGlobal, 0x008, 1, 8, 1, 0, 0, 10, .ro, .const 768⟩
def HBM_MAP.POLICY : Fld := ⟨.hbmGlobal, 0x008, 1, 8, 1, 0, 16, 1, .rw, .const 1⟩
def HBM_MAPOUT.OUT : Fld := ⟨.hbmGlobal, 0x010, 12, 8, 1, 0, 0, 64, .ro, .const 0⟩
def HBM_FAILED.FAILED : Fld := ⟨.hbmGlobal, 0x070, 12, 8, 1, 0, 0, 64, .ro, .const 0⟩
def HBM_PART.MIN : Fld := ⟨.hbmGlobal, 0x100, 16, 8, 1, 0, 0, 9, .rw, .const 0⟩
def HBM_PART.MAX : Fld := ⟨.hbmGlobal, 0x100, 16, 8, 1, 0, 16, 9, .rw, .const 256⟩
def HBM_PART.BURST_KIB : Fld := ⟨.hbmGlobal, 0x100, 16, 8, 1, 0, 32, 16, .rw, .const 64⟩
def HBM_PART.REJECT : Fld := ⟨.hbmGlobal, 0x100, 16, 8, 1, 0, 56, 8, .ro, .const 0⟩
def HBM_REFILL.US : Fld := ⟨.hbmGlobal, 0x180, 1, 8, 1, 0, 0, 16, .rw, .const 1⟩
def HBM_REFILL.REJECT : Fld := ⟨.hbmGlobal, 0x180, 1, 8, 1, 0, 56, 8, .ro, .const 0⟩
def HBM_PMAP_SEL.INDEX : Fld := ⟨.hbmGlobal, 0x188, 1, 8, 1, 0, 0, 10, .rw, .const 0⟩
def HBM_PMAP_DATA.PART : Fld := ⟨.hbmGlobal, 0x190, 1, 8, 1, 0, 0, 4, .rw, .const 0⟩
def HBM_SCRUB.EN : Fld := ⟨.hbmGlobal, 0x198, 1, 8, 1, 0, 0, 1, .rw, .const 1⟩
def HBM_SCRUB.PERIOD_H : Fld := ⟨.hbmGlobal, 0x198, 1, 8, 1, 0, 8, 8, .rw, .const 24⟩
def HBM_SCRUB.REJECT : Fld := ⟨.hbmGlobal, 0x198, 1, 8, 1, 0, 24, 8, .ro, .const 0⟩
def HBM_ERR_CORR.COUNT : Fld := ⟨.hbmHub, 0x000, 1, 8, 1, 0, 0, 48, .rc, .const 0⟩
def HBM_ERR_UNCORR.COUNT : Fld := ⟨.hbmHub, 0x008, 1, 8, 1, 0, 0, 48, .rc, .const 0⟩
def HBM_ERR_LAST.PC : Fld := ⟨.hbmHub, 0x010, 1, 8, 1, 0, 0, 10, .ro, .const 0⟩
def HBM_ERR_LAST.BANK : Fld := ⟨.hbmHub, 0x010, 1, 8, 1, 0, 10, 6, .ro, .const 0⟩
def HBM_ERR_LAST.ROW : Fld := ⟨.hbmHub, 0x010, 1, 8, 1, 0, 16, 14, .ro, .const 0⟩
def HBM_ERR_LAST.STATUS : Fld := ⟨.hbmHub, 0x010, 1, 8, 1, 0, 32, 8, .ro, .const 0⟩
def HBM_ERR_LAST.VALID : Fld := ⟨.hbmHub, 0x010, 1, 8, 1, 0, 40, 1, .rc, .const 0⟩
def HBM_PART_BYTES.BYTES : Fld := ⟨.hbmHub, 0x018, 16, 8, 1, 0, 0, 48, .rc, .const 0⟩
def HBM_ADD_OPS.COUNT : Fld := ⟨.hbmHub, 0x098, 1, 8, 1, 0, 0, 48, .rc, .const 0⟩
def HBM_TEMP.MAX_C : Fld := ⟨.hbmHub, 0x0A0, 1, 8, 1, 0, 0, 8, .ro, .const 0⟩
def HBM_INT_EN.ECC_UNCORR : Fld := ⟨.hbmHub, 0x0A8, 1, 8, 1, 0, 0, 1, .rw, .const 0⟩
def HBM_INT_STATUS.ECC_UNCORR : Fld := ⟨.hbmHub, 0x0B0, 1, 8, 1, 0, 0, 1, .w1c, .const 0⟩
def HBM_INT_EN.FAILED : Fld := ⟨.hbmHub, 0x0A8, 1, 8, 1, 0, 1, 1, .rw, .const 0⟩
def HBM_INT_STATUS.FAILED : Fld := ⟨.hbmHub, 0x0B0, 1, 8, 1, 0, 1, 1, .w1c, .const 0⟩
def HBM_INT_EN.TEMP_HIGH : Fld := ⟨.hbmHub, 0x0A8, 1, 8, 1, 0, 2, 1, .rw, .const 0⟩
def HBM_INT_STATUS.TEMP_HIGH : Fld := ⟨.hbmHub, 0x0B0, 1, 8, 1, 0, 2, 1, .w1c, .const 0⟩
def HBM_INT_EN.SCRUB_DONE : Fld := ⟨.hbmHub, 0x0A8, 1, 8, 1, 0, 3, 1, .rw, .const 0⟩
def HBM_INT_STATUS.SCRUB_DONE : Fld := ⟨.hbmHub, 0x0B0, 1, 8, 1, 0, 3, 1, .w1c, .const 0⟩
def GEY_CMD0.OP : Fld := ⟨.geyCmd, 0x000, 1, 8, 1, 0, 0, 3, .rw, .const 0⟩
def GEY_CMD0.PATTERN : Fld := ⟨.geyCmd, 0x000, 1, 8, 1, 0, 3, 3, .rw, .const 0⟩
def GEY_CMD0.PART : Fld := ⟨.geyCmd, 0x000, 1, 8, 1, 0, 6, 4, .rw, .const 0⟩
def GEY_CMD0.TAG : Fld := ⟨.geyCmd, 0x000, 1, 8, 1, 0, 16, 16, .rw, .const 0⟩
def GEY_CMD1.BASE : Fld := ⟨.geyCmd, 0x008, 1, 8, 1, 0, 0, 40, .rw, .const 0⟩
def GEY_CMD2.LENGTH : Fld := ⟨.geyCmd, 0x010, 1, 8, 1, 0, 0, 40, .rw, .const 0⟩
def GEY_CMD3.VALUE : Fld := ⟨.geyCmd, 0x018, 1, 8, 1, 0, 0, 64, .rw, .const 0⟩
def GEY_GO.GO : Fld := ⟨.geyCmd, 0x020, 1, 8, 1, 0, 0, 1, .wo, .const 0⟩
def GEY_GO.FULL : Fld := ⟨.geyCmd, 0x020, 1, 8, 1, 0, 1, 1, .ro, .const 0⟩
def GEY_DONE.STATUS : Fld := ⟨.geyCmd, 0x028, 1, 8, 1, 0, 0, 8, .rc, .const 0⟩
def GEY_DONE.TAG : Fld := ⟨.geyCmd, 0x028, 1, 8, 1, 0, 8, 16, .rc, .const 0⟩
def GEY_DONE.VALID : Fld := ⟨.geyCmd, 0x028, 1, 8, 1, 0, 24, 1, .rc, .const 0⟩
def GEY_CRC.CRC : Fld := ⟨.geyCmd, 0x030, 1, 8, 1, 0, 0, 64, .ro, .const 0⟩
def GEY_CTRL.SHARE : Fld := ⟨.geyCmd, 0x038, 1, 8, 1, 0, 0, 4, .rw, .const 4⟩
def GEY_CTRL.REJECT : Fld := ⟨.geyCmd, 0x038, 1, 8, 1, 0, 8, 8, .ro, .const 0⟩
def GEY_INT_EN.DONE : Fld := ⟨.geyCmd, 0x040, 1, 8, 1, 0, 0, 1, .rw, .const 0⟩
def GEY_INT_STATUS.DONE : Fld := ⟨.geyCmd, 0x048, 1, 8, 1, 0, 0, 1, .w1c, .const 0⟩
def GEY_INT_EN.ERR : Fld := ⟨.geyCmd, 0x040, 1, 8, 1, 0, 1, 1, .rw, .const 0⟩
def GEY_INT_STATUS.ERR : Fld := ⟨.geyCmd, 0x048, 1, 8, 1, 0, 1, 1, .w1c, .const 0⟩
def GEY_TEST_CTRL.PC : Fld := ⟨.geyTest, 0x000, 1, 8, 1, 0, 0, 10, .rw, .const 0⟩
def GEY_TEST_CTRL.MODE : Fld := ⟨.geyTest, 0x000, 1, 8, 1, 0, 10, 2, .rw, .const 0⟩
def GEY_TEST_CTRL.PATTERN : Fld := ⟨.geyTest, 0x000, 1, 8, 1, 0, 12, 3, .rw, .const 0⟩
def GEY_TEST_CTRL.GO : Fld := ⟨.geyTest, 0x000, 1, 8, 1, 0, 15, 1, .wo, .const 0⟩
def GEY_TEST_CTRL.BUSY : Fld := ⟨.geyTest, 0x000, 1, 8, 1, 0, 16, 1, .ro, .const 0⟩
def GEY_TEST_CTRL.REJECT : Fld := ⟨.geyTest, 0x000, 1, 8, 1, 0, 24, 8, .ro, .const 0⟩
def GEY_TEST_RESULT.ERRORS : Fld := ⟨.geyTest, 0x008, 1, 8, 1, 0, 0, 32, .ro, .const 0⟩
def GEY_TEST_RESULT.ROW : Fld := ⟨.geyTest, 0x008, 1, 8, 1, 0, 32, 14, .ro, .const 0⟩
def GEY_TEST_RESULT.BANK : Fld := ⟨.geyTest, 0x008, 1, 8, 1, 0, 46, 6, .ro, .const 0⟩
def GEY_TEST_RESULT.COL : Fld := ⟨.geyTest, 0x008, 1, 8, 1, 0, 52, 10, .ro, .const 0⟩
def GEY_TEST_RESULT.DONE : Fld := ⟨.geyTest, 0x008, 1, 8, 1, 0, 62, 1, .rc, .const 0⟩

/-- Fields of spec/10, part 0. -/
def fields10_0 : List Fld :=
  [SC_CAPS.SIZE_MIB, SC_CAPS.WAYS, SC_CAPS.SETS_LOG2, SC_CAPS.LOCK_MAX,
   SC_ALLOC.CORE, SC_ALLOC.HOST, SC_ALLOC.MOVER, SC_ALLOC.COCOON,
   SC_WAY_STATE.STATE, SC_WAY_PWR.OFF_REQ, SC_WAY_PWR.REJECT, SC_LOCK.LOCKED,
   SC_LOCK.REJECT, SC_PRELOAD_BASE.BASE, SC_PRELOAD_LEN.LEN, SC_PRELOAD_CTRL.WAYS,
   SC_PRELOAD_CTRL.GO, SC_PRELOAD_CTRL.BUSY, SC_PRELOAD_CTRL.STATUS, SC_PRELOAD_RESULT.LOADED,
   SC_PRELOAD_RESULT.SKIPPED, SC_PF.EN, SC_PF.DIST, SC_PF.REJECT,
   SC_HITS.COUNT, SC_MISSES.COUNT, SC_PF_ISSUED.COUNT, SC_PF_USED.COUNT,
   SC_ECC.CORR, SC_ECC.REFETCH, SC_ECC.UNCORR, SC_WAY_THRESH.CORR_PER_S,
   SC_WAY_DISABLE.DISABLED, SC_INT_EN.GATE_DONE, SC_INT_STATUS.GATE_DONE, SC_INT_EN.WAY_DISABLED,
   SC_INT_STATUS.WAY_DISABLED, SC_INT_EN.PRELOAD_DONE, SC_INT_STATUS.PRELOAD_DONE, SC_INT_EN.ECC_UNCORR]

/-- Fields of spec/10, part 1. -/
def fields10_1 : List Fld :=
  [SC_INT_STATUS.ECC_UNCORR, SC_INT_EN.WAKE, SC_INT_STATUS.WAKE, HBM_CAPS.PCS,
   HBM_CAPS.STACKS, HBM_MAP.P, HBM_MAP.POLICY, HBM_MAPOUT.OUT,
   HBM_FAILED.FAILED, HBM_PART.MIN, HBM_PART.MAX, HBM_PART.BURST_KIB,
   HBM_PART.REJECT, HBM_REFILL.US, HBM_REFILL.REJECT, HBM_PMAP_SEL.INDEX,
   HBM_PMAP_DATA.PART, HBM_SCRUB.EN, HBM_SCRUB.PERIOD_H, HBM_SCRUB.REJECT,
   HBM_ERR_CORR.COUNT, HBM_ERR_UNCORR.COUNT, HBM_ERR_LAST.PC, HBM_ERR_LAST.BANK,
   HBM_ERR_LAST.ROW, HBM_ERR_LAST.STATUS, HBM_ERR_LAST.VALID, HBM_PART_BYTES.BYTES,
   HBM_ADD_OPS.COUNT, HBM_TEMP.MAX_C, HBM_INT_EN.ECC_UNCORR, HBM_INT_STATUS.ECC_UNCORR,
   HBM_INT_EN.FAILED, HBM_INT_STATUS.FAILED, HBM_INT_EN.TEMP_HIGH, HBM_INT_STATUS.TEMP_HIGH,
   HBM_INT_EN.SCRUB_DONE, HBM_INT_STATUS.SCRUB_DONE, GEY_CMD0.OP, GEY_CMD0.PATTERN]

/-- Fields of spec/10, part 2. -/
def fields10_2 : List Fld :=
  [GEY_CMD0.PART, GEY_CMD0.TAG, GEY_CMD1.BASE, GEY_CMD2.LENGTH,
   GEY_CMD3.VALUE, GEY_GO.GO, GEY_GO.FULL, GEY_DONE.STATUS,
   GEY_DONE.TAG, GEY_DONE.VALID, GEY_CRC.CRC, GEY_CTRL.SHARE,
   GEY_CTRL.REJECT, GEY_INT_EN.DONE, GEY_INT_STATUS.DONE, GEY_INT_EN.ERR,
   GEY_INT_STATUS.ERR, GEY_TEST_CTRL.PC, GEY_TEST_CTRL.MODE, GEY_TEST_CTRL.PATTERN,
   GEY_TEST_CTRL.GO, GEY_TEST_CTRL.BUSY, GEY_TEST_CTRL.REJECT, GEY_TEST_RESULT.ERRORS,
   GEY_TEST_RESULT.ROW, GEY_TEST_RESULT.BANK, GEY_TEST_RESULT.COL, GEY_TEST_RESULT.DONE]

/-! ## Host port and rings (R367, R368) -/

def HOST_LINK.SPEED : Fld := ⟨.host, 0x000, 1, 8, 1, 0, 0, 4, .ro, .const 0⟩
def HOST_LINK.WIDTH : Fld := ⟨.host, 0x000, 1, 8, 1, 0, 4, 6, .ro, .const 0⟩
def HOST_LINK.FLIT : Fld := ⟨.host, 0x000, 1, 8, 1, 0, 10, 1, .ro, .const 0⟩
def HOST_LINK.UP : Fld := ⟨.host, 0x000, 1, 8, 1, 0, 11, 1, .ro, .const 0⟩
def HOST_LINK_CNT.RETRAINS : Fld := ⟨.host, 0x008, 1, 8, 1, 0, 0, 32, .rc, .const 0⟩
def HOST_LINK_CNT.ERRORS : Fld := ⟨.host, 0x008, 1, 8, 1, 0, 32, 16, .rc, .const 0⟩
def HOST_DOWN_TMO.MS : Fld := ⟨.host, 0x010, 1, 8, 1, 0, 0, 16, .rw, .const 50⟩
def HOST_DOWN_TMO.REJECT : Fld := ⟨.host, 0x010, 1, 8, 1, 0, 24, 8, .ro, .const 0⟩
def HOST_RESET.COUNT : Fld := ⟨.host, 0x018, 1, 8, 1, 0, 0, 16, .rc, .const 0⟩
def HOST_RESET.CAUSE : Fld := ⟨.host, 0x018, 1, 8, 1, 0, 16, 3, .ro, .const 0⟩
def HOST_RESET.STATE : Fld := ⟨.host, 0x018, 1, 8, 1, 0, 19, 1, .ro, .const 0⟩
def HOST_ATS.ENTRIES : Fld := ⟨.host, 0x020, 1, 8, 1, 0, 0, 16, .ro, .const 4096⟩
def HOST_ATS.INVALS : Fld := ⟨.host, 0x020, 1, 8, 1, 0, 16, 48, .rc, .const 0⟩
def HOST_ATS_ERR.STATUS : Fld := ⟨.host, 0x028, 1, 8, 1, 0, 0, 8, .ro, .const 0⟩
def HOST_ATS_ERR.FUNC : Fld := ⟨.host, 0x028, 1, 8, 1, 0, 8, 7, .ro, .const 0⟩
def HOST_ATS_ERR.PASID : Fld := ⟨.host, 0x028, 1, 8, 1, 0, 15, 20, .ro, .const 0⟩
def HOST_ATS_ERR.VALID : Fld := ⟨.host, 0x028, 1, 8, 1, 0, 35, 1, .rc, .const 0⟩
def HOST_ATS_ADDR.PAGE : Fld := ⟨.host, 0x030, 1, 8, 1, 0, 12, 52, .ro, .const 0⟩
def HOST_VF_SEL.VF : Fld := ⟨.host, 0x038, 1, 8, 1, 0, 0, 7, .rw, .const 1⟩
def HOST_VF_SLOTS.SLOTS : Fld := ⟨.host, 0x040, 1, 8, 1, 0, 0, 16, .rw, .const 0⟩
def HOST_BYTES_IN.BYTES : Fld := ⟨.host, 0x048, 1, 8, 1, 0, 0, 48, .rc, .const 0⟩
def HOST_BYTES_OUT.BYTES : Fld := ⟨.host, 0x050, 1, 8, 1, 0, 0, 48, .rc, .const 0⟩
def HOST_INT_EN.LOST : Fld := ⟨.host, 0x058, 1, 8, 1, 0, 0, 1, .rw, .const 0⟩
def HOST_INT_STATUS.LOST : Fld := ⟨.host, 0x060, 1, 8, 1, 0, 0, 1, .w1c, .const 0⟩
def HOST_INT_EN.RETRAIN : Fld := ⟨.host, 0x058, 1, 8, 1, 0, 1, 1, .rw, .const 0⟩
def HOST_INT_STATUS.RETRAIN : Fld := ⟨.host, 0x060, 1, 8, 1, 0, 1, 1, .w1c, .const 0⟩
def HOST_INT_EN.ATS_ERR : Fld := ⟨.host, 0x058, 1, 8, 1, 0, 2, 1, .rw, .const 0⟩
def HOST_INT_STATUS.ATS_ERR : Fld := ⟨.host, 0x060, 1, 8, 1, 0, 2, 1, .w1c, .const 0⟩
def HOST_INT_EN.LINK_UP : Fld := ⟨.host, 0x058, 1, 8, 1, 0, 3, 1, .rw, .const 0⟩
def HOST_INT_STATUS.LINK_UP : Fld := ⟨.host, 0x060, 1, 8, 1, 0, 3, 1, .w1c, .const 0⟩
def HOST_EVT_EN.EN : Fld := ⟨.host, 0x100, 9, 8, 1, 0, 0, 64, .rw, .const 0⟩
def HOST_EVT_REARM.REARM : Fld := ⟨.host, 0x180, 9, 8, 1, 0, 0, 64, .wo, .const 0⟩
def RING_CFG.EN : Fld := ⟨.ring, 0x000, 1, 8, 1, 0, 0, 1, .rw, .const 0⟩
def RING_CFG.FUNC : Fld := ⟨.ring, 0x000, 1, 8, 1, 0, 1, 7, .rw, .const 0⟩
def RING_CFG.VF_INDEX : Fld := ⟨.ring, 0x000, 1, 8, 1, 0, 8, 6, .rw, .const 0⟩
def RING_CFG.SPACE : Fld := ⟨.ring, 0x000, 1, 8, 1, 0, 14, 1, .rw, .const 0⟩
def RING_CFG.PV : Fld := ⟨.ring, 0x000, 1, 8, 1, 0, 15, 1, .rw, .const 0⟩
def RING_CFG.PASID : Fld := ⟨.ring, 0x000, 1, 8, 1, 0, 16, 20, .rw, .const 0⟩
def RING_CFG.REJECT : Fld := ⟨.ring, 0x000, 1, 8, 1, 0, 56, 8, .ro, .const 0⟩
def RING_SQ_BASE.BASE : Fld := ⟨.ring, 0x008, 1, 8, 1, 0, 12, 52, .rw, .const 0⟩
def RING_CQ_BASE.BASE : Fld := ⟨.ring, 0x010, 1, 8, 1, 0, 12, 52, .rw, .const 0⟩
def RING_SIZE.ENTRIES : Fld := ⟨.ring, 0x018, 1, 8, 1, 0, 0, 17, .rw, .const 0⟩
def RING_HEAD.HEAD : Fld := ⟨.ring, 0x020, 1, 8, 1, 0, 0, 16, .ro, .const 0⟩
def RING_HEAD.TAIL : Fld := ⟨.ring, 0x020, 1, 8, 1, 0, 16, 16, .ro, .const 0⟩
def RING_CQ.TAIL : Fld := ⟨.ring, 0x028, 1, 8, 1, 0, 0, 16, .ro, .const 0⟩
def RING_CQ.PHASE : Fld := ⟨.ring, 0x028, 1, 8, 1, 0, 16, 1, .ro, .const 1⟩
def RING_CQ.HEAD : Fld := ⟨.ring, 0x028, 1, 8, 1, 0, 32, 16, .ro, .const 0⟩
def RING_STATUS.STATE : Fld := ⟨.ring, 0x030, 1, 8, 1, 0, 0, 2, .ro, .const 0⟩
def RING_STATUS.ERR : Fld := ⟨.ring, 0x030, 1, 8, 1, 0, 8, 8, .ro, .const 0⟩
def RING_STATUS.ERR_INDEX : Fld := ⟨.ring, 0x030, 1, 8, 1, 0, 16, 16, .ro, .const 0⟩
def RING_STATUS.INFLIGHT : Fld := ⟨.ring, 0x030, 1, 8, 1, 0, 32, 16, .ro, .const 0⟩
def RING_IRQ.VECTOR : Fld := ⟨.ring, 0x038, 1, 8, 1, 0, 0, 11, .rw, .const 0⟩
def RING_IRQ.HOLDOFF_US : Fld := ⟨.ring, 0x038, 1, 8, 1, 0, 16, 10, .rw, .const 0⟩
def RING_IRQ.EN : Fld := ⟨.ring, 0x038, 1, 8, 1, 0, 31, 1, .rw, .const 0⟩
def RING_DONE.COUNT : Fld := ⟨.ring, 0x040, 1, 8, 1, 0, 0, 48, .rc, .const 0⟩
def RING_CAPS.RINGS : Fld := ⟨.ringGlobal, 0x000, 1, 8, 1, 0, 0, 11, .ro, .const 1024⟩
def RING_CAPS.SLOTS : Fld := ⟨.ringGlobal, 0x000, 1, 8, 1, 0, 16, 17, .ro, .const 65536⟩
def RING_SLOTS.USED : Fld := ⟨.ringGlobal, 0x008, 1, 8, 1, 0, 0, 17, .ro, .const 0⟩
def RING_ERR_LAST.RING : Fld := ⟨.ringGlobal, 0x010, 1, 8, 1, 0, 0, 10, .ro, .const 0⟩
def RING_ERR_LAST.STATUS : Fld := ⟨.ringGlobal, 0x010, 1, 8, 1, 0, 10, 8, .ro, .const 0⟩
def RING_ERR_LAST.VALID : Fld := ⟨.ringGlobal, 0x010, 1, 8, 1, 0, 18, 1, .rc, .const 0⟩
def RING_INT_EN.ERR : Fld := ⟨.ringGlobal, 0x018, 1, 8, 1, 0, 0, 1, .rw, .const 0⟩
def RING_INT_STATUS.ERR : Fld := ⟨.ringGlobal, 0x020, 1, 8, 1, 0, 0, 1, .w1c, .const 0⟩
def RING_INT_EN.DRAINED : Fld := ⟨.ringGlobal, 0x018, 1, 8, 1, 0, 1, 1, .rw, .const 0⟩
def RING_INT_STATUS.DRAINED : Fld := ⟨.ringGlobal, 0x020, 1, 8, 1, 0, 1, 1, .w1c, .const 0⟩

/-- Fields of spec/11, part 0. -/
def fields11_0 : List Fld :=
  [HOST_LINK.SPEED, HOST_LINK.WIDTH, HOST_LINK.FLIT, HOST_LINK.UP,
   HOST_LINK_CNT.RETRAINS, HOST_LINK_CNT.ERRORS, HOST_DOWN_TMO.MS, HOST_DOWN_TMO.REJECT,
   HOST_RESET.COUNT, HOST_RESET.CAUSE, HOST_RESET.STATE, HOST_ATS.ENTRIES,
   HOST_ATS.INVALS, HOST_ATS_ERR.STATUS, HOST_ATS_ERR.FUNC, HOST_ATS_ERR.PASID,
   HOST_ATS_ERR.VALID, HOST_ATS_ADDR.PAGE, HOST_VF_SEL.VF, HOST_VF_SLOTS.SLOTS,
   HOST_BYTES_IN.BYTES, HOST_BYTES_OUT.BYTES, HOST_INT_EN.LOST, HOST_INT_STATUS.LOST,
   HOST_INT_EN.RETRAIN, HOST_INT_STATUS.RETRAIN, HOST_INT_EN.ATS_ERR, HOST_INT_STATUS.ATS_ERR,
   HOST_INT_EN.LINK_UP, HOST_INT_STATUS.LINK_UP, HOST_EVT_EN.EN, HOST_EVT_REARM.REARM,
   RING_CFG.EN, RING_CFG.FUNC, RING_CFG.VF_INDEX, RING_CFG.SPACE,
   RING_CFG.PV, RING_CFG.PASID, RING_CFG.REJECT, RING_SQ_BASE.BASE]

/-- Fields of spec/11, part 1. -/
def fields11_1 : List Fld :=
  [RING_CQ_BASE.BASE, RING_SIZE.ENTRIES, RING_HEAD.HEAD, RING_HEAD.TAIL,
   RING_CQ.TAIL, RING_CQ.PHASE, RING_CQ.HEAD, RING_STATUS.STATE,
   RING_STATUS.ERR, RING_STATUS.ERR_INDEX, RING_STATUS.INFLIGHT, RING_IRQ.VECTOR,
   RING_IRQ.HOLDOFF_US, RING_IRQ.EN, RING_DONE.COUNT, RING_CAPS.RINGS,
   RING_CAPS.SLOTS, RING_SLOTS.USED, RING_ERR_LAST.RING, RING_ERR_LAST.STATUS,
   RING_ERR_LAST.VALID, RING_INT_EN.ERR, RING_INT_STATUS.ERR, RING_INT_EN.DRAINED,
   RING_INT_STATUS.DRAINED]

/-! ## Die-to-die links and the Cocoon site (R389, R390) -/

def D2D_LINK_STATUS.STATE : Fld := ⟨.d2dLink, 0x000, 1, 8, 1, 0, 0, 3, .ro, .const 0⟩
def D2D_LINK_STATUS.UP_AB : Fld := ⟨.d2dLink, 0x000, 1, 8, 1, 0, 8, 7, .ro, .const 0⟩
def D2D_LINK_STATUS.UP_BA : Fld := ⟨.d2dLink, 0x000, 1, 8, 1, 0, 16, 7, .ro, .const 0⟩
def D2D_LINK_STATUS.RATE : Fld := ⟨.d2dLink, 0x000, 1, 8, 1, 0, 32, 16, .ro, .const 0⟩
def D2D_MAP_SEL.DIR : Fld := ⟨.d2dLink, 0x008, 1, 8, 1, 0, 0, 1, .rw, .const 0⟩
def D2D_MAP_SEL.BUNDLE : Fld := ⟨.d2dLink, 0x008, 1, 8, 1, 0, 1, 7, .rw, .const 0⟩
def D2D_MAP_DATA.ROLE : Fld := ⟨.d2dLink, 0x010, 1, 8, 1, 0, 0, 3, .ro, .const 0⟩
def D2D_MAP_DATA.REPAIRED : Fld := ⟨.d2dLink, 0x010, 1, 8, 1, 0, 4, 3, .ro, .const 0⟩
def D2D_ERR.CORR : Fld := ⟨.d2dLink, 0x018, 1, 8, 1, 0, 0, 32, .rc, .const 0⟩
def D2D_ERR.REPLAY : Fld := ⟨.d2dLink, 0x018, 1, 8, 1, 0, 32, 16, .rc, .const 0⟩
def D2D_ERR.DOWN : Fld := ⟨.d2dLink, 0x018, 1, 8, 1, 0, 48, 8, .rc, .const 0⟩
def D2D_BYTES_AB.BYTES : Fld := ⟨.d2dLink, 0x020, 1, 8, 1, 0, 0, 48, .rc, .const 0⟩
def D2D_BYTES_BA.BYTES : Fld := ⟨.d2dLink, 0x028, 1, 8, 1, 0, 0, 48, .rc, .const 0⟩
def D2D_BUDGET.LIMIT : Fld := ⟨.d2dGlobal, 0x000, 7, 8, 1, 0, 0, 16, .ro, .byIdx [160, 160, 160, 160, 240, 240, 160]⟩
def D2D_BUDGET.EPOCH : Fld := ⟨.d2dGlobal, 0x000, 7, 8, 1, 0, 16, 16, .ro, .const 0⟩
def D2D_BUDGET.ACK_EPOCH : Fld := ⟨.d2dGlobal, 0x000, 7, 8, 1, 0, 32, 16, .ro, .const 0⟩
def D2D_BUDGET.DRAW : Fld := ⟨.d2dGlobal, 0x000, 7, 8, 1, 0, 48, 16, .ro, .const 0⟩
def D2D_INT_EN.BUNDLE_DOWN : Fld := ⟨.d2dGlobal, 0x038, 1, 8, 1, 0, 0, 1, .rw, .const 0⟩
def D2D_INT_STATUS.BUNDLE_DOWN : Fld := ⟨.d2dGlobal, 0x040, 1, 8, 1, 0, 0, 1, .w1c, .const 0⟩
def D2D_INT_EN.DEGRADED : Fld := ⟨.d2dGlobal, 0x038, 1, 8, 1, 0, 1, 1, .rw, .const 0⟩
def D2D_INT_STATUS.DEGRADED : Fld := ⟨.d2dGlobal, 0x040, 1, 8, 1, 0, 1, 1, .w1c, .const 0⟩
def D2D_INT_EN.FAILED : Fld := ⟨.d2dGlobal, 0x038, 1, 8, 1, 0, 2, 1, .rw, .const 0⟩
def D2D_INT_STATUS.FAILED : Fld := ⟨.d2dGlobal, 0x040, 1, 8, 1, 0, 2, 1, .w1c, .const 0⟩
def COC_STATUS.STATE : Fld := ⟨.coc, 0x000, 1, 8, 1, 0, 0, 3, .ro, .const 0⟩
def COC_STATUS.MODE : Fld := ⟨.coc, 0x000, 1, 8, 1, 0, 3, 2, .ro, .const 0⟩
def COC_STATUS.REASON : Fld := ⟨.coc, 0x000, 1, 8, 1, 0, 8, 8, .ro, .const 0⟩
def COC_STATUS.MODULES : Fld := ⟨.coc, 0x000, 1, 8, 1, 0, 16, 3, .ro, .const 0⟩
def COC_STATUS.RATE : Fld := ⟨.coc, 0x000, 1, 8, 1, 0, 19, 6, .ro, .const 0⟩
def COC_STATUS.STREAMS : Fld := ⟨.coc, 0x000, 1, 8, 1, 0, 25, 5, .ro, .const 0⟩
def COC_STATUS.WINDOW_LOG2 : Fld := ⟨.coc, 0x000, 1, 8, 1, 0, 32, 5, .ro, .const 0⟩
def COC_DISC.BLOCK : Fld := ⟨.coc, 0x008, 8, 8, 1, 0, 0, 64, .ro, .const 0⟩
def COC_CFG.MODE_PREF : Fld := ⟨.coc, 0x048, 1, 8, 1, 0, 0, 2, .rw, .const 0⟩
def COC_CFG.RATE_MAX : Fld := ⟨.coc, 0x048, 1, 8, 1, 0, 8, 6, .rw, .const 32⟩
def COC_CTRL.BRINGUP : Fld := ⟨.coc, 0x050, 1, 8, 1, 0, 0, 1, .wo, .const 0⟩
def COC_CTRL.FENCE : Fld := ⟨.coc, 0x050, 1, 8, 1, 0, 1, 1, .wo, .const 0⟩
def COC_OFFER.LIMIT : Fld := ⟨.coc, 0x058, 1, 8, 1, 0, 0, 16, .ro, .const 0⟩
def COC_OFFER.EPOCH : Fld := ⟨.coc, 0x058, 1, 8, 1, 0, 16, 16, .ro, .const 0⟩
def COC_OFFER.ACC_LIMIT : Fld := ⟨.coc, 0x058, 1, 8, 1, 0, 32, 16, .ro, .const 0⟩
def COC_OFFER.ACC_EPOCH : Fld := ⟨.coc, 0x058, 1, 8, 1, 0, 48, 16, .ro, .const 0⟩
def COC_DRAW.AVG : Fld := ⟨.coc, 0x060, 1, 8, 1, 0, 0, 16, .ro, .const 0⟩
def COC_DRAW.MAX : Fld := ⟨.coc, 0x060, 1, 8, 1, 0, 16, 16, .rc, .const 0⟩
def COC_DRAW.EXCESS_MS : Fld := ⟨.coc, 0x060, 1, 8, 1, 0, 32, 16, .ro, .const 0⟩
def COC_ENF.GRACE_MS : Fld := ⟨.coc, 0x068, 1, 8, 1, 0, 0, 16, .rw, .const 10⟩
def COC_ENF.DOWN_MS : Fld := ⟨.coc, 0x068, 1, 8, 1, 0, 16, 16, .rw, .const 50⟩
def COC_ENF.WIN_US : Fld := ⟨.coc, 0x068, 1, 8, 1, 0, 32, 16, .rw, .const 1000⟩
def COC_ENF.REJECT : Fld := ⟨.coc, 0x068, 1, 8, 1, 0, 56, 8, .ro, .const 0⟩
def COC_ERR.STATUS : Fld := ⟨.coc, 0x070, 1, 8, 1, 0, 0, 8, .ro, .const 0⟩
def COC_ERR.SOURCE : Fld := ⟨.coc, 0x070, 1, 8, 1, 0, 8, 3, .ro, .const 0⟩
def COC_ERR.VALID : Fld := ⟨.coc, 0x070, 1, 8, 1, 0, 11, 1, .rc, .const 0⟩
def COC_ERR.ADDR : Fld := ⟨.coc, 0x070, 1, 8, 1, 0, 16, 40, .ro, .const 0⟩
def COC_INT_EN.UP : Fld := ⟨.coc, 0x078, 1, 8, 1, 0, 0, 1, .rw, .const 0⟩
def COC_INT_STATUS.UP : Fld := ⟨.coc, 0x080, 1, 8, 1, 0, 0, 1, .w1c, .const 0⟩
def COC_INT_EN.FENCED : Fld := ⟨.coc, 0x078, 1, 8, 1, 0, 1, 1, .rw, .const 0⟩
def COC_INT_STATUS.FENCED : Fld := ⟨.coc, 0x080, 1, 8, 1, 0, 1, 1, .w1c, .const 0⟩
def COC_INT_EN.ERR : Fld := ⟨.coc, 0x078, 1, 8, 1, 0, 2, 1, .rw, .const 0⟩
def COC_INT_STATUS.ERR : Fld := ⟨.coc, 0x080, 1, 8, 1, 0, 2, 1, .w1c, .const 0⟩
def COC_INT_EN.ACCEPTED : Fld := ⟨.coc, 0x078, 1, 8, 1, 0, 3, 1, .rw, .const 0⟩
def COC_INT_STATUS.ACCEPTED : Fld := ⟨.coc, 0x080, 1, 8, 1, 0, 3, 1, .w1c, .const 0⟩

/-- Fields of spec/12, part 0. -/
def fields12_0 : List Fld :=
  [D2D_LINK_STATUS.STATE, D2D_LINK_STATUS.UP_AB, D2D_LINK_STATUS.UP_BA, D2D_LINK_STATUS.RATE,
   D2D_MAP_SEL.DIR, D2D_MAP_SEL.BUNDLE, D2D_MAP_DATA.ROLE, D2D_MAP_DATA.REPAIRED,
   D2D_ERR.CORR, D2D_ERR.REPLAY, D2D_ERR.DOWN, D2D_BYTES_AB.BYTES,
   D2D_BYTES_BA.BYTES, D2D_BUDGET.LIMIT, D2D_BUDGET.EPOCH, D2D_BUDGET.ACK_EPOCH,
   D2D_BUDGET.DRAW, D2D_INT_EN.BUNDLE_DOWN, D2D_INT_STATUS.BUNDLE_DOWN, D2D_INT_EN.DEGRADED,
   D2D_INT_STATUS.DEGRADED, D2D_INT_EN.FAILED, D2D_INT_STATUS.FAILED, COC_STATUS.STATE,
   COC_STATUS.MODE, COC_STATUS.REASON, COC_STATUS.MODULES, COC_STATUS.RATE,
   COC_STATUS.STREAMS, COC_STATUS.WINDOW_LOG2, COC_DISC.BLOCK, COC_CFG.MODE_PREF,
   COC_CFG.RATE_MAX, COC_CTRL.BRINGUP, COC_CTRL.FENCE, COC_OFFER.LIMIT,
   COC_OFFER.EPOCH, COC_OFFER.ACC_LIMIT, COC_OFFER.ACC_EPOCH, COC_DRAW.AVG]

/-- Fields of spec/12, part 1. -/
def fields12_1 : List Fld :=
  [COC_DRAW.MAX, COC_DRAW.EXCESS_MS, COC_ENF.GRACE_MS, COC_ENF.DOWN_MS,
   COC_ENF.WIN_US, COC_ENF.REJECT, COC_ERR.STATUS, COC_ERR.SOURCE,
   COC_ERR.VALID, COC_ERR.ADDR, COC_INT_EN.UP, COC_INT_STATUS.UP,
   COC_INT_EN.FENCED, COC_INT_STATUS.FENCED, COC_INT_EN.ERR, COC_INT_STATUS.ERR,
   COC_INT_EN.ACCEPTED, COC_INT_STATUS.ACCEPTED]

/-! ## Obneurn Link and chain (R412, R413) -/

def OBL_CTRL.OPEN : Fld := ⟨.oblGlobal, 0x000, 1, 8, 1, 0, 0, 1, .rw, .const 1⟩
def OBL_CTRL.HOPS_INIT : Fld := ⟨.oblGlobal, 0x000, 1, 8, 1, 0, 8, 8, .rw, .const 32⟩
def OBL_CTRL.RECOV_MS : Fld := ⟨.oblGlobal, 0x000, 1, 8, 1, 0, 16, 10, .rw, .const 20⟩
def OBL_CTRL.QUIET_MS : Fld := ⟨.oblGlobal, 0x000, 1, 8, 1, 0, 32, 16, .rw, .const 200⟩
def OBL_CTRL.REJECT : Fld := ⟨.oblGlobal, 0x000, 1, 8, 1, 0, 56, 8, .ro, .const 0⟩
def OBL_STATUS.ADDR : Fld := ⟨.oblGlobal, 0x008, 1, 8, 1, 0, 0, 16, .ro, .const 0⟩
def OBL_STATUS.EPOCH : Fld := ⟨.oblGlobal, 0x008, 1, 8, 1, 0, 16, 16, .ro, .const 0⟩
def OBL_STATUS.QUIET : Fld := ⟨.oblGlobal, 0x008, 1, 8, 1, 0, 32, 1, .ro, .const 0⟩
def OBL_JOB_ACCEPT.JOB : Fld := ⟨.oblGlobal, 0x100, 64, 8, 1, 0, 0, 16, .rw, .const 0⟩
def OBL_JOB_ACCEPT.VALID : Fld := ⟨.oblGlobal, 0x100, 64, 8, 1, 0, 16, 1, .rw, .const 0⟩
def OBL_JOB_ACCEPT.HBM : Fld := ⟨.oblGlobal, 0x100, 64, 8, 1, 0, 17, 1, .rw, .const 0⟩
def OBL_JOB_ACCEPT.SPAD : Fld := ⟨.oblGlobal, 0x100, 64, 8, 1, 0, 18, 1, .rw, .const 0⟩
def OBL_JOB_ACCEPT.REJECT : Fld := ⟨.oblGlobal, 0x100, 64, 8, 1, 0, 24, 8, .ro, .const 0⟩
def OBL_JOB_SLOT.JOB : Fld := ⟨.oblGlobal, 0x300, 16, 8, 1, 0, 0, 16, .rw, .const 0⟩
def OBL_JOB_FUNC_SEL.FUNC : Fld := ⟨.oblGlobal, 0x380, 1, 8, 1, 0, 0, 7, .rw, .const 0⟩
def OBL_JOB_FUNC.JOB : Fld := ⟨.oblGlobal, 0x388, 1, 8, 1, 0, 0, 16, .rw, .const 0⟩
def OBL_DROP.LINK : Fld := ⟨.oblGlobal, 0x390, 1, 8, 1, 0, 0, 32, .rc, .const 0⟩
def OBL_DROP.NOROUTE : Fld := ⟨.oblGlobal, 0x390, 1, 8, 1, 0, 32, 32, .rc, .const 0⟩
def OBL_DROP2.LOOP : Fld := ⟨.oblGlobal, 0x398, 1, 8, 1, 0, 0, 16, .rc, .const 0⟩
def OBL_DROP2.STALE : Fld := ⟨.oblGlobal, 0x398, 1, 8, 1, 0, 16, 16, .rc, .const 0⟩
def OBL_DROP2.QUIET : Fld := ⟨.oblGlobal, 0x398, 1, 8, 1, 0, 32, 32, .rc, .const 0⟩
def OBL_NACK_LAST.STATUS : Fld := ⟨.oblGlobal, 0x3A0, 1, 8, 1, 0, 0, 8, .ro, .const 0⟩
def OBL_NACK_LAST.SRC : Fld := ⟨.oblGlobal, 0x3A0, 1, 8, 1, 0, 8, 16, .ro, .const 0⟩
def OBL_NACK_LAST.JOB : Fld := ⟨.oblGlobal, 0x3A0, 1, 8, 1, 0, 24, 16, .ro, .const 0⟩
def OBL_NACK_LAST.VALID : Fld := ⟨.oblGlobal, 0x3A0, 1, 8, 1, 0, 40, 1, .rc, .const 0⟩
def OBL_INT_EN.DROP : Fld := ⟨.oblGlobal, 0x3A8, 1, 8, 1, 0, 0, 1, .rw, .const 0⟩
def OBL_INT_STATUS.DROP : Fld := ⟨.oblGlobal, 0x3B0, 1, 8, 1, 0, 0, 1, .w1c, .const 0⟩
def OBL_INT_EN.NACK : Fld := ⟨.oblGlobal, 0x3A8, 1, 8, 1, 0, 1, 1, .rw, .const 0⟩
def OBL_INT_STATUS.NACK : Fld := ⟨.oblGlobal, 0x3B0, 1, 8, 1, 0, 1, 1, .w1c, .const 0⟩
def OBL_INT_EN.PORT : Fld := ⟨.oblGlobal, 0x3A8, 1, 8, 1, 0, 2, 1, .rw, .const 0⟩
def OBL_INT_STATUS.PORT : Fld := ⟨.oblGlobal, 0x3B0, 1, 8, 1, 0, 2, 1, .w1c, .const 0⟩
def OBL_ROUTE.ENTRY : Fld := ⟨.oblRoute, 0x000, 1, 8, 1, 0, 0, 12, .rw, .const 0⟩
def OBL_PORT_CTRL.EN : Fld := ⟨.oblPort, 0x000, 1, 8, 1, 0, 0, 1, .rw, .const 1⟩
def OBL_PORT_STATUS.STATE : Fld := ⟨.oblPort, 0x008, 1, 8, 1, 0, 0, 3, .ro, .const 0⟩
def OBL_PORT_PARTNER.ADDR : Fld := ⟨.oblPort, 0x010, 1, 8, 1, 0, 0, 16, .ro, .const 0⟩
def OBL_PORT_PARTNER.EPOCH : Fld := ⟨.oblPort, 0x010, 1, 8, 1, 0, 16, 16, .ro, .const 0⟩
def OBL_PORT_PARTNER.PORT : Fld := ⟨.oblPort, 0x010, 1, 8, 1, 0, 32, 4, .ro, .const 0⟩
def OBL_PORT_FRAMES.COUNT : Fld := ⟨.oblPort, 0x018, 1, 8, 1, 0, 0, 48, .rc, .const 0⟩
def OBL_PORT_RETRY.RESENT : Fld := ⟨.oblPort, 0x020, 1, 8, 1, 0, 0, 32, .rc, .const 0⟩
def OBL_PORT_RETRY.RECOVERIES : Fld := ⟨.oblPort, 0x020, 1, 8, 1, 0, 32, 16, .rc, .const 0⟩
def OBL_PORT_TX.BYTES : Fld := ⟨.oblPort, 0x028, 1, 8, 1, 0, 0, 48, .rc, .const 0⟩
def OBL_PORT_RX.BYTES : Fld := ⟨.oblPort, 0x030, 1, 8, 1, 0, 0, 48, .rc, .const 0⟩
def OBL_PORT_INT_EN.UP : Fld := ⟨.oblPort, 0x038, 1, 8, 1, 0, 0, 1, .rw, .const 0⟩
def OBL_PORT_INT_STATUS.UP : Fld := ⟨.oblPort, 0x040, 1, 8, 1, 0, 0, 1, .w1c, .const 0⟩
def OBL_PORT_INT_EN.DOWN : Fld := ⟨.oblPort, 0x038, 1, 8, 1, 0, 1, 1, .rw, .const 0⟩
def OBL_PORT_INT_STATUS.DOWN : Fld := ⟨.oblPort, 0x040, 1, 8, 1, 0, 1, 1, .w1c, .const 0⟩
def OBL_PORT_INT_EN.PARTNER : Fld := ⟨.oblPort, 0x038, 1, 8, 1, 0, 2, 1, .rw, .const 0⟩
def OBL_PORT_INT_STATUS.PARTNER : Fld := ⟨.oblPort, 0x040, 1, 8, 1, 0, 2, 1, .w1c, .const 0⟩
def CHN_ADDR.ADDR : Fld := ⟨.chn, 0x000, 1, 8, 1, 0, 0, 16, .ro, .const 0⟩
def CHN_ADDR.STATUS : Fld := ⟨.chn, 0x000, 1, 8, 1, 0, 16, 8, .ro, .const 15⟩
def CHN_ADDR.MISMATCH : Fld := ⟨.chn, 0x000, 1, 8, 1, 0, 24, 1, .w1c, .const 0⟩
def CHN_LINK.UPSTREAM : Fld := ⟨.chn, 0x008, 1, 8, 1, 0, 0, 1, .ro, .const 0⟩
def CHN_LINK.TAIL : Fld := ⟨.chn, 0x008, 1, 8, 1, 0, 1, 1, .ro, .const 0⟩
def CHN_LINK.ERRORS : Fld := ⟨.chn, 0x008, 1, 8, 1, 0, 16, 16, .rc, .const 0⟩
def CHN_FRAMES.COUNT : Fld := ⟨.chn, 0x010, 1, 8, 1, 0, 0, 48, .rc, .const 0⟩
def CHN_INT_EN.ASSIGNED : Fld := ⟨.chn, 0x018, 1, 8, 1, 0, 0, 1, .rw, .const 0⟩
def CHN_INT_STATUS.ASSIGNED : Fld := ⟨.chn, 0x020, 1, 8, 1, 0, 0, 1, .w1c, .const 0⟩
def CHN_INT_EN.MISMATCH : Fld := ⟨.chn, 0x018, 1, 8, 1, 0, 1, 1, .rw, .const 0⟩
def CHN_INT_STATUS.MISMATCH : Fld := ⟨.chn, 0x020, 1, 8, 1, 0, 1, 1, .w1c, .const 0⟩
def CHN_INT_EN.RESET_CMD : Fld := ⟨.chn, 0x018, 1, 8, 1, 0, 2, 1, .rw, .const 0⟩
def CHN_INT_STATUS.RESET_CMD : Fld := ⟨.chn, 0x020, 1, 8, 1, 0, 2, 1, .w1c, .const 0⟩

/-- Fields of spec/13, part 0. -/
def fields13_0 : List Fld :=
  [OBL_CTRL.OPEN, OBL_CTRL.HOPS_INIT, OBL_CTRL.RECOV_MS, OBL_CTRL.QUIET_MS,
   OBL_CTRL.REJECT, OBL_STATUS.ADDR, OBL_STATUS.EPOCH, OBL_STATUS.QUIET,
   OBL_JOB_ACCEPT.JOB, OBL_JOB_ACCEPT.VALID, OBL_JOB_ACCEPT.HBM, OBL_JOB_ACCEPT.SPAD,
   OBL_JOB_ACCEPT.REJECT, OBL_JOB_SLOT.JOB, OBL_JOB_FUNC_SEL.FUNC, OBL_JOB_FUNC.JOB,
   OBL_DROP.LINK, OBL_DROP.NOROUTE, OBL_DROP2.LOOP, OBL_DROP2.STALE,
   OBL_DROP2.QUIET, OBL_NACK_LAST.STATUS, OBL_NACK_LAST.SRC, OBL_NACK_LAST.JOB,
   OBL_NACK_LAST.VALID, OBL_INT_EN.DROP, OBL_INT_STATUS.DROP, OBL_INT_EN.NACK,
   OBL_INT_STATUS.NACK, OBL_INT_EN.PORT, OBL_INT_STATUS.PORT, OBL_ROUTE.ENTRY,
   OBL_PORT_CTRL.EN, OBL_PORT_STATUS.STATE, OBL_PORT_PARTNER.ADDR, OBL_PORT_PARTNER.EPOCH,
   OBL_PORT_PARTNER.PORT, OBL_PORT_FRAMES.COUNT, OBL_PORT_RETRY.RESENT, OBL_PORT_RETRY.RECOVERIES]

/-- Fields of spec/13, part 1. -/
def fields13_1 : List Fld :=
  [OBL_PORT_TX.BYTES, OBL_PORT_RX.BYTES, OBL_PORT_INT_EN.UP, OBL_PORT_INT_STATUS.UP, OBL_PORT_INT_EN.DOWN,
   OBL_PORT_INT_STATUS.DOWN, OBL_PORT_INT_EN.PARTNER, OBL_PORT_INT_STATUS.PARTNER, CHN_ADDR.ADDR,
   CHN_ADDR.STATUS, CHN_ADDR.MISMATCH, CHN_LINK.UPSTREAM, CHN_LINK.TAIL,
   CHN_LINK.ERRORS, CHN_FRAMES.COUNT, CHN_INT_EN.ASSIGNED, CHN_INT_STATUS.ASSIGNED,
   CHN_INT_EN.MISMATCH, CHN_INT_STATUS.MISMATCH, CHN_INT_EN.RESET_CMD, CHN_INT_STATUS.RESET_CMD]

/-! ## Power and ageing (R435, R436) -/

def PWR_CAP.WATTS : Fld := ⟨.pwr, 0x000, 1, 8, 1, 0, 0, 13, .rw, .const 4200⟩
def PWR_CAP.WINDOW_S : Fld := ⟨.pwr, 0x000, 1, 8, 1, 0, 16, 5, .rw, .const 10⟩
def PWR_CAP.REJECT : Fld := ⟨.pwr, 0x000, 1, 8, 1, 0, 24, 8, .ro, .const 0⟩
def PWR_CAP.EFFECTIVE_W : Fld := ⟨.pwr, 0x000, 1, 8, 1, 0, 32, 13, .ro, .const 4200⟩
def PWR_ORDER.CLASS : Fld := ⟨.pwr, 0x008, 1, 8, 5, 4, 0, 3, .rw, .byRep [0, 1, 2, 3, 4]⟩
def PWR_ORDER.REJECT : Fld := ⟨.pwr, 0x008, 1, 8, 1, 0, 24, 8, .ro, .const 0⟩
def PWR_CLASS.FLOOR : Fld := ⟨.pwr, 0x010, 5, 8, 1, 0, 0, 13, .rw, .byIdx [120, 250, 60, 200, 0]⟩
def PWR_CLASS.MAX : Fld := ⟨.pwr, 0x010, 5, 8, 1, 0, 13, 13, .ro, .byIdx [240, 1250, 300, 2700, 0]⟩
def PWR_CLASS.GRANT : Fld := ⟨.pwr, 0x010, 5, 8, 1, 0, 26, 13, .ro, .const 0⟩
def PWR_CLASS.DRAW : Fld := ⟨.pwr, 0x010, 5, 8, 1, 0, 39, 13, .ro, .const 0⟩
def PWR_CLASS.REJECT : Fld := ⟨.pwr, 0x010, 5, 8, 1, 0, 56, 8, .ro, .const 0⟩
def PWR_INPUT.VIN : Fld := ⟨.pwr, 0x038, 1, 8, 1, 0, 0, 16, .ro, .const 0⟩
def PWR_INPUT.IIN : Fld := ⟨.pwr, 0x038, 1, 8, 1, 0, 16, 16, .ro, .const 0⟩
def PWR_INPUT.PIN : Fld := ⟨.pwr, 0x038, 1, 8, 1, 0, 32, 13, .ro, .const 0⟩
def PWR_INPUT.AVG : Fld := ⟨.pwr, 0x038, 1, 8, 1, 0, 45, 13, .ro, .const 0⟩
def PWR_OVERHEAD.O : Fld := ⟨.pwr, 0x040, 1, 8, 1, 0, 0, 13, .ro, .const 0⟩
def PWR_SUPPLY.MV : Fld := ⟨.pwr, 0x048, 1, 8, 4, 10, 0, 10, .ro, .const 550⟩
def PWR_HOLD.D : Fld := ⟨.pwr, 0x050, 1, 8, 4, 8, 0, 7, .ro, .const 64⟩
def PWR_TEMP.TJ : Fld := ⟨.pwr, 0x058, 1, 8, 7, 8, 0, 8, .ro, .const 0⟩
def PWR_TEMP.HBM : Fld := ⟨.pwr, 0x058, 1, 8, 1, 0, 56, 8, .ro, .const 0⟩
def PWR_COOLANT.INLET : Fld := ⟨.pwr, 0x060, 1, 8, 1, 0, 0, 12, .ro, .const 0⟩
def PWR_COOLANT.OUTLET : Fld := ⟨.pwr, 0x060, 1, 8, 1, 0, 16, 12, .ro, .const 0⟩
def PWR_COOLANT.FLOW_LOW : Fld := ⟨.pwr, 0x060, 1, 8, 1, 0, 32, 1, .ro, .const 0⟩
def PWR_COOLANT.SENSOR_FAIL : Fld := ⟨.pwr, 0x060, 1, 8, 1, 0, 33, 1, .ro, .const 0⟩
def PWR_THERM.THROTTLE_C : Fld := ⟨.pwr, 0x068, 1, 8, 1, 0, 0, 8, .rw, .const 95⟩
def PWR_THERM.REJECT : Fld := ⟨.pwr, 0x068, 1, 8, 1, 0, 24, 8, .ro, .const 0⟩
def PWR_EVENTS.CURRENT_LIMIT : Fld := ⟨.pwr, 0x070, 1, 8, 1, 0, 0, 16, .rc, .const 0⟩
def PWR_EVENTS.DROOP : Fld := ⟨.pwr, 0x070, 1, 8, 1, 0, 16, 16, .rc, .const 0⟩
def PWR_EVENTS.THROTTLE : Fld := ⟨.pwr, 0x070, 1, 8, 1, 0, 32, 16, .rc, .const 0⟩
def PWR_EVENTS.FLOOR_BOUND : Fld := ⟨.pwr, 0x070, 1, 8, 1, 0, 48, 16, .rc, .const 0⟩
def PWR_LAST_OFF.CAUSE : Fld := ⟨.pwr, 0x078, 1, 8, 1, 0, 0, 3, .ro, .const 0⟩
def PWR_LAST_OFF.SOURCE : Fld := ⟨.pwr, 0x078, 1, 8, 1, 0, 4, 5, .ro, .const 0⟩
def PWR_INT_EN.CAP_BOUND : Fld := ⟨.pwr, 0x080, 1, 8, 1, 0, 0, 1, .rw, .const 0⟩
def PWR_INT_STATUS.CAP_BOUND : Fld := ⟨.pwr, 0x088, 1, 8, 1, 0, 0, 1, .w1c, .const 0⟩
def PWR_INT_EN.CURRENT_LIMIT : Fld := ⟨.pwr, 0x080, 1, 8, 1, 0, 1, 1, .rw, .const 0⟩
def PWR_INT_STATUS.CURRENT_LIMIT : Fld := ⟨.pwr, 0x088, 1, 8, 1, 0, 1, 1, .w1c, .const 0⟩
def PWR_INT_EN.THROTTLE : Fld := ⟨.pwr, 0x080, 1, 8, 1, 0, 2, 1, .rw, .const 0⟩
def PWR_INT_STATUS.THROTTLE : Fld := ⟨.pwr, 0x088, 1, 8, 1, 0, 2, 1, .w1c, .const 0⟩
def PWR_INT_EN.COOLANT_WARN : Fld := ⟨.pwr, 0x080, 1, 8, 1, 0, 3, 1, .rw, .const 0⟩
def PWR_INT_STATUS.COOLANT_WARN : Fld := ⟨.pwr, 0x088, 1, 8, 1, 0, 3, 1, .w1c, .const 0⟩
def PWR_INT_EN.FLOW_LOW : Fld := ⟨.pwr, 0x080, 1, 8, 1, 0, 4, 1, .rw, .const 0⟩
def PWR_INT_STATUS.FLOW_LOW : Fld := ⟨.pwr, 0x088, 1, 8, 1, 0, 4, 1, .w1c, .const 0⟩
def PWR_INT_EN.FLOOR_BOUND : Fld := ⟨.pwr, 0x080, 1, 8, 1, 0, 5, 1, .rw, .const 0⟩
def PWR_INT_STATUS.FLOOR_BOUND : Fld := ⟨.pwr, 0x088, 1, 8, 1, 0, 5, 1, .w1c, .const 0⟩
def AGE_CTRL.EN : Fld := ⟨.age, 0x000, 1, 8, 1, 0, 0, 1, .rw, .const 1⟩
def AGE_CTRL.MARGIN_MIN : Fld := ⟨.age, 0x000, 1, 8, 1, 0, 8, 8, .rw, .const 8⟩
def AGE_CTRL.PERIOD_MIN : Fld := ⟨.age, 0x000, 1, 8, 1, 0, 16, 16, .rw, .const 10⟩
def AGE_CTRL.REJECT : Fld := ⟨.age, 0x000, 1, 8, 1, 0, 40, 8, .ro, .const 0⟩
def AGE_SEL.UNIT : Fld := ⟨.age, 0x008, 1, 8, 1, 0, 0, 10, .rw, .const 0⟩
def AGE_SEL.MON : Fld := ⟨.age, 0x008, 1, 8, 1, 0, 10, 2, .rw, .const 0⟩
def AGE_DATA.DEGRADE : Fld := ⟨.age, 0x010, 1, 8, 1, 0, 0, 16, .ro, .const 0⟩
def AGE_DATA.MARGIN : Fld := ⟨.age, 0x010, 1, 8, 1, 0, 16, 16, .ro, .const 0⟩
def AGE_DATA.TRIM : Fld := ⟨.age, 0x010, 1, 8, 1, 0, 32, 4, .ro, .const 0⟩
def AGE_DATA.STATE : Fld := ⟨.age, 0x010, 1, 8, 1, 0, 36, 2, .ro, .const 0⟩
def AGE_DATA.HOURS : Fld := ⟨.age, 0x010, 1, 8, 1, 0, 40, 24, .ro, .const 0⟩
def AGE_WORST.UNIT : Fld := ⟨.age, 0x018, 1, 8, 1, 0, 0, 10, .ro, .const 0⟩
def AGE_WORST.DEGRADE : Fld := ⟨.age, 0x018, 1, 8, 1, 0, 10, 16, .ro, .const 0⟩
def AGE_WORST.WORN : Fld := ⟨.age, 0x018, 1, 8, 1, 0, 32, 10, .ro, .const 0⟩
def AGE_VMIN.VMIN : Fld := ⟨.age, 0x020, 1, 8, 4, 10, 0, 10, .ro, .const 550⟩
def AGE_VGUARD.GUARD : Fld := ⟨.age, 0x028, 1, 8, 12, 5, 0, 5, .ro, .const 0⟩
def AGE_INT_EN.TRIM : Fld := ⟨.age, 0x030, 1, 8, 1, 0, 0, 1, .rw, .const 0⟩
def AGE_INT_STATUS.TRIM : Fld := ⟨.age, 0x038, 1, 8, 1, 0, 0, 1, .w1c, .const 0⟩
def AGE_INT_EN.WORN : Fld := ⟨.age, 0x030, 1, 8, 1, 0, 1, 1, .rw, .const 0⟩
def AGE_INT_STATUS.WORN : Fld := ⟨.age, 0x038, 1, 8, 1, 0, 1, 1, .w1c, .const 0⟩
def AGE_INT_EN.VMIN : Fld := ⟨.age, 0x030, 1, 8, 1, 0, 2, 1, .rw, .const 0⟩
def AGE_INT_STATUS.VMIN : Fld := ⟨.age, 0x038, 1, 8, 1, 0, 2, 1, .w1c, .const 0⟩
def AGE_INT_EN.GUARD : Fld := ⟨.age, 0x030, 1, 8, 1, 0, 3, 1, .rw, .const 0⟩
def AGE_INT_STATUS.GUARD : Fld := ⟨.age, 0x038, 1, 8, 1, 0, 3, 1, .w1c, .const 0⟩

/-- Fields of spec/14, part 0. -/
def fields14_0 : List Fld :=
  [PWR_CAP.WATTS, PWR_CAP.WINDOW_S, PWR_CAP.REJECT, PWR_CAP.EFFECTIVE_W,
   PWR_ORDER.CLASS, PWR_ORDER.REJECT, PWR_CLASS.FLOOR, PWR_CLASS.MAX,
   PWR_CLASS.GRANT, PWR_CLASS.DRAW, PWR_CLASS.REJECT, PWR_INPUT.VIN,
   PWR_INPUT.IIN, PWR_INPUT.PIN, PWR_INPUT.AVG, PWR_OVERHEAD.O,
   PWR_SUPPLY.MV, PWR_HOLD.D, PWR_TEMP.TJ, PWR_TEMP.HBM,
   PWR_COOLANT.INLET, PWR_COOLANT.OUTLET, PWR_COOLANT.FLOW_LOW, PWR_COOLANT.SENSOR_FAIL,
   PWR_THERM.THROTTLE_C, PWR_THERM.REJECT, PWR_EVENTS.CURRENT_LIMIT, PWR_EVENTS.DROOP,
   PWR_EVENTS.THROTTLE, PWR_EVENTS.FLOOR_BOUND, PWR_LAST_OFF.CAUSE, PWR_LAST_OFF.SOURCE,
   PWR_INT_EN.CAP_BOUND, PWR_INT_STATUS.CAP_BOUND, PWR_INT_EN.CURRENT_LIMIT, PWR_INT_STATUS.CURRENT_LIMIT,
   PWR_INT_EN.THROTTLE, PWR_INT_STATUS.THROTTLE, PWR_INT_EN.COOLANT_WARN, PWR_INT_STATUS.COOLANT_WARN]

/-- Fields of spec/14, part 1. -/
def fields14_1 : List Fld :=
  [PWR_INT_EN.FLOW_LOW, PWR_INT_STATUS.FLOW_LOW, PWR_INT_EN.FLOOR_BOUND, PWR_INT_STATUS.FLOOR_BOUND,
   AGE_CTRL.EN, AGE_CTRL.MARGIN_MIN, AGE_CTRL.PERIOD_MIN, AGE_CTRL.REJECT,
   AGE_SEL.UNIT, AGE_SEL.MON, AGE_DATA.DEGRADE, AGE_DATA.MARGIN,
   AGE_DATA.TRIM, AGE_DATA.STATE, AGE_DATA.HOURS, AGE_WORST.UNIT,
   AGE_WORST.DEGRADE, AGE_WORST.WORN, AGE_VMIN.VMIN, AGE_VGUARD.GUARD,
   AGE_INT_EN.TRIM, AGE_INT_STATUS.TRIM, AGE_INT_EN.WORN, AGE_INT_STATUS.WORN,
   AGE_INT_EN.VMIN, AGE_INT_STATUS.VMIN, AGE_INT_EN.GUARD, AGE_INT_STATUS.GUARD]

/-! ## RAS and BIST (R458, R459) -/

def RAS_CAPS.DOMAINS : Fld := ⟨.ras, 0x000, 1, 8, 1, 0, 0, 4, .ro, .const 6⟩
def RAS_CAPS.EVT_LOG2 : Fld := ⟨.ras, 0x000, 1, 8, 1, 0, 8, 8, .ro, .const 10⟩
def RAS_RESET.DOMAIN : Fld := ⟨.ras, 0x008, 1, 8, 1, 0, 0, 3, .wo, .const 0⟩
def RAS_RESET.TARGET : Fld := ⟨.ras, 0x008, 1, 8, 1, 0, 3, 10, .wo, .const 0⟩
def RAS_RESET.GO : Fld := ⟨.ras, 0x008, 1, 8, 1, 0, 13, 1, .wo, .const 0⟩
def RAS_RESET.REJECT : Fld := ⟨.ras, 0x008, 1, 8, 1, 0, 16, 8, .ro, .const 0⟩
def RAS_RESET.BUSY : Fld := ⟨.ras, 0x008, 1, 8, 1, 0, 24, 1, .ro, .const 0⟩
def RAS_RESET_LAST.DOMAIN : Fld := ⟨.ras, 0x010, 1, 8, 1, 0, 0, 3, .ro, .const 0⟩
def RAS_RESET_LAST.TARGET : Fld := ⟨.ras, 0x010, 1, 8, 1, 0, 3, 10, .ro, .const 0⟩
def RAS_RESET_LAST.SOURCE : Fld := ⟨.ras, 0x010, 1, 8, 1, 0, 13, 3, .ro, .const 0⟩
def RAS_RESET_LAST.CAUSE : Fld := ⟨.ras, 0x010, 1, 8, 1, 0, 16, 8, .ro, .const 0⟩
def RAS_RESET_LAST.VALID : Fld := ⟨.ras, 0x010, 1, 8, 1, 0, 24, 1, .rc, .const 0⟩
def RAS_RESET_LAST.TIME_MS : Fld := ⟨.ras, 0x010, 1, 8, 1, 0, 32, 32, .ro, .const 0⟩
def RAS_ESCALATE.LIMIT : Fld := ⟨.ras, 0x018, 1, 8, 1, 0, 0, 8, .rw, .const 3⟩
def RAS_CLU_ESCALATE.LIMIT : Fld := ⟨.ras, 0x020, 1, 8, 1, 0, 0, 8, .rw, .const 3⟩
def RAS_ESCALATE.WINDOW_S : Fld := ⟨.ras, 0x018, 1, 8, 1, 0, 8, 20, .rw, .const 600⟩
def RAS_CLU_ESCALATE.WINDOW_S : Fld := ⟨.ras, 0x020, 1, 8, 1, 0, 8, 20, .rw, .const 600⟩
def RAS_ESCALATE.MASK : Fld := ⟨.ras, 0x018, 1, 8, 1, 0, 33, 4, .rw, .const 15⟩
def RAS_ESCALATE.COUNT : Fld := ⟨.ras, 0x018, 1, 8, 1, 0, 40, 8, .ro, .const 0⟩
def RAS_ESCALATE.REJECT : Fld := ⟨.ras, 0x018, 1, 8, 1, 0, 56, 8, .ro, .const 0⟩
def RAS_CLU_ESCALATE.REJECT : Fld := ⟨.ras, 0x020, 1, 8, 1, 0, 56, 8, .ro, .const 0⟩
def RAS_CLU_HELD.HELD : Fld := ⟨.ras, 0x028, 8, 8, 1, 0, 0, 64, .w1c, .const 0⟩
def RAS_SERVICE.OUT : Fld := ⟨.ras, 0x068, 1, 8, 1, 0, 0, 1, .ro, .const 0⟩
def RAS_SERVICE.CAUSE : Fld := ⟨.ras, 0x068, 1, 8, 1, 0, 8, 8, .ro, .const 0⟩
def RAS_SERVICE.RESTORE : Fld := ⟨.ras, 0x068, 1, 8, 1, 0, 16, 1, .wo, .const 0⟩
def RAS_CTRL.AUTO_CLUSTER : Fld := ⟨.ras, 0x070, 1, 8, 1, 0, 0, 1, .rw, .const 1⟩
def RAS_CTRL.LOG_CORR : Fld := ⟨.ras, 0x070, 1, 8, 1, 0, 1, 1, .rw, .const 1⟩
def RAS_HM_WDOG.PERIOD_MS : Fld := ⟨.ras, 0x078, 1, 8, 1, 0, 0, 16, .rw, .const 2000⟩
def RAS_HM_WDOG.REJECT : Fld := ⟨.ras, 0x078, 1, 8, 1, 0, 16, 8, .ro, .const 0⟩
def RAS_EVT.Q : Fld := ⟨.ras, 0x080, 4, 8, 1, 0, 0, 64, .ro, .const 0⟩
def RAS_EVT_POP.POP : Fld := ⟨.ras, 0x0A0, 1, 8, 1, 0, 0, 1, .wo, .const 0⟩
def RAS_EVT_STATUS.PENDING : Fld := ⟨.ras, 0x0A8, 1, 8, 1, 0, 0, 11, .ro, .const 0⟩
def RAS_EVT_STATUS.LOST : Fld := ⟨.ras, 0x0A8, 1, 8, 1, 0, 32, 32, .rc, .const 0⟩
def RAS_UE_ACK.ACK : Fld := ⟨.ras, 0x0B0, 1, 8, 1, 0, 0, 1, .wo, .const 0⟩
def RAS_INT_EN.EVENT : Fld := ⟨.ras, 0x0B8, 1, 8, 1, 0, 0, 1, .rw, .const 0⟩
def RAS_INT_STATUS.EVENT : Fld := ⟨.ras, 0x0C0, 1, 8, 1, 0, 0, 1, .w1c, .const 0⟩
def RAS_INT_EN.UNCORR : Fld := ⟨.ras, 0x0B8, 1, 8, 1, 0, 1, 1, .rw, .const 0⟩
def RAS_INT_STATUS.UNCORR : Fld := ⟨.ras, 0x0C0, 1, 8, 1, 0, 1, 1, .w1c, .const 0⟩
def RAS_INT_EN.RESET : Fld := ⟨.ras, 0x0B8, 1, 8, 1, 0, 2, 1, .rw, .const 0⟩
def RAS_INT_STATUS.RESET : Fld := ⟨.ras, 0x0C0, 1, 8, 1, 0, 2, 1, .w1c, .const 0⟩
def RAS_INT_EN.CLU_HELD : Fld := ⟨.ras, 0x0B8, 1, 8, 1, 0, 3, 1, .rw, .const 0⟩
def RAS_INT_STATUS.CLU_HELD : Fld := ⟨.ras, 0x0C0, 1, 8, 1, 0, 3, 1, .w1c, .const 0⟩
def RAS_INT_EN.OUT_OF_SERVICE : Fld := ⟨.ras, 0x0B8, 1, 8, 1, 0, 4, 1, .rw, .const 0⟩
def RAS_INT_STATUS.OUT_OF_SERVICE : Fld := ⟨.ras, 0x0C0, 1, 8, 1, 0, 4, 1, .w1c, .const 0⟩
def RAS_INT_EN.LOST : Fld := ⟨.ras, 0x0B8, 1, 8, 1, 0, 5, 1, .rw, .const 0⟩
def RAS_INT_STATUS.LOST : Fld := ⟨.ras, 0x0C0, 1, 8, 1, 0, 5, 1, .w1c, .const 0⟩
def BIST_CMD.KIND : Fld := ⟨.bist, 0x000, 1, 8, 1, 0, 0, 2, .rw, .const 0⟩
def BIST_CMD.TARGET : Fld := ⟨.bist, 0x000, 1, 8, 1, 0, 2, 10, .rw, .const 0⟩
def BIST_CMD.TEST : Fld := ⟨.bist, 0x000, 1, 8, 1, 0, 12, 2, .rw, .const 0⟩
def BIST_CMD.GO : Fld := ⟨.bist, 0x000, 1, 8, 1, 0, 14, 1, .wo, .const 0⟩
def BIST_CMD.BUSY : Fld := ⟨.bist, 0x000, 1, 8, 1, 0, 15, 1, .ro, .const 0⟩
def BIST_CMD.REJECT : Fld := ⟨.bist, 0x000, 1, 8, 1, 0, 16, 8, .ro, .const 0⟩
def BIST_RESULT.PASS : Fld := ⟨.bist, 0x008, 1, 8, 1, 0, 0, 1, .ro, .const 0⟩
def BIST_RESULT.DONE : Fld := ⟨.bist, 0x008, 1, 8, 1, 0, 1, 1, .rc, .const 0⟩
def BIST_RESULT.ABANDONED : Fld := ⟨.bist, 0x008, 1, 8, 1, 0, 2, 1, .ro, .const 0⟩
def BIST_RESULT.CELLS_FAILED : Fld := ⟨.bist, 0x008, 1, 8, 1, 0, 16, 10, .ro, .const 0⟩
def BIST_RESULT.ROWS_REPAIRED : Fld := ⟨.bist, 0x008, 1, 8, 1, 0, 32, 10, .ro, .const 0⟩
def BIST_RESULT.UNREPAIRABLE : Fld := ⟨.bist, 0x008, 1, 8, 1, 0, 42, 1, .ro, .const 0⟩
def BIST_SIG.SIG : Fld := ⟨.bist, 0x010, 1, 8, 1, 0, 0, 64, .ro, .const 0⟩
def BIST_EXPECT.EXPECT : Fld := ⟨.bist, 0x018, 1, 8, 1, 0, 0, 64, .ro, .const 0⟩
def BIST_FAILMAP.CELLS : Fld := ⟨.bist, 0x020, 11, 8, 1, 0, 0, 64, .ro, .const 0⟩
def BIST_MEMFAIL.BANK : Fld := ⟨.bist, 0x078, 1, 8, 1, 0, 0, 6, .ro, .const 0⟩
def BIST_MEMFAIL.ROW : Fld := ⟨.bist, 0x078, 1, 8, 1, 0, 6, 10, .ro, .const 0⟩
def BIST_MEMFAIL.WORD : Fld := ⟨.bist, 0x078, 1, 8, 1, 0, 16, 3, .ro, .const 0⟩
def BIST_MEMFAIL.VALID : Fld := ⟨.bist, 0x078, 1, 8, 1, 0, 19, 1, .ro, .const 0⟩
def BIST_ROT.EN : Fld := ⟨.bist, 0x080, 1, 8, 1, 0, 0, 1, .rw, .const 1⟩
def BIST_ROT.PERIOD_H : Fld := ⟨.bist, 0x080, 1, 8, 1, 0, 8, 8, .rw, .const 24⟩
def BIST_ROT.NEXT : Fld := ⟨.bist, 0x080, 1, 8, 1, 0, 16, 9, .ro, .const 0⟩
def BIST_ROT.OVERDUE : Fld := ⟨.bist, 0x080, 1, 8, 1, 0, 32, 16, .ro, .const 0⟩
def BIST_ROT.REJECT : Fld := ⟨.bist, 0x080, 1, 8, 1, 0, 56, 8, .ro, .const 0⟩
def BIST_ROT_LAST.CLUSTER : Fld := ⟨.bist, 0x088, 1, 8, 1, 0, 0, 9, .ro, .const 0⟩
def BIST_ROT_LAST.PASS : Fld := ⟨.bist, 0x088, 1, 8, 1, 0, 9, 1, .ro, .const 0⟩
def BIST_ROT_LAST.LOGIC_ONLY : Fld := ⟨.bist, 0x088, 1, 8, 1, 0, 10, 1, .ro, .const 0⟩
def BIST_ROT_LAST.TIME_S : Fld := ⟨.bist, 0x088, 1, 8, 1, 0, 32, 32, .ro, .const 0⟩
def BIST_INT_EN.DONE : Fld := ⟨.bist, 0x090, 1, 8, 1, 0, 0, 1, .rw, .const 0⟩
def BIST_INT_STATUS.DONE : Fld := ⟨.bist, 0x098, 1, 8, 1, 0, 0, 1, .w1c, .const 0⟩
def BIST_INT_EN.FAIL : Fld := ⟨.bist, 0x090, 1, 8, 1, 0, 1, 1, .rw, .const 0⟩
def BIST_INT_STATUS.FAIL : Fld := ⟨.bist, 0x098, 1, 8, 1, 0, 1, 1, .w1c, .const 0⟩
def BIST_INT_EN.RETIRED : Fld := ⟨.bist, 0x090, 1, 8, 1, 0, 2, 1, .rw, .const 0⟩
def BIST_INT_STATUS.RETIRED : Fld := ⟨.bist, 0x098, 1, 8, 1, 0, 2, 1, .w1c, .const 0⟩
def BIST_INT_EN.OVERDUE : Fld := ⟨.bist, 0x090, 1, 8, 1, 0, 3, 1, .rw, .const 0⟩
def BIST_INT_STATUS.OVERDUE : Fld := ⟨.bist, 0x098, 1, 8, 1, 0, 3, 1, .w1c, .const 0⟩

/-- Fields of spec/15, part 0. -/
def fields15_0 : List Fld :=
  [RAS_CAPS.DOMAINS, RAS_CAPS.EVT_LOG2, RAS_RESET.DOMAIN, RAS_RESET.TARGET,
   RAS_RESET.GO, RAS_RESET.REJECT, RAS_RESET.BUSY, RAS_RESET_LAST.DOMAIN,
   RAS_RESET_LAST.TARGET, RAS_RESET_LAST.SOURCE, RAS_RESET_LAST.CAUSE, RAS_RESET_LAST.VALID,
   RAS_RESET_LAST.TIME_MS, RAS_ESCALATE.LIMIT, RAS_CLU_ESCALATE.LIMIT, RAS_ESCALATE.WINDOW_S,
   RAS_CLU_ESCALATE.WINDOW_S, RAS_ESCALATE.MASK, RAS_ESCALATE.COUNT, RAS_ESCALATE.REJECT,
   RAS_CLU_ESCALATE.REJECT, RAS_CLU_HELD.HELD, RAS_SERVICE.OUT, RAS_SERVICE.CAUSE,
   RAS_SERVICE.RESTORE, RAS_CTRL.AUTO_CLUSTER, RAS_CTRL.LOG_CORR, RAS_HM_WDOG.PERIOD_MS,
   RAS_HM_WDOG.REJECT, RAS_EVT.Q, RAS_EVT_POP.POP, RAS_EVT_STATUS.PENDING,
   RAS_EVT_STATUS.LOST, RAS_UE_ACK.ACK, RAS_INT_EN.EVENT, RAS_INT_STATUS.EVENT,
   RAS_INT_EN.UNCORR, RAS_INT_STATUS.UNCORR, RAS_INT_EN.RESET, RAS_INT_STATUS.RESET]

/-- Fields of spec/15, part 1. -/
def fields15_1 : List Fld :=
  [RAS_INT_EN.CLU_HELD, RAS_INT_STATUS.CLU_HELD, RAS_INT_EN.OUT_OF_SERVICE, RAS_INT_STATUS.OUT_OF_SERVICE,
   RAS_INT_EN.LOST, RAS_INT_STATUS.LOST, BIST_CMD.KIND, BIST_CMD.TARGET,
   BIST_CMD.TEST, BIST_CMD.GO, BIST_CMD.BUSY, BIST_CMD.REJECT,
   BIST_RESULT.PASS, BIST_RESULT.DONE, BIST_RESULT.ABANDONED, BIST_RESULT.CELLS_FAILED,
   BIST_RESULT.ROWS_REPAIRED, BIST_RESULT.UNREPAIRABLE, BIST_SIG.SIG, BIST_EXPECT.EXPECT,
   BIST_FAILMAP.CELLS, BIST_MEMFAIL.BANK, BIST_MEMFAIL.ROW, BIST_MEMFAIL.WORD,
   BIST_MEMFAIL.VALID, BIST_ROT.EN, BIST_ROT.PERIOD_H, BIST_ROT.NEXT,
   BIST_ROT.OVERDUE, BIST_ROT.REJECT, BIST_ROT_LAST.CLUSTER, BIST_ROT_LAST.PASS,
   BIST_ROT_LAST.LOGIC_ONLY, BIST_ROT_LAST.TIME_S, BIST_INT_EN.DONE, BIST_INT_STATUS.DONE,
   BIST_INT_EN.FAIL, BIST_INT_STATUS.FAIL, BIST_INT_EN.RETIRED, BIST_INT_STATUS.RETIRED]

/-- Fields of spec/15, part 2. -/
def fields15_2 : List Fld :=
  [BIST_INT_EN.OVERDUE, BIST_INT_STATUS.OVERDUE]

/-! ## Security (R478) -/

def SEC_STATUS.BOOT_SLOT : Fld := ⟨.sec, 0x000, 1, 8, 1, 0, 0, 1, .ro, .const 0⟩
def SEC_STATUS.FALLBACK : Fld := ⟨.sec, 0x000, 1, 8, 1, 0, 1, 1, .ro, .const 0⟩
def SEC_STATUS.ID_VALID : Fld := ⟨.sec, 0x000, 1, 8, 1, 0, 2, 1, .ro, .const 0⟩
def SEC_STATUS.OWNER : Fld := ⟨.sec, 0x000, 1, 8, 1, 0, 3, 1, .ro, .const 0⟩
def SEC_STATUS.DEBUG : Fld := ⟨.sec, 0x000, 1, 8, 1, 0, 4, 3, .ro, .const 0⟩
def SEC_STATUS.WIPE_BUSY : Fld := ⟨.sec, 0x000, 1, 8, 1, 0, 7, 1, .ro, .const 0⟩
def SEC_STATUS.ID_STATUS : Fld := ⟨.sec, 0x000, 1, 8, 1, 0, 8, 8, .ro, .const 0⟩
def SEC_STATUS.FW_SVN : Fld := ⟨.sec, 0x000, 1, 8, 1, 0, 32, 32, .ro, .const 0⟩
def SEC_COUNTERS.FW_COUNTER : Fld := ⟨.sec, 0x008, 1, 8, 1, 0, 0, 32, .ro, .const 0⟩
def SEC_COUNTERS.PLAN_COUNTER : Fld := ⟨.sec, 0x008, 1, 8, 1, 0, 32, 32, .ro, .const 0⟩
def SEC_CTRL.COMMIT_FW : Fld := ⟨.sec, 0x010, 1, 8, 1, 0, 0, 1, .wo, .const 0⟩
def SEC_CTRL.SCRUB_ON_UNLOAD : Fld := ⟨.sec, 0x010, 1, 8, 1, 0, 1, 1, .rw, .const 1⟩
def SEC_CTRL.WIPE : Fld := ⟨.sec, 0x010, 1, 8, 1, 0, 2, 1, .wo, .const 0⟩
def SEC_CTRL.REJECT : Fld := ⟨.sec, 0x010, 1, 8, 1, 0, 8, 8, .ro, .const 0⟩
def SEC_KEYS.INSTALLED : Fld := ⟨.sec, 0x018, 1, 8, 1, 0, 0, 8, .ro, .const 0⟩
def SEC_KEYS.REVOKED : Fld := ⟨.sec, 0x018, 1, 8, 1, 0, 8, 8, .ro, .const 0⟩
def SEC_KEYS.ROM0_RETIRED : Fld := ⟨.sec, 0x018, 1, 8, 1, 0, 16, 1, .ro, .const 0⟩
def SEC_AUTH.Q : Fld := ⟨.sec, 0x020, 18, 8, 1, 0, 0, 64, .rw, .const 0⟩
def SEC_AUTH_GO.GO : Fld := ⟨.sec, 0x0B0, 1, 8, 1, 0, 0, 1, .wo, .const 0⟩
def SEC_AUTH_GO.BUSY : Fld := ⟨.sec, 0x0B0, 1, 8, 1, 0, 1, 1, .ro, .const 0⟩
def SEC_AUTH_GO.STATUS : Fld := ⟨.sec, 0x0B0, 1, 8, 1, 0, 8, 8, .ro, .const 0⟩
def SEC_AUTH_NONCE.NONCE : Fld := ⟨.sec, 0x0B8, 4, 8, 1, 0, 0, 64, .ro, .const 0⟩
def SEC_ATTEST.GO : Fld := ⟨.sec, 0x0D8, 1, 8, 1, 0, 0, 1, .wo, .const 0⟩
def SEC_ATTEST.BUSY : Fld := ⟨.sec, 0x0D8, 1, 8, 1, 0, 1, 1, .ro, .const 0⟩
def SEC_ATTEST.STATUS : Fld := ⟨.sec, 0x0D8, 1, 8, 1, 0, 8, 8, .ro, .const 0⟩
def SEC_NONCE.NONCE : Fld := ⟨.sec, 0x0E0, 4, 8, 1, 0, 0, 64, .rw, .const 0⟩
def SEC_REPORT.Q : Fld := ⟨.sec, 0x100, 40, 8, 1, 0, 0, 64, .ro, .const 0⟩
def SEC_ENDORSE.Q : Fld := ⟨.sec, 0x240, 16, 8, 1, 0, 0, 64, .ro, .const 0⟩
def SEC_INT_EN.AUTH_DONE : Fld := ⟨.sec, 0x2C0, 1, 8, 1, 0, 0, 1, .rw, .const 0⟩
def SEC_INT_STATUS.AUTH_DONE : Fld := ⟨.sec, 0x2C8, 1, 8, 1, 0, 0, 1, .w1c, .const 0⟩
def SEC_INT_EN.ATTEST_DONE : Fld := ⟨.sec, 0x2C0, 1, 8, 1, 0, 1, 1, .rw, .const 0⟩
def SEC_INT_STATUS.ATTEST_DONE : Fld := ⟨.sec, 0x2C8, 1, 8, 1, 0, 1, 1, .w1c, .const 0⟩
def SEC_INT_EN.DEBUG_UNLOCK : Fld := ⟨.sec, 0x2C0, 1, 8, 1, 0, 2, 1, .rw, .const 0⟩
def SEC_INT_STATUS.DEBUG_UNLOCK : Fld := ⟨.sec, 0x2C8, 1, 8, 1, 0, 2, 1, .w1c, .const 0⟩
def SEC_INT_EN.WIPE_DONE : Fld := ⟨.sec, 0x2C0, 1, 8, 1, 0, 3, 1, .rw, .const 0⟩
def SEC_INT_STATUS.WIPE_DONE : Fld := ⟨.sec, 0x2C8, 1, 8, 1, 0, 3, 1, .w1c, .const 0⟩
def SEC_INT_EN.FALLBACK : Fld := ⟨.sec, 0x2C0, 1, 8, 1, 0, 4, 1, .rw, .const 0⟩
def SEC_INT_STATUS.FALLBACK : Fld := ⟨.sec, 0x2C8, 1, 8, 1, 0, 4, 1, .w1c, .const 0⟩

/-- Fields of spec/16, part 0. -/
def fields16_0 : List Fld :=
  [SEC_STATUS.BOOT_SLOT, SEC_STATUS.FALLBACK, SEC_STATUS.ID_VALID, SEC_STATUS.OWNER,
   SEC_STATUS.DEBUG, SEC_STATUS.WIPE_BUSY, SEC_STATUS.ID_STATUS, SEC_STATUS.FW_SVN,
   SEC_COUNTERS.FW_COUNTER, SEC_COUNTERS.PLAN_COUNTER, SEC_CTRL.COMMIT_FW, SEC_CTRL.SCRUB_ON_UNLOAD,
   SEC_CTRL.WIPE, SEC_CTRL.REJECT, SEC_KEYS.INSTALLED, SEC_KEYS.REVOKED,
   SEC_KEYS.ROM0_RETIRED, SEC_AUTH.Q, SEC_AUTH_GO.GO, SEC_AUTH_GO.BUSY,
   SEC_AUTH_GO.STATUS, SEC_AUTH_NONCE.NONCE, SEC_ATTEST.GO, SEC_ATTEST.BUSY,
   SEC_ATTEST.STATUS, SEC_NONCE.NONCE, SEC_REPORT.Q, SEC_ENDORSE.Q,
   SEC_INT_EN.AUTH_DONE, SEC_INT_STATUS.AUTH_DONE, SEC_INT_EN.ATTEST_DONE, SEC_INT_STATUS.ATTEST_DONE,
   SEC_INT_EN.DEBUG_UNLOCK, SEC_INT_STATUS.DEBUG_UNLOCK, SEC_INT_EN.WIPE_DONE, SEC_INT_STATUS.WIPE_DONE,
   SEC_INT_EN.FALLBACK, SEC_INT_STATUS.FALLBACK]

/-! ## Hub identification (R488) -/

def HUB_ID.DIE : Fld := ⟨.hub, 0x000, 1, 8, 1, 0, 0, 1, .ro, .instBits 0 1⟩
def HUB_ID.STEPPING : Fld := ⟨.hub, 0x000, 1, 8, 1, 0, 8, 8, .ro, .const 176⟩
def HUB_ID.CONTROLLERS : Fld := ⟨.hub, 0x000, 1, 8, 1, 0, 16, 4, .ro, .const 6⟩
def HUB_ID.OBL_PORTS : Fld := ⟨.hub, 0x000, 1, 8, 1, 0, 24, 4, .ro, .const 8⟩
def HUB_ID.HOST : Fld := ⟨.hub, 0x000, 1, 8, 1, 0, 28, 1, .ro, .byInst [1, 0]⟩
def HUB_ID.COCOON : Fld := ⟨.hub, 0x000, 1, 8, 1, 0, 29, 1, .ro, .byInst [0, 1]⟩
def HUB_ID.PC_FIRST : Fld := ⟨.hub, 0x000, 1, 8, 1, 0, 32, 10, .ro, .byInst [0, 384]⟩
def HUB_ID.PC_IN_SERVICE : Fld := ⟨.hub, 0x000, 1, 8, 1, 0, 48, 10, .ro, .const 384⟩

/-- Fields of spec/17, part 0. -/
def fields17_0 : List Fld :=
  [HUB_ID.DIE, HUB_ID.STEPPING, HUB_ID.CONTROLLERS, HUB_ID.OBL_PORTS,
   HUB_ID.HOST, HUB_ID.COCOON, HUB_ID.PC_FIRST, HUB_ID.PC_IN_SERVICE]

/-- Every register field of the part. -/
def allFields : List Fld :=
  fields02_0 ++ fields02_1 ++ fields03_0 ++ fields04_0 ++ fields05_0 ++ fields05_1 ++ fields06_0 ++ fields06_1 ++ fields07_0 ++ fields07_1 ++ fields08_0 ++ fields09_0 ++ fields09_1 ++ fields10_0 ++ fields10_1 ++ fields10_2 ++ fields11_0 ++ fields11_1 ++ fields12_0 ++ fields12_1 ++ fields13_0 ++ fields13_1 ++ fields14_0 ++ fields14_1 ++ fields15_0 ++ fields15_1 ++ fields15_2 ++ fields16_0 ++ fields17_0

end Sys2Proof.Machine
end

