-- ==== Sys2Proof/Machine/Ops.lean ====
section
/-! DEFINITION. Machine/Ops.lean: the named operations over registers, interrupts, the RAS queue, clusters and cells. -/

namespace Sys2Proof.Machine

/-! ## Registers -/

/-- A register field: of block instance `i`, array index `j`, packed position `r`. -/
def State.rd (s : State) (f : Fld) (i : Nat := 0) (j : Nat := 0) (r : Nat := 0) : Nat :=
  getK (f.reset i j r) s.regs (f.key i j r)

/-- Write a register field: its low bits. -/
def State.wr (s : State) (f : Fld) (v : Nat) (i : Nat := 0) (j : Nat := 0) (r : Nat := 0) : State :=
  { s with regs := setK (f.reset i j r) s.regs (f.key i j r) (v % 2 ^ f.width) }

/-- Add to a counter that saturates at its largest value (R110, R172, R204, R481). -/
def State.bump (s : State) (f : Fld) (n : Nat) (i : Nat := 0) (j : Nat := 0) : State :=
  s.wr f (satAdd (s.rd f i j) n f.width) i j

/-- A register's word put together from its fields: a copy of a record register (R439). -/
def State.recWord (s : State) (fs : List Fld) (i : Nat) : Nat := fs.foldl (fun v f => v + s.rd f i * 2 ^ f.lo) 0

/-- A one-bit field as a Bool. -/
def State.on (s : State) (f : Fld) (i : Nat := 0) (j : Nat := 0) : Bool := s.rd f i j != 0

/-! ## Interrupts (R78, R266, R358) -/

/-- The EN and STATUS bits of each block's interrupts. -/
def Blk.intr : Blk → List (Fld × Fld)
  | .clu => [(CLU_INT_EN.FAULT, CLU_INT_STATUS.FAULT), (CLU_INT_EN.ECC_THRESH, CLU_INT_STATUS.ECC_THRESH),
      (CLU_INT_EN.BANK_WAKE, CLU_INT_STATUS.BANK_WAKE), (CLU_INT_EN.GATE_DONE, CLU_INT_STATUS.GATE_DONE),
      (CLU_INT_EN.CLUSTER_WAKE, CLU_INT_STATUS.CLUSTER_WAKE)]
  | .cal => [(CAL_INT_EN.STICKY, CAL_INT_STATUS.STICKY), (CAL_INT_EN.NAN_OUT, CAL_INT_STATUS.NAN_OUT),
      (CAL_INT_EN.SAT_OUT, CAL_INT_STATUS.SAT_OUT), (CAL_INT_EN.CAPACITY, CAL_INT_STATUS.CAPACITY),
      (CAL_INT_EN.OVERFLOW, CAL_INT_STATUS.OVERFLOW)]
  | .plnGlobal => [(PLN_INT_EN.DONE, PLN_INT_STATUS.DONE), (PLN_INT_EN.FAIL, PLN_INT_STATUS.FAIL),
      (PLN_INT_EN.RETIRE, PLN_INT_STATUS.RETIRE), (PLN_INT_EN.RELOAD, PLN_INT_STATUS.RELOAD)]
  | .dlnSlot => [(DLN_INT_EN.IDLE, DLN_INT_STATUS.IDLE), (DLN_INT_EN.FALLBACK, DLN_INT_STATUS.FALLBACK),
      (DLN_INT_EN.LATE, DLN_INT_STATUS.LATE), (DLN_INT_EN.HALT, DLN_INT_STATUS.HALT),
      (DLN_INT_EN.MOLT_DONE, DLN_INT_STATUS.MOLT_DONE), (DLN_INT_EN.MOLT_CANCEL, DLN_INT_STATUS.MOLT_CANCEL)]
  | .mov => [(MOV_INT_EN.ERR, MOV_INT_STATUS.ERR), (MOV_INT_EN.WDOG, MOV_INT_STATUS.WDOG)]
  | .lnd => [(LND_INT_EN.WATCH, LND_INT_STATUS.WATCH), (LND_INT_EN.TIMEOUT, LND_INT_STATUS.TIMEOUT)]
  | .tier => [(TIER_INT_EN.ERR, TIER_INT_STATUS.ERR), (TIER_INT_EN.UNITS_LOW, TIER_INT_STATUS.UNITS_LOW),
      (TIER_INT_EN.TABLE_LOW, TIER_INT_STATUS.TABLE_LOW), (TIER_INT_EN.READY, TIER_INT_STATUS.READY)]
  | .dir => [(DIR_INT_EN.ERR, DIR_INT_STATUS.ERR), (DIR_INT_EN.POISON, DIR_INT_STATUS.POISON),
      (DIR_INT_EN.HOST_TMO, DIR_INT_STATUS.HOST_TMO), (DIR_INT_EN.ECC_UNCORR, DIR_INT_STATUS.ECC_UNCORR),
      (DIR_INT_EN.TOKEN_HIGH, DIR_INT_STATUS.TOKEN_HIGH)]
  | .sc => [(SC_INT_EN.GATE_DONE, SC_INT_STATUS.GATE_DONE), (SC_INT_EN.WAY_DISABLED, SC_INT_STATUS.WAY_DISABLED),
      (SC_INT_EN.PRELOAD_DONE, SC_INT_STATUS.PRELOAD_DONE), (SC_INT_EN.ECC_UNCORR, SC_INT_STATUS.ECC_UNCORR),
      (SC_INT_EN.WAKE, SC_INT_STATUS.WAKE)]
  | .hbmHub => [(HBM_INT_EN.ECC_UNCORR, HBM_INT_STATUS.ECC_UNCORR), (HBM_INT_EN.FAILED, HBM_INT_STATUS.FAILED),
      (HBM_INT_EN.TEMP_HIGH, HBM_INT_STATUS.TEMP_HIGH), (HBM_INT_EN.SCRUB_DONE, HBM_INT_STATUS.SCRUB_DONE)]
  | .geyCmd => [(GEY_INT_EN.DONE, GEY_INT_STATUS.DONE), (GEY_INT_EN.ERR, GEY_INT_STATUS.ERR)]
  | .host => [(HOST_INT_EN.LOST, HOST_INT_STATUS.LOST), (HOST_INT_EN.RETRAIN, HOST_INT_STATUS.RETRAIN),
      (HOST_INT_EN.ATS_ERR, HOST_INT_STATUS.ATS_ERR), (HOST_INT_EN.LINK_UP, HOST_INT_STATUS.LINK_UP)]
  | .ringGlobal => [(RING_INT_EN.ERR, RING_INT_STATUS.ERR), (RING_INT_EN.DRAINED, RING_INT_STATUS.DRAINED)]
  | .d2dGlobal => [(D2D_INT_EN.BUNDLE_DOWN, D2D_INT_STATUS.BUNDLE_DOWN), (D2D_INT_EN.DEGRADED, D2D_INT_STATUS.DEGRADED),
      (D2D_INT_EN.FAILED, D2D_INT_STATUS.FAILED)]
  | .coc => [(COC_INT_EN.UP, COC_INT_STATUS.UP), (COC_INT_EN.FENCED, COC_INT_STATUS.FENCED),
      (COC_INT_EN.ERR, COC_INT_STATUS.ERR), (COC_INT_EN.ACCEPTED, COC_INT_STATUS.ACCEPTED)]
  | .oblGlobal => [(OBL_INT_EN.DROP, OBL_INT_STATUS.DROP), (OBL_INT_EN.NACK, OBL_INT_STATUS.NACK),
      (OBL_INT_EN.PORT, OBL_INT_STATUS.PORT)]
  | .oblPort => [(OBL_PORT_INT_EN.UP, OBL_PORT_INT_STATUS.UP), (OBL_PORT_INT_EN.DOWN, OBL_PORT_INT_STATUS.DOWN),
      (OBL_PORT_INT_EN.PARTNER, OBL_PORT_INT_STATUS.PARTNER)]
  | .chn => [(CHN_INT_EN.ASSIGNED, CHN_INT_STATUS.ASSIGNED), (CHN_INT_EN.MISMATCH, CHN_INT_STATUS.MISMATCH),
      (CHN_INT_EN.RESET_CMD, CHN_INT_STATUS.RESET_CMD)]
  | .pwr => [(PWR_INT_EN.CAP_BOUND, PWR_INT_STATUS.CAP_BOUND), (PWR_INT_EN.CURRENT_LIMIT, PWR_INT_STATUS.CURRENT_LIMIT),
      (PWR_INT_EN.THROTTLE, PWR_INT_STATUS.THROTTLE), (PWR_INT_EN.COOLANT_WARN, PWR_INT_STATUS.COOLANT_WARN),
      (PWR_INT_EN.FLOW_LOW, PWR_INT_STATUS.FLOW_LOW), (PWR_INT_EN.FLOOR_BOUND, PWR_INT_STATUS.FLOOR_BOUND)]
  | .age => [(AGE_INT_EN.TRIM, AGE_INT_STATUS.TRIM), (AGE_INT_EN.WORN, AGE_INT_STATUS.WORN),
      (AGE_INT_EN.VMIN, AGE_INT_STATUS.VMIN), (AGE_INT_EN.GUARD, AGE_INT_STATUS.GUARD)]
  | .ras => [(RAS_INT_EN.EVENT, RAS_INT_STATUS.EVENT), (RAS_INT_EN.UNCORR, RAS_INT_STATUS.UNCORR),
      (RAS_INT_EN.RESET, RAS_INT_STATUS.RESET), (RAS_INT_EN.CLU_HELD, RAS_INT_STATUS.CLU_HELD),
      (RAS_INT_EN.OUT_OF_SERVICE, RAS_INT_STATUS.OUT_OF_SERVICE), (RAS_INT_EN.LOST, RAS_INT_STATUS.LOST)]
  | .bist => [(BIST_INT_EN.DONE, BIST_INT_STATUS.DONE), (BIST_INT_EN.FAIL, BIST_INT_STATUS.FAIL),
      (BIST_INT_EN.RETIRED, BIST_INT_STATUS.RETIRED), (BIST_INT_EN.OVERDUE, BIST_INT_STATUS.OVERDUE)]
  | .sec => [(SEC_INT_EN.AUTH_DONE, SEC_INT_STATUS.AUTH_DONE), (SEC_INT_EN.ATTEST_DONE, SEC_INT_STATUS.ATTEST_DONE),
      (SEC_INT_EN.DEBUG_UNLOCK, SEC_INT_STATUS.DEBUG_UNLOCK), (SEC_INT_EN.WIPE_DONE, SEC_INT_STATUS.WIPE_DONE),
      (SEC_INT_EN.FALLBACK, SEC_INT_STATUS.FALLBACK)]  | _ => []

/-- Whether an instance of a block raises its interrupt (R78): a bit is 1 in both STATUS and EN. -/
def State.intrOf (s : State) (b : Blk) (i : Nat) : Bool :=
  b.intr.any fun p => decide (s.rd p.1 i &&& s.rd p.2 i ≠ 0)

/-- The APLIC sources that a block instance drives (R266, R338, R412). -/
def Blk.sources (b : Blk) (i : Nat) : List Nat :=
  match b with
  | .clu | .cal | .mov | .lnd => [i + 1]
  | .plnGlobal => [513]
  | .dlnSlot => [514 + i]
  | .tier => [530]
  | .sc => [531]
  | .dir => [532]
  | .hbmHub => [533 + i]
  | .geyCmd => [535]
  | .geyTest => [535 + i]
  | .host => [537]
  | .ringGlobal => [538]
  | .oblGlobal => [539]
  | .oblPort => [539 + i / 8]
  | .chn => [541]
  | .d2dGlobal => [542]
  | .coc => [543]
  | .pwr => [544]
  | .age => [545]
  | .ras => [546]
  | .bist => [547]
  | .sec => [548]
  | _ => []

/-- The block instances that drive an APLIC source (R266). -/
def sourceBlocks (src : Nat) : List (Blk × Nat) :=
  if src = 0 then []
  else if src ≤ 512 then [(.clu, src - 1), (.cal, src - 1), (.mov, src - 1), (.lnd, src - 1)]
  else if src = 513 then [(.plnGlobal, 0)]
  else if src ≤ 529 then [(.dlnSlot, src - 514)]
  else
    match src with
    | 530 => [(.tier, 0)]
    | 531 => [(.sc, 0), (.sc, 1)]
    | 532 => [(.dir, 0), (.dir, 1)]
    | 533 => [(.hbmHub, 0)]
    | 534 => [(.hbmHub, 1)]
    | 535 => [(.geyCmd, 0), (.geyTest, 0)]
    | 536 => [(.geyTest, 1)]
    | 537 => [(.host, 0)]
    | 538 => [(.ringGlobal, 0)]
    | 539 => (.oblGlobal, 0) :: (List.range 8).map fun p => (.oblPort, p)
    | 540 => (List.range 8).map fun p => (.oblPort, p + 8)
    | 541 => [(.chn, 0)]
    | 542 => [(.d2dGlobal, 0)]
    | 543 => [(.coc, 0)]
    | 544 => [(.pwr, 0)]
    | 545 => [(.age, 0)]
    | 546 => [(.ras, 0)]
    | 547 => [(.bist, 0)]
    | 548 => [(.sec, 0)]
    | _ => []

/-- Whether an APLIC source is asserted (R266). -/
def State.source (s : State) (src : Nat) : Bool := (sourceBlocks src).any fun p => s.intrOf p.1 p.2

/-- Something leaves the part. -/
def State.send (s : State) (o : Out) : State := { s with out := s.out ++ [o] }

/-- Register offsets of an APLIC domain, of the published AIA layout (R265; PRESUMED, log entry 14): domain 0 is the
M-level one, 1 the S-level one. -/
def aplicKey (dom off : Nat) : Nat := dom * 0x10000 + off

/-- An APLIC register. -/
def State.aplic (s : State) (dom off : Nat) : Nat := getK 0 s.irq.aplic (aplicKey dom off)

/-- Write an APLIC register. -/
def State.setAplic (s : State) (dom off v : Nat) : State :=
  { s with irq := { s.irq with aplic := setK 0 s.irq.aplic (aplicKey dom off) v } }

/-- Number of an IMSIC file of a hart: 0 the M-level file, 1 the S-level file, 1 + g guest file g (R265). -/
def imsicFile (h : Nat) : ImsicFile → Nat
  | .m => h * 16
  | .s => h * 16 + 1
  | .guest g => h * 16 + 2 + g

/-- Keys of a file's registers: eidelivery, eithreshold, the pending and the enable bits as one number each. -/
def imsicKey (file reg : Nat) : Nat := file * 4096 + reg

/-- The pending identities of an IMSIC file. -/
def State.eip (s : State) (file : Nat) : Nat := getK 0 s.irq.imsic (imsicKey file 0x80)

/-- Identities of an IMSIC file: 255 in the M and S files, 63 in a guest file (R242). -/
def imsicTop (file : Nat) : Nat := if file % 16 ≤ 1 then 255 else 63

/-- An identity becomes pending in an IMSIC file; 0 and those the file does not have are ignored. -/
def State.imsicSet (s : State) (file ident : Nat) : State :=
  if ident = 0 ∨ imsicTop file < ident then s
  else { s with irq := { s.irq with imsic := setK 0 s.irq.imsic (imsicKey file 0x80) (setBit (s.eip file) ident true) } }

/-- The domain an APLIC source is configured in: the S-level one where the M-level sourcecfg delegates it. -/
def State.aplicDomain (s : State) (src : Nat) : Nat := if bit (s.aplic 0 (4 * src)) 10 then 1 else 0

/-- Pending and enable bits of an APLIC source, held as the words setip and setie. -/
def State.aplicPending (s : State) (dom src : Nat) : Bool := bit (s.aplic dom (0x1C00 + src / 32 * 4)) (src % 32)
def State.aplicEnabled (s : State) (dom src : Nat) : Bool := bit (s.aplic dom (0x1E00 + src / 32 * 4)) (src % 32)

/-- Set or clear an APLIC source's pending bit. -/
def State.setAplicPending (s : State) (dom src : Nat) (b : Bool) : State :=
  s.setAplic dom (0x1C00 + src / 32 * 4) (setBit (s.aplic dom (0x1C00 + src / 32 * 4)) (src % 32) b)

/-- MSI delivery of a pending, enabled source of a domain whose IE is 1: the MSI of its target is sent to the IMSIC
file and the pending bit clears (AIA). -/
def State.aplicForward (s : State) (dom src : Nat) : State :=
  if bit (s.aplic dom 0) 8 ∧ s.aplicPending dom src ∧ s.aplicEnabled dom src then
    let t := s.aplic dom (0x3000 + 4 * src)
    let h := bits t 18 14
    let g := bits t 12 6
    let file := if dom = 0 then h * 16 else if g = 0 then h * 16 + 1 else h * 16 + 1 + g
    let s := s.setAplicPending dom src false
    if 96 ≤ h then s else s.imsicSet file (bits t 0 11)
  else s

/-- The mode of an APLIC source in a domain (AIA): 0 inactive, 1 detached, 4 and 5 edge, 6 and 7 level, odd ones
inverted. -/
def State.sourceMode (s : State) (dom src : Nat) : Nat := bits (s.aplic dom (4 * src)) 0 3

/-- Whether a function is in D3hot (R340): power state 3 in its power management dword (PRESUMED place, log entry 188). -/
def State.inD3 (s : State) (f : Nat) : Bool := bits (getK 0 s.host.cfg (f * 1024 + 0x11)) 0 2 == 3

/-- A function's MSI-X message (R358): sent where MSI-X is enabled, and pending while the function mask is set (PRESUMED place, log
entry 188). -/
def State.msix (s : State) (f v : Nat) : State :=
  let c := getK 0 s.host.cfg (f * 1024 + 0x2C)
  if !bit c 31 then s
  else if bit c 30 then
    (if s.irq.msix.contains (f, v) then s else { s with irq := { s.irq with msix := s.irq.msix ++ [(f, v)] } })
  else s.send (.msix f v)

/-- The rectified input of an APLIC source changes: a rise makes it pending, a fall ends a level-sensitive one. -/
def State.rectified (s : State) (src : Nat) (up : Bool) : State :=
  let dom := s.aplicDomain src
  if up then (s.setAplicPending dom src true).aplicForward dom src
  else if 6 ≤ s.sourceMode dom src then s.setAplicPending dom src false
  else s

/-- The APLIC sees an input change. -/
def State.aplicInput (s : State) (src : Nat) (up : Bool) : State :=
  match s.sourceMode (s.aplicDomain src) src with
  | 4 | 6 => s.rectified src up
  | 5 | 7 => s.rectified src !up
  | _ => s

/-- An APLIC source rises: its host mirror sends its message (R358), and the APLIC takes the edge. -/
def State.sourceRise (s : State) (src : Nat) : State :=
  (if bit (s.rd HOST_EVT_EN.EN 0 (src / 64)) (src % 64) then s.msix 0 (1023 + src) else s).aplicInput src true

/-- An APLIC source falls. -/
def State.sourceFall (s : State) (src : Nat) : State := s.aplicInput src false

/-- Carry the change of a block's interrupt from a state to the sources it drives. -/
def State.followSources (s before : State) (b : Blk) (i : Nat) : State :=
  (b.sources i).foldl (fun s src =>
    if s.source src && !before.source src then s.sourceRise src
    else if before.source src && !s.source src then s.sourceFall src
    else s) s

/-- An interrupt event: the STATUS bits are set whatever EN holds (R78), and a source that rises is delivered. -/
def State.raise (s : State) (st : Fld) (i : Nat := 0) (mask : Nat := 1) : State :=
  (s.wr st (s.rd st i ||| mask) i).followSources s st.blk i

/-! ## RAS events (R439) -/

/-- Microseconds since module power-on. -/
def State.us (s : State) : Nat := s.clock / 100

/-- Whether a RAS record is of a corrected error, an uncorrectable one or a lost write, a reset, an event that its rule
says is logged, or none of these. -/
inductive RasKind where
  | info | corrected | uncorr | reset | note
  deriving DecidableEq, Repr

/-- Records that the event log holds before it overwrites its oldest (R36): DESIGN CHOICE, log entry 6. -/
def evlogCap : Nat := 917504

/-- A record enters the RAS queue; an uncorrectable one, a reset, one that its rule logs, and at most one corrected error per block and minute
while LOG_CORR is 1 also enter the event log. A full queue counts it in LOST. -/
def State.rasEvent (s : State) (status block unit loc : Nat) (kind : RasKind) (detail : Nat := 0) : State :=
  let corrDue := decide (kind = .corrected) && s.on RAS_CTRL.LOG_CORR
    && (match s.ras.corrAt.find? (·.1 = block) with | none => true | some e => decide (e.2 + 60000000 ≤ s.us))
  let logged := decide (kind = .uncorr) || decide (kind = .reset) || decide (kind = .note) || corrDue
  let r : RasRec := ⟨status, block, decide (kind = .uncorr), logged, unit, s.us, loc, detail⟩
  let full := decide (1024 ≤ s.ras.queue.length)
  let ras := { s.ras with
    queue := if full then s.ras.queue else s.ras.queue ++ [r]
    log := if logged then (s.ras.log ++ [r]).drop (s.ras.log.length + 1 - evlogCap) else s.ras.log
    corrAt := if corrDue then insK s.ras.corrAt block s.us else s.ras.corrAt
    ueOpen := s.ras.ueOpen || decide (kind = .uncorr) }
  let s := { s with ras := ras }
  let s := if full then (s.bump RAS_EVT_STATUS.LOST 1).raise RAS_INT_STATUS.LOST else s
  let s := s.raise RAS_INT_STATUS.EVENT
  let s := if kind = .uncorr then s.raise RAS_INT_STATUS.UNCORR else s
  if kind = .reset then s.raise RAS_INT_STATUS.RESET else s

/-! ## Status codes (R483) -/

def stOK : Nat := 0x00
def stTileClaim : Nat := 0x01
def stDeadlineFallback : Nat := 0x02
def stCounterTimeout : Nat := 0x03
def stNoObjectSlot : Nat := 0x04
def stNoContext : Nat := 0x05
def stBadDescriptor : Nat := 0x06
def stZeroWindow : Nat := 0x07
def stPlanSignature : Nat := 0x08
def stPlanCheck : Nat := 0x09
def stHostLost : Nat := 0x0A
def stPeerTimeout : Nat := 0x0B
def stOutOfService : Nat := 0x0C
def stEcc : Nat := 0x0D
def stBankWake : Nat := 0x0E
def stAddrUnassigned : Nat := 0x0F
def stRouteFull : Nat := 0x10

/-! ## Clusters and cells -/

/-- Cluster states of CLU_STATUS.STATE (R152). -/
def cOff : Nat := 0
def cStopped : Nat := 1
def cRunning : Nat := 2
def cStopping : Nat := 3
def cFaulted : Nat := 4
def cResetting : Nat := 5

/-- What a cluster holds beside its registers. -/
def State.clu (s : State) (c : Nat) : Clu := getK Clu.rest s.clus c

/-- Change what a cluster holds. -/
def State.setClu (s : State) (c : Nat) (f : Clu → Clu) : State :=
  { s with clus := setK Clu.rest s.clus c (f (s.clu c)) }

/-- The number of a cell: 640 a cluster (R119). -/
def cellKey (c row col : Nat) : Nat := c * 640 + row * 32 + col

/-- A cell. -/
def State.cell (s : State) (c row col : Nat) : Cell := getK Cell.rest s.cells (cellKey c row col)

/-- Change a cell. -/
def State.setCell (s : State) (c row col : Nat) (f : Cell → Cell) : State :=
  { s with cells := setK Cell.rest s.cells (cellKey c row col) (f (s.cell c row col)) }

/-- A cluster's state. -/
def State.cluSt (s : State) (c : Nat) : Nat := s.rd CLU_STATUS.STATE c

/-- The matrix die of a cluster (R4). -/
def dieOf (c : Nat) : Nat := c / 128

/-- The deadline timer of a cluster's die, in nanoseconds (R156). -/
def State.timer (s : State) (c : Nat) : Nat := s.rd DLN_TIMER.NS (dieOf c)

/-- A plan slot. -/
def State.slot (s : State) (k : Nat) : Slot := getK Slot.empty s.slots k

/-- Change a plan slot. -/
def State.setSlot (s : State) (k : Nat) (f : Slot → Slot) : State :=
  { s with slots := setK Slot.empty s.slots k (f (s.slot k)) }

/-- The clusters a slot owns, in ascending order. -/
def State.owned (s : State) (k : Nat) : List Nat :=
  (s.clus.filter fun e => decide (e.2.owner = some k)).map (·.1)

/-- Progress of a cluster, for its beat-stall watchdog (R166). -/
def State.progress (s : State) (c : Nat) : State := s.setClu c fun x => { x with lastProgress := s.timer c }

/-- The reading of a periodic register field that is taken as at most `m`: "values above m act as m". -/
def State.rdMax (s : State) (f : Fld) (m : Nat) (i : Nat := 0) : Nat := min (s.rd f i) m

/-- Reset domains as RAS_RESET numbers them. -/
def dCluster : Nat := 0
def dMatrix : Nat := 1
def dHub : Nat := 2
def dCore : Nat := 3
def dPackage : Nat := 4

/-- Change the module's terminals and boot. -/
def State.setBoard (s : State) (f : Mod → Mod) : State := { s with board := f s.board }

/-! ## Who may use the registers -/

/-- Whether the boot has stopped short of the firmware (R461, R463, R465). -/
def BootStage.stopped : BootStage → Bool
  | .noSeed | .badArea | .romOnly => true
  | _ => false


/-- A request of the Cocoon die to register space or a window is refused: COC_ERR records it with SOURCE 4 (R384). -/
def State.cocRefuse (s : State) (addr : Nat) : State :=
  let s := ((s.wr COC_ERR.STATUS stBadDescriptor).wr COC_ERR.SOURCE 4).wr COC_ERR.VALID 1
  (s.wr COC_ERR.ADDR addr).raise COC_INT_STATUS.ERR

/-! ## The ordered class (R283) -/

/-- Whether a request is of the ordered class: RdCur, WrFull, WrPart, AtomF and AddM, of the streams up to the Cocoon die's. -/
def Req.ordered (r : Req) : Bool :=
  match r.kind with
  | .rdcur | .wrfull _ _ | .wrpart _ _ _ | .atomf _ _ _ _ _ | .addm _ _ _ => decide (r.stream < 128)
  | _ => false

/-- Whether a stream has a request of the ordered class at another line that is not performed yet. -/
def State.orderedOpen (s : State) (st : Nat) (k : Option Nat) : Bool :=
  let mine (r : Req) : Bool := r.ordered && r.stream == st
  s.coh.txns.any (fun e => some e.1 != k && (match e.2.req with | some r => mine r | none => false))
    || s.coh.lineq.any fun e => some e.1 != k && e.2.any mine

/-- Whether the issuing port holds a request until earlier ones are performed. -/
def State.heldBack (s : State) (k : Nat) (r : Req) : Bool := r.ordered && s.orderedOpen r.stream (some k)

/-- The stream of a requester's register and window accesses. -/
def originStream : Origin → Nat
  | .core h _ => h
  | .hawkmoth => 97
  | _ => 96

/-- An act on a register at an address, held while earlier requests of the ordered class are open (R283): the PF, but for D3hot (R340), the
cores and the Hawkmoth reach the registers (R344, R345); the Cocoon die is refused (R384); a VF reaches nothing beyond its BARs (R347), and no other requester names register space
(R175). -/
def State.asReg (s : State) (o : Origin) (addr : Nat) (f : State → State) : State :=
  match o with
  | .pf | .core _ _ | .hawkmoth =>
    if s.orderedOpen (originStream o) none || (o == .pf && s.inD3 0) then s else f s
  | .cocoon => s.cocRefuse addr
  | _ => s

/-- The registers of a block's instance return to their reset values. -/
def State.resetBlock (s : State) (b : Blk) (i span : Nat) : State :=
  { s with regs := dropRange s.regs ((b.base + i * b.stride) * 64) ((b.base + i * b.stride + span) * 64) }

/-- Whole beats of a die's beat monitor (R155). -/
def State.beatOf (s : State) (d : Nat) : Nat := getK 0 s.beats.acc d / 100

/-- Where a cluster stands: its pass and its step, as one number that grows along a run (R196). -/
def Clu.place (x : Clu) : Nat := x.begun * 2048 + x.pc

/-! ## Landing counters (R186, R187) -/

/-- Whether a counter value reaches a target (R187). -/
def reached (c t : Nat) : Bool := decide ((c + 2 ^ 48 - t % 2 ^ 48) % 2 ^ 48 < 2 ^ 47)

/-- A landing counter. -/
def State.cnt (s : State) (c n : Nat) : Nat := s.rd LND_CNT.COUNT c n

/-- Fire an armed watch whose counter has reached its target (R187). -/
def State.watchFire (s : State) (c n : Nat) : State :=
  if s.on LND_WATCH.ARMED c ∧ s.rd LND_WATCH.CNT c = n ∧ reached (s.cnt c n) (s.rd LND_WATCH.TARGET c) then
    (s.wr LND_WATCH.ARMED 0 c).raise LND_INT_STATUS.WATCH c
  else s

/-- A landing counter advances, modulo 2^48 (R186, R187); the watch on it may fire. -/
def State.advance (s : State) (c n amount : Nat) : State :=
  let t := s.timer c
  ((s.wr LND_CNT.COUNT (s.cnt c n + amount) c n).setClu c
    fun x => { x with cntAdv := insK x.cntAdv n t }).watchFire c n

/-- Every landing counter of a cluster is set to 0 (R189). -/
def State.zeroCounters (s : State) (c : Nat) : State :=
  { s with regs := dropRange s.regs (LND_CNT.COUNT.key c 0 0) (LND_CNT.COUNT.key c 256 0) }

end Sys2Proof.Machine
end

