-- ==== Sys2Proof/Machine/Contention.lean ====
section
/-! DEFINITION. Machine/Contention.lean: a core, the strongly ordered stores in its buffer, its contention predictor, and what a home reports of a far AMO's line
(R257). -/

namespace Sys2Proof.Machine

/-- A core. -/
def State.core (s : State) (h : Nat) : Core := getK Core.held s.cores.core h

/-- Change a core. -/
def State.setCore (s : State) (h : Nat) (f : Core → Core) : State :=
  { s with cores := { s.cores with core := setK Core.held s.cores.core h (f (s.core h)) } }

/-! ## Strongly ordered stores (R246, R250) -/

/-- A strongly ordered store retires into an entry of its own. -/
def State.storeIo (s : State) (h addr : Nat) (bytes : List Byte) : State :=
  if 64 ≤ (s.core h).buf.length then s
  else s.setCore h fun c => { c with buf := c.buf ++ [⟨addr / 64, [], some (addr, bytes), false, false, false⟩] }

/-- A register's word put together from the values of its fields. -/
def wordOfFields (fs : List (Fld × Nat)) : Nat := fs.foldl (fun v p => v + p.2 % 2 ^ p.1.width * 2 ^ p.1.lo) 0

/-- An act on a register that follows a core's earlier stores (R190, R195, R246): while the core's store buffer holds
any, the store of the register's word waits behind them and acts when it drains. -/
def State.asRegStore (s : State) (o : Origin) (addr : Nat) (fs : List (Fld × Nat)) (f : State → State) : State :=
  match o with
  | .core h _ => if (s.core h).buf.isEmpty then s.asReg o addr f else s.storeIo h addr (leBytes 8 (wordOfFields fs))
  | _ => s.asReg o addr f

/-! ## The contention predictor (R257) -/

/-- The counter of a line, 0 where it has no entry. -/
def Core.counter (c : Core) (k : Nat) : Nat := match c.pred.find? (·.1 = k) with | some p => p.2 | none => 0

/-- Use an entry: it becomes the most recently used. -/
def Core.touchPred (c : Core) (k : Nat) : Core :=
  match c.pred.find? (·.1 = k) with
  | some p => { c with pred := (c.pred.filter fun q => q.1 != k) ++ [p] }
  | none => c

/-- A line's counter rises: a new entry starts at 1 and may replace the least recently used of 64. -/
def Core.predRise (c : Core) (k : Nat) : Core :=
  match c.pred.find? (·.1 = k) with
  | some p => { c with pred := (c.pred.filter fun q => q.1 != k) ++ [(k, min 3 (p.2 + 1))] }
  | none => { c with pred := (if 64 ≤ c.pred.length then c.pred.drop 1 else c.pred) ++ [(k, 1)] }

/-- A line's counter falls; at 0 its entry is freed. -/
def Core.predFall (c : Core) (k : Nat) : Core :=
  match c.pred.find? (·.1 = k) with
  | some p =>
    { c with pred := (c.pred.filter fun q => q.1 != k) ++ (if p.2 ≤ 1 then [] else [(k, p.2 - 1)]) }
  | none => c

/-- A requester other than the core of the line's last far AMO touches the line. -/
def State.touchFar (s : State) (k stream : Nat) : State :=
  if getK 0 s.coh.far k = 0 ∨ getK 0 s.coh.far k = stream + 1 then s
  else { s with coh := { s.coh with far := setK 0 s.coh.far k 0 } }

/-- A home performs a far AMO of a core: where no other requester touched the line since the core's previous one, it
reports so, and the core's counter falls. -/
def State.farDone (s : State) (k h : Nat) : State :=
  let s := if getK 0 s.coh.far k = h + 1 then s.setCore h fun c => c.predFall k else s
  { s with coh := { s.coh with far := setK 0 s.coh.far k (h + 1) } }

end Sys2Proof.Machine
end

