-- ==== Sys2Proof/Machine/Link.lean ====
section
/-! DEFINITION. Machine/Link.lean: what every user of the Obneurn Link shares: ports, routes, jobs, and the queueing of
packets (R393, R401, R403, R404). -/

namespace Sys2Proof.Machine

/-- What a port holds beside its registers. -/
def State.port (s : State) (p : Nat) : ObPort := getK ObPort.idle s.obl.ports p

/-- Change what a port holds. -/
def State.setPort (s : State) (p : Nat) (f : ObPort → ObPort) : State :=
  { s with obl := { s.obl with ports := setK ObPort.idle s.obl.ports p (f (s.port p)) } }

/-- Port states (R393). -/
def pEmpty : Nat := 0
def pDisabled : Nat := 1
def pTraining : Nat := 2
def pUp : Nat := 3
def pRecovery : Nat := 4
def pDown : Nat := 5

/-- The state of a port. -/
def State.portSt (s : State) (p : Nat) : Nat := s.rd OBL_PORT_STATUS.STATE p

/-- The module's address on the Obneurn Link (R407). -/
def State.ownAddr (s : State) : Nat := s.rd OBL_STATUS.ADDR

/-- The module's reset epoch (R409). -/
def State.ownEpoch (s : State) : Nat := s.rd OBL_STATUS.EPOCH

/-- The classes of frames (R394): PUT, GET, RSP. -/
def cPut : Nat := 0
def cGet : Nat := 1
def cRsp : Nat := 2

/-- The route entry of a module address (R403). -/
def State.route (s : State) (d : Nat) : Nat := if 1 ≤ d ∧ d ≤ 8192 then s.rd OBL_ROUTE.ENTRY (d - 1) else 0

/-- Whether an address has a valid route entry. -/
def State.routed (s : State) (d : Nat) : Bool := bit (s.route d) 0

/-- The output port and whether the frame goes over to VC 1 (R403, R404): PORT while it is UP, else an enabled ALT_PORT
that is UP or in RECOVERY, else PORT in RECOVERY. -/
def State.output (s : State) (d : Nat) : Option (Nat × Bool) :=
  let e := s.route d
  let p := bits e 1 4
  let a := bits e 7 4
  let alive (x : Nat) : Bool := s.portSt x == pUp || s.portSt x == pRecovery
  if ¬ bit e 0 then none
  else if s.portSt p = pUp then some (p, bit e 5)
  else if bit e 6 ∧ alive a then some (a, bit e 11)
  else if s.portSt p = pRecovery then some (p, bit e 5)
  else none

/-- A frame is dropped and counted (R398, R400, R404, R410). -/
def State.oblDrop (s : State) (f : Fld) (n : Nat := 1) : State := (s.bump f n).raise OBL_INT_STATUS.DROP

/-- The class of a packet. -/
def ObPkt.cls : ObPkt → Nat
  | .put _ _ => cPut
  | .get _ _ => cGet
  | .ack _ | .nack _ => cRsp

/-- The destination of a packet. -/
def ObPkt.dest : ObPkt → Nat
  | .put h _ | .get h _ => h.dest
  | .ack a | .nack a => a.dest

/-- Queue a packet for its destination's output port, from this module (0) or from port p (1 + p), on a VC (R404). -/
def State.sendPkt (s : State) (from_ : Nat) (vc1 : Bool) (p : ObPkt) : State :=
  match s.output p.dest with
  | none => s.oblDrop OBL_DROP.NOROUTE
  | some (port, up) =>
    let key := p.cls * 2 + b2n (vc1 || up)
    s.setPort port fun x => { x with txq := setK [] x.txq key (getK [] x.txq key ++ [(from_, p)]) }

/-- The job of the moves of a slot's steps and migration entries, and of a function's ring moves (R401). -/
def State.jobOfSlot (s : State) (k : Nat) : Nat := s.rd OBL_JOB_SLOT.JOB 0 k
def State.jobOfFunc (s : State) (f : Nat) : Nat := getK 0 s.obl.jobFunc f

/-- Whether a job is admitted to a space, HBM or scratchpad (R401). -/
def State.admits (s : State) (job : Nat) (spad : Bool) : Bool :=
  (job == 0 && s.on OBL_CTRL.OPEN) || (List.range 64).any fun n =>
    s.on OBL_JOB_ACCEPT.VALID 0 n && s.rd OBL_JOB_ACCEPT.JOB 0 n == job
      && (if spad then s.on OBL_JOB_ACCEPT.SPAD 0 n else s.on OBL_JOB_ACCEPT.HBM 0 n)

end Sys2Proof.Machine
end

