-- ==== Sys2Proof/Machine/Operands.lean ====
section
/-! DEFINITION. Machine/Operands.lean: the fields of every configuration word and descriptor, each word a number: cell
words, operations, feeders, steps, vector instructions, migration, fumarole, deadline and preload records, tensor
descriptors, with the addresses they give. -/

namespace Sys2Proof.Machine

/-! Cell words (R121) -/

def CellW.forward (w : Nat) : Bool := bit w 0
def CellW.seq (w : Nat) : Nat := bits w 1 6
def CellW.toff (w : Nat) : Nat := bits w 8 10
def CellW.ooff (w : Nat) : Nat := bits w 18 22
def CellW.boff (w : Nat) : Nat := bits w 40 16

/-! Operation words (R122): quadword Qi at bit 64 i -/

def OpW.opc (w : Nat) : Nat := bits w 0 4
def OpW.afmt (w : Nat) : Nat := bits w 4 4
def OpW.bfmt (w : Nat) : Nat := bits w 8 4
def OpW.ofmt (w : Nat) : Nat := bits w 12 4
def OpW.mx (w : Nat) : Bool := bit w 16
def OpW.rnd (w : Nat) : Nat := bits w 17 2
def OpW.ovf (w : Nat) : Nat := bits w 19 1
def OpW.pre (w : Nat) : Nat := bits w 20 2
def OpW.biasfmt (w : Nat) : Nat := bits w 22 2
def OpW.odest (w : Nat) : Nat := bits w 24 1
def OpW.osh (w : Nat) : Int := sext (bits w 32 8) 8
def OpW.k (w : Nat) : Nat := bits w 64 25
def OpW.patches (w : Nat) : Nat := bits w 89 16
def OpW.tile (w : Nat) : Nat := bits w 105 10
def OpW.tstride (w : Nat) : Nat := bits w 115 10
def OpW.obase (w : Nat) : Nat := bits w 128 22
def OpW.ostride (w : Nat) : Nat := bits w 150 22
def OpW.orow (w : Nat) : Nat := bits w 172 16
def OpW.bias (w : Nat) : Nat := bits w 192 22
def OpW.bstride (w : Nat) : Nat := bits w 214 22
def OpW.anchor (w : Nat) : Int := sext (bits w 236 16) 16

/-! Feeder words (R126) -/

def FeedW.base (w : Nat) : Nat := bits w 0 22
def FeedW.rstride (w : Nat) : Nat := bits w 22 22
def FeedW.en (w : Nat) : Bool := bit w 44
def FeedW.scales (w : Nat) : Bool := bit w 45
def FeedW.c0 (w : Nat) : Nat := bits w 64 24
def FeedW.s0 (w : Nat) : Int := sext (bits w 88 24) 24
def FeedW.c1 (w : Nat) : Nat := bits w 128 24
def FeedW.s1 (w : Nat) : Int := sext (bits w 152 24) 24
def FeedW.sbase (w : Nat) : Nat := bits w 192 22
def FeedW.sstride (w : Nat) : Nat := bits w 214 22

/-! Step words (R128) -/

def StepW.opc (w : Nat) : Nat := bits w 0 4
def StepW.cnt (w : Nat) : Nat := bits w 4 8
def StepW.target (w : Nat) : Nat := bits w 12 48
def StepW.perpass (w : Nat) : Nat := bits w 64 48
def StepW.fset (w : Nat) : Nat := bits w 4 3
def StepW.seqOff (w : Nat) : Nat := bits w 8 6
def StepW.vpc (w : Nat) : Nat := bits w 4 12
def StepW.mover (w : Nat) : Nat := bits w 4 1
def StepW.template (w : Nat) : Nat := bits w 8 12
def StepW.mask (w : Nat) : Nat := bits w 4 4
def StepW.entry (w : Nat) : Nat := bits w 4 16
def StepW.jump (w : Nat) : Nat := bits w 4 10

/-! Vector instructions (R130) -/

def VecW.op (w : Nat) : Nat := bits w 0 8
def VecW.vd (w : Nat) : Nat := bits w 8 6
def VecW.va (w : Nat) : Nat := bits w 14 6
def VecW.vb (w : Nat) : Nat := bits w 20 6
def VecW.vc (w : Nat) : Nat := bits w 26 6
def VecW.fmt (w : Nat) : Nat := bits w 32 4
def VecW.rnd (w : Nat) : Nat := bits w 36 2
def VecW.ovf (w : Nat) : Nat := bits w 38 1
def VecW.imm (w : Nat) : Nat := bits w 40 22

/-! Migration records (R133) -/

def MigW.handle (w : Nat) : Nat := bits w 0 32
def MigW.offset (w : Nat) : Nat := bits w 64 40
def MigW.dest (w : Nat) : Nat := bits w 128 22
def MigW.length (w : Nat) : Nat := bits w 150 23
def MigW.mover (w : Nat) : Nat := bits w 173 1
def MigW.issueAfter (w : Nat) : Nat := bits w 174 11
def MigW.deadline (w : Nat) : Nat := bits w 192 12
def MigW.fumarole (w : Nat) : Nat := bits w 204 10
def MigW.lcnt (w : Nat) : Nat := bits w 214 8
def MigW.cluster (w : Nat) : Nat := bits w 222 9
def MigW.order (w : Nat) : Nat := bits w 231 16

/-! Fumarole records (R134) -/

def FumW.kind (w : Nat) : Nat := bits w 0 2
def FumW.altStep (w : Nat) : Nat := bits w 2 10
def FumW.wmBase (w : Nat) : Nat := bits w 12 22
def FumW.wmLen (w : Nat) : Nat := bits w 34 23

/-! Preload records (R136) -/

def PreW.cluster (w : Nat) : Nat := bits w 0 9
def PreW.dest (w : Nat) : Nat := bits w 9 22
def PreW.length (w : Nat) : Nat := bits w 31 23
def PreW.src (w : Nat) : Bool := bit w 54
def PreW.handle (w : Nat) : Nat := bits w 64 32
def PreW.srcOff (w : Nat) : Nat := bits w 96 32

/-! Tensor descriptors (R176): a list of eight quadwords -/

/-- Bits of a quadword of a descriptor. -/
def descBits (d : List Nat) (q lo w : Nat) : Nat := bits (d.getD q 0) lo w

def Desc.op (d : List Nat) : Nat := descBits d 0 0 4
def Desc.sspace (d : List Nat) : Nat := descBits d 0 4 3
def Desc.dspace (d : List Nat) : Nat := descBits d 0 7 3
def Desc.ndim (d : List Nat) : Nat := descBits d 0 10 3
def Desc.lcnt (d : List Nat) : Nat := descBits d 0 14 8
def Desc.lclu (d : List Nat) : Nat := descBits d 0 22 9
def Desc.scnt (d : List Nat) : Nat := descBits d 0 32 8
def Desc.efmt (d : List Nat) : Nat := descBits d 0 40 2
def Desc.pasid (d : List Nat) : Nat := descBits d 0 42 20
def Desc.saddr (d : List Nat) : Nat := descBits d 1 0 64
def Desc.daddr (d : List Nat) : Nat := descBits d 2 0 64
def Desc.c0 (d : List Nat) : Nat := descBits d 3 0 24
def Desc.lcntEn (d : List Nat) : Bool := bit (d.getD 0 0) 13
def Desc.scntEn (d : List Nat) : Bool := bit (d.getD 0 0) 31
def Desc.pv (d : List Nat) : Bool := bit (d.getD 0 0) 62

/-- Counts C1 to C4. -/
def Desc.cnt (d : List Nat) (k : Nat) : Nat := descBits d 3 (24 + 10 * (k - 1)) 10

/-- Source strides SS1 to SS4. -/
def Desc.ss (d : List Nat) (k : Nat) : Int := sext (descBits d (4 + (k - 1) / 2) (30 * ((k - 1) % 2)) 30) 30

/-- Destination strides DS1 to DS4. -/
def Desc.ds (d : List Nat) (k : Nat) : Int := sext (descBits d (6 + (k - 1) / 2) (30 * ((k - 1) % 2)) 30) 30

/-- The number of runs of a move: the product of its counts within NDIM (R177). -/
def Desc.runs (d : List Nat) : Nat :=
  (List.range 4).foldl (fun n k => if k + 1 < Desc.ndim d then n * Desc.cnt d (k + 1) else n) 1

/-- The move's total in bytes (R177). -/
def Desc.total (d : List Nat) : Nat := Desc.c0 d * Desc.runs d

/-- The index of run `r` in dimension `k`, dimension 1 running fastest. -/
def Desc.idx (d : List Nat) (r k : Nat) : Nat :=
  r / (List.range (k - 1)).foldl (fun n j => n * Desc.cnt d (j + 1)) 1 % Desc.cnt d k

/-- The offset of run `r` of a shape from its base, by the strides of one side (R177). -/
def Desc.offset (d : List Nat) (stride : List Nat → Nat → Int) (r : Nat) : Int :=
  (List.range 4).foldl
    (fun o k => if k + 1 < Desc.ndim d then o + (Desc.idx d r (k + 1) : Int) * stride d (k + 1) else o) 0

/-- Elements of a scatter-add: their size in bytes by EFMT (R176). -/
def efmtSize (e : Nat) : Nat := if e = 1 then 2 else if e = 3 then 8 else 4

/-! Blocks and outputs (R125, R126, R496) -/

/-- Rows and bytes per row of an A block of an operation. -/
def opARows (w : Nat) : Nat := if OpW.opc w = 2 then 1 else cubeM (OpW.afmt w)
def opABytes (w : Nat) : Nat := if OpW.opc w = 2 then 32 else cubeK (OpW.afmt w) * fmtBits (OpW.afmt w) / 8

/-- Rows and bytes per row of a B block of an operation. -/
def opBRows (w : Nat) : Nat := cubeK (OpW.afmt w)
def opBBytes (w : Nat) : Nat := cubeN (OpW.afmt w) * fmtBits (OpW.bfmt w) / 8

/-- Blocks that a patch takes from the A link (R43, R123). -/
def opBlocks (w : Nat) : Nat := if OpW.opc w = 2 then 16 * OpW.k w else OpW.k w / cubeK (OpW.afmt w)

/-- Scratchpad offset of block `b` of a feeder, row `j` (R126). -/
def FeedW.rowAddr (f b j : Nat) : Int :=
  (FeedW.base f : Int) + (b % FeedW.c0 f : Nat) * FeedW.s0 f + (b / FeedW.c0 f : Nat) * FeedW.s1 f
    + (j * FeedW.rstride f : Nat)

/-- Scratchpad offset of the scale bytes of block `b` (R496). -/
def FeedW.scaleAddr (f kb b : Nat) : Nat :=
  FeedW.sbase f + b % FeedW.c0 f * kb / 32 * 4 + b / FeedW.c0 f * FeedW.sstride f

/-- Output rows and columns of a patch (R43, R125): a reducing cell drains 16. -/
def opM (w : Nat) : Nat := if OpW.opc w = 2 then 4 else cubeM (OpW.afmt w)
def opN (w : Nat) : Nat := if OpW.opc w = 2 then 4 else cubeN (OpW.afmt w)

/-- The caldera of output (m, n) (R44, R125). -/
def opCal (w m n : Nat) : Nat := if opN w = 4 then 4 * m + n else m

/-- The PM tile of patch `p` (R125). -/
def opTile (w cell p : Nat) : Nat := OpW.tile w + CellW.toff cell + p * OpW.tstride w

/-- Scratchpad offsets where PM starts and where it ends (R58, R59). -/
def pmBase : Nat := 0x280000
def spadEnd : Nat := 0x300000

/-- Scratchpad offset of the 32-byte slot of a long partial (R51, R125). -/
def opSlotAddr (w cell p m n : Nat) : Nat := pmBase + opTile w cell p * 512 + 32 * opCal w m n

/-- Twice the stored bytes of an output (R51), so that a 4-bit output is 1. -/
def halfBytes (ofmt : Nat) : Nat := fmtBits ofmt / 4

/-- Scratchpad offset, in half bytes, of output (m, n) of patch `p` (R125). -/
def opOutHalf (w cell p m n : Nat) : Nat :=
  2 * (OpW.obase w + CellW.ooff cell + p * OpW.ostride w + m * OpW.orow w) + n * halfBytes (OpW.ofmt w)

/-- Scratchpad offset of the bias of output column n (R125). -/
def opBiasAddr (w cell p n : Nat) : Nat :=
  OpW.bias w + CellW.boff cell + p * OpW.bstride w + n * (if OpW.biasfmt w = 0 then 4 else 2)

/-- The format code of a bias (R122). -/
def biasCode (b : Nat) : Nat := if b = 0 then 9 else if b = 1 then 8 else 7

/-- The caldera mode of an operation (R83; for RED by BFMT, R122). -/
def opMode (w : Nat) : CalMode :=
  if OpW.opc w = 2 then (match OpW.bfmt w with | 0 => .fixed | 1 => .scaled | _ => .float)
  else if OpW.mx w then .scaled
  else if OpW.afmt w ≥ 8 then .float else .fixed

/-- The anchor a caldera starts with (R85; ANCHOR of a FIXED RED, R122). -/
def opAnchor (w : Nat) : Int :=
  match opMode w with
  | .fixed => if OpW.opc w = 2 then OpW.anchor w else fmtL (OpW.afmt w) false + fmtL (OpW.bfmt w) false
  | _ => -32768

/-- The anchor carried by the long partials a FIXED operation produces (R493): the output shift added. -/
def opOutAnchor (w : Nat) : Int := opAnchor w + OpW.osh w

/-- Outputs in one drain handshake (R51). -/
def opPack (w : Nat) : Nat :=
  match OpW.ofmt w with
  | 10 => 1 | 9 => 6 | 8 => 12 | 7 => 12 | 0 => 48 | 1 => 48 | _ => 24

end Sys2Proof.Machine
end

