-- ==== Sys2Proof/Machine/VecMath.lean ====
section
/-! DEFINITION. Machine/VecMath.lean: the FP32 lane arithmetic of the vector unit (R74, R101): each operation on the bit
patterns of lanes. -/

namespace Sys2Proof.Machine

/-- The number an FP32 lane holds. -/
def f32 (x : Nat) : Num := decodeElem 9 false x

/-- The canonical FP32 NaN (R100), the infinities and the sign bit. -/
def f32nan : Nat := 0x7FC00000
def f32inf (neg : Bool) : Nat := (if neg then 0x80000000 else 0) + 0x7F800000

/-- A value m × 2^e rounded to FP32, to nearest even, keeping subnormals; `zneg` is the sign of an exact zero. -/
def f32round (v : Int) (e : Int) (zneg : Bool) : Nat :=
  if v = 0 then (if zneg then 0x80000000 else 0)
  else (roundOut 9 0 1 (decide (v < 0)) v.natAbs e).pat

/-- The sign of a finite number or infinity. -/
def Num.isNeg : Num → Bool
  | .nan => false
  | .inf n => n
  | .fin n _ _ => n

/-- Whether a number is NaN. -/
def Num.isNan : Num → Bool
  | .nan => true
  | _ => false

/-- Sum of two terms, exact. -/
def Term.plus (x y : Term) : Term :=
  let e := min x.e y.e
  ⟨x.m * 2 ^ (x.e - e).toNat + y.m * 2 ^ (y.e - e).toNat, e⟩

/-- Rounded sum of a number and a number, IEEE 754 to nearest even (R74). -/
def numAdd (x y : Num) : Nat :=
  match x, y with
  | .nan, _ => f32nan
  | _, .nan => f32nan
  | .inf a, .inf b => if a = b then f32inf a else f32nan
  | .inf a, _ => f32inf a
  | _, .inf b => f32inf b
  | x, y => let t := x.term.plus y.term; f32round t.m t.e (x.isNeg && y.isNeg)

/-- ADD. -/
def f32add (x y : Nat) : Nat := numAdd (f32 x) (f32 y)

/-- The exact product of two numbers. -/
def numMul (x y : Num) : Num :=
  match x, y with
  | .nan, _ => .nan
  | _, .nan => .nan
  | .inf a, .inf b => .inf (a != b)
  | .inf a, .fin b m _ => if m = 0 then .nan else .inf (a != b)
  | .fin a m _, .inf b => if m = 0 then .nan else .inf (a != b)
  | .fin a m e, .fin b n d => .fin (a != b) (m * n) (e + d)

/-- A number rounded to FP32 to nearest even. -/
def Num.toF32 : Num → Nat
  | .nan => f32nan
  | .inf a => f32inf a
  | .fin a m e => f32round (if a then -(m : Int) else m) e a

/-- MUL. -/
def f32mul (x y : Nat) : Nat := (numMul (f32 x) (f32 y)).toF32

/-- FMA: x × y + z, rounded once. -/
def f32fma (x y z : Nat) : Nat := numAdd (numMul (f32 x) (f32 y)) (f32 z)

/-- Whether one number is below another; neither is NaN. -/
def numLt (x y : Num) : Bool :=
  match x, y with
  | .nan, _ => false
  | _, .nan => false
  | .inf a, .inf b => a && !b
  | .inf a, .fin .. => a
  | .fin .., .inf b => !b
  | x, y => let t := x.term.plus ⟨-y.term.m, y.term.e⟩; decide (t.m < 0)

/-- MIN and MAX; a NaN lane gives NaN (DEDUCED from R93 and R100, log entry 15). -/
def f32min (x y : Nat) : Nat :=
  if (f32 x).isNan || (f32 y).isNan then f32nan else if numLt (f32 y) (f32 x) then y else x
def f32max (x y : Nat) : Nat :=
  if (f32 x).isNan || (f32 y).isNan then f32nan else if numLt (f32 x) (f32 y) then y else x

/-- The lane a predicate that holds writes: a free pattern that SEL takes as not 0. -/
def cmpLane : Nat :=
  let p := Config.cmpTrue % 2 ^ 32
  if p % 2 ^ 31 = 0 then p + 1 else p

/-- CMP: the predicate by FMT, 0 EQ, 1 LT, 2 LE; other codes are not stated. -/
def f32cmp (fmt x y : Nat) : Nat :=
  let a := f32 x
  let b := f32 y
  let ok := !(a.isNan || b.isNan)
  match fmt with
  | 0 => if ok && !numLt a b && !numLt b a then cmpLane else 0
  | 1 => if numLt a b then cmpLane else 0
  | 2 => if ok && !numLt b a then cmpLane else 0
  | _ => Config.vecOpen (0x0D + 256 * fmt) x y % 2 ^ 32

/-- SEL: VC ≠ 0 ? VA : VB. -/
def f32sel (x y z : Nat) : Nat := if z % 2 ^ 31 = 0 then y else x

/-- ABS. -/
def f32abs (x : Nat) : Nat := if (f32 x).isNan then f32nan else x % 2 ^ 31

/-- One of the candidate magnitude patterns that an error bound admits, chosen freely; patterns above the infinity
become it. -/
def pickUlp (op x : Nat) (cands : List Nat) : Nat :=
  min (cands.getD (Config.ulpPick op x % cands.length) 0) 0x7F800000

/-- The magnitude patterns within `n` ulp of a nonzero magnitude whose truncation to FP32 is known: those strictly
within n ulp of a value between `p` and `p + 1`, or of `p` itself when exact. -/
def ulpCands (n : Nat) (p : Nat) (exact : Bool) : List Nat :=
  if exact then (List.range (2 * n + 1)).map fun i => p + i - n
  else (List.range (2 * n)).map fun i => p + i + 1 - n

/-- The FP32 magnitude pattern of a value truncated toward zero, and whether it is exact. -/
def truncF32 (m : Nat) (e : Int) (sticky : Bool) : Nat × Bool :=
  match floatFmt 9 with
  | none => (0, true)
  | some f =>
    let p := f.round 1 false m e
    let up := f.round 3 false m e
    (p, p == up && !sticky)

/-- RCP: within 1 ulp of 1 / x (R74); RCP of a zero is not stated. -/
def f32rcp (x : Nat) : Nat :=
  match f32 x with
  | .nan => f32nan
  | .inf a => if a then 0x80000000 else 0
  | .fin a m e =>
    if m = 0 then Config.vecOpen 0x18 x 0 % 2 ^ 32
    else
      let n := 2 ^ 80
      let t := truncF32 (n / m) (-e - 80) (n % m != 0)
      (if a then 0x80000000 else 0) + pickUlp 0x18 x (ulpCands 1 t.1 t.2)

/-- The integer square root, bit by bit from bit `n` down. -/
def isqrt (v : Nat) : Nat → Nat → Nat
  | 0, r => r
  | n + 1, r => isqrt v n (if (r + 2 ^ n) * (r + 2 ^ n) ≤ v then r + 2 ^ n else r)

/-- RSQ: within 1 ulp of 1 / √x (R74); of a zero or a negative number it is not stated. -/
def f32rsq (x : Nat) : Nat :=
  match f32 x with
  | .nan => f32nan
  | .inf false => 0
  | .inf true => Config.vecOpen 0x19 x 0 % 2 ^ 32
  | .fin a m e =>
    if m = 0 ∨ a then Config.vecOpen 0x19 x 0 % 2 ^ 32
    else
      let m' := if e % 2 = 0 then m else 2 * m
      let e' := if e % 2 = 0 then e else e - 1
      let n := 2 ^ 160 / m'
      let r := isqrt n 82 0
      let t := truncF32 r (-(e' / 2) - 80) (2 ^ 160 % m' != 0 || r * r != n)
      pickUlp 0x19 x (ulpCands 1 t.1 t.2)

/-- ln 2 in units of 2^−128. -/
def ln2fix : Nat := 0xB17217F7D1CF79ABC9E3B39803F2F6AF

/-- The terms of the exponential series of f × ln 2, in units of 2^−128. -/
def expSeries (f : Nat) : Nat → Nat → Nat → Nat
  | 0, _, _ => 0
  | n + 1, k, t => t + expSeries f n (k + 1) (t * f / 2 ^ 128 / (k + 1))

/-- 2^f for f in units of 2^−128 below 1, in units of 2^−128, to within a few units. -/
def exp2fix (f : Nat) : Nat := expSeries (f * ln2fix / 2 ^ 128) 40 0 (2 ^ 128)

/-- EXP2: within 2 ulp of 2^x (R74). -/
def f32exp2 (x : Nat) : Nat :=
  match f32 x with
  | .nan => f32nan
  | .inf false => f32inf false
  | .inf true => 0
  | .fin a m e =>
    let v : Term := ⟨if a then -(m : Int) else m, e⟩
    if m = 0 then pickUlp 0x1A x (ulpCands 2 0x3F800000 true)
    else if 0 ≤ e + nbits m - 9 then (if a then pickUlp 0x1A x [0, 1, 2] else f32inf false)
    else
      let fx := v.at (-128)
      let whole := fx / (2 ^ 128 : Nat)
      let frac := (fx % ((2 ^ 128 : Nat) : Int)).toNat
      let t := truncF32 (exp2fix frac) (whole - 128) (frac != 0)
      pickUlp 0x1A x (if t.1 = 0 then [0, 1, 2] else ulpCands 2 t.1 t.2)

/-- Bits of log2 of a mantissa in [1, 2), in units of 2^−192, by repeated squaring. -/
def logBits : Nat → Nat → Nat → Nat
  | 0, _, acc => acc
  | n + 1, x, acc =>
    let y := x * x / 2 ^ 192
    if 2 ^ 193 ≤ y then logBits n (y / 2) (2 * acc + 1) else logBits n y (2 * acc)

/-- LOG2: within 2 ulp of log2 x (R74); of a zero or a negative number it is not stated. -/
def f32log2 (x : Nat) : Nat :=
  match f32 x with
  | .nan => f32nan
  | .inf false => f32inf false
  | .inf true => Config.vecOpen 0x1B x 0 % 2 ^ 32
  | .fin a m e =>
    if m = 0 ∨ a then Config.vecOpen 0x1B x 0 % 2 ^ 32
    else
      let k := nbits m - 1
      let fr := logBits 96 (m * 2 ^ 192 / 2 ^ k) 0
      let v : Int := (e + k) * (2 ^ 96 : Nat) + fr
      if v = 0 then 0
      else
        let t := truncF32 v.natAbs (-96) (fr != 0)
        (if v < 0 then 0x80000000 else 0) + pickUlp 0x1B x (ulpCands 2 t.1 t.2)

/-- Pairwise sums of neighbours. -/
def pairUp (f : Nat → Nat → Nat) : List Nat → List Nat
  | a :: b :: r => f a b :: pairUp f r
  | l => l

/-- A pairwise tree over lanes in order: ((0+1)+(2+3))… (R74). -/
def treeOf (f : Nat → Nat → Nat) : Nat → List Nat → Nat
  | 0, l => l.headD 0
  | n + 1, l => treeOf f n (pairUp f l)

/-- The aligned blocks of a prefix of `n` lanes, longest first, added left to right (R74: the tree order of the sum;
DEDUCED, log entry 15). -/
def prefixSum (l : List Nat) (n : Nat) : Nat :=
  let blocks := (List.range 7).reverse.filterMap fun k =>
    if bit n k then some ((l.drop (n / 2 ^ (k + 1) * 2 ^ (k + 1))).take (2 ^ k)) else none
  match blocks.map (treeOf f32add 6) with
  | [] => 0
  | b :: r => r.foldl f32add b

/-- Lanes in order of falling value, ties to the lower lane (R74): insertion of a lane. -/
def rankIns (x : Nat × Nat) : List (Nat × Nat) → List (Nat × Nat)
  | [] => [x]
  | y :: r => if numLt (f32 y.1) (f32 x.1) then x :: y :: r else y :: rankIns x r

/-- Lanes with their indices in order of falling value. -/
def ranked (l : List Nat) : List (Nat × Nat) := l.zipIdx.foldl (fun acc x => rankIns x acc) []

/-- The lanes of a register as one bit string, and elements packed in it without gaps (R496; DEDUCED, log entry 15). -/
def packLanes (w : Nat) (l : List Nat) : Nat := l.zipIdx.foldl (fun s x => s + x.1 % 2 ^ w * 2 ^ (w * x.2)) 0
def unpackLanes (w n x : Nat) : List Nat := (List.range n).map fun i => bits x (i * w) w

/-- CVTI of one element, times 2^sc (R101): exact, infinities and the sign of a zero too; a scaled value beyond FP32's
range overflows under the instruction's overflow and rounding modes, and one with bits below FP32's is rounded in its
mode (DEDUCED, log entry 170). A scale byte of 0xFF is NaN (R81). -/
def cvtIn (fmt : Nat) (mx : Bool) (scale rnd ovf elem : Nat) : Rounded :=
  if mx ∧ scale = 255 then nanOut 9
  else
    match decodeElem fmt mx elem with
    | .nan => nanOut 9
    | .inf neg => ⟨f32inf neg, false, false⟩
    | .fin neg m e =>
      if m = 0 then ⟨signBit 9 neg, false, false⟩ else roundOut 9 rnd ovf neg m (if mx then e + scale - 127 else e)

/-- Whether a code is that of an MX format (R81). -/
def mxFmt (code : Nat) : Bool := decide (1 ≤ code) && decide (code ≤ 6)

/-- Emax of an MX format (R101). -/
def mxEmax (fmt : Nat) : Int :=
  match fmt with
  | 1 => 2 | 2 => 2 | 3 => 4 | 5 => 8 | 6 => 15 | _ => 0

/-- The exponent of the highest bit of the largest finite magnitude of a block, none for a block of zeros. -/
def blockTop (l : List Nat) : Option Int :=
  l.foldl (fun a x => match f32 x with
    | .fin _ m e => if m = 0 then a else maxAnchor a (some (e + nbits m - 1))
    | _ => a) none

/-- CVTMX of a block of 32 (R101): the scale byte and the elements. A block with a NaN or an infinity has the scale byte
0xFF; its elements are not stated. -/
def cvtMx (fmt rnd : Nat) (l : List Nat) : Nat × List Nat :=
  if l.any (fun x => match f32 x with | .fin .. => false | _ => true) then
    (255, l.map fun x => Config.vecOpen 0x12 x fmt % 2 ^ fmtBits fmt)
  else
    let x : Int := match blockTop l with | none => -127 | some t => max (-127) (min 127 (t - mxEmax fmt))
    ((x + 127).toNat, l.map fun v => match f32 v with
      | .fin neg m e => (roundOut fmt rnd 0 neg m (e - x + (if fmt = 4 then 6 else 0))).pat
      | _ => 0)

end Sys2Proof.Machine
end

