-- ==== Sys2Proof/Machine/Memory.lean ====
section
/-! DEFINITION. Machine/Memory.lean: where an address lives (R307 to R309), what the HBM controllers do (R311, R314),
bandwidth partitions (R316, R317), the system caches (R321 to R329) and the memory-side adders (R319, R320). -/

namespace Sys2Proof.Machine

/-! ## The address map -/

/-- Whether a pseudo-channel is mapped out (R313, R502). -/
def State.mappedOut (s : State) (pc : Nat) : Bool := bit (s.rd HBM_MAPOUT.OUT 0 (pc / 64)) (pc % 64)

/-- Whether a pseudo-channel is FAILED (R314). -/
def State.pcFailed (s : State) (pc : Nat) : Bool := bit (s.rd HBM_FAILED.FAILED 0 (pc / 64)) (pc % 64)

/-- Pseudo-channels in service, P of R308. -/
def State.pcs (s : State) : Nat := s.rd HBM_MAP.P

/-- Size of the HBM range: P GiB (R8). -/
def State.hbmEnd (s : State) : Nat := s.pcs * 2 ^ 30

/-- The number of the pseudo-channel in a slot of in_service (R308). -/
def State.inService (s : State) (slot : Nat) : Nat :=
  if s.pcs = 768 then slot
  else ((List.range 768).filter fun p => !s.mappedOut p).getD slot 0

/-- Where a physical address lies (R308): pseudo-channel, bank, row and column byte. -/
structure HbmPlace where
  pc : Nat
  bank : Nat
  row : Nat
  col : Nat
  deriving DecidableEq, Repr

/-- The mapping of R308. -/
def State.place (s : State) (a : Nat) : HbmPlace :=
  let g := a / 256
  let q := g / s.pcs
  let r := g % s.pcs
  let h := bits q 0 10 ^^^ bits q 10 10 ^^^ bits q 20 2
  ⟨s.inService ((r + h) % s.pcs), bits q 2 6 ^^^ bits q 8 6, bits q 8 14, bits q 0 2 * 256 + a % 256⟩

/-- The hub die behind a pseudo-channel (R307). -/
def hubOfPc (pc : Nat) : Nat := if pc < 384 then 0 else 1

/-- A line's key: its line address, and whether it is host memory (R275). -/
def lineKey (host : Bool) (addr : Nat) : Nat := addr * 2 + b2n host
def keyHost (k : Nat) : Bool := k % 2 == 1
def keyAddr (k : Nat) : Nat := k / 2

/-- The pseudo-channel of an HBM line. -/
def State.pcOfLine (s : State) (line : Nat) : Nat := (s.place (line * 64)).pc

/-- The home of a line (R275, R309). -/
def State.home (s : State) (k : Nat) : Nat := if keyHost k then 0 else hubOfPc (s.pcOfLine (keyAddr k))

/-! ## Partitions (R316, R317) -/

/-- What is charged to no partition (R316): recalls, victims and whatever else a home does by itself, as stream 127. -/
def unchargedStream : Nat := 127
def uncharged : Nat := 16

/-- The partition of a stream, by the partition map: cores, host, Cocoon die, movers; 0 for the Hawkmoth and whatever
else names no partition (R316). -/
def State.partOf (s : State) (stream : Nat) : Nat :=
  if stream = unchargedStream then uncharged
  else if stream ≤ 96 then getK 0 s.mem.pmap stream
  else if 99 ≤ stream ∧ stream ≤ 114 then getK 0 s.mem.pmap 673
  else if 128 ≤ stream ∧ stream ≤ 1151 then getK 0 s.mem.pmap (161 + (stream - 128) / 2)
  else 0

/-- Key of a hub's partition. -/
def partKey (hub p : Nat) : Nat := hub * 16 + p

/-- A hub's share of sustained bytes in a refill period: 17.3 TB/s at full P, in proportion to P (R315, R317). -/
def State.periodBytes (s : State) : Nat := 17300000 * min (s.rd HBM_REFILL.US) 1000 * s.pcs / 768

/-- A partition's credit at a hub; after reset its cap (DESIGN CHOICE, log entry 19). -/
def State.credit (s : State) (hub p : Nat) : Int := getK (65536 : Int) s.mem.credit (partKey hub p)

/-- Whether a partition has been charged less than its guaranteed share in the period: class 1 of R317. -/
def State.guaranteed (s : State) (hub p : Nat) : Bool :=
  decide (getK 0 s.mem.charged (partKey hub p) < s.rd HBM_PART.MIN 0 p * s.periodBytes / 256)

/-- Whether a request of a partition may be served in the period: below its guaranteed share, or with credit (R317); what is
charged to none, always. -/
def State.served (s : State) (hub p : Nat) : Bool :=
  decide (uncharged ≤ p) || s.guaranteed hub p || decide (0 < s.credit hub p)

/-- The controller of a line: its stack (R307, R319). -/
def State.ctrlOf (s : State) (line : Nat) : Nat := s.pcOfLine line / 64

/-- The partition of a class that a controller served last (R317); 15 before the first, so that 0 comes first (DESIGN CHOICE, log
entry 182). -/
def State.lastTurn (s : State) (c cls : Nat) : Nat := getK 15 s.mem.turns (c * 2 + cls)

/-- Charge a line to a partition, whose turn this was (R316, R317). -/
def State.charge (s : State) (line p : Nat) : State :=
  if uncharged ≤ p then s
  else
    let hub := hubOfPc (s.pcOfLine line)
    let k := partKey hub p
    let cls := if s.guaranteed hub p then 0 else 1
    let s := s.bump HBM_PART_BYTES.BYTES 64 hub p
    { s with mem := { s.mem with
      credit := setK (65536 : Int) s.mem.credit k (s.credit hub p - 64)
      charged := setK 0 s.mem.charged k (getK 0 s.mem.charged k + 64)
      turns := setK 15 s.mem.turns (s.ctrlOf line * 2 + cls) p } }

/-! ## HBM controllers (R311, R314) -/

/-- The bytes of a line on the memory side. -/
def State.hbmLine (s : State) (line : Nat) : List Byte := memRead s.hbm (line * 64) 64

/-- Whether a line is poisoned on the memory side. -/
def State.poisoned (s : State) (line : Nat) : Bool := getK false s.hbmPoison line

/-- Set or clear the poison of a line. -/
def State.setPoison (s : State) (line : Nat) (b : Bool) : State :=
  { s with hbmPoison := setK false s.hbmPoison line b }

/-- Store a line's bytes on the memory side. -/
def State.putLine (s : State) (line : Nat) (data : List Byte) (poison : Bool) : State :=
  { s with hbm := memWrite s.hbm (line * 64) (data.take 64) }.setPoison line poison

/-- A latent error of a line: 1 correctable, 2 uncorrectable. -/
def State.setErr (s : State) (line v : Nat) : State :=
  { s with mem := { s.mem with err := setK 0 s.mem.err line v } }

/-- Whether a line lies in the tier manager's metadata region while that is protected (R210): 290 MiB at
TIER_META_BASE. -/
def State.metaLine (s : State) (line : Nat) : Bool :=
  let base := s.rd TIER_META_BASE.BASE * 2 ^ 21
  s.on TIER_CTRL.EN && decide (base ≤ line * 64) && decide (line * 64 < base + 290 * 2 ^ 20)

/-- An uncorrectable error of a line is counted and recorded (R311); one in the tier metadata region makes a package reset
due (R443). -/
def State.hbmUncorr (s : State) (line : Nat) : State :=
  let p := s.place (line * 64)
  let n := hubOfPc p.pc
  let s := (s.bump HBM_ERR_UNCORR.COUNT 1 n).wr HBM_ERR_LAST.PC p.pc n
  let s := ((s.wr HBM_ERR_LAST.BANK p.bank n).wr HBM_ERR_LAST.ROW p.row n).wr HBM_ERR_LAST.STATUS stEcc n
  let s := (s.wr HBM_ERR_LAST.VALID 1 n).raise HBM_INT_STATUS.ECC_UNCORR n
  if s.metaLine line then { s with rst := { s.rst with due := some (3, stEcc) } } else s

/-- An access takes a pseudo-channel out of power-down (R310). -/
def State.wakePc (s : State) (pc : Nat) : State :=
  { s with mem := { s.mem with powerDown := setK false s.mem.powerDown pc false } }

/-- A line with its poison mark, and the state after it was read. -/
structure LineRead where
  st : State
  data : List Byte
  poison : Bool

/-- A controller reads a line; `upset` is what the read finds: 0 nothing, 1 a single-bit error, 2 an uncorrectable one
(R311). A FAILED pseudo-channel returns poison (R314). -/
def State.hbmRead (s : State) (line upset : Nat) : LineRead :=
  if s.pcFailed (s.pcOfLine line) then ⟨s, s.hbmLine line, true⟩
  else
    let e := max upset (getK 0 s.mem.err line)
    let n := hubOfPc (s.pcOfLine line)
    let s := s.wakePc (s.pcOfLine line)
    if e = 2 then ⟨(s.setErr line 2).hbmUncorr line, s.hbmLine line, true⟩
    else
      let s := if e = 1 then
          (s.setErr line 0).bump HBM_ERR_CORR.COUNT 1 n
        else s
      ⟨s, s.hbmLine line, s.poisoned line⟩

/-- A line reaches the HBM array: a FAILED pseudo-channel drops it with a record (R314), else a latent error is
overwritten. -/
def State.hbmStore (s : State) (line : Nat) : State :=
  if s.pcFailed (s.pcOfLine line) then s.rasEvent stEcc 6 (hubOfPc (s.pcOfLine line)) (line * 64) .uncorr
  else (s.wakePc (s.pcOfLine line)).setErr line 0

/-! ## System cache -/

/-- The set of a line (R321), of its byte address. -/
def scSet (line : Nat) : Nat := bits (line * 64) 6 17 ^^^ bits (line * 64) 23 17

/-- Key of a way of a set of a hub. -/
def scKey (hub set way : Nat) : Nat := (hub * 131072 + set) * 16 + way

/-- The power state of a way: 0 ON, 1 PENDING, 2 OFF, 3 DISABLED (R326). -/
def State.wayState (s : State) (hub way : Nat) : Nat := s.rd SC_WAY_STATE.STATE hub 0 way

/-- The line a way of a set holds. -/
def State.scAt (s : State) (hub set way : Nat) : Option ScLine := (s.mem.sc.find? (·.1 = scKey hub set way)).map (·.2)

/-- Change the table of the system caches. -/
def State.setSc (s : State) (m : SMap ScLine) : State := { s with mem := { s.mem with sc := m } }

/-- The next use stamp. -/
def State.stamped (s : State) : State := { s with mem := { s.mem with stamp := s.mem.stamp + 1 } }

/-- The way that holds a line at its home: OFF ways and DISABLED ways take part in no lookup (R327). -/
def State.scFind (s : State) (line : Nat) : Option (Nat × ScLine) :=
  let hub := hubOfPc (s.pcOfLine line)
  (List.range 16).findSome? fun w =>
    if s.wayState hub w ≤ 1 then
      match s.scAt hub (scSet line) w with
      | some l => if l.line = line then some (w, l) else none
      | none => none
    else none

/-- Write a way of a set. -/
def State.scPut (s : State) (hub set way : Nat) (l : ScLine) : State :=
  s.setSc (insK s.mem.sc (scKey hub set way) l)

/-- Whether a way is on its way to DISABLED: PENDING, until its gate closes (R326, R329). -/
def State.leaving (s : State) (hub way : Nat) : Bool := getK false s.mem.disabling (hub * 16 + way)

/-- A way is DISABLED: its bit is set, and the ageing history holds it (R329). -/
def State.wayDisabled (s : State) (hub way : Nat) : State :=
  let s := s.wr SC_WAY_STATE.STATE 3 hub 0 way
  let s := s.wr SC_WAY_DISABLE.DISABLED (setBit (s.rd SC_WAY_DISABLE.DISABLED hub) way true) hub
  let k := hub * 16 + way
  let s := { s with mem := { s.mem with
    disabling := setK false s.mem.disabling k false, wayHist := setK false s.mem.wayHist k true } }
  (s.raise SC_INT_STATUS.WAY_DISABLED hub).rasEvent stOK 4 way 0 .info

/-- A hub disables a way (R329): it goes through the clean sequence of R326 first, PENDING until WAY_GATE_CLOSE; a way that is
OFF is empty already. -/
def State.disableWay (s : State) (hub way : Nat) : State :=
  if s.wayState hub way = 2 then s.wayDisabled hub way
  else if s.wayState hub way = 3 then s
  else
    let s := s.wr SC_WAY_STATE.STATE 1 hub 0 way
    { s with mem := { s.mem with disabling := setK false s.mem.disabling (hub * 16 + way) true } }

/-- A corrected error of a way is counted; the threshold within one second disables the way (R328, R329). -/
def State.scCorrected (s : State) (hub way : Nat) : State :=
  let s := s.bump SC_ECC.CORR 1 hub
  let k := hub * 16 + way
  let times := ((getK [] s.mem.corrTimes k).filter fun t => decide (s.clock < t + 100000000)) ++ [s.clock]
  let s := { s with mem := { s.mem with corrTimes := setK [] s.mem.corrTimes k times } }
  let th := s.rd SC_WAY_THRESH.CORR_PER_S hub
  if th ≠ 0 ∧ th ≤ times.length then s.disableWay hub way else s

/-- An uncorrectable error of a way: a second one within 24 hours disables it (R329). -/
def State.scUncorrected (s : State) (hub way : Nat) : State :=
  let k := hub * 16 + way
  let again := match s.mem.uncorrAt.find? (·.1 = k) with
    | some e => decide (s.clock < e.2 + 8640000000000)
    | none => false
  let s := { s with mem := { s.mem with uncorrAt := insK s.mem.uncorrAt k s.clock } }
  if again then s.disableWay hub way else s

/-- An uncorrectable error in a dirty line: the line is poisoned, and HBM holds it so (R328). -/
def State.scDirtyBad (s : State) (hub way line : Nat) : State :=
  let s := ((s.setPoison line true).bump SC_ECC.UNCORR 1 hub).raise SC_INT_STATUS.ECC_UNCORR hub
  (s.hbmStore line).scUncorrected hub way

/-- A dirty line of a way is read out and written back to HBM, uncharged (R316). What the ECC finds in it is open (R328). -/
def State.scWriteBack (s : State) (hub way line : Nat) : State :=
  match Config.scUpset line s.mem.stamp % 3 with
  | 0 => s.hbmStore line
  | 1 => (s.scCorrected hub way).hbmStore line
  | _ => s.scDirtyBad hub way line

/-- Empty a way of a set; a dirty line is written back. -/
def State.scEvict (s : State) (hub set way : Nat) : State :=
  match s.scAt hub set way with
  | none => s
  | some l =>
    let s := if l.dirty then s.scWriteBack hub way l.line else s
    s.setSc (eraseK s.mem.sc (scKey hub set way))

/-- Whether a way is allocatable: ON and unlocked (R321; a disabled way is not ON). -/
def State.allocatable (s : State) (hub way : Nat) : Bool :=
  s.wayState hub way == 0 && !bit (s.rd SC_LOCK.LOCKED hub) way

/-- The way a miss takes: an empty allocatable way, else the one the pseudo-LRU picks (log entry 18). -/
def State.scChoose (s : State) (hub set : Nat) : Option Nat :=
  let ws := (List.range 16).filter fun w => s.allocatable hub w
  match ws.find? fun w => (s.scAt hub set w).isNone with
  | some w => some w
  | none => if ws.isEmpty then none else ws[Config.scVictim set s.mem.stamp % ws.length]?

/-- Whether a class of requester allocates on a miss (R322). -/
def State.allocates (s : State) (hub stream : Nat) : Bool :=
  if stream < 96 then s.on SC_ALLOC.CORE hub
  else if stream = 96 then s.on SC_ALLOC.HOST hub
  else if 99 ≤ stream ∧ stream ≤ 114 then s.on SC_ALLOC.COCOON hub
  else if 128 ≤ stream ∧ stream ≤ 1151 then s.on SC_ALLOC.MOVER hub
  else false

/-- Install a line in a way that is still ON or PENDING, where the line is clean (R326); the line it displaces is
written back if dirty. -/
def State.scInstall (s : State) (line way : Nat) (dirty pf : Bool) : State :=
  let hub := hubOfPc (s.pcOfLine line)
  let set := scSet line
  if 2 ≤ s.wayState hub way then (if dirty then s.hbmStore line else s)
  else
    let s := (s.scEvict hub set way).stamped
    let through := dirty && s.wayState hub way == 1
    let s := if through then s.hbmStore line else s
    s.scPut hub set way ⟨line, dirty && !through, if pf then 0 else s.mem.stamp, false, pf⟩

/-- Every dirty line of a way is written back; the lines stay, clean. -/
def State.cleanWay (s : State) (hub way : Nat) : State :=
  let mine (k : Nat) : Bool := decide (k / 16 / 131072 = hub) && decide (k % 16 = way)
  let s := s.mem.sc.foldl (fun s e => if mine e.1 && e.2.dirty then s.scWriteBack hub way e.2.line else s) s
  s.setSc (s.mem.sc.map fun (e : Nat × ScLine) => (e.1, if mine e.1 then { e.2 with dirty := false } else e.2))

/-- The lines of a way are invalidated. -/
def State.dropWay (s : State) (hub way : Nat) : State :=
  s.setSc (s.mem.sc.filter fun e => !(decide (e.1 / 16 / 131072 = hub) && decide (e.1 % 16 = way)))

/-! ## Stride prefetch (R325) -/

/-- A tracker that begins again with a miss on a line, after one on another. -/
def Tracker.again (t : Tracker) (last line stamp : Nat) : Tracker :=
  let d : Int := (line : Int) - last
  let near := decide (line / 64 = last / 64) && decide (1 ≤ d.natAbs) && decide (d.natAbs ≤ 32)
  ⟨t.stream, line, if near then d else 0, if near then 2 else 1, none, stamp⟩

/-- A tracker after a miss on a line, and whether it is trained and on its stride. Two misses in a row off the stride end the
training, and are the first two of what may train it next. -/
def Tracker.miss (t : Tracker) (line stamp : Nat) : Tracker × Bool :=
  let d : Int := (line : Int) - t.last
  if 3 ≤ t.run then
    if line / 64 = t.last / 64 ∧ d % t.stride = 0 ∧ 0 < d / t.stride then
      ({ t with last := line, off := none, used := stamp }, true)
    else
      match t.off with
      | none => ({ t with off := some line, used := stamp }, false)
      | some first => (t.again first line stamp, false)
  else if t.run = 2 ∧ line / 64 = t.last / 64 ∧ d = t.stride then
    ({ t with last := line, run := 3, off := none, used := stamp }, true)
  else (t.again t.last line stamp, false)

/-- Whether an adder unit's buffer holds a line (R319). -/
def State.buffered (s : State) (line : Nat) : Bool := (getK [] s.mem.addbuf (s.ctrlOf line)).contains line

/-- Whether a line is on the hub: in the system cache or in an add buffer, so that no access to it reaches HBM. -/
def State.atHand (s : State) (line : Nat) : Bool := (s.scFind line).isSome || s.buffered line

/-- Prefetch one line at a hub: dropped where its home is the other hub, it is there or in an add buffer already, its partition
has no credit, or its set has no allocatable way; it enters the least recently used way as least recently used. -/
def State.prefetchLine (s : State) (hub part line : Nat) : State :=
  let set := scSet line
  let ws := (List.range 16).filter fun w => s.allocatable hub w
  if s.hbmEnd ≤ line * 64 ∨ hubOfPc (s.pcOfLine line) ≠ hub ∨ s.atHand line = true ∨ s.credit hub part ≤ 0 then s
  else
    let age (w : Nat) : Nat := match s.scAt hub set w with | some l => l.used + 1 | none => 0
    match ws with
    | [] => s
    | w0 :: rest =>
      let w := rest.foldl (fun b w => if age w < age b then w else b) w0
      let r := (s.charge line part).hbmRead line 0
      let s := if r.poison then r.st.setPoison line true else r.st
      (s.scInstall line w false true).bump SC_PF_ISSUED.COUNT 1 hub

/-- A demand miss of a tracked stream trains the trackers of both hubs, and each prefetches its own lines (R325). -/
def State.train (s : State) (stream part line : Nat) : State :=
  if 114 < stream then s
  else (List.range 2).foldl (fun s hub =>
    if s.on SC_PF.EN hub then
      let s := s.stamped
      let ts := getK [] s.mem.trackers hub
      let mine := ts.find? fun t => t.stream == stream
      let r := match mine with
        | some t => t.miss line s.mem.stamp
        | none => (⟨stream, line, 0, 1, none, s.mem.stamp⟩, false)
      let others := ts.filter fun t => t.stream != stream
      let oldest := others.foldl (fun m t => min m t.used) s.mem.stamp
      let others := if others.length < 64 then others else others.filter fun t => t.used != oldest
      let s := { s with mem := { s.mem with trackers := setK [] s.mem.trackers hub (r.1 :: others) } }
      if r.2 then
        (List.range (min (s.rd SC_PF.DIST hub) 32)).foldl (fun s k =>
          let l : Int := (line : Int) + r.1.stride * (k + 1 : Nat)
          if l / 64 = (line : Int) / 64 ∧ 0 ≤ l then s.prefetchLine hub part l.toNat else s) s
      else s
    else s) s

/-! ## A home's own reads and writes of HBM lines -/

/-- What a home finds when it looks for a line in the system cache (R321, R328): the state, whether the line was there, and the
way that holds it, or the way chosen for it. -/
structure Lookup where
  st : State
  hit : Bool
  way : Option Nat

/-- A demand's lookup of a line that is not in the system cache: counted, the trackers trained, and the way that the class of its
requester selects (R322). -/
def State.scMiss (s : State) (line stream part : Nat) : Lookup :=
  let hub := hubOfPc (s.pcOfLine line)
  let s := (s.bump SC_MISSES.COUNT 1 hub).train stream part line
  ⟨s, false, if s.allocates hub stream && !s.buffered line then s.scChoose hub (scSet line) else none⟩

/-- A demand's lookup of a line that a way holds: counted, and the way most recently used. -/
def State.scHit (s : State) (line way : Nat) (l : ScLine) : Lookup :=
  let hub := hubOfPc (s.pcOfLine line)
  let s := (s.bump SC_HITS.COUNT 1 hub).stamped
  let s := if l.pf then s.bump SC_PF_USED.COUNT 1 hub else s
  ⟨s.scPut hub (scSet line) way { l with used := s.mem.stamp, pf := false }, true, some way⟩

/-- The lookup of a demand read. `err` is what the ECC of a line found there reports, 1 corrected, 2 uncorrectable (R328), where
the command says it; else it is open (log entry 181). -/
def State.scLookup (s : State) (line stream part : Nat) (err : Option Nat) : Lookup :=
  let hub := hubOfPc (s.pcOfLine line)
  let again (s : State) : Lookup :=
    match s.scFind line with
    | some (w, l) => s.scHit line w l
    | none => s.scMiss line stream part
  match s.scFind line with
  | none => s.scMiss line stream part
  | some (w, l) =>
    match err.getD (Config.scUpset line s.mem.stamp % 3) with
    | 0 => s.scHit line w l
    | 1 => again (s.scCorrected hub w)
    | _ =>
      if l.dirty then again ((s.scPut hub (scSet line) w { l with dirty := false }).scDirtyBad hub w line)
      else
        let s := (s.setSc (eraseK s.mem.sc (scKey hub (scSet line) w))).bump SC_ECC.REFETCH 1 hub
        (s.scUncorrected hub w).scMiss line stream part

/-- A demand's write of a whole line is a hit or a miss of the system cache too (R336; DEDUCED, log entry 183): its home reads the
system cache before HBM (R321). -/
def State.scWrites (s : State) (line : Nat) : State :=
  s.bump (if (s.scFind line).isSome then SC_HITS.COUNT else SC_MISSES.COUNT) 1 (hubOfPc (s.pcOfLine line))

/-- Whether a stream's access to a line is shut out of the metadata region: anyone but the tier manager (R210). -/
def State.shutOut (s : State) (line stream : Nat) : Bool := stream != 98 && s.metaLine line

/-- A dropped write to the metadata region is recorded (R210, R490). -/
def State.metaDrop (s : State) (line : Nat) : State := s.rasEvent stBadDescriptor 3 0 (line * 64) .uncorr

/-- A home completes a read whose lookup chose a way: from the system cache or the add buffer, else from HBM, charged
to the partition, installing the line where a way was chosen. The protected metadata region reads as all ones. -/
def State.homeFetch (s : State) (line stream part upset : Nat) (way : Option Nat) : LineRead :=
  if s.shutOut line stream then ⟨s, List.replicate 64 0xFF, false⟩
  else if s.atHand line then ⟨s, s.hbmLine line, s.poisoned line⟩
  else
    let r := (s.charge line part).hbmRead line upset
    match way with
    | none => r
    | some w =>
      let s := if r.poison then r.st.setPoison line true else r.st
      ⟨s.scInstall line w false false, r.data, r.poison⟩

/-- A home writes a line: into the system cache where it is present or allocates by its class, into the add buffer
where that holds it, else to HBM, charged to the partition, as is a write through a PENDING way (R316, R319, R321, R322, R326). -/
def State.homeWrite (s : State) (line stream part : Nat) (data : List Byte) (poison : Bool) : State :=
  let hub := hubOfPc (s.pcOfLine line)
  let set := scSet line
  if s.shutOut line stream then s.metaDrop line
  else
    let s := s.putLine line data poison
    if s.buffered line then s
    else
    match s.scFind line with
    | some (w, l) =>
      let s := s.stamped
      if s.wayState hub w = 1 then ((s.charge line part).hbmStore line).scPut hub set w { l with dirty := false, used := s.mem.stamp }
      else s.scPut hub set w { l with dirty := true, used := s.mem.stamp }
    | none =>
      match if s.allocates hub stream then s.scChoose hub set else none with
      | some w => s.scInstall line w true false
      | none => (s.charge line part).hbmStore line

/-- A line leaves the system cache for an add buffer: a dirty one's data go into the buffer (R319). -/
def State.scRemove (s : State) (line : Nat) : State :=
  match s.scFind line with
  | some (w, _) => s.setSc (eraseK s.mem.sc (scKey (hubOfPc (s.pcOfLine line)) (scSet line) w))
  | none => s

/-- A line is in the add buffer of its controller, most recently used; the least recently used of 257 is written to
HBM, uncharged (R319). A line neither buffered nor cached, whose data no recall gave, is read from HBM. -/
def State.bufferLine (s : State) (line part : Nat) (given : Bool := false) : LineRead :=
  let c := s.ctrlOf line
  let r : LineRead :=
    if given || s.atHand line then ⟨s, s.hbmLine line, s.poisoned line⟩ else (s.charge line part).hbmRead line 0
  let s := (if r.poison then r.st.setPoison line true else r.st).scRemove line
  let q := (getK [] s.mem.addbuf c).filter (· != line) ++ [line]
  let s := match q with
    | old :: _ => if 256 < q.length then s.hbmStore old else s
    | [] => s
  let q := if 256 < q.length then q.drop 1 else q
  ⟨{ s with mem := { s.mem with addbuf := setK [] s.mem.addbuf c q } }, r.data, r.poison⟩

/-! ## The arithmetic of the adders (R180, R256, R320) -/

/-- One element of an add (EFMT 0 FP32, 1 BF16, 2 INT32, 3 INT64), as bit patterns. -/
def elemAdd (efmt x y : Nat) : Nat :=
  match efmt with
  | 0 => f32add x y
  | 1 =>
    let r := numAdd (decodeElem 8 false x) (decodeElem 8 false y)
    if r % 2 ^ 31 = 0 then r / 2 ^ 16 else ((f32 r).toFmt 8 0 1).pat
  | 2 => (x + y) % 2 ^ 32
  | _ => (x + y) % 2 ^ 64

/-- Add elements into bytes, element by element. -/
def addElems (efmt : Nat) : Nat → List Byte → List Byte → List Byte
  | 0, _, _ => []
  | n + 1, old, new =>
    let w := efmtSize efmt
    if new.length < w then []
    else leBytes w (elemAdd efmt (leNat (old.take w)) (leNat (new.take w))) ++ addElems efmt n (old.drop w) (new.drop w)

/-- The value an atomic operation stores: old value, operand and compare value, of `w` bits (R256, R319). -/
def amoResult (op : AmoOp) (w old x cmp : Nat) : Nat :=
  match op with
  | .swap => x % 2 ^ w
  | .add => (old + x) % 2 ^ w
  | .and => old &&& (x % 2 ^ w)
  | .or => old ||| (x % 2 ^ w)
  | .xor => old ^^^ (x % 2 ^ w)
  | .min => if sext (x % 2 ^ w) w < sext old w then x % 2 ^ w else old
  | .max => if sext old w < sext (x % 2 ^ w) w then x % 2 ^ w else old
  | .minu => min old (x % 2 ^ w)
  | .maxu => max old (x % 2 ^ w)
  | .cas => if old = cmp % 2 ^ w then x % 2 ^ w else old

end Sys2Proof.Machine
end

