-- ==== Sys2Proof/Machine/Home.lean ====
section
/-! DEFINITION. Machine/Home.lean: the homes: directory entries, snoops, transactions, victims and starvation tokens
(R281 to R287, R294 to R299, R301 to R303). -/

namespace Sys2Proof.Machine

/-! ## The coherent domain's tables -/

/-- Change the coherent domain. -/
def State.setCoh (s : State) (f : Coh → Coh) : State := { s with coh := f s.coh }

/-- A message is sent. -/
def State.post (s : State) (m : Msg) : State := s.setCoh fun c => { c with net := c.net ++ [m] }

/-- A message is received: the first like it is taken off the channels. -/
def State.take (s : State) (m : Msg) : State := s.setCoh fun c => { c with net := c.net.erase m }

/-- A line in a caching agent. -/
def State.line (s : State) (k agent : Nat) : CLine := getK CLine.none s.coh.caches (k * 128 + agent)

/-- Change a line in a caching agent. -/
def State.setLine (s : State) (k agent : Nat) (l : CLine) : State :=
  s.setCoh fun c => { c with caches := setK CLine.none c.caches (k * 128 + agent) l }

/-- The directory entry of a line (R278). -/
def State.entry (s : State) (k : Nat) : Option DirEnt := (s.coh.dir.find? (·.1 = k)).map (·.2)

/-- The open transaction of a line (R287). -/
def State.txn (s : State) (k : Nat) : Option Txn := (s.coh.txns.find? (·.1 = k)).map (·.2)

/-- Whether the home of a line takes requests: its hub and the package are not in reset (R304). -/
def State.homeUp (s : State) (k : Nat) : Bool :=
  !s.rst.busy.contains (2, s.home k) && !s.rst.busy.contains (4, 0)

/-- The requests that wait at the home for a line. -/
def State.queued (s : State) (k : Nat) : List Req := getK [] s.coh.lineq k

/-- The set of a line in its directory (R294). -/
def dirSet (line : Nat) : Nat :=
  let a := line * 64
  bits a 6 18 ^^^ bits a 24 18 ^^^ bits a 42 18 ^^^ bits a 60 4

/-- Key of a hub's directory set. -/
def setKey (n set : Nat) : Nat := n * 262144 + set

/-- The tokens queued for a set (R297). -/
def State.tokens (s : State) (n set : Nat) : List Tok := getK [] s.coh.tokq (setKey n set)

/-- The entries of a set. -/
def State.setEntries (s : State) (n set : Nat) : List (Nat × DirEnt) :=
  s.coh.dir.filter fun e => decide (dirSet (keyAddr e.1) = set) && decide (s.home e.1 = n)

/-- DIR_USED and DIR_BUSY follow the directory (R305). -/
def State.dirStats (s : State) (n : Nat) : State :=
  let mine := s.coh.dir.filter fun e => decide (s.home e.1 = n)
  let busy := (mine.filter fun e => (s.txn e.1).isSome).length
  let s := (s.wr DIR_USED.COUNT mine.length n).wr DIR_BUSY.NOW busy n
  if s.rd DIR_BUSY.MAX n < busy then s.wr DIR_BUSY.MAX busy n else s

/-- Write or free a line's entry. -/
def State.setEntry (s : State) (k : Nat) (e : Option DirEnt) : State :=
  let s := s.setCoh fun c => match e with
    | some e => { c with dir := insK c.dir k e }
    | none => { c with dir := eraseK c.dir k }
  s.dirStats (s.home k)

/-- Open or change a line's transaction. -/
def State.setTxn (s : State) (k : Nat) (t : Txn) : State :=
  (s.setCoh fun c => { c with txns := insK c.txns k t }).dirStats (s.home k)

/-- A transaction for a request, nothing asked yet. -/
def Txn.of (r : Option Req) (why : TxnWhy) : Txn :=
  ⟨r, [], [], [], false, none, none, none, [], none, false, false, why, 0⟩

/-- The host's agent number (R274). -/
def hostAgent : Nat := 96

/-! ## Holders (R295) -/

/-- Whether an agent may be a sharer by the group bits. -/
def DirEnt.inGroup (e : DirEnt) (a : Nat) : Bool :=
  match e.group with
  | some g => bit g (if a = hostAgent then 12 else a / 8)
  | none => false

/-- Whether an entry names an agent exactly, as the group bit of the host does. -/
def DirEnt.lists (e : DirEnt) (a : Nat) : Bool :=
  e.owner == some a || e.sharers.contains a || (a == hostAgent && e.inGroup a)

/-- The agents that the group bits reach: all eight cores of each marked group, and the host. -/
def groupAgents (g : Nat) : List Nat :=
  ((List.range 96).filter fun a => bit g (a / 8)) ++ (if bit g 12 then [hostAgent] else [])

/-- The sharers that an invalidation goes to. -/
def DirEnt.sharersAll (e : DirEnt) : List Nat :=
  match e.group with
  | some g => (groupAgents g).filter fun a => e.owner != some a
  | none => e.sharers

/-- Every agent an invalidation goes to. -/
def DirEnt.holders (e : DirEnt) : List Nat :=
  (match e.owner with | some x => [x] | none => []) ++ e.sharersAll

/-- Add a sharer; a fourth makes the entry a group entry (R295). -/
def DirEnt.addSharer (e : DirEnt) (a : Nat) : DirEnt :=
  let gbit (g x : Nat) : Nat := setBit g (if x = hostAgent then 12 else x / 8) true
  match e.group with
  | some g => { e with group := some (gbit g a) }
  | none =>
    if e.sharers.contains a then e
    else if e.sharers.length < 3 then { e with sharers := e.sharers ++ [a] }
    else { e with sharers := [], group := some ((e.sharers ++ [a]).foldl gbit 0) }

/-- An entry with no holder, in a way. -/
def DirEnt.empty (way used : Nat) : DirEnt := ⟨false, none, [], none, way, used⟩

/-- Whether an entry names no holder. -/
def DirEnt.none? (e : DirEnt) : Bool := e.owner.isNone && e.sharers.isEmpty && e.group.getD 0 == 0

/-- An entry that names one holder and no other; it stays in group mode (R295). -/
def DirEnt.owned (e : DirEnt) (a used : Nat) : DirEnt :=
  { e with owner := some a, ownedO := false, sharers := [], group := e.group.map fun _ => 0, used := used }

/-- An entry without a sharer that it names exactly: the host in group mode too. -/
def DirEnt.dropSharer (e : DirEnt) (a : Nat) : DirEnt :=
  { e with sharers := e.sharers.filter (· != a),
           group := if a = hostAgent then e.group.map (· % 4096) else e.group }

/-- Write an entry, freeing it when it names no holder (R294). -/
def State.putEntry (s : State) (k : Nat) (e : DirEnt) : State :=
  if e.none? then s.setEntry k none else s.setEntry k (some e)

/-! ## Snoops -/

/-- Snoop an agent: the host is back-invalidated in place of a snoop (R302). -/
def State.snoopAgent (s : State) (k : Nat) (p : Nat × SnpKind) : State :=
  let n := s.home k
  if p.1 = hostAgent then (s.bump DIR_BISNP.COUNT 1 n).post (.bisnp k p.2)
  else (s.bump DIR_SNOOPS.COUNT 1 n).post (.snp k p.2 p.1)

/-- Whether a core waits for its own grant of a line, and none is on its way: it holds nothing, and would hold a snoop until
that grant (R289). Such a core is not snooped, which could concern group entries and R299 alone (DEDUCED, log entry 179). -/
def State.awaits (s : State) (k a : Nat) : Bool :=
  (match (s.line k a).st with | .isD | .imD | .imA => decide (a < 96) | _ => false)
    && !s.coh.net.any fun m => match m with | .gnt k' a' _ _ _ => k' == k && a' == a | _ => false

/-- Whether a request is a Put. -/
def Req.isPut (r : Req) : Bool := match r.kind with | .puts | .pute | .putm _ _ => true | _ => false

/-- The data of a transaction once a Put is taken as a write-back: a PutM's are dirty. -/
def Req.gives (r : Req) (ans : Option (List Byte × Bool × Bool)) : Option (List Byte × Bool × Bool) :=
  match r.kind with | .putm d p => some (d, true, p) | _ => ans

/-- Send the snoops of a transaction and wait for their answers. A Put of a snooped agent that waits for the line already is its
write-back (R285). -/
def State.snoopAll (s : State) (k : Nat) (t : Txn) (l : List (Nat × SnpKind)) : State :=
  let l := l.filter fun p => !s.awaits k p.1
  let s := l.foldl (fun s p => s.snoopAgent k p) s
  let who := l.map (·.1)
  let early (r : Req) : Bool := r.isPut && who.contains (r.agent.getD 127)
  let puts := (s.queued k).filter early
  let t := { t with waiting := t.waiting ++ who, crossed := t.crossed ++ puts.map fun r => r.agent.getD 127,
                    ans := puts.foldl (fun a r => r.gives a) t.ans, sentAt := s.us }
  let s := if puts.isEmpty then s
    else (s.bump DIR_CROSS.COUNT puts.length (s.home k)).setCoh fun c => { c with
      lineq := setK [] c.lineq k ((getK [] c.lineq k).filter fun r => !early r) }
  s.setTxn k t

/-! ## Memory behind a home -/

/-- The stream of a transaction's request, and its partition. -/
def Txn.stream (t : Txn) : Nat := match t.req with | some r => r.stream | none => unchargedStream
def State.txnPart (s : State) (t : Txn) : Nat := s.partOf t.stream

/-- Whether an atomic or an add is the memory-side adders': AddM, and an AtomF of an uncached access, which names no
caching agent, of 4 or 8 bytes and no compare (R258, R319). -/
def Req.isAdder (r : Req) : Bool :=
  match r.kind with
  | .addm _ _ _ => true
  | .atomf op _ size _ _ => r.agent.isNone && op != .cas && decide (2 ≤ size) && decide (size ≤ 3)
  | _ => false

/-- Ask the host for a line that HD0 does not hold as needed (R303). -/
def State.askHost (s : State) (k : Nat) (t : Txn) (what : String) : State :=
  (s.post (.toHost k what)).setTxn k { t with asked := true }

/-- A line of host memory, and whether it is poisoned. -/
def State.hostLine (s : State) (k : Nat) : List Byte × Bool :=
  (memRead s.hostMem (keyAddr k * 64) 64, getK false s.coh.hostBad k)

/-- Write a line of host memory; poisoned data stay poisoned (R279). -/
def State.putHostLine (s : State) (k : Nat) (data : List Byte) (poison : Bool) : State :=
  ({ s with hostMem := memWrite s.hostMem (keyAddr k * 64) (data.take 64) }).setCoh fun c =>
    { c with hostBad := setK false c.hostBad k poison }

/-- Begin the read of a transaction: the system cache is looked up at once, and the data come with MEMORY_DATA; a line
for the adders is looked up when it is read. A host line that HD0 holds is read from what HD0 holds. -/
def State.startRead (s : State) (k : Nat) (t : Txn) (err : Option Nat) : State :=
  if keyHost k then
    s.setTxn k { t with needMem := true, mem := some (s.hostLine k) }
  else
    match t.req with
    | some r =>
      if r.isAdder then s.setTxn k { t with needMem := true }
      else
        let far := match r.kind with | .atomf _ _ _ _ _ => true | _ => false
        let l := s.scLookup (keyAddr k) r.stream (s.partOf r.stream) err
        let hub := s.home k
        let way := if far && !l.hit then l.st.scChoose hub (scSet (keyAddr k)) else l.way
        l.st.setTxn k { t with needMem := true, scWay := way }
    | none => s.setTxn k { t with needMem := true }

/-- The memory side of a home takes written data (R284, R303). -/
def State.homeStore (s : State) (k stream : Nat) (data : List Byte) (poison : Bool) : State :=
  if keyHost k then
    (s.putHostLine k data poison).setCoh fun c => { c with hostGrant := if getK 0 c.hostGrant k = 0 then c.hostGrant else setK 0 c.hostGrant k 3 }
  else s.homeWrite (keyAddr k) stream (s.partOf stream) data poison

/-- A request that writes a whole HBM line is counted by the system cache (R336). -/
def State.lineWrites (s : State) (k : Nat) : State := if keyHost k then s else s.scWrites (keyAddr k)

/-! ## The turns of the controllers (R317) -/

/-- Whether a request writes a line. -/
def Req.isWrite (r : Req) : Bool :=
  match r.kind with | .putm _ _ | .wrfull _ _ | .wrpart _ _ _ | .atomf _ _ _ _ _ => true | _ => false

/-- Whether a request will write its line to HBM: its line is an HBM line that is not in an add buffer, not in an ON way and takes
none, and a PutM's agent is the owner. -/
def State.writesHbm (s : State) (k : Nat) (r : Req) : Bool :=
  let line := keyAddr k
  let hub := s.home k
  let here := match r.kind with
    | .putm _ _ => (match s.entry k with | some e => e.owner == some (r.agent.getD 127) | none => false)
    | _ => r.isWrite && !r.isAdder
  here && !keyHost k && !s.shutOut line r.stream && !s.buffered line
    && (match s.scFind line with
      | some (w, _) => s.wayState hub w == 1
      | none => !(s.allocates hub r.stream && (s.scChoose hub (scSet line)).isSome))

/-- Whether all that a transaction's write waits for is there. -/
def Txn.gathered (t : Txn) : Bool :=
  t.waiting.isEmpty && t.puts.isEmpty && !t.asked
    && (t.mem.isSome || t.ans.isSome || match t.req with | some ⟨.wrfull _ _, _, _, _, _⟩ => true | _ => false)

/-- The partitions whose requests wait at a controller: the reads and the writes of open transactions, and the writes at the
front of a line. -/
def State.waitsAt (s : State) (c : Nat) : List Nat :=
  let here (k : Nat) : Bool := !keyHost k && decide (s.ctrlOf (keyAddr k) = c)
  (s.coh.txns.filterMap fun (e : Nat × Txn) =>
    let write := e.2.gathered && match e.2.req with | some r => s.writesHbm e.1 r | none => false
    if here e.1 && (write || (e.2.needMem && e.2.mem.isNone && !s.atHand (keyAddr e.1))) then some (s.txnPart e.2) else none)
  ++ (s.coh.lineq.filterMap fun (e : Nat × List Req) =>
    match s.txn e.1, e.2 with
    | none, r :: _ => if here e.1 && s.writesHbm e.1 r then some (s.partOf r.stream) else none
    | _, _ => none)

/-- Whether a hub makes no new HBM activation: its rail is in a droop (R426; DESIGN CHOICE, log entry 195). -/
def State.hubPaused (s : State) (hub : Nat) : Bool :=
  s.pwr.droops.any fun r => match r with | .vhub n => n.val == hub | _ => false

/-- Whether a line's controller serves a request of a partition now (R317): it may be served in the period, no request of a
better class waits, and of its class its partition is next in turn; while its hub's rail droops it serves none (R426). -/
def State.turn (s : State) (line part : Nat) : Bool :=
  let c := s.ctrlOf line
  let hub := hubOfPc (s.pcOfLine line)
  let after (cls q : Nat) : Nat := (q + 31 - s.lastTurn c cls) % 16
  let sure := s.guaranteed hub part
  !s.hubPaused hub && (decide (uncharged ≤ part) || (s.served hub part
    && (s.waitsAt c).all fun q => q == part || !s.served hub q
      || if sure then !s.guaranteed hub q || decide (after 0 part < after 0 q)
        else !s.guaranteed hub q && decide (after 1 part < after 1 q)))

/-- Whether a request's write has to wait for its turn at the controller (R317). -/
def State.writeWaits (s : State) (k : Nat) (r : Req) : Bool :=
  s.writesHbm k r && !s.turn (keyAddr k) (s.partOf r.stream)

/-- What HD0 holds of a host line goes back to the host when the line's entry is freed (R303). -/
def State.giveBack (s : State) (k : Nat) : State :=
  if keyHost k then
    let g := getK 0 s.coh.hostGrant k
    if g = 0 then s
    else
      (s.post (.toHost k (if g = 3 then "DirtyEvict" else "CleanEvictNoData"))).setCoh fun c =>
        { c with hostGrant := setK 0 c.hostGrant k 0 }
  else s

/-- Write an entry after a transaction; a host line whose entry is freed is given back. -/
def State.leaveEntry (s : State) (k : Nat) (e : DirEnt) : State :=
  if e.none? then (s.setEntry k none).giveBack k else s.setEntry k (some e)

/-- A line is poisoned by R299, R302 or R304: counted, recorded in DIR_ERR. -/
def State.poisonLine (s : State) (k status agent : Nat) : State :=
  let n := s.home k
  let s := if keyHost k then s.setCoh fun c => { c with hostBad := setK false c.hostBad k true }
    else s.setPoison (keyAddr k) true
  let s := (s.bump DIR_POISONED.COUNT 1 n).raise DIR_INT_STATUS.POISON n
  let s := ((s.wr DIR_ERR.STATUS status n).wr DIR_ERR.AGENT agent n).wr DIR_ERR.HOSTMEM (b2n (keyHost k)) n
  ((s.wr DIR_ERR.VALID 1 n).wr DIR_ERR_ADDR.LINE (keyAddr k) n).raise DIR_INT_STATUS.ERR n

/-! ## Tokens (R297) -/

/-- The lowest free token slot of a hub (DESIGN CHOICE, log entry 20). -/
def freeSlot (m : SMap Bool) (n : Nat) : Nat → Nat → Nat
  | 0, i => i
  | f + 1, i => if getK false m (n * 8192 + i) then freeSlot m n f (i + 1) else i

/-- DIR_TOKENS follows the slots in use. -/
def State.tokenStats (s : State) (n : Nat) : State :=
  let used := (s.coh.tokUsed.filter fun e => decide (e.1 / 8192 = n)).length
  let before := s.rd DIR_TOKENS.NOW n
  let s := s.wr DIR_TOKENS.NOW used n
  let s := if s.rd DIR_TOKENS.MAX n < used then s.wr DIR_TOKENS.MAX used n else s
  let mark := s.rd DIR_TOKEN_MARK.MARK n
  if mark ≠ 0 ∧ before < mark ∧ mark ≤ used then s.raise DIR_INT_STATUS.TOKEN_HIGH n else s

/-- Answer a request with Retry and a new token of its set; a request of the host is retried inside the bridge, and so
waits at the home at once. Whether it was sent away. -/
def State.sendRetry (s : State) (k : Nat) (r : Req) : State × Option Req :=
  let n := s.home k
  let set := dirSet (keyAddr k)
  let t := freeSlot s.coh.tokUsed n 8192 0
  let s := s.setCoh fun c => { c with
    tokUsed := insK c.tokUsed (n * 8192 + t) true
    tokq := insK c.tokq (setKey n set) (getK [] c.tokq (setKey n set) ++ [⟨t, k, none, s.clock⟩]) }
  let s := (s.tokenStats n).bump DIR_RETRIES.COUNT 1 n
  match r.agent with
  | some a =>
    if a = hostAgent then (s, some { r with token := some t }) else (s.post (.retry k a t), none)
  | none => (s, some { r with token := some t })

/-- A token is freed when its request's transaction begins. -/
def State.freeToken (s : State) (k : Nat) (r : Req) : State :=
  match r.token with
  | none => s
  | some t =>
    let n := s.home k
    let set := dirSet (keyAddr k)
    match (s.tokens n set).find? fun x => x.token == t with
    | none => s
    | some x =>
      let ns := (s.clock - x.at_) * 10
      let s := if s.rd DIR_TOKENS.WAIT_MAX_NS n < ns then s.wr DIR_TOKENS.WAIT_MAX_NS (min ns (2 ^ 32 - 1)) n else s
      let s := s.setCoh fun c => { c with
        tokUsed := setK false c.tokUsed (n * 8192 + t) false
        tokq := setK [] c.tokq (setKey n set) ((getK [] c.tokq (setKey n set)).filter fun y => y.token != t) }
      s.tokenStats n

/-! ## Taking a request (R284, R296) -/

/-- The next use stamp of the directory. -/
def State.dirStamp (s : State) : State := s.setCoh fun c => { c with tick := c.tick + 1 }

/-- A read for a copy begins on a line with no holder: its entry takes a way, and the line is read, or asked of the
host first (R284, R303). -/
def State.takeWay (s : State) (k : Nat) (r : Req) (way : Nat) (err : Option Nat) : State :=
  let s := s.dirStamp
  let t : Txn := Txn.of (some r) .request
  let s := s.setEntry k (some (.empty way s.coh.tick))
  let s := (s.freeToken k r)
  if keyHost k then
    let s := s.setTxn k { t with needMem := true }
    s.askHost k { t with needMem := true } (match r.kind with | .rds => "RdShared" | _ => "RdOwn")
  else s.startRead k t err

/-- Back-invalidate an entry to free its way (R296). -/
def State.victimise (s : State) (v : Nat) (e : DirEnt) (forLine : Option (Nat × Req)) : State :=
  let n := s.home v
  let s := s.bump DIR_VICTIMS.COUNT 1 n
  s.snoopAll v { Txn.of none .victim with forLine := forLine } (e.holders.map fun a => (a, .snpInv))

/-- The ways of a set that are reserved for tokens. -/
def State.reserved (s : State) (n set : Nat) : List Nat := (s.tokens n set).filterMap (·.way)

/-- A way of a set with no entry and no reservation. -/
def State.freeWay (s : State) (n set : Nat) : Option Nat :=
  let es := s.setEntries n set
  (List.range 16).find? fun w => !(es.any fun e => e.2.way == w) && !(s.reserved n set).contains w

/-- The least recently used entry of a set that is not busy and not reserved. -/
def State.lruEntry (s : State) (n set : Nat) : Option (Nat × DirEnt) :=
  let es := (s.setEntries n set).filter fun e => (s.txn e.1).isNone && !(s.reserved n set).contains e.2.way
  match es with
  | [] => none
  | e :: rest => some (rest.foldl (fun b x => if x.2.used < b.2.used then x else b) e)

/-- A request that needs an entry takes a way by R296 and R297: the state, and the request if it waits at the home. -/
def State.needWay (s : State) (k : Nat) (r : Req) (err : Option Nat) : State × Option Req :=
  let n := s.home k
  let set := dirSet (keyAddr k)
  let toks := s.tokens n set
  match r.token.bind fun t => toks.find? fun x => x.token == t with
  | some x =>
    match x.way with
    | none => (s, some r)
    | some w =>
      if (s.setEntries n set).any fun e => e.2.way == w then (s, some r) else (s.takeWay k r w err, none)
  | none =>
    if ¬ toks.isEmpty then s.sendRetry k r
    else
      match s.freeWay n set with
      | some w => (s.takeWay k r w err, none)
      | none =>
        match s.lruEntry n set with
        | some (v, e) => (s.victimise v e (some (k, r)), some r)
        | none => s.sendRetry k r

/-- Reserve ways that are not busy for the oldest tokens of a set (R297), back-invalidating what they hold, and take the
requests whose way is free now. -/
def State.serveTokens (s : State) (n set : Nat) : State :=
  match (s.tokens n set).find? fun x => x.way.isNone with
  | none => s
  | some x =>
    let give (s : State) (w : Nat) : State := s.setCoh fun c => { c with
      tokq := insK c.tokq (setKey n set) ((getK [] c.tokq (setKey n set)).map fun y =>
        if y.token = x.token then { y with way := some w } else y) }
    match s.freeWay n set with
    | some w => give s w
    | none =>
      match s.lruEntry n set with
      | some (v, e) => (give s e.way).victimise v e none
      | none => s

/-- A Put that meets no transaction (R284, R286). -/
def State.takePut (s : State) (k agent stream : Nat) (kind : ReqKind) (keepS : Bool) : State :=
  let n := s.home k
  let s := match s.entry k with
    | none => match kind with | .putm _ _ => s | _ => s.bump DIR_STALE.COUNT 1 n
    | some e =>
      if e.owner = some agent then
        let s := match kind with
          | .putm d p => (s.lineWrites k).homeStore k stream d p
          | _ => s
        let e := { e with owner := none, ownedO := false }
        s.leaveEntry k (if keepS then e.addSharer agent else e)
      else if e.lists agent then s.leaveEntry k (e.dropSharer agent)
      else if e.inGroup agent then s
      else match kind with | .putm _ _ => s | _ => s.bump DIR_STALE.COUNT 1 n
  (s.post (.cmpput k agent)).serveTokens n (dirSet (keyAddr k))

/-- The new bytes of a line under a WrPart's mask. -/
def maskBytes (mask : Nat) (old new : List Byte) : List Byte :=
  (List.range 64).map fun i => if bit mask i then new.getD i 0 else old.getD i 0

/-- Complete a request that changes no entry, or that leaves the line with no holder: RdCur, WrFull, WrPart, AtomF and
AddM on the current bytes of the line. An AtomF or AddM does not touch a poisoned line (R320). -/
def State.perform (s : State) (k : Nat) (r : Req) (data : List Byte) (poison : Bool) : State :=
  let s := if r.isAdder && !keyHost k then (s.bufferLine (keyAddr k) (s.partOf r.stream) true).st else s
  let s := match r.kind, r.agent with | .atomf _ _ _ _ _, some h => s.farDone k h | _, _ => s
  match r.kind with
  | .rdcur => s.post (.cmpd k r.stream data poison)
  | .wrfull d p => ((s.lineWrites k).homeStore k r.stream d p).post (.cmp k r.stream)
  | .wrpart mask d p => (s.homeStore k r.stream (maskBytes mask data d) (poison || p)).post (.cmp k r.stream)
  | .atomf op off size x cmp =>
    let w := 2 ^ size
    let old := leNat ((data.drop off).take w)
    if poison then s.post (.cmpd k r.stream data true)
    else
      let new := data.take off ++ leBytes w (amoResult op (8 * w) old x cmp) ++ data.drop (off + w)
      let s := s.homeStore k r.stream new false
      let s := if r.isAdder ∧ ¬ keyHost k then s.bump HBM_ADD_OPS.COUNT 1 (s.home k) else s
      s.post (.cmpd k r.stream data false)
  | .addm off efmt elems =>
    if poison then s.post (.cmp k r.stream)
    else
      let new := data.take off ++ addElems efmt 64 (data.drop off) elems ++ data.drop (off + elems.length)
      ((s.homeStore k r.stream new false).bump HBM_ADD_OPS.COUNT 1 (s.home k)).post (.cmp k r.stream)
  | _ => s

/-- Whether a request needs the line's bytes. -/
def Req.needsData (r : Req) (upg : Bool) : Bool :=
  match r.kind with
  | .rds | .rdx | .rdcur | .wrpart _ _ _ | .atomf _ _ _ _ _ | .addm _ _ _ => true
  | .upg => !upg
  | _ => false

/-- A host snoop of a host-memory line (R303): answered at once where no core holds it, else by snooping the holders. -/
def State.hostSnoop (s : State) (k : Nat) (kind : SnpKind) : State :=
  match s.entry k with
  | none =>
    let s := s.post (.toHost k "RspIHitI")
    match kind with
    | .snpInv => s.setCoh fun c => { c with hostGrant := setK 0 c.hostGrant k 0 }
    | _ => s
  | some e =>
    let l := match kind with
      | .snpInv => e.holders.map fun a => (a, SnpKind.snpInv)
      | kind => match e.owner with | some x => [(x, kind)] | none => []
    s.snoopAll k (Txn.of none (.hostSnp kind)) l

/-- Whether a read for a copy may begin where tokens of its set are queued (R297, R298): one with a token when it is the oldest
and has its way, and the transaction of the one before has ended; another not before them, if its line has an entry. -/
def State.tokenTurn (s : State) (k : Nat) (r : Req) : Bool :=
  let n := s.home k
  let set := dirSet (keyAddr k)
  let toks := s.tokens n set
  let serving := s.coh.txns.any fun e =>
    decide (dirSet (keyAddr e.1) = set) && decide (s.home e.1 = n)
      && (match e.2.req with | some q => q.token.isSome | none => false)
  match r.token.bind fun t => toks.find? fun x => x.token == t with
  | some x => x.way.isSome && (toks.head?.map (·.token)) == some x.token && !serving
  | none => toks.isEmpty || (s.entry k).isNone

/-- Whether an Upg's requester is listed. A group bit does not tell: there it is while it still holds its copy (DEDUCED, log
entry 179). -/
def State.upgListed (s : State) (k me : Nat) (e : DirEnt) : Bool :=
  e.lists me || (e.inGroup me && (match (s.line k me).st with | .s | .smA | .o | .omA => true | _ => false))

/-- A home takes a request by the table of R284: the state, and the request if it waits at the home for a way. -/
def State.begin (s : State) (k : Nat) (r : Req) (err : Option Nat := none) : State × Option Req :=
  let t : Txn := Txn.of (some r) .request
  let s := s.touchFar k r.stream
  let me := r.agent.getD 127
  match r.kind with
  | .puts | .pute | .putm _ _ =>
    if s.writeWaits k r then (s, some r) else (s.takePut k me r.stream r.kind r.keepS, none)
  | .rdcur =>
    match s.entry k with
    | some e =>
      match e.owner with
      | some x => ((s.freeToken k r).snoopAll k t [(x, .snpCur)], none)
      | none => (if keyHost k then s.askHost k { t with needMem := true } "RdCurr" else s.startRead k t err, none)
    | none => (if keyHost k then s.askHost k { t with needMem := true } "RdCurr" else s.startRead k t err, none)
  | .wrfull _ _ =>
    match s.entry k with
    | some e => (s.snoopAll k t (e.holders.map fun a => (a, .snpInv)), none)
    | none =>
      if s.writeWaits k r then (s, some r)
      else
        let s := if keyHost k then s.post (.toHost k "ItoMWr") else s
        (s.perform k r [] false, none)
  | .wrpart _ _ _ | .atomf _ _ _ _ _ | .addm _ _ _ =>
    match s.entry k with
    | some e =>
      let s := s.snoopAll k t (e.holders.map fun a => (a, .snpInv))
      let far := match r.kind with | .atomf _ _ _ _ _ => true | _ => false
      match e.owner, s.txn k with
      | none, some t =>
        (if keyHost k && far && decide (getK 0 s.coh.hostGrant k < 2) then
          s.askHost k { t with needMem := true } "RdOwn" else s.startRead k t err, none)
      | _, _ => (s, none)
    | none =>
      if keyHost k then
        match r.kind with
        | .wrpart _ _ _ => (s.startRead k t err, none)
        | _ => (s.askHost k { t with needMem := true } "RdOwn", none)
      else (s.startRead k t err, none)
  | .hostSnp kind => (s.hostSnoop k kind, none)
  | .rds =>
    if !s.tokenTurn k r then (s, some r)
    else
    match s.entry k with
    | none => s.needWay k r err
    | some e =>
      match e.owner with
      | some x => ((s.freeToken k r).snoopAll k t [(x, .snpS)], none)
      | none => ((s.freeToken k r).startRead k t err, none)
  | .rdx | .upg =>
    if !s.tokenTurn k r then (s, some r)
    else
    match s.entry k with
    | none => s.needWay k r err
    | some e =>
      let listed := decide (r.kind = .upg) && s.upgListed k me e
      let upg := listed && (e.owner.isNone || e.ownedO)
      let s := s.freeToken k r
      let others := e.sharersAll.filter fun a => a != me
      let own := match e.owner with
        | some x => if x = me then [] else [(x, if upg then SnpKind.snpInv else .snpX)]
        | none => []
      let t := { t with upg := upg }
      let s := s.snoopAll k t (own ++ others.map fun a => (a, .snpInv))
      let ask := keyHost k && decide (getK 0 s.coh.hostGrant k < 2)
      match s.txn k with
      | some t =>
        if ask then (s.askHost k { t with needMem := !upg } (if upg then "RdOwnNoData" else "RdOwn"), none)
        else if upg ∨ ¬ own.isEmpty then (s, none)
        else (s.startRead k t err, none)
      | none => (s, none)

/-! ## Finishing a transaction -/

/-- The entry of a line once the snooped agents have answered: those that kept a copy stay, the others are gone. -/
def Txn.entryAfter (t : Txn) (e : DirEnt) (snooped : List Nat) : DirEnt :=
  let gone (a : Nat) : Bool := snooped.contains a && !(t.kept.any fun p => p.1 == a)
  let toS (a : Nat) : Bool := t.kept.any fun p => p.1 == a && decide (p.2 = LState.s)
  let e := { e with sharers := e.sharers.filter fun a => !gone a,
                    group := if gone hostAgent then e.group.map (· % 4096) else e.group }
  match e.owner with
  | none => e
  | some x =>
    if gone x then { e with owner := none, ownedO := false }
    else if toS x then ({ e with owner := none, ownedO := false }).addSharer x
    else { e with ownedO := e.ownedO || t.kept.any fun p => p.1 == x && decide (p.2 = LState.o) }

/-- The data a transaction works on: the data an answer returned, else the line read. -/
def Txn.line (t : Txn) : List Byte × Bool :=
  match t.ans with
  | some (d, _, p) => (d, p)
  | none => t.mem.getD ([], false)

/-- Whether dirty data came with an answer. -/
def Txn.dirty (t : Txn) : Bool := match t.ans with | some (_, d, _) => d | none => false

/-- The dirty data of a transaction are written where no owner of them is left (R285). -/
def State.saveDirty (s : State) (k : Nat) (t : Txn) : State :=
  match t.ans with
  | some (d, true, p) => s.homeStore k t.stream d p
  | _ => s

/-- Grant a copy: to a core by a grant message, to the host by its data response. -/
def State.grant (s : State) (k agent : Nat) (st : LState) (d : List Byte × Bool) : State :=
  s.post (.gnt k agent st d.1 d.2)

/-- End an open transaction whose answers are all in (R284, R285). -/
def State.conclude (s : State) (k : Nat) (t : Txn) : State :=
  let e0 := (s.entry k).getD (.empty 0 0)
  let snooped := (if e0.owner.isSome then [e0.owner.getD 0] else []) ++ e0.sharersAll
  let s := { s with coh := { s.coh with txns := eraseK s.coh.txns k } }
  let s := s.dirStamp
  let used := s.coh.tick
  let s := t.crossed.foldl (fun s a => s.post (.cmpput k a)) s
  match t.req with
  | some r =>
    let me := r.agent.getD 127
    match r.kind with
    | .rds =>
      let e := t.entryAfter e0 (snooped.filter fun a => e0.owner == some a)
      let alone := e.none? && decide (me ≠ hostAgent)
      let s := if t.dirty ∧ e.owner.isNone then s.saveDirty k t else s
      let shared := keyHost k && decide (getK 0 s.coh.hostGrant k < 2)
      if alone ∧ ¬ shared then
        (s.setEntry k (some (e.owned me used))).grant k me .e t.line
      else (s.setEntry k (some { (e.addSharer me) with used := used })).grant k me .s t.line
    | .rdx | .upg =>
      let s := s.setEntry k (some (e0.owned me used))
      if t.upg ∨ (me = hostAgent ∧ r.keepS) then s.post (.gntma k me) else s.grant k me .m t.line
    | .rdcur =>
      let e := t.entryAfter e0 (snooped.filter fun a => e0.owner == some a)
      let s := if t.dirty ∧ e.owner.isNone then s.saveDirty k t else s
      let s := match s.entry k with | some _ => s.leaveEntry k { e with used := used } | none => s
      s.perform k r t.line.1 t.line.2
    | .wrfull _ _ | .wrpart _ _ _ | .atomf _ _ _ _ _ | .addm _ _ _ =>
      let s := s.setEntry k none
      let s := if keyHost k then
          (match r.kind with
            | .wrfull _ _ => s.post (.toHost k "ItoMWr")
            | .wrpart _ _ _ => s.post (.toHost k "WrCur")
            | _ => s.post (.toHost k "DirtyEvict")).setCoh fun c => { c with hostGrant := setK 0 c.hostGrant k 0 }
        else s
      let s := if t.line.2 && (match r.kind with | .atomf _ _ _ _ _ | .addm _ _ _ => true | _ => false) then s.saveDirty k t else s
      s.perform k r t.line.1 t.line.2
    | _ => s
  | none =>
    match t.why with
    | .hostSnp kind =>
      let e := t.entryAfter e0 (match kind with
        | .snpInv | .snpX => snooped
        | _ => snooped.filter fun a => e0.owner == some a)
      let takes := match kind with | .snpCur => e.none? | _ => true
      let s := match t.ans with
        | some (d, true, p) => if takes then s.putHostLine k d p else s
        | _ => s
      match kind with
      | .snpS =>
        let s := match e.owner with
          | some x => if x < 96 then
              (let l := s.line k x; if l.st = CState.o then s.setLine k x { l with st := .s } else s) else s
          | none => s
        let e := match e.owner with
          | some x => ({ e with owner := none, ownedO := false }).addSharer x
          | none => e
        let what := if e.none? then (if t.dirty then "RspIFwdM" else "RspIHitSE")
          else if t.dirty then "RspSFwdM" else "RspSHitSE"
        let s := (s.putEntry k { e with used := used }).post (.toHost k what)
        s.setCoh fun c => { c with hostGrant := setK 0 c.hostGrant k (if e.none? then 0 else 1) }
      | .snpCur =>
        let what := if e.none? then (if t.dirty then "RspIFwdM" else "RspIHitSE")
          else if t.dirty then "RspVFwdV" else "RspVHitV"
        let s := (s.putEntry k { e with used := used }).post (.toHost k what)
        if e.none? then s.setCoh fun c => { c with hostGrant := setK 0 c.hostGrant k 0 } else s
      | _ =>
        ((s.setEntry k none).post (.toHost k (if t.dirty then "RspIFwdM" else "RspIHitSE"))).setCoh fun c =>
          { c with hostGrant := setK 0 c.hostGrant k 0 }
    | .engine =>
      let e := t.entryAfter e0 (snooped.filter fun a => a == hostAgent)
      let s := s.saveDirty k t
      let s := match s.entry k with | some _ => s.leaveEntry k { e with used := used } | none => s
      s.setCoh fun c => { c with fresh := setK false c.fresh k (e.owner == some hostAgent) }
    | .dropped =>
      let e := t.entryAfter e0 (snooped.filter fun a => e0.owner == some a)
      let s := if t.dirty ∧ e.owner.isNone then s.saveDirty k t else s
      match s.entry k with | some _ => s.leaveEntry k { e with used := used } | none => s
    | _ =>
      let bad := match t.ans with | some (_, _, p) => p | none => false
      let s := s.saveDirty k t
      let s := (s.setEntry k none).giveBack k
      if t.why = .recover ∧ bad = true then s.poisonLine k stEcc 0 else s

/-- The lines of a set at which requests wait. -/
def State.setQueued (s : State) (n set : Nat) : List Nat :=
  (s.coh.lineq.map (·.1)).filter fun k => decide (dirSet (keyAddr k) = set) && decide (s.home k = n)

/-- The lines of a set whose requests may be taken when a way or a token changes hands: `served` when a token's transaction
has ended. -/
def State.setLines (s : State) (n set : Nat) (served : Bool) : List Nat :=
  (s.tokens n set).map (·.line) ++ if served || !(s.tokens n set).isEmpty then s.setQueued n set else []

/-- Whether a line's front request waits for a way. -/
def State.blocked (s : State) (k : Nat) : Bool :=
  s.coh.txns.any fun e => match e.2.forLine with | some (l, _) => l == k | none => false

/-- A transaction of a line has ended: its way goes to the request that waits for it, or may go to a token. The lines
whose requests may be taken now. -/
def State.afterTxn (s : State) (k : Nat) (t : Txn) (way : Nat) : State × List Nat :=
  let n := s.home k
  let set := dirSet (keyAddr k)
  match t.forLine with
  | some (l, r) =>
    let s := s.setCoh fun c => { c with lineq := setK [] c.lineq l ((getK [] c.lineq l).drop 1) }
    (s.takeWay l r way none, [k, l])
  | none =>
    let s := s.serveTokens n set
    (s, k :: s.setLines n set (match t.req with | some r => r.token.isSome | none => false))

/-- Start the read that the answers of a transaction made necessary, and whether everything it waits for is there, a write's turn
at its controller too (R317). -/
def State.ready (s : State) (k : Nat) (t : Txn) : State × Bool :=
  if !t.waiting.isEmpty || !t.puts.isEmpty || t.asked then (s, false)
  else
    let needs := match t.req with | some r => r.needsData t.upg | none => false
    if needs && t.ans.isNone && t.mem.isNone then
      if t.needMem then (s, false)
      else
        let s := s.startRead k t none
        (s, match s.txn k with | some t => t.mem.isSome | none => false)
    else (s, !match t.req with | some r => s.writeWaits k r | none => false)

/-- The request of a line that is taken next: the first, or one whose token's turn has come (R281, R297). -/
def State.nextOf (s : State) (k : Nat) : Option Req :=
  match s.queued k with
  | [] => none
  | r :: more => some (((r :: more).find? fun q => q.token.isSome && s.tokenTurn k q).getD r)

/-- Work through lines: end what is complete, and take the requests that wait for a line with no open transaction. -/
def State.pump (s : State) : Nat → List Nat → State
  | 0, _ => s
  | _, [] => s
  | f + 1, k :: rest =>
    match s.txn k with
    | some t =>
      let r := s.ready k t
      if r.2 then
        let t := (r.1.txn k).getD t
        let way := match r.1.entry k with | some e => e.way | none => 0
        let p := (r.1.conclude k t).afterTxn k t way
        p.1.pump f (p.2 ++ rest)
      else r.1.pump f rest
    | none =>
      if s.blocked k then s.pump f rest
      else if ¬ s.homeUp k then
        match s.entry k with
        | some e => (s.snoopAll k (Txn.of none .recall) (e.holders.map fun a => (a, .snpInv))).pump f (k :: rest)
        | none => s.pump f rest
      else
        match s.nextOf k with
        | none => s.pump f rest
        | some r =>
          let p := (s.setCoh fun c => { c with lineq := setK [] c.lineq k ((getK [] c.lineq k).erase r) }).begin k r
          match p.2 with
          | some r =>
            (p.1.setCoh fun c => { c with lineq := setK [] c.lineq k (r :: getK [] c.lineq k) }).pump f rest
          | none => p.1.pump f (k :: rest)

/-- Enough rounds for everything that waits at the homes. -/
def State.rounds (s : State) : Nat :=
  32 + 8 * (s.coh.txns.length + s.coh.lineq.foldl (fun n e => n + e.2.length + 1) 0)

/-- Go on with a line, and with whatever that lets go on. -/
def State.goOn (s : State) (k : Nat) : State :=
  s.pump s.rounds (k :: s.setLines (s.home k) (dirSet (keyAddr k)) false)

/-- Lines whose write may wait for its turn at a controller. -/
def State.heldWrites (s : State) : List Nat :=
  ((s.coh.txns.filter fun (e : Nat × Txn) => match e.2.req with | some r => r.isWrite | none => false).map (·.1))
    ++ ((s.coh.lineq.filter fun (e : Nat × List Req) => match e.2 with | r :: _ => r.isWrite | [] => false).map (·.1))

/-- Go on with the writes that wait for a turn, each in its turn. -/
def State.goOnHeld (s : State) : State :=
  s.heldWrites.foldl (fun s _ => s.pump s.rounds s.heldWrites) s

/-- A request arrives at its home (R281): it is taken, or it waits behind the line's open transaction and the requests
before it. A Put of an agent whose answer is awaited is its write-back (R285). -/
def State.arrive (s : State) (k : Nat) (r : Req) (err : Option Nat := none) : State :=
  let me := r.agent.getD 127
  match s.txn k with
  | some t =>
    if r.isPut && (t.waiting.contains me || t.puts.contains me) then
      let s := s.bump DIR_CROSS.COUNT 1 (s.home k)
      (s.setTxn k { t with puts := t.puts.filter (· != me), crossed := t.crossed ++ [me], ans := r.gives t.ans }).goOn k
    else s.setCoh fun c => { c with lineq := insK c.lineq k (getK [] c.lineq k ++ [r]) }
  | none =>
    if !(s.queued k).isEmpty then
      let wantsCopy := match r.kind with | .rds | .rdx | .upg => r.token.isNone | _ => false
      let set := dirSet (keyAddr k)
      let p := if wantsCopy && (s.entry k).isNone && !(s.tokens (s.home k) set).isEmpty then s.sendRetry k r
        else (s, some r)
      match p.2 with
      | some r => p.1.setCoh fun c => { c with lineq := insK c.lineq k (getK [] c.lineq k ++ [r]) }
      | none => p.1
    else
      let p := s.begin k r err
      match p.2 with
      | some r => p.1.setCoh fun c => { c with lineq := insK c.lineq k (r :: getK [] c.lineq k) }
      | none => p.1.goOn k

/-- A snoop answer arrives (R287): one that meets no transaction, or that nothing waits for, is dropped and recorded. -/
def State.answer (s : State) (k agent : Nat) (st : LState) (wb : Bool) (data : Option (List Byte × Bool × Bool)) :
    State :=
  let drop (s : State) : State := s.rasEvent stBadDescriptor 5 (s.home k) (keyAddr k * 64) .info
  match s.txn k with
  | none => drop s
  | some t =>
    if ¬ t.waiting.contains agent then drop s
    else
      let ans := match t.ans, data with
        | some (d, true, p), _ => some (d, true, p)
        | a, none => a
        | _, some x => some x
      let t := { t with
        waiting := t.waiting.filter (· != agent), ans := ans
        puts := if wb && !t.crossed.contains agent then t.puts ++ [agent] else t.puts
        kept := if st = .i ∨ wb ∨ t.crossed.contains agent then t.kept else t.kept ++ [(agent, st)] }
      (s.setTxn k t).goOn k

end Sys2Proof.Machine
end

