-- ==== Sys2Proof/Machine/Hpm.lean ====
section
/-! DEFINITION. Machine/Hpm.lean: the harts' performance counters (R242, R273). -/

namespace Sys2Proof.Machine

/-- Number of a performance counter of a hart. -/
def hpmKey (h n : Nat) : Nat := h * 64 + n

/-- Write a performance counter or event selector. -/
def State.setHpm (s : State) (h n v : Nat) : State :=
  { s with cores := { s.cores with hpm := setK 0 s.cores.hpm (hpmKey h n) (v % 2 ^ 64) } }

/-- Whether mcountinhibit, or the M-mode inhibit bit of its selector, keeps a counter from counting (Sscofpmf, R242): the
harts' instructions are M-mode ones. -/
def State.hpmHeld (s : State) (h n : Nat) : Bool :=
  bit (getK 0 s.cores.csrs (h * 4096 + 0x320)) n || (3 ≤ n && bit (getK 0 s.cores.hpm (hpmKey h (32 + n))) 62)

/-- A performance counter advances; one of mhpmcounter3 to 18 that passes 2^64 sets OF of its selector, and where that
was 0 the counter-overflow interrupt becomes pending (Sscofpmf, R242). -/
def State.hpmAdd (s : State) (h n k : Nat) : State :=
  let v := getK 0 s.cores.hpm (hpmKey h n) + k
  let e := getK 0 s.cores.hpm (hpmKey h (32 + n))
  if s.hpmHeld h n then s
  else
  let s := s.setHpm h n v
  if 2 ^ 64 ≤ v ∧ 3 ≤ n ∧ bit e 63 = false then
    let s := s.setHpm h (32 + n) (e + 2 ^ 63)
    let x := getK Core.held s.cores.core h
    { s with cores := { s.cores with core := setK Core.held s.cores.core h { x with mip := setBit x.mip 13 true } } }
  else s

/-- An event of R273 is counted by every counter that selects it. -/
def State.hpmEvent (s : State) (h ev : Nat) (k : Nat := 1) : State :=
  (List.range 16).foldl (fun s i =>
    if getK 0 s.cores.hpm (hpmKey h (35 + i)) % 2 ^ 58 = ev then s.hpmAdd h (3 + i) k else s) s

end Sys2Proof.Machine
end

