-- ==== Sys2Proof/Machine/Agent.lean ====
section
/-! DEFINITION. Machine/Agent.lean: what a core's L2 does with its lines (R288 to R290), the accesses it completes, and
the synchronous accesses of the engines that hold no copies (R274, R282, R292). -/

namespace Sys2Proof.Machine

/-! ## Cores -/

/-- An integer register: x0 reads as 0. -/
def State.xreg (s : State) (h r : Nat) : Nat := if r = 0 then 0 else getK 0 s.cores.xregs (h * 32 + r)

/-- Write an integer register: a write of x0 is discarded. -/
def State.setXreg (s : State) (h r v : Nat) : State :=
  if r = 0 then s
  else { s with cores := { s.cores with xregs := setK 0 s.cores.xregs (h * 32 + r) (v % 2 ^ 64) } }

/-- A hart takes a synchronous exception: its cause and mtval; the access is dropped (R253, R255). -/
def State.trap (s : State) (h cause tval : Nat) : State :=
  s.setCore h fun c => { c with mcause := cause, mtval := tval }

/-- A hart consumes poisoned data: an access fault of the access's type, and a RAS record (R255). -/
def State.consumePoison (s : State) (h cause addr : Nat) : State :=
  ((s.trap h cause addr).hpmEvent h 7).rasEvent stEcc 16 h addr .uncorr

/-- Raise a bit of a hart's mip. -/
def State.setMip (s : State) (h b : Nat) : State := s.setCore h fun c => { c with mip := setBit c.mip b true }

/-! ## Lines -/

/-- The line key of an HBM address. -/
def hbmKey (addr : Nat) : Nat := lineKey false (addr / 64)

/-- The line keys of an access. -/
def keysOf (addr n : Nat) : List Nat :=
  (List.range ((addr + n - 1) / 64 - addr / 64 + 1)).map fun i => lineKey false (addr / 64 + i)

/-- Whether a copy may be read, and whether it may be written (R276). -/
def CState.readable : CState → Bool
  | .s | .e | .o | .m => true
  | _ => false
def CState.writable : CState → Bool
  | .e | .m => true
  | _ => false
def CState.stable : CState → Bool
  | .i | .s | .e | .o | .m => true
  | _ => false

/-- Write bytes of a line's data. -/
def CLine.put (l : CLine) (off : Nat) (bytes : List Byte) : CLine :=
  { l with data := l.data.take off ++ bytes ++ l.data.drop (off + bytes.length) }

/-- Send a request of a core. -/
def State.request (s : State) (k h : Nat) (kind : ReqKind) (token : Option Nat := none) : State :=
  s.post (.req k ⟨kind, some h, h, token, false⟩)

/-- The lines of a core: key and line. -/
def State.linesOf (s : State) (h : Nat) : List (Nat × CLine) :=
  (s.coh.caches.filter fun e => e.1 % 128 == h).map fun (e : Nat × CLine) => (e.1 / 128, e.2)

/-- Whether the L2 has its 48 requests outstanding (R245): it sends no other until one completes. -/
def State.l2Full (s : State) (h : Nat) : Bool :=
  decide (48 ≤ ((s.linesOf h).filter fun e => !e.2.st.stable).length)

/-- A core that needs a readable copy asks for it (R290). -/
def State.needRead (s : State) (k h : Nat) (a : Option Access) : State :=
  let l := s.line k h
  if s.l2Full h then s
  else
    match l.st with
    | .i => ((s.setLine k h { l with st := .isD, miss := a }).request k h .rds).hpmEvent h 5
    | _ => s

/-- A core that needs a writable copy asks for it (R290). -/
def State.needWrite (s : State) (k h : Nat) (a : Option Access) : State :=
  let l := s.line k h
  if s.l2Full h then s
  else
    match l.st with
    | .i => ((s.setLine k h { l with st := .imD, miss := a }).request k h .rdx).hpmEvent h 5
    | .s => (s.setLine k h { l with st := .smA, miss := a }).request k h .upg
    | .o => (s.setLine k h { l with st := .omA, miss := a }).request k h .upg
    | _ => s

/-- A core gives up a line (R277, R290): the Put of its state. `discard` gives up a dirty exclusive copy as a clean one. -/
def State.giveUp (s : State) (k h : Nat) (discard : Bool := false) : State :=
  let l := s.line k h
  if s.l2Full h then s
  else
    match l.st with
    | .s => (s.setLine k h { l with st := .siA }).request k h .puts
    | .e => (s.setLine k h { l with st := .eiA }).request k h .pute
    | .o => (s.setLine k h { l with st := .oiA }).request k h (.putm l.data l.poison)
    | .m =>
      if discard then (s.setLine k h { l with st := .eiA }).request k h .pute
      else (s.setLine k h { l with st := .miA }).request k h (.putm l.data l.poison)
    | _ => s

/-- The lines that share an L2 set with a line (2 MiB, 16 ways of 64 bytes; R245) and hold data in it. -/
def State.l2Set (s : State) (k h : Nat) : List Nat :=
  ((s.linesOf h).filter fun e => e.1 != k && e.1 % 2048 == k % 2048
    && (e.2.st.stable || e.2.st == .smA || e.2.st == .omA || e.2.st == .imA)).map (·.1)

/-- A line comes into a set of the L2: where its 16 ways are taken, one of the lines that are in no transition is given up
(which one is a free value, log entry 177). -/
def State.l2Room (s : State) (k h : Nat) : State :=
  if (s.l2Set k h).length < 16 then s
  else
    let l := (s.l2Set k h).filter fun x => (s.line x h).st.stable
    match l[Sys2Proof.Config.l2Victim h (s.clock + s.coh.tick) % l.length]? with
    | some v => s.giveUp v h
    | none => s

/-! ## Snoops (R288) -/

/-- What a snooped agent answers: it holds the snoop, or its state after it with the flag WB, or with data and DIRTY. -/
inductive SnpAns where
  | hold
  | rsp (st : LState) (wb : Bool)
  | rspd (st : LState) (dirty : Bool)
  deriving DecidableEq, Repr

/-- The table of R288: the state after a snoop and the answer. -/
def snoopTable (st : CState) (k : SnpKind) : CState × SnpAns :=
  match st, k with
  | .i, _ => (.i, .rsp .i false)
  | .s, .snpS | .s, .snpCur => (.s, .rsp .s false)
  | .s, _ => (.i, .rsp .i false)
  | .e, .snpS => (.s, .rspd .s false)
  | .e, .snpX => (.i, .rspd .i false)
  | .e, .snpInv => (.i, .rsp .i false)
  | .e, .snpCur => (.e, .rspd .e false)
  | .o, .snpS | .o, .snpCur => (.o, .rspd .o true)
  | .o, _ => (.i, .rspd .i true)
  | .m, .snpS => (.o, .rspd .o true)
  | .m, .snpCur => (.m, .rspd .m true)
  | .m, _ => (.i, .rspd .i true)
  | .isD, _ => (.isD, .hold)
  | .imD, _ => (.imD, .hold)
  | .imA, _ => (.imA, .hold)
  | .smA, .snpS | .smA, .snpCur => (.smA, .rsp .s false)
  | .smA, _ => (.imA, .rsp .i false)
  | .omA, .snpS | .omA, .snpCur => (.omA, .rspd .o true)
  | .omA, _ => (.imA, .rspd .i true)
  | .miA, _ | .oiA, _ => (.iiA, .rsp .i true)
  | .eiA, _ | .siA, _ => (.iiA, .rsp .i false)
  | .iiA, _ => (.iiA, .rsp .i false)

/-- A line after its state changes: in I and II_A nothing of it is left but a miss in progress. -/
def CLine.after (l : CLine) (st : CState) : CLine :=
  match st with
  | .i => CLine.none
  | .iiA => { CLine.none with st := .iiA }
  | .imA => { l with st := st, data := [], poison := false }
  | _ => { l with st := st }

/-- The near AMOs of a core's last 1,000 cycles (R257). -/
def State.recentAmos (s : State) (h : Nat) : List (Nat × Nat) :=
  (s.core h).nearAmo.filter fun e => decide ((s.clock - e.2) * s.rd mcoreinfo.FREQ h ≤ 1000)

/-- A line leaves a core, or is no longer its alone: a reservation on it ends, and a near AMO of the last 1,000 core
cycles on it raises its counter (R257). -/
def State.lineTaken (s : State) (k h : Nat) : State :=
  let s := if (s.core h).resv = some k then s.setCore h fun c => { c with resv := none } else s
  if (s.recentAmos h).any fun e => e.1 == k then
    s.setCore h fun c => { c.predRise k with nearAmo := (s.recentAmos h).filter fun e => e.1 != k }
  else s

/-- A core answers a snoop from the state its line is in, or holds it (R288, R289). -/
def State.snooped (s : State) (k h : Nat) (kind : SnpKind) : State × SnpAns × CLine :=
  let l := s.line k h
  let r := snoopTable l.st kind
  match r.2 with
  | .hold => (s.setLine k h { l with held := some kind }, r.2, l)
  | _ =>
    let s := s.setLine k h (l.after r.1)
    let s := match kind with | .snpX | .snpInv => s.lineTaken k h | _ => s
    (s, r.2, l)

/-- A snoop reaches a core and its answer is sent. -/
def State.snoopCore (s : State) (k h : Nat) (kind : SnpKind) : State :=
  let r := s.snooped k h kind
  match r.2.1 with
  | .hold => r.1
  | .rsp st wb => r.1.post (.rsp k h st wb)
  | .rspd st dirty => r.1.post (.rspd k h st r.2.2.data dirty r.2.2.poison)

/-! ## Completing an access -/

/-- The value a load writes: sign- or zero-extended. -/
def loadValue (n : Nat) (signed : Bool) (bytes : List Byte) : Nat :=
  let v := leNat (bytes.take n)
  if signed then wrap (sext v (8 * n)) 64 else v

/-- The youngest buffered store to a byte (R252). -/
def bufByte (buf : List SbEnt) (addr : Nat) : Option Byte :=
  buf.foldl (fun r e =>
    match e.io with
    | some (a, bs) => if a ≤ addr ∧ addr < a + bs.length then bs[addr - a]? else r
    | none =>
      if e.line = addr / 64 then
        (match e.bytes.find? (·.1 = addr % 64) with | some p => some p.2 | none => r)
      else r) none

/-- A byte as a core reads it: its store buffer first, then its copy of the line. -/
def State.coreByte (s : State) (h addr : Nat) : Option Byte :=
  match bufByte (s.core h).buf addr with
  | some b => some b
  | none =>
    let l := s.line (hbmKey addr) h
    if l.st.readable then l.data[addr % 64]? else none

/-- Whether any byte of an access that the buffer does not supply comes from a poisoned line. -/
def State.coreBad (s : State) (h addr n : Nat) : Bool :=
  (List.range n).any fun i =>
    (bufByte (s.core h).buf (addr + i)).isNone && (s.line (hbmKey (addr + i)) h).poison

/-- Try a load of cacheable memory: it completes, or asks for the first line that is missing. -/
def State.tryLoad (s : State) (h rd addr n : Nat) (signed : Bool) (a : Access) : State :=
  let bytes := (List.range n).filterMap fun i => s.coreByte h (addr + i)
  if bytes.length = n then
    if s.coreBad h addr n then s.consumePoison h 5 addr
    else s.setXreg h rd (loadValue n signed bytes)
  else
    match (List.range n).find? fun i => (s.coreByte h (addr + i)).isNone with
    | some i => s.needRead (hbmKey (addr + i)) h (some a)
    | none => s

/-- Try a near atomic (R256): it needs the line writable. -/
def State.tryNear (s : State) (h addr : Nat) (a : Access) (f : State → Nat → CLine → State) : State :=
  let k := hbmKey addr
  let l := s.line k h
  if l.st.writable then f s k l else s.needWrite k h (some a)

/-- An AMO writes the old value: sign-extended, or to a register pair for 16 bytes (nothing for the pair of x0). -/
def State.amoReturns (s : State) (h rd n old : Nat) : State :=
  if n = 16 then
    if rd = 0 then s else (s.setXreg h rd (old % 2 ^ 64)).setXreg h (rd + 1) (old / 2 ^ 64)
  else s.setXreg h rd (loadValue n true (leBytes n old))

/-- A near AMO on a line held writable. AMOCAS.Q works on register pairs. -/
def State.nearAmo (s : State) (h : Nat) (op : AmoOp) (rd addr n rs cmp : Nat) (k : Nat) (l : CLine) : State :=
  if l.poison then s.consumePoison h 7 addr
  else
    let off := addr % 64
    let old := leNat ((l.data.drop off).take n)
    let l := { (l.put off (leBytes n (amoResult op (8 * n) old rs cmp))) with st := .m }
    let s := (s.setLine k h l).setCore h fun c => { (c.touchPred k) with
      nearAmo := (k, s.clock) :: (s.recentAmos h).filter fun e => e.1 != k }
    (s.hpmEvent h 1).amoReturns h rd n old

/-! ## The store buffer's head, and sleep (R251, R253, R269) -/

/-- A line's bytes with a buffered entry's over them. -/
def SbEnt.onto (e : SbEnt) (data : List Byte) : List Byte :=
  (List.range 64).map fun i => match e.bytes.find? (·.1 = i) with | some p => p.2 | none => data.getD i 0

/-- Whether an entry is written to the core's cache. -/
def SbEnt.cached (e : SbEnt) : Bool := e.io.isNone && !e.nc

/-- A core exits WAIT, RETAIN or OFF: LAST names the state left. From OFF it restarts at the reset vector with its
architectural state lost: the registers and CSRs, but LAST and FIRED (R268). -/
def State.exitSleep (s : State) (h : Nat) : State :=
  let c := s.core h
  if c.power = 3 then
    let fired := s.rd mwdog.FIRED h
    let freq := s.rd mcoreinfo.FREQ h
    let s := (((s.resetBlock .csr h 0x10000).wr mwdog.FIRED fired h).wr mcoreinfo.FREQ freq h).wr mcorepwr.LAST 2 h
    let s := { s with cores := { s.cores with
      xregs := dropRange s.cores.xregs (h * 32) (h * 32 + 32)
      hpm := dropRange s.cores.hpm (h * 64) (h * 64 + 64)
      csrs := dropRange s.cores.csrs (h * 4096) (h * 4096 + 4096)
      cmp := dropRange s.cores.cmp (h * 4 + 1) (h * 4 + 3) } }
    s.setCore h fun c => { Core.held with power := 0, vector := c.vector, mip := c.mip &&& 0x80 }
  else (s.wr mcorepwr.LAST (c.power - 1) h).setCore h fun c => { c with power := 0 }

/-- A WFI with DEEP 1 or 2 goes on once the store buffer is empty (R269): for OFF every line is given up; when nothing is
outstanding the state is entered, and left at once where an interrupt has become pending. -/
def State.settleSleep (s : State) (h : Nat) : State :=
  match (s.core h).going with
  | none => s
  | some d =>
    if ¬ (s.core h).buf.isEmpty then s
    else
      let s := if d = 2 then (s.linesOf h).foldl (fun (s : State) e => s.giveUp e.1 h) s else s
      let busy := (s.linesOf h).any fun e => d = 2 || !e.2.st.stable
      if busy then s
      else
        let due := (s.core h).wakeDue
        let s := s.setCore h fun c => { c with power := d + 1, going := none, wakeDue := false }
        if due then s.exitSleep h else s

/-- The store buffer may have emptied: a FENCE ends, a debug halt is reported, a sleep goes on. -/
def State.settleCore (s : State) (h : Nat) : State :=
  if (s.core h).buf.isEmpty then
    let c := s.core h
    let s := if c.fenced || c.debug == 1 then
        s.setCore h fun c => { c with fenced := false, debug := if c.debug = 1 then 2 else c.debug }
      else s
    s.settleSleep h
  else s

/-- The head leaves the store buffer. -/
def State.popStore (s : State) (h : Nat) : State :=
  (s.setCore h fun c => { c with buf := c.buf.drop 1 }).settleCore h

/-- The head of the buffer, a store to cacheable memory, is written once the core holds its line writable (R251). A store
leaves a poisoned line poisoned; CBO.ZERO clears it (R255). -/
def State.drainCached (s : State) (h : Nat) : State :=
  match (s.core h).buf with
  | [] => s
  | e :: _ =>
    let k := lineKey false e.line
    let l := s.line k h
    if e.cached && l.st.writable then
      (s.setLine k h { l with st := .m, data := e.onto l.data, poison := l.poison && !e.zero }).popStore h
    else s

/-- Try an access that waited for a line: it completes once, or asks for another line (R289). -/
def State.tryAccess (s : State) (h : Nat) (a : Access) : State :=
  match a with
  | .load rd addr n signed => s.tryLoad h rd addr n signed a
  | .store _ _ => s.drainCached h
  | .amo op rd addr n rs cmp => s.tryNear h addr a fun s k l => s.nearAmo h op rd addr n rs cmp k l
  | .lr rd addr n =>
    s.tryNear h addr a fun s k l =>
      if l.poison then s.consumePoison h 5 addr
      else
        (s.setXreg h rd (loadValue n true ((l.data.drop (addr % 64)).take n))).setCore h fun c => { c with resv := some k }
  | .sc rd addr n rs =>
    if (s.core h).resv ≠ some (hbmKey addr) then (s.setXreg h rd 1).setCore h fun c => { c with resv := none }
    else
      s.tryNear h addr a fun s k l =>
        let s := s.setLine k h { (l.put (addr % 64) (leBytes n rs)) with st := .m }
        (s.setXreg h rd 0).setCore h fun c => { c with resv := none }

/-- A grant reaches a core in a state that awaits it (R288, R289): the line is entered, the access that missed is
completed, and then the held snoop is answered. -/
def State.granted (s : State) (k h : Nat) (st : CState) (data : List Byte) (poison : Bool) : State :=
  let l := s.line k h
  let s := (s.setLine k h { CLine.none with st := st, data := data, poison := poison }).l2Room k h
  let s := match l.miss with | some a => s.tryAccess h a | none => s
  let s := match l.held with
    | some kind => s.snoopCore k h kind
    | none => s
  s.settleSleep h

/-! ## Engines (R274, R292) -/

/-- Whether a home's line can be accessed at once: no transaction is open and none waits, its hub is not in reset, and
no core awaits a grant of it. -/
def State.lineFree (s : State) (k : Nat) : Bool :=
  (s.txn k).isNone && (s.queued k).isEmpty && !s.blocked k && !s.rst.busy.contains (2, s.home k)
    && !s.rst.busy.contains (4, 0)
    && (match s.entry k with
      | some e => e.holders.all fun a =>
          a == hostAgent || (match (s.line k a).st with | .isD | .imD | .imA => false | _ => true)
      | none => true)

/-- Whether the host must be asked before an engine's access: it holds the line in A, or at all when it is written
(R284, R302). -/
def State.hostHolds (s : State) (k : Nat) (write : Bool) : Bool :=
  match s.entry k with
  | some e => (e.owner == some hostAgent && !(!write && getK false s.coh.fresh k))
      || (write && (e.sharers.contains hostAgent || e.inGroup hostAgent))
  | none => false

/-- Back-invalidate the host before an engine's access (R302). -/
def State.askHostCopy (s : State) (k : Nat) (write : Bool) : State :=
  s.snoopAll k (Txn.of none .engine) [(hostAgent, if write then .snpInv else .snpCur)]

/-- A Put in flight of a line and agent. -/
def State.putInFlight (s : State) (k h : Nat) : Option (Msg × Option (List Byte × Bool)) :=
  s.coh.net.findSome? fun m => match m with
    | .req k' r =>
      if k' = k ∧ r.agent = some h then
        (match r.kind with
          | .putm d p => some (m, some (d, p))
          | .puts | .pute => some (m, none)
          | _ => none)
      else none
    | _ => none

/-- Snoop a core for an engine's access, its answer taken at once; a Put that crosses it is its write-back (R285). The data it
gave, if any, with their dirty and poison marks. -/
def State.snoopNow (s : State) (k h : Nat) (kind : SnpKind) : State × Option (List Byte × Bool × Bool) :=
  let s := (s.bump DIR_SNOOPS.COUNT 1 (s.home k)).hpmEvent h 6
  let r := s.snooped k h kind
  match r.2.1 with
  | .hold => (r.1, none)
  | .rspd _ dirty => (r.1, some (r.2.2.data, dirty, r.2.2.poison))
  | .rsp _ _ =>
    match r.1.putInFlight k h with
    | some (m, d) =>
      (((r.1.take m).bump DIR_CROSS.COUNT 1 (s.home k)).post (.cmpput k h), d.map fun x => (x.1, true, x.2))
    | none => (r.1, none)

/-- RdCur of an engine: one snapshot of the line, from its owner or from memory (R282, R292). A Put taken as the
write-back leaves memory current. -/
def State.engineRead (s : State) (k stream part : Nat) : LineRead :=
  let s := (s.setCoh fun c => { c with fresh := setK false c.fresh k false }).touchFar k stream
  let mem (s : State) : LineRead :=
    let l := s.scLookup (keyAddr k) stream part none
    l.st.homeFetch (keyAddr k) stream part 0 l.way
  match s.entry k with
  | some e =>
    match e.owner with
    | some x =>
      if x = hostAgent then mem s
      else
        let r := s.snoopNow k x .snpCur
        let st := (r.1.line k x).st
        let gone := decide (st = CState.iiA) || decide (st = CState.i)
        let s := r.1
        match r.2 with
        | some (d, dirty, p) =>
          let s := if gone then
              (if dirty then s.homeStore k stream d p else s).leaveEntry k { e with owner := none, ownedO := false }
            else s
          ⟨s, d, p⟩
        | none => mem (if gone then s.leaveEntry k { e with owner := none, ownedO := false } else s)
    | none => mem s
  | none => mem s

/-- Invalidate every copy of a line for an engine's write, and the current bytes if a copy was dirty. -/
def State.engineInv (s : State) (k : Nat) (stream : Nat := 127) : State × Option (List Byte × Bool) :=
  let s := s.touchFar k stream
  match s.entry k with
  | none => (s, none)
  | some e =>
    let r := e.holders.foldl (fun (p : State × Option (List Byte × Bool)) a =>
      if a = hostAgent then p
      else
        let q := p.1.snoopNow k a .snpInv
        (q.1, match q.2 with | some (d, true, x) => some (d, x) | _ => p.2)) (s, none)
    (r.1.setEntry k none, r.2)

/-- WrFull or WrPart of an engine (R284): every copy is invalidated and the bytes merged at the home, where they are not
a whole line. -/
def State.engineMerge (s : State) (k stream part : Nat) (full : Bool) (f : List Byte → List Byte) : State :=
  let r := s.engineInv k stream
  if full then (r.1.scWrites (keyAddr k)).homeWrite (keyAddr k) stream part (f []) false
  else
    let old : LineRead := match r.2 with
      | some (d, p) => ⟨r.1, d, p⟩
      | none =>
        let l := r.1.scLookup (keyAddr k) stream part none
        l.st.homeFetch (keyAddr k) stream part 0 l.way
    old.st.homeWrite (keyAddr k) stream part (f old.data) old.poison

/-- Bytes of a line are written by an engine. -/
def State.engineWrite (s : State) (k stream part : Nat) (off : Nat) (bytes : List Byte) : State :=
  s.engineMerge k stream part (off == 0 && bytes.length == 64) fun d => d.take off ++ bytes ++ d.drop (off + bytes.length)

/-- A line comes into the add buffer of its controller for an AddM: every copy is recalled, and dirty data that a recall gave
stand for a read of HBM (R319). Whether the line is poisoned, so that nothing can be added (R402). -/
def State.addFetch (s : State) (k part : Nat) : State × Bool :=
  if s.shutOut (keyAddr k) 128 then (s.metaDrop (keyAddr k), false)
  else
    let r := s.engineInv k
    let s := match r.2 with
      | some (d, p) => r.1.putLine (keyAddr k) d p
      | none => r.1
    let b := s.bufferLine (keyAddr k) part r.2.isSome
    if b.poison then (b.st.setPoison (keyAddr k) true, true) else (b.st, false)

/-- Elements are added into a line that the add buffer holds (R180, R319). -/
def State.addInto (s : State) (k off efmt : Nat) (elems : List Byte) : State :=
  if s.shutOut (keyAddr k) 128 then s
  else
    let d := s.hbmLine (keyAddr k)
    let new := d.take off ++ addElems efmt 64 (d.drop off) elems ++ d.drop (off + elems.length)
    (s.bump HBM_ADD_OPS.COUNT 1 (s.home k)).putLine (keyAddr k) new false

/-- What an engine's access to a range of HBM lines meets first: whether every line can be accessed now; if one is held
by the host, the host is asked. -/
def State.prepare (s : State) (ks : List Nat) (write : Bool) : State × Bool :=
  if ks.any fun k => !s.lineFree k then (s, false)
  else
    let held := ks.filter fun k => s.hostHolds k write
    if held.isEmpty then (s, true)
    else (held.foldl (fun s k => s.askHostCopy k write) s, false)

/-- Whether the controllers serve an engine's access now (R317): the lines are on the hub, or its partition has its turn. -/
def State.creditFor (s : State) (ks : List Nat) (part : Nat) : Bool :=
  ks.all fun k => keyHost k || s.atHand (keyAddr k) || s.turn (keyAddr k) part

/-- Read a range of HBM through the homes of its lines. -/
def State.rangeRead (s : State) (addr n stream part : Nat) : LineRead :=
  if n = 0 then ⟨s, [], false⟩
  else
    let r := (keysOf addr n).foldl (fun (p : LineRead) k =>
      let l := p.st.engineRead k stream part
      ⟨l.st, p.data ++ l.data, p.poison || l.poison⟩) ⟨s, [], false⟩
    ⟨r.st, (r.data.drop (addr % 64)).take n, r.poison⟩

/-- Write bytes to a range of HBM through the homes of its lines, line by line. -/
def State.rangeWrite (s : State) (stream part addr : Nat) (bytes : List Byte) : State :=
  if bytes.isEmpty then s
  else
    (keysOf addr bytes.length).foldl (fun s k =>
      let base := keyAddr k * 64
      let lo := max addr base
      let hi := min (addr + bytes.length) (base + 64)
      s.engineWrite k stream part (lo - base) ((bytes.drop (lo - addr)).take (hi - lo))) s

end Sys2Proof.Machine
end

