-- ==== Sys2Proof/Machine/ConfigSpace.lean ====
section
/-! DEFINITION. Machine/ConfigSpace.lean: configuration space of the functions (R340 to R345, R349) and the CXL component
registers (R342, R343). The spec names the capabilities; their places and layouts are those of PCIe 6.0 and CXL 3.1
(PRESUMED, log entry 188). -/

namespace Sys2Proof.Machine

/-- A dword that a function's configuration space holds: what it reads at the defaults, and the bits that a write changes. -/
structure CfgDword where
  value : Nat
  writable : Nat
  deriving DecidableEq, Repr

/-- Header of an extended capability: its number, its version, and where the next lies. -/
def extCap (id ver next : Nat) : Nat := id + ver * 2 ^ 16 + next * 2 ^ 20

/-- What both kinds of function hold: power management, PCI Express, AER, ARI and ATS (R340, R344, R349). -/
def cfgCommon (reg : Nat) : Option CfgDword :=
  match reg with
  | 0x10 => some ⟨0x00036001, 0⟩
  | 0x11 => some ⟨0x8, 0x3⟩
  | 0x18 => some ⟨0x0002B010, 0⟩
  | 0x19 => some ⟨0x10008022, 0⟩
  | 0x1A => some ⟨0x2000, 0x71EF⟩
  | 0x1B => some ⟨0x106, 0⟩
  | 0x21 => some ⟨0x30800, 0⟩
  | 0x22 => some ⟨0, 0x1400⟩
  | 0x23 => some ⟨0x7E, 0⟩
  | 0x40 => some ⟨extCap 1 3 0x148, 0⟩
  | 0x41 | 0x44 => some ⟨0, 0⟩
  | 0x42 => some ⟨0, 0x07F7F030⟩
  | 0x43 => some ⟨0x00462030, 0x07F7F030⟩
  | 0x45 => some ⟨0x2000, 0xF1C1⟩
  | 0x46 => some ⟨0, 0x140⟩
  | 0x47 | 0x48 | 0x49 | 0x4A => some ⟨0, 0⟩
  | 0x52 => some ⟨extCap 0xE 1 0x150, 0⟩
  | 0x53 => some ⟨0, 0⟩
  | 0x54 => some ⟨extCap 0xD 1 0x158, 0⟩
  | 0x55 => some ⟨0, 0⟩
  | 0x80 => some ⟨extCap 0xF 1 0x210, 0⟩
  | 0x81 => some ⟨0x20, 0x801F0000⟩
  | _ => none

/-- What the physical function holds beside: LTR, SR-IOV, PASID, DOE, and the CXL DVSECs with the Register Locator, which points
at offset 0x1_0000 of the HOST_ block in BAR0 (R344, R345). -/
def cfgPf (reg : Nat) : Option CfgDword :=
  match reg with
  | 0x01 => some ⟨0x00100000, 0x546⟩
  | 0x03 => some ⟨0, 0xFF⟩
  | 0x04 => some ⟨4, 0⟩
  | 0x05 => some ⟨0, 0xFFFFFFFF⟩
  | 0x06 => some ⟨4, 0x80000000⟩
  | 0x07 => some ⟨0, 0xFFFFFFFF⟩
  | 0x08 | 0x09 => some ⟨0, 0⟩
  | 0x0D => some ⟨0x40, 0⟩
  | 0x0F => some ⟨0, 0xFF⟩
  | 0x2C => some ⟨0x07FF0011, 0xC0000000⟩
  | 0x56 => some ⟨extCap 0x18 1 0x180, 0⟩
  | 0x57 => some ⟨0, 0x1FFF1FFF⟩
  | 0x60 => some ⟨extCap 0x10 1 0x200, 0⟩
  | 0x61 => some ⟨0, 0⟩
  | 0x62 => some ⟨0, 0x19⟩
  | 0x63 => some ⟨0x00400040, 0⟩
  | 0x64 => some ⟨0, 0xFFFF⟩
  | 0x65 => some ⟨0x00010001, 0⟩
  | 0x66 => some ⟨0x0A410000, 0⟩
  | 0x67 => some ⟨0x553, 0⟩
  | 0x68 => some ⟨1, 0xFFFFFFFF⟩
  | 0x69 => some ⟨4, 0xFFFF0000⟩
  | 0x6A => some ⟨0, 0xFFFFFFFF⟩
  | 0x6B => some ⟨4, 0xFFFC0000⟩
  | 0x6C => some ⟨0, 0xFFFFFFFF⟩
  | 0x6D | 0x6E | 0x6F => some ⟨0, 0⟩
  | 0x84 => some ⟨extCap 0x1B 1 0x220, 0⟩
  | 0x85 => some ⟨0x1400, 0x10000⟩
  | 0x88 => some ⟨extCap 0x2E 1 0x240, 0⟩
  | 0x89 | 0x8B | 0x8C | 0x8D => some ⟨0, 0⟩
  | 0x8A => some ⟨0, 0x2⟩
  | 0x90 => some ⟨extCap 0x23 1 0x280, 0⟩
  | 0x91 => some ⟨0x1E98 + 3 * 2 ^ 16 + 0x38 * 2 ^ 20, 0⟩
  | 0x92 => some ⟨0x27 * 2 ^ 16, 0⟩
  | 0x93 => some ⟨2, 0x4005⟩
  | 0x94 => some ⟨0, 0⟩
  | 0x95 => some ⟨0xC002 * 2 ^ 16, 0⟩
  | 0xA0 => some ⟨extCap 0x23 1 0, 0⟩
  | 0xA1 => some ⟨0x1E98 + 0x14 * 2 ^ 20, 0⟩
  | 0xA2 => some ⟨8, 0⟩
  | 0xA3 => some ⟨0x0C010100, 0⟩
  | 0xA4 => some ⟨0, 0⟩
  | _ => cfgCommon reg

/-- What a virtual function holds: no BARs of its own, which SR-IOV gives it, and 64 vectors (R345, R358). -/
def cfgVf (reg : Nat) : Option CfgDword :=
  match reg with
  | 0x01 => some ⟨0x00100000, 0x4⟩
  | 0x03 => some ⟨0, 0⟩
  | 0x04 | 0x05 | 0x06 | 0x07 | 0x08 | 0x09 => some ⟨0, 0⟩
  | 0x0D => some ⟨0x40, 0⟩
  | 0x0F => some ⟨0, 0⟩
  | 0x2C => some ⟨0x003F0011, 0xC0000000⟩
  | _ => cfgCommon reg

/-- What a function's configuration space holds at a dword, where the model knows it. -/
def cfgKnown (f reg : Nat) : Option CfgDword := if f = 0 then cfgPf reg else cfgVf reg

/-- A dword of a function's configuration space as it stands: what was written, or its default. -/
def State.cfgAt (s : State) (f reg : Nat) : Nat :=
  getK (match cfgKnown f reg with | some d => d.value | none => Config.configDword f reg % 2 ^ 32) s.host.cfg
    (f * 1024 + reg)

/-- Put a dword into a function's configuration space. -/
def State.setCfg (s : State) (f reg v : Nat) : State :=
  { s with host := { s.host with cfg := insK s.host.cfg (f * 1024 + reg) v } }

/-- Whether a function is there: the physical function, and the virtual functions that VF Enable and NumVFs make (R344). -/
def State.funcHere (s : State) (f : Nat) : Bool :=
  f == 0 || (bit (s.cfgAt 0 0x62) 0 && decide (f ≤ s.cfgAt 0 0x64))

/-- Whether a function's ATS capability is enabled (R349). -/
def State.atsOn (s : State) (f : Nat) : Bool := bit (s.cfgAt f 0x81) 31

/-- A dword that a configuration read returns: the IDs and the class code (R344), the link's state, the range of HBM, the DOE
mailbox, and else what stands there. -/
def State.configRead (s : State) (f reg : Nat) : Nat :=
  let w := s.cfgAt f reg
  match reg, f with
  | 0, 0 => 0x0A40 * 2 ^ 16 + Config.pciVendor % 2 ^ 16
  | 0, _ => 0x0A41 * 2 ^ 16 + Config.pciVendor % 2 ^ 16
  | 2, _ => 0x120000 * 2 ^ 8 + bits w 0 8
  | 0x1C, _ => bits w 0 16 + (s.rd HOST_LINK.SPEED + s.rd HOST_LINK.WIDTH * 16) * 2 ^ 16
  | 0x8B, 0 => b2n s.host.doeBad * 4 + b2n !s.host.doeOut.isEmpty * 2 ^ 31
  | 0x8C, 0 => 0
  | 0x8D, 0 => s.host.doeOut.headD 0 % 2 ^ 32
  | 0x96, 0 => s.hbmEnd / 2 ^ 32
  | 0x97, 0 => bits s.hbmEnd 28 4 * 2 ^ 28 + 3
  | _, _ => w

/-- What a write leaves of a dword: errors are cleared by writing 1; a power state, a payload size or a read request size that the
part does not support, or a count of virtual functions beyond 64 or while they are enabled, leaves the field as it was. -/
def State.cfgWritten (s : State) (f reg v : Nat) : Nat :=
  let old := s.cfgAt f reg
  let keep (new lo len : Nat) (bad : Bool) : Nat :=
    if bad then (new - bits new lo len * 2 ^ lo) + bits old lo len * 2 ^ lo else new
  match cfgKnown f reg with
  | none => v
  | some d =>
    let new := (old - (old &&& d.writable)) + (v &&& d.writable)
    match reg with
    | 0x41 | 0x44 => old - (old &&& v)
    | 0x11 => keep new 0 2 (bits v 0 2 == 1 || bits v 0 2 == 2)
    | 0x1A => keep (keep new 5 3 (decide (2 < bits v 5 3))) 12 3 (decide (5 < bits v 12 3))
    | 0x64 => if bit (s.cfgAt 0 0x62) 0 ∨ 64 < v % 65536 then old else new
    | _ => new

/-! ## DOE (R340): discovery and CDAT -/

/-- The answer of the DOE mailbox to an object: the discovery of its two protocols, or a table entry of the CDAT, whose contents
the spec does not give (log entry 189). -/
def doeAnswer : List Nat → Option (List Nat)
  | [h, n, q] =>
    if n % 2 ^ 18 ≠ 3 then none
    else if h % 2 ^ 24 = 0x000001 then
      some [0x000001, 3, if q % 256 = 0 then 0x01000001 else if q % 256 = 1 then 0x00021E98 else 0xFFFF]
    else if h % 2 ^ 24 = 0x021E98 ∧ q % 2 ^ 16 = 0 then
      let e := Config.cdatEntry (q / 2 ^ 16)
      some ([0x021E98, e.2.length + 3, e.1 % 2 ^ 16 * 2 ^ 16] ++ e.2)
    else none
  | _ => none

/-- The DOE mailbox is written: abort, go, a dword of the object, or the next dword of the answer. -/
def State.doeWrite (s : State) (reg v : Nat) : State :=
  let put (inq outq : List Nat) (bad : Bool) : State :=
    { s with host := { s.host with doeIn := inq, doeOut := outq, doeBad := bad } }
  match reg with
  | 0x8A =>
    if bit v 0 then put [] [] false
    else if bit v 31 then
      match doeAnswer s.host.doeIn with
      | some a => put [] a s.host.doeBad
      | none => put [] s.host.doeOut true
    else s
  | 0x8C => put (s.host.doeIn ++ [v]) s.host.doeOut s.host.doeBad
  | 0x8D => put s.host.doeIn (s.host.doeOut.drop 1) s.host.doeBad
  | _ => s

/-! ## Messages (R358) -/

/-- The messages of a function that are pending are sent, once MSI-X is enabled and its function mask clear. -/
def State.msixUnmask (s : State) (f : Nat) : State :=
  let c := s.cfgAt f 0x2C
  if bit c 31 && !bit c 30 then
    let mine := s.irq.msix.filter fun e => e.1 == f
    { s with irq := { s.irq with msix := s.irq.msix.filter fun e => e.1 != f },
             out := s.out ++ mine.map fun e => .msix e.1 e.2 }
  else s

/-! ## The CXL component registers -/

/-- Offsets of the CXL.cachemem registers, of the RAS capability and of the HDM decoder capability (PRESUMED, log entry 21). -/
def cxlOff : Nat := 0x1000
def cxlRasOff : Nat := 0x1100
def hdmOff : Nat := 0x1200

/-- Whether an offset is the control of one of the two decoders (R342), and which. -/
def hdmControl (off : Nat) : Option Nat :=
  if off = hdmOff + 0x20 then some 0 else if off = hdmOff + 0x40 then some 1 else none

/-- The bits of a component register that a write changes: of the RAS capability its masks and severity, of the HDM decoders their
global control, base, size, skip and control, the low 28 bits of an address being 0 (R342). -/
def compWritable (off : Nat) : Nat :=
  if off = cxlRasOff + 4 ∨ off = cxlRasOff + 8 then 0x1CFFF
  else if off = cxlRasOff + 0x10 then 0x7F
  else if off = cxlRasOff + 0x14 then 0x2000
  else if off = hdmOff + 4 then 3
  else if hdmOff + 0x10 ≤ off ∧ off < hdmOff + 0x50 then
    match (off - hdmOff - 0x10) % 0x20 with
    | 0 | 8 | 0x14 => 0xF0000000
    | 4 | 0xC | 0x18 => 0xFFFFFFFF
    | 0x10 => 0x1300
    | _ => 0
  else 0

/-- What a component register reads before anything is written: the capabilities' headers, with two decoders of one way (R342). -/
def compDefault (off : Nat) : Nat :=
  if off = cxlOff then 0x02110001
  else if off = cxlOff + 4 then 0x10020002
  else if off = cxlOff + 8 then 0x20030005
  else if off = cxlRasOff + 4 ∨ off = cxlRasOff + 8 then 0x1CFFF
  else if off = cxlRasOff + 0x10 then 0x7F
  else if off = hdmOff then 1
  else 0

/-- A dword of the CXL component registers. -/
def State.comp (s : State) (off : Nat) : Nat := getK (compDefault off) s.host.comp off

/-- Put a dword into the component registers. -/
def State.setComp (s : State) (off v : Nat) : State :=
  { s with host := { s.host with comp := setK (compDefault off) s.host.comp off v } }

/-- Whether a decoder is committed, its size, and the device addresses it skips. -/
def State.decoderOn (s : State) (d : Nat) : Bool := bit (s.comp (hdmOff + 0x20 + 0x20 * d)) 10
def State.decoderSize (s : State) (d : Nat) : Nat :=
  s.comp (hdmOff + 0x18 + 0x20 * d) + s.comp (hdmOff + 0x1C + 0x20 * d) * 2 ^ 32
def State.decoderSkip (s : State) (d : Nat) : Nat :=
  s.comp (hdmOff + 0x24 + 0x20 * d) + s.comp (hdmOff + 0x28 + 0x20 * d) * 2 ^ 32

/-- First device physical address of a decoder's range. -/
def State.decoderBase (s : State) (d : Nat) : Nat :=
  if d = 0 then s.decoderSkip 0 else s.decoderSkip 0 + s.decoderSize 0 + s.decoderSkip 1

/-- Whether a decoder may be committed: its range is a multiple of 256 MiB, not empty, below P GiB (R342, R343), and decoder 0 is
committed before decoder 1. -/
def State.mayCommit (s : State) (d : Nat) : Bool :=
  decide (0 < s.decoderSize d) && decide (s.decoderBase d + s.decoderSize d ≤ s.hbmEnd) && (d == 0 || s.decoderOn 0)

/-- Whether a device physical address lies in a committed decoder's range and in HBM (R343). -/
def State.decoded (s : State) (a : Nat) : Bool :=
  let in_ (d : Nat) : Bool :=
    s.decoderOn d && decide (s.decoderBase d ≤ a) && decide (a < s.decoderBase d + s.decoderSize d)
  (in_ 0 || in_ 1) && decide (a < s.hbmEnd)

/-- A dword of the component registers is written: RAS status is cleared by writing 1; a decoder asked to commit, control bit 9, is
committed, bit 10, or shows the error, bit 11; the fields of a locked, committed decoder stand (PRESUMED, log entry 21). -/
def State.writeComp (s : State) (off v : Nat) : State :=
  let old := s.comp off
  let m := compWritable off
  let d := if off < hdmOff + 0x30 then 0 else 1
  if off = cxlRasOff ∨ off = cxlRasOff + 0xC then s.setComp off (old - (old &&& v))
  else if hdmOff + 0x10 ≤ off ∧ off < hdmOff + 0x50 ∧ s.decoderOn d ∧ bit (s.comp (hdmOff + 0x20 + 0x20 * d)) 8 then s
  else
    let new := (old - (old &&& m)) + (v &&& m)
    match hdmControl off with
    | none => s.setComp off new
    | some d =>
      let base := bits new 0 10 + b2n (bit new 12) * 2 ^ 12
      s.setComp off (if bit new 9 then base + (if s.mayCommit d then 2 ^ 10 else 2 ^ 11) else base)

/-! ## Link errors (R361) -/

/-- Errors of the link are reported through AER and the CXL RAS capability: corrected errors of the receiver and of the physical
layer. -/
def State.linkErrors (s : State) (n : Nat) : State :=
  if n = 0 then s
  else (s.setCfg 0 0x44 (setBit (s.cfgAt 0 0x44) 0 true)).setComp (cxlRasOff + 0xC) (setBit (s.comp (cxlRasOff + 0xC)) 6 true)

end Sys2Proof.Machine
end

