-- ==== Sys2Proof/Machine/Rings.lean ====
section
/-! DEFINITION. Machine/Rings.lean: host memory as the part reaches it (R348 to R350), and what every kind of ring work
shares: completion records, their messages, errors and draining (R351 to R360). -/

namespace Sys2Proof.Machine

/-! ## Host memory -/

/-- Whether an entry of the address translation cache holds a page for a function and PASID (R349). -/
def AtcEnt.holds (e : AtcEnt) (func pasid page : Nat) : Bool :=
  e.func == func && e.pasid == pasid && decide (e.page ≤ page) && decide (page < e.page + 2 ^ e.order)

/-- A page is translated: where no entry holds it, the translation that the host gives, of 4 KiB to 1 GiB, enters the cache of
4,096 entries, the oldest leaving (R349). -/
def State.pageIn (s : State) (func pasid page : Nat) : State :=
  if s.host.atc.any fun e => e.holds func pasid page then s
  else
    let o := Config.atsOrder func pasid page % 19
    { s with host := { s.host with
      atc := (if 4096 ≤ s.host.atc.length then s.host.atc.drop 1 else s.host.atc)
        ++ [⟨func, pasid, page / 2 ^ o * 2 ^ o, o⟩] } }

/-- The host addresses of an access of n bytes are translated, page by page, where the function's ATS capability is enabled. -/
def State.translated (s : State) (func pasid addr n : Nat) : State :=
  if s.atsOn func ∧ 0 < n then
    (List.range ((addr + n - 1) / 4096 + 1 - addr / 4096)).foldl (fun s i => s.pageIn func pasid (addr / 4096 + i)) s
  else s

/-- A request to host memory that the host does not grant is recorded (R350). -/
def State.hostRefuses (s : State) (func pasid addr : Nat) : State :=
  let s := ((s.wr HOST_ATS_ERR.STATUS stBadDescriptor).wr HOST_ATS_ERR.FUNC func).wr HOST_ATS_ERR.PASID pasid
  ((s.wr HOST_ATS_ERR.VALID 1).wr HOST_ATS_ADDR.PAGE (addr / 4096)).raise HOST_INT_STATUS.ATS_ERR

/-- Bytes of host memory arrive (R367). -/
def State.hostRead (s : State) (func pasid addr n : Nat) : State × List Byte :=
  ((s.translated func pasid addr n).bump HOST_BYTES_IN.BYTES n, memRead s.hostMem addr n)

/-- Bytes are written to host memory. -/
def State.hostWrite (s : State) (func pasid addr : Nat) (bytes : List Byte) : State :=
  let s := (s.translated func pasid addr bytes.length).bump HOST_BYTES_OUT.BYTES bytes.length
  { s with hostMem := memWrite s.hostMem addr bytes }

/-! ## Rings -/

/-- What a ring holds beside its registers. -/
def State.ring (s : State) (r : Nat) : Ring := getK Ring.idle s.host.rings r

/-- Change what a ring holds. -/
def State.setRing (s : State) (r : Nat) (f : Ring → Ring) : State :=
  { s with host := { s.host with rings := setK Ring.idle s.host.rings r (f (s.ring r)) } }

/-- A quadword of a list of bytes. -/
def quad (bs : List Byte) (i : Nat) : Nat := leNat ((bs.drop (8 * i)).take 8)

/-- The partition of a ring's accesses to HBM: its function's (R316). -/
def State.ringPart (s : State) (r : Nat) : Nat := getK 0 s.mem.pmap (96 + s.rd RING_CFG.FUNC r)

/-- A ring becomes DISABLED, with head, tail and phase reset (R360). -/
def State.ringDisabled (s : State) (r : Nat) : State :=
  let s := ((s.wr RING_STATUS.STATE 0 r).wr RING_HEAD.HEAD 0 r).wr RING_HEAD.TAIL 0 r
  let s := ((s.wr RING_CQ.TAIL 0 r).wr RING_CQ.PHASE 1 r).wr RING_CQ.HEAD 0 r
  (s.wr RING_SLOTS.USED (s.rd RING_SLOTS.USED - s.rd RING_SIZE.ENTRIES r)).raise RING_INT_STATUS.DRAINED

/-- A draining ring whose descriptors have all completed becomes DISABLED. -/
def State.ringSettle (s : State) (r : Nat) : State :=
  if s.rd RING_STATUS.STATE r = 2 ∧ (s.ring r).inflight = [] then s.ringDisabled r else s

/-- A ring's message is sent. -/
def State.ringMsix (s : State) (r : Nat) : State :=
  s.msix (s.rd RING_CFG.FUNC r) (s.rd RING_IRQ.VECTOR r)

/-- A completion is due for the ring's message (R358): at once without a holdoff, else when the holdoff of the first due
completion ends. -/
def State.ringDue (s : State) (r : Nat) : State :=
  if ¬ s.on RING_IRQ.EN r then s
  else if s.rd RING_IRQ.HOLDOFF_US r = 0 then s.ringMsix r
  else s.setRing r fun x => { x with due := some (x.due.getD s.us) }

/-- The bytes of a completion record (R357). -/
def State.recordBytes (s : State) (c : RingRec) : List Byte :=
  leBytes 8 (c.status + c.cls * 2 ^ 8 + s.rd RING_CQ.PHASE c.ring * 2 ^ 12 + b2n c.skipped * 2 ^ 13 + c.slot * 2 ^ 16)
    ++ leBytes 8 c.tag ++ leBytes 8 c.q2 ++ leBytes 8 c.q3

/-- Where the next completion record of a ring goes. -/
def State.recordAddr (s : State) (r : Nat) : Nat := s.rd RING_CQ_BASE.BASE r * 4096 + 32 * s.rd RING_CQ.TAIL r

/-- The PASID of a ring's own accesses. -/
def State.ringPasid (s : State) (r : Nat) : Nat := if s.on RING_CFG.PV r then s.rd RING_CFG.PASID r else 0

/-- The completion slot advances; the phase flips as the completion ring wraps. -/
def State.recordNext (s : State) (r : Nat) : State :=
  if s.rd RING_CQ.TAIL r + 1 = s.rd RING_SIZE.ENTRIES r then
    (s.wr RING_CQ.TAIL 0 r).wr RING_CQ.PHASE (1 - s.rd RING_CQ.PHASE r) r
  else s.wr RING_CQ.TAIL (s.rd RING_CQ.TAIL r + 1) r

/-- A descriptor has completed and its record, if any, is written. -/
def State.recordDone (s : State) (c : RingRec) : State :=
  let s := s.setRing c.ring fun x => { x with inflight := x.inflight.filter fun d => d.slot != c.slot }
  let s := s.wr RING_STATUS.INFLIGHT (s.ring c.ring).inflight.length c.ring
  let s := (s.bump RING_DONE.COUNT 1 c.ring).ringSettle c.ring
  if c.irq then s.ringDue c.ring else s

/-- Write a completion record; false while a line of a PHYS ring is busy at its home or waits for its turn at the controller. -/
def State.writeRecord (s : State) (c : RingRec) : State × Bool :=
  if ¬ c.write then (s.recordDone c, true)
  else
    let a := s.recordAddr c.ring
    let bytes := s.recordBytes c
    if s.on RING_CFG.SPACE c.ring then
      let p := s.prepare (keysOf a 32) true
      if p.2 && s.creditFor (keysOf a 32) (s.ringPart c.ring) then (((p.1.rangeWrite 96 (s.ringPart c.ring) a bytes).recordNext c.ring).recordDone c, true)
      else (p.1, false)
    else (((s.hostWrite (s.rd RING_CFG.FUNC c.ring) (s.ringPasid c.ring) a bytes).recordNext c.ring).recordDone c, true)

/-- Write the completion records that wait, each ring's in order (R357): those of a ring behind one that has to wait go on
waiting. -/
def State.flushRecords (s : State) (held : List RingRec) : List RingRec → State
  | [] => { s with host := { s.host with compq := held } }
  | c :: rest =>
    if held.any fun x => x.ring == c.ring then s.flushRecords (held ++ [c]) rest
    else
      let w := s.writeRecord c
      w.1.flushRecords (if w.2 then held else held ++ [c]) rest

/-- The descriptor of a ring slot, if it is in flight. -/
def State.ringDesc (s : State) (r slot : Nat) : Option RingDesc := (s.ring r).inflight.find? (·.slot = slot)

/-- Write what waits. -/
def State.flushAll (s : State) : State := if s.host.compq.isEmpty then s else s.flushRecords [] s.host.compq

/-- A descriptor completes (R357): its record is written once its turn comes; QUIET writes one only for a status other
than OK, but a discarded descriptor always gets one (R360; DEDUCED, log entry 38). -/
def State.complete (s : State) (r slot status q2 q3 : Nat) (skipped : Bool := false) : State :=
  match s.ringDesc r slot with
  | none => s
  | some d =>
    let q0 := quad d.bytes 0
    let c : RingRec := ⟨r, slot, status, bits q0 0 4, skipped, quad d.bytes 1, q2, q3, bit q0 5,
      skipped || !(bit q0 6 && status == stOK)⟩
    ({ s with host := { s.host with compq := s.host.compq ++ [c] } }).flushAll

/-- A ring enters ERROR (R359). -/
def State.ringError (s : State) (r status slot : Nat) : State :=
  let s := ((s.wr RING_STATUS.STATE 3 r).wr RING_STATUS.ERR status r).wr RING_STATUS.ERR_INDEX slot r
  (((s.wr RING_ERR_LAST.RING r).wr RING_ERR_LAST.STATUS status).wr RING_ERR_LAST.VALID 1).raise RING_INT_STATUS.ERR

/-- A ring is put back to its reset values: on a loss of the host or an FLR of its function (R363, R365). No completion
record is written any more. -/
def State.ringReset (s : State) (r : Nat) : State :=
  let used := if s.rd RING_STATUS.STATE r = 0 then 0 else s.rd RING_SIZE.ENTRIES r
  let s := s.wr RING_SLOTS.USED (s.rd RING_SLOTS.USED - used)
  let s := { s with host := { s.host with compq := s.host.compq.filter fun c => c.ring != r } }
  (s.setRing r fun _ => Ring.idle).resetBlock .ring r 0x100

end Sys2Proof.Machine
end

