-- ==== Sys2Proof/Machine/Spad.lean ====
section
/-! DEFINITION. Machine/Spad.lean: scratchpads: bank power and wakes (R68 to R72), SEC-DED words (R491), reads and
writes by every requester (R58, R62, R63), and how a cluster faults and a slot halts (R162, R164, R168). -/

namespace Sys2Proof.Machine

/-! ## Grants (R150 to R153) -/

/-- The continuous grant (R150). -/
def gCont : Nat := 2 ^ 48 - 1

/-- Whether a grant leaves a pass to a cluster that has begun `n` (R151): a continuous one always does. -/
def grantLeft (g n : Nat) : Bool := g == gCont || decide (n < g)

/-- Recompute EXEC of a slot between IDLE and ACTIVE (R153), DLN_STARTED and DLN_DONE; on entry to IDLE the IDLE bit is
raised. -/
def State.execUpdate (s : State) (k : Nat) : State :=
  let cl := s.owned k
  let s := s.wr DLN_STARTED.BEGUN (cl.foldl (fun m c => max m (s.clu c).begun) 0) k
  let s := s.wr DLN_DONE.DONE (min (2 ^ 48 - 1) (match cl with
    | [] => 0
    | c :: r => r.foldl (fun m c => min m (s.clu c).done) (s.clu c).done)) k
  let g := s.rd DLN_GRANT.G k
  let old := s.rd DLN_SLOT_EXEC.EXEC k
  if 2 ≤ old then s
  else
    let isIdle := cl.all fun c => s.cluSt c == cStopped && !grantLeft g (s.clu c).begun
    if isIdle then
      if old = 1 then (s.wr DLN_SLOT_EXEC.EXEC 0 k).raise DLN_INT_STATUS.IDLE k else s
    else s.wr DLN_SLOT_EXEC.EXEC 1 k

/-- EXEC of a cluster's slot follows a change of the cluster's state (R153). -/
def State.execFollow (s : State) (c : Nat) : State :=
  match (s.clu c).owner with
  | some k => s.execUpdate k
  | none => s

/-! ## Bank arbitration (R53, R60, R61) -/

/-- Priority of a bank's requester (R61): lower is served first. -/
def bankPrio : BankUser → Nat
  | .feeder => 1
  | .drain => 1
  | .vector => 2
  | .mover _ => 3
  | .scrub => 4
  | .window => 5

/-- Whether a request has waited 4 bank cycles and goes first (R61). -/
def overdue (r : BankReq) : Bool :=
  match r.user with
  | .mover _ => decide (4 ≤ r.waited)
  | .scrub => decide (4 ≤ r.waited)
  | _ => false

/-- Whose turn a bank keeps: the mover, and the feeder (0) or drain port (1), that it served last. At rest mover 0 and the
feeder are next (DESIGN CHOICE, log entry 164). -/
def Clu.lastMover (x : Clu) (bank : Nat) : Nat := getK 1 x.turns (2 * bank)
def Clu.lastPort (x : Clu) (bank : Nat) : Nat := getK 1 x.turns (2 * bank + 1)

/-- Rank of a request at a bank: overdue movers and scrub first, then by priority; of the two movers, and of feeder and drain
port, the one that the bank has not served last. -/
def Clu.bankRank (x : Clu) (bank : Nat) (r : BankReq) : Nat :=
  if overdue r then 0
  else match r.user with
    | .mover m => 2 * bankPrio r.user + b2n (m.val == x.lastMover bank)
    | .feeder => 2 * bankPrio r.user + b2n (0 == x.lastPort bank)
    | .drain => 2 * bankPrio r.user + b2n (1 == x.lastPort bank)
    | u => 2 * bankPrio u

/-- The request a bank serves next: the first of the lowest rank. -/
def Clu.pickReq (x : Clu) (bank : Nat) : List BankReq → Option (BankReq × List BankReq)
  | [] => none
  | r :: rest =>
    match x.pickReq bank rest with
    | none => some (r, [])
    | some (q, others) => if x.bankRank bank q < x.bankRank bank r then some (q, r :: others) else some (r, rest)

/-- A bank has served a requester: the turns follow. -/
def Clu.served (x : Clu) (bank : Nat) : BankUser → Clu
  | .mover m => { x with turns := setK 1 x.turns (2 * bank) m }
  | .feeder => { x with turns := setK 1 x.turns (2 * bank + 1) 0 }
  | .drain => { x with turns := setK 1 x.turns (2 * bank + 1) 1 }
  | _ => x

/-- Whether a bank would serve a requester ahead of every request that waits there. -/
def State.bankFree (s : State) (c : Nat) (u : BankUser) (bank : Nat) : Bool :=
  let x := s.clu c
  (getK [] x.bankq bank).all fun r => decide (x.bankRank bank ⟨u, 0, 0, none, 0⟩ < x.bankRank bank r)

/-- A requester has taken an access of each of some banks. -/
def State.tookBanks (s : State) (c : Nat) (u : BankUser) (banks : List Nat) : State :=
  s.setClu c fun x => banks.foldl (fun x b => x.served b u) x

/-! ## Bank power -/

/-- The power field of a bank: 0 ON, 1 RETAIN, 2 OFF. -/
def State.bankPwr (s : State) (c b : Nat) : Nat :=
  if b < 24 then s.rd CLU_BANK_PWR_WM.PWR c 0 b else s.rd CLU_BANK_PWR_AP.PWR c 0 (b - 24)

/-- Write the power field of a bank. -/
def State.setBankPwr (s : State) (c b v : Nat) : State :=
  if b < 24 then s.wr CLU_BANK_PWR_WM.PWR v c 0 b else s.wr CLU_BANK_PWR_AP.PWR v c 0 (b - 24)

/-- Whether a bank's gate is pending (R70). -/
def State.gatePending (s : State) (c b : Nat) : Bool := bit (s.rd CLU_GATE_PENDING.PENDING c) b

/-- Set or clear a GATE_PENDING bit. -/
def State.setGatePending (s : State) (c b : Nat) (v : Bool) : State :=
  s.wr CLU_GATE_PENDING.PENDING (setBit (s.rd CLU_GATE_PENDING.PENDING c) b v) c

/-- Whether a bank is gated: in RETAIN or OFF with its gate closed. -/
def State.gated (s : State) (c b : Nat) : Bool := s.bankPwr c b != 0 && !s.gatePending c b

/-- Key of a scratchpad byte: 4 MiB a cluster, as the windows lie (R58, R65). -/
def spadKey (c off : Nat) : Nat := c * 0x400000 + off

/-- Key of a scratchpad word's error pattern. -/
def wordKey (c off : Nat) : Nat := c * 0x80000 + off / 8

/-- A bank's contents become zero with valid check bits (R68). -/
def State.zeroBank (s : State) (c b : Nat) : State :=
  { s with spad := memErase s.spad (spadKey c (b * 65536)) (spadKey c ((b + 1) * 65536))
           spadErr := dropRange s.spadErr (wordKey c (b * 65536)) (wordKey c ((b + 1) * 65536)) }

/-- Every bank of a cluster becomes zero. -/
def State.zeroSpad (s : State) (c : Nat) : State :=
  { s with spad := memErase s.spad (spadKey c 0) (spadKey (c + 1) 0)
           spadErr := dropRange s.spadErr (wordKey c 0) (wordKey (c + 1) 0) }

/-- Every bank ON, no gate pending. -/
def State.allBanksOn (s : State) (c : Nat) : State :=
  (List.range 48).foldl (fun s b => s.setBankPwr c b 0) (s.wr CLU_GATE_PENDING.PENDING 0 c)

/-- Whether a cluster is on its way to OFF (R72). -/
def State.goingOff (s : State) (c : Nat) : Bool := s.cluSt c == cStopped && s.on CLU_POWER.OFF_REQ c

/-- A pending power-off is cancelled (R72): OFF_REQ clears and every bank is brought back to ON, uncounted. -/
def State.cancelOff (s : State) (c : Nat) : State :=
  if s.goingOff c then (s.wr CLU_POWER.OFF_REQ 0 c).allBanksOn c else s

/-- The cells of a cluster at rest with both caldera sets +0 (R73). -/
def State.restCells (s : State) (c : Nat) : State :=
  { s with cells := dropRange s.cells (c * 640) ((c + 1) * 640) }

/-- The cluster enters OFF: contents and calderas are lost (R68, R72). -/
def State.enterOff (s : State) (c : Nat) : State :=
  (((s.wr CLU_STATUS.STATE cOff c).zeroSpad c).restCells c).execFollow c

/-- The location word of a scratchpad bank, row and word, in the layout of CLU_FAULT (R439). -/
def spadLoc (off : Nat) : Nat := off / 65536 * 2 ^ 18 + off / 64 % 1024 * 2 ^ 24 + off / 8 % 8 * 2 ^ 34

/-- Counters and records of a bank woken by an access (R71). -/
def State.countWake (s : State) (c b : Nat) : State :=
  ((s.bump CLU_WAKE_COUNT.BANK_WAKES 1 c).raise CLU_INT_STATUS.BANK_WAKE c).rasEvent stBankWake 0 c
    (spadLoc (b * 65536)) .info

/-- The OFF cluster wakes to STOPPED with every bank ON and zero (R72). -/
def State.wakeCluster (s : State) (c : Nat) : State :=
  let s := ((s.wr CLU_STATUS.STATE cStopped c).wr CLU_POWER.OFF_REQ 0 c).allBanksOn c
  ((s.bump CLU_WAKE_COUNT.CLUSTER_WAKES 1 c).raise CLU_INT_STATUS.CLUSTER_WAKE c).execFollow c

/-- A bank in RETAIN or OFF is woken to ON by an access and counted; one gated on the way to OFF cancels the
power-off (R71, R72). -/
def State.wakeBank (s : State) (c b : Nat) : State :=
  if s.gated c b then ((s.setBankPwr c b 0).cancelOff c).countWake c b else s

/-- An access reaches a bank: an OFF cluster wakes, a gated bank wakes (R71, R72). An access that wakes the cluster is
counted by R71 too (DEDUCED, log entry 7). -/
def State.touchBank (s : State) (c b : Nat) : State :=
  if s.cluSt c = cOff then (s.wakeCluster c).countWake c b else s.wakeBank c b

/-- An access reaches every bank of a range of offsets. -/
def State.touch (s : State) (c off n : Nat) : State :=
  (List.range ((off + n - 1) / 65536 - off / 65536 + 1)).foldl (fun s k => s.touchBank c (off / 65536 + k)) s

/-! ## SEC-DED words (R491) -/

/-- The data-bit columns: the eight-bit values of weight 3 in ascending order, then the eight smallest of weight 5. -/
def dataColumns : List Nat :=
  ((List.range 256).filter fun x => popBits x 8 == 3)
    ++ [0x1F, 0x2F, 0x37, 0x3B, 0x3D, 0x3E, 0x4F, 0x57]

/-- The column of bit `i` of a word: data bits 0 to 63, check bits 64 to 71. -/
def eccColumn (i : Nat) : Nat := if i < 64 then dataColumns.getD i 0 else 2 ^ (i - 64)

/-- The syndrome of a read whose stored bits differ from a valid word by a pattern. -/
def syndrome (flips : Nat) : Nat :=
  (List.range 72).foldl (fun s i => if bit flips i then s ^^^ eccColumn i else s) 0

/-- The bit whose column is a syndrome, if any. -/
def columnBit (syn : Nat) : Option Nat := (List.range 72).find? fun i => eccColumn i == syn

/-- What a read of a word finds: its 64 data bits as delivered, whether it was corrected and by which syndrome, and
whether it is uncorrectable. -/
structure WordRead where
  data : Nat
  corrected : Option Nat
  bad : Bool
  deriving DecidableEq, Repr

/-- A read of a stored word by R491. -/
def readWord (data flips : Nat) : WordRead :=
  if flips = 0 then ⟨data, none, false⟩
  else
    let raw := data ^^^ (flips % 2 ^ 64)
    let syn := syndrome flips
    if syn = 0 then ⟨raw, none, false⟩
    else match columnBit syn with
      | some i => ⟨if i < 64 then raw ^^^ 2 ^ i else raw, some syn, false⟩
      | none => ⟨raw, none, true⟩

/-- A word of a cluster's scratchpad as a read finds it. -/
def State.word (s : State) (c off : Nat) : WordRead :=
  readWord (leNat (memRead s.spad (spadKey c (off / 8 * 8)) 8)) (getK 0 s.spadErr (wordKey c off)).toNat

/-- Count and record a corrected word, and queue its row for a write-back (R62). -/
def State.countCorrected (s : State) (c off syn : Nat) : State :=
  let s := s.bump CLU_ECC_CORR.COUNT 1 c
  let s := ((((s.wr CLU_ECC_LAST.BANK (off / 65536) c).wr CLU_ECC_LAST.ROW (off / 64 % 1024) c).wr CLU_ECC_LAST.WORD
    (off / 8 % 8) c).wr CLU_ECC_LAST.SYNDROME syn c).wr CLU_ECC_LAST.VALID 1 c
  let th := s.rd CLU_ECC_THRESH.THRESH c
  let s := if th ≠ 0 ∧ s.rd CLU_ECC_CORR.COUNT c = th then s.raise CLU_INT_STATUS.ECC_THRESH c else s
  let row := (off / 65536, off / 64 % 1024)
  s.setClu c fun x => if row ∈ x.fixq then x else { x with fixq := x.fixq ++ [row] }

/-- What a scratchpad read gives: the state after it, the bytes, and the offset of the first uncorrectable word. -/
structure SpadRead where
  st : State
  data : List Byte
  bad : Option Nat

/-- Read the words of a range, correcting and recording (R62), stopping at an uncorrectable one. -/
def State.readWords (s : State) (c : Nat) : List Nat → SpadRead
  | [] => ⟨s, [], none⟩
  | off :: rest =>
    let w := s.word c off
    if w.bad then ⟨s, [], some off⟩
    else
      let s := match w.corrected with | some syn => s.countCorrected c off syn | none => s
      let r := s.readWords c rest
      ⟨r.st, leBytes 8 w.data ++ r.data, r.bad⟩

/-- The offsets of the words of a range. -/
def wordsOf (off n : Nat) : List Nat :=
  (List.range ((off + n + 7) / 8 - off / 8)).map fun k => (off / 8 + k) * 8

/-- Read `n` bytes of a cluster's scratchpad (R58, R62, R71). -/
def State.spadRead (s : State) (c off n : Nat) : SpadRead :=
  if n = 0 then ⟨s, [], none⟩
  else
    let s := s.touch c off n
    let r := s.readWords c (wordsOf off n)
    ⟨r.st, (r.data.drop (off % 8)).take n, r.bad⟩

/-- Bytes written over part of a word's bytes. -/
def overlay (old : List Byte) (off : Nat) (new : List Byte) : List Byte :=
  old.take off ++ new ++ old.drop (off + new.length)

/-- Store bytes over a range whose partial words have already been read. -/
def State.putBytes (s : State) (c off : Nat) (bytes : List Byte) : State :=
  let n := bytes.length
  { s with spad := memWrite s.spad (spadKey c off) bytes
           spadErr := dropRange s.spadErr (wordKey c off) (wordKey c (off + n - 1) + 1) }

/-- Words of a range that a write covers only in part. -/
def partialWords (off n : Nat) : List Nat :=
  (wordsOf off n).filter fun w => decide (w < off) || decide (off + n < w + 8)

/-- Make the read-modify-write's corrected words valid before the write. -/
def State.settleWords (s : State) (c : Nat) : List Nat → SpadRead
  | [] => ⟨s, [], none⟩
  | off :: rest =>
    let w := s.word c off
    if w.bad then ⟨s, [], some off⟩
    else
      let s := match w.corrected with | some syn => s.countCorrected c off syn | none => s
      let s := s.putBytes c off (leBytes 8 w.data)
      s.settleWords c rest

/-- Write bytes to a cluster's scratchpad: a word covered in part is read, corrected and merged; an uncorrectable one
leaves every byte unwritten (R63, R66). A write drops the queued write-backs of its rows (R62, R64). -/
def State.spadWrite (s : State) (c off : Nat) (bytes : List Byte) : SpadRead :=
  if bytes.isEmpty then ⟨s, [], none⟩
  else
    let n := bytes.length
    let s := s.touch c off n
    match (partialWords off n).find? (fun w => (s.word c w).bad) with
    | some w => ⟨s, [], some w⟩
    | none =>
      let r := s.settleWords c (partialWords off n)
      let s := r.st.putBytes c off bytes
      let rows := (List.range ((off + n - 1) / 64 - off / 64 + 1)).map fun k =>
        ((off / 64 + k) / 1024, (off / 64 + k) % 1024)
      ⟨s.setClu c fun x => { x with fixq := x.fixq.filter fun p => !rows.contains p }, [], none⟩

/-! ## Faults and halts -/

/-- Patches still accumulating are abandoned; completed ones keep their handshakes (R162, R164). -/
def abandon (x : Cell) : Cell :=
  let clr (b : CalSet) : CalSet := if b.out = 0 then { b with busy := false } else b
  { x with aq := [], bq := [], set0 := clr x.set0, set1 := clr x.set1, phase := .idle, opened := false, pre := [],
           patch := 0, k := 0, op := 0, cubes := 0 }

/-- Whether a cell number is of a cluster. -/
def ofClu (c key : Nat) : Bool := decide (c * 640 ≤ key) && decide (key < (c + 1) * 640)

/-- Abandon what the cells of a cluster accumulate. -/
def abandonAll (c : Nat) (m : SMap Cell) : SMap Cell :=
  (m.map fun e => if ofClu c e.1 then (e.1, abandon e.2) else e).filter fun e => decide (e.2 ≠ Cell.rest)

/-- Whether a claim outlasts a stop: that of a completed patch, until its last handshake is written (R161, R162, R164). -/
def State.claimStays (s : State) (c : Nat) : Claimant → Bool
  | .vector => false
  | .cell row col one => let x := s.cell c row col; decide (0 < (if one then x.set1 else x.set0).out)

/-- The bytes of an STT that has been issued are written (R161, R162): it completes whatever stops the vector unit. -/
def State.finishStt (s : State) (c : Nat) : State :=
  match (s.clu c).vst with
  | none => s
  | some v =>
    let r := s.spadWrite c (pmBase + v.tile * 512 + v.off) v.bytes
    match r.bad with
    | some o => r.st.rasEvent stEcc 0 c (spadLoc o) .uncorr
    | none => r.st

/-- Stop a cluster's step list, RUN and vector unit, which completes an STT it has issued; claims of patches that are
abandoned end. -/
def State.stopWork (s : State) (c : Nat) : State :=
  let s := s.finishStt c
  let s := { s with cells := abandonAll c s.cells }
  (s.setClu c fun x => { x with inPass := false, run := none, vact := false, vst := none, waitFrom := none,
                                late := false, migReady := [],
                                claims := x.claims.filter fun p => s.claimStays c p.2 }).wr LND_WAITING.ACTIVE 0 c

/-- Whether anything of a halted cluster is still finishing: moves it issued, or handshakes not yet written. -/
def State.finishing (s : State) (c : Nat) : Bool :=
  let x := s.clu c
  let mine (m : Mover) : Bool := match m.cur with
    | some mv => (match mv.src with | .host _ _ => false | _ => true)
    | none => false
  mine x.mov0 || mine x.mov1 || !x.portq.isEmpty
    || s.cells.any fun e => ofClu c e.1 && !(e.2.own.isEmpty && e.2.north.isEmpty)

/-- A halted cluster enters STOPPED once its patches have drained and its issued moves have landed (R164). -/
def State.settleHalt (s : State) (c : Nat) : State :=
  if (s.clu c).halting && !s.finishing c then
    (s.setClu c fun x => { x with halting := false }).wr CLU_STATUS.STATE cStopped c
  else s

/-- One cluster of a halted slot stops (R164). -/
def State.haltCluster (s : State) (c : Nat) : State :=
  if s.cluSt c = cRunning ∨ s.cluSt c = cStopping then
    ((s.stopWork c).setClu c fun x => { x with halting := true }).settleHalt c
  else s

/-- A molt in progress out of slot `k` is cancelled: its standby slot stays STANDBY (R168). -/
def State.cancelMolt (s : State) (k : Nat) : State :=
  match (s.slot k).molt with
  | none => s
  | some t =>
    let s := (s.setSlot k fun x => { x with molt := none }).setSlot t fun x => { x with molt := none }
    ((s.wr DLN_SLOT_EXEC.EXEC 0 t).raise DLN_INT_STATUS.MOLT_CANCEL t)

/-- A slot halts (R164): EXEC becomes HALTED with the status and the first cluster involved, its other clusters stop,
and a molt out of it is cancelled. A slot that holds no loaded plan, or is already HALTED, keeps its record. -/
def State.haltSlot (s : State) (k status c : Nat) : State :=
  if s.rd PLN_SLOT_STATUS.STATE k = 2 ∧ s.rd DLN_SLOT_EXEC.EXEC k ≠ 3 then
    let s := s.cancelMolt k
    let s := ((s.wr DLN_SLOT_EXEC.EXEC 3 k).wr DLN_SLOT_EXEC.HALT_STATUS status k).wr DLN_SLOT_EXEC.HALT_CLUSTER c k
    ((s.owned k).foldl State.haltCluster s).raise DLN_INT_STATUS.HALT k
  else s

/-- Where a fault lies: cell, scratchpad offset, and SOURCE of CLU_FAULT. -/
structure FaultAt where
  row : Nat
  col : Nat
  off : Nat
  source : Nat
  deriving DecidableEq, Repr

/-- A fault that involves neither a cell nor a bank. -/
def FaultAt.none : FaultAt := ⟨0, 0, 0, 0⟩

/-- A cluster faults: CLU_FAULT keeps the first fault since it was cleared (R485), the cluster enters FAULTED, its work
stops, and its slot halts (R162 to R164). -/
def State.faultClu (s : State) (c status : Nat) (w : FaultAt) : State :=
  let s := if s.rd CLU_FAULT.STATUS c = 0 then
      ((((((s.wr CLU_FAULT.STATUS status c).wr CLU_FAULT.CELL_ROW w.row c).wr CLU_FAULT.CELL_COL w.col c).wr
        CLU_FAULT.BANK (w.off / 65536) c).wr CLU_FAULT.BANK_ROW (w.off / 64 % 1024) c).wr
        CLU_FAULT.WORD (w.off / 8 % 8) c).wr CLU_FAULT.SOURCE w.source c
    else s
  let s := ((s.stopWork c).setClu c fun x => { x with halting := false }).wr CLU_STATUS.LAST_STATUS status c
  let s := (s.wr CLU_STATUS.STATE cFaulted c).raise CLU_INT_STATUS.FAULT c
  let s := if status = stEcc then
      s.rasEvent stEcc 0 c (spadLoc w.off) .uncorr (s.recWord [CLU_FAULT.STATUS, CLU_FAULT.CELL_ROW, CLU_FAULT.CELL_COL,
        CLU_FAULT.BANK, CLU_FAULT.BANK_ROW, CLU_FAULT.WORD, CLU_FAULT.SOURCE] c)
    else s
  match (s.clu c).owner with
  | some k => s.haltSlot k status c
  | none => s

/-- An uncorrectable scratchpad word read by a feeder, drain, preload or the vector unit faults the cluster at once:
outputs not yet drained are lost (R63). -/
def State.eccFault (s : State) (c : Nat) (w : FaultAt) : State :=
  let lose (x : Cell) : Cell :=
    { x with own := [], north := [], set0 := { x.set0 with out := 0 }, set1 := { x.set1 with out := 0 } }
  let s := { s with cells := s.cells.map fun (e : Nat × Cell) => if ofClu c e.1 then (e.1, lose e.2) else e }
  (s.setClu c fun x => { x with portq := [], claims := [] }).faultClu c stEcc w

end Sys2Proof.Machine
end

