-- ==== Sys2Proof/Machine/Landing.lean ====
section
/-! DEFINITION. Machine/Landing.lean: how one unit lands in a scratchpad or in HBM, whoever sends it (R63, R180, R186,
R189, R282), and how its counter advances. -/

namespace Sys2Proof.Machine

/-- What became of a unit: it landed, it waits, or it cannot land for an uncorrectable word or a poisoned line. -/
inductive LandRes where
  | ok | wait | bad
  deriving DecidableEq, Repr

/-- A RAS record of an uncorrectable scratchpad word (R63, R439). -/
def State.spadEvent (s : State) (c off : Nat) : State := s.rasEvent stEcc 0 c (spadLoc off) .uncorr

/-- A unit for a scratchpad: it waits while the cluster is in RESETTING (R189); one that must merge into an
uncorrectable word lands in no byte (R63). -/
def State.landSpad (s : State) (c off : Nat) (bytes : List Byte) : State × LandRes :=
  if s.cluSt c = cResetting ∨ (s.clu c).bist then (s, .wait)
  else
    let r := s.spadWrite c off bytes
    match r.bad with
    | some w => (r.st.spadEvent c w, .bad)
    | none => (r.st, .ok)

/-- A unit for HBM, written as WrFull or WrPart, or added (R180, R282): it waits while a line is busy at its home or its
partition has no credit. An add lands whole, or where one of its lines is poisoned not at all (R186, R402). -/
def State.landHbm (s : State) (stream part addr : Nat) (bytes : List Byte) (add : Option Nat) : State × LandRes :=
  let ks := if bytes.isEmpty then [] else keysOf addr bytes.length
  let p := s.prepare ks true
  if ¬ p.2 ∨ ¬ s.creditFor ks part then (p.1, .wait)
  else match add with
  | none => (p.1.rangeWrite stream part addr bytes, .ok)
  | some efmt =>
    let q := ks.foldl (fun (q : State × Bool) k => let r := q.1.addFetch k part; (r.1, q.2 || r.2)) (p.1, false)
    if q.2 then (q.1, .bad)
    else (ks.foldl (fun (s : State) k =>
      let base := keyAddr k * 64
      let lo := max addr base
      let hi := min (addr + bytes.length) (base + 64)
      s.addInto k (lo - base) efmt ((bytes.drop (lo - addr)).take (hi - lo))) q.1, .ok)

/-- Where a landed unit is counted: a counter of a cluster, if one is named (R176, R186). -/
def State.counted (s : State) (cnt : Option (Nat × Nat)) (amount : Nat) : State :=
  match cnt with
  | some (c, n) => s.advance c n amount
  | none => s

/-- An add to a counter counts as a landing with no data (R190): at a cluster in RESETTING it waits until the reset ends
(R189). -/
def State.lndAdd (s : State) (c n amount : Nat) : State :=
  if amount = 0 then s
  else if s.cluSt c = cResetting then s.setClu c fun x => { x with adds := x.adds ++ [(n, amount)] }
  else s.advance c n amount

/-- Whether the cluster of a unit's counter is in RESETTING, so that the unit waits (R189). -/
def State.countWaits (s : State) (cnt : Option (Nat × Nat)) : Bool :=
  match cnt with
  | some (c, _) => s.cluSt c == cResetting
  | none => false

end Sys2Proof.Machine
end

