-- ==== Sys2Proof/Machine/Cells.lean ====
section
/-! DEFINITION. Machine/Cells.lean: feeders, cells and drains (R43 to R53, R97 to R112, R121 to R127, R157, R161,
R162): the commands FEEDER_BLOCK_ISSUE, CUBE_EXECUTE, PATCH_COMPLETE, DRAIN_HANDSHAKE, DRAIN_WRITE, MAC, RED, FWD and
CELL_END. -/

namespace Sys2Proof.Machine

/-- The outcome of a command of the part: a next state. -/
abbrev Answer := Host.Outcome State Fault Refusal

/-- Whether a cluster runs (R152). -/
def State.running (s : State) (c : Nat) : Bool :=
  (s.cluSt c == cRunning || s.cluSt c == cStopping) && !(s.clu c).halting

/-- The configuration of a cluster whose admitted RUN is in progress. -/
def State.runCfg (s : State) (c : Nat) : Option (CluCfg × RunSt) :=
  if s.running c then
    match (s.clu c).act, (s.clu c).run with
    | some g, some r => if r.admitted then some (g, r) else none
    | _, _ => none
  else none

/-- The operations of a cell's sequence from a table index on, up to its END (R121, R123). -/
def seqOps (ops : List Nat) : Nat → Nat → List Nat
  | 0, _ => []
  | n + 1, i =>
    match ops[i]? with
    | none => []
    | some w => if OpW.opc w = 0 then [] else w :: seqOps ops n (i + 1)

/-- Blocks that an operation takes in all from the A link. -/
def opAllBlocks (w : Nat) : Nat := OpW.patches w * opBlocks w

/-- The operation of a sequence that takes its block number `b`. -/
def blockOp : List Nat → Nat → Option Nat
  | [], _ => none
  | w :: ws, b => if b < opAllBlocks w then some w else blockOp ws (b - opAllBlocks w)

/-- The first ACTIVE cell word among cells of a row or column, whose operations give the blocks their shape (DEDUCED,
log entry 8). -/
def firstActive (cells : List Nat) (idx : List Nat) : Option Nat :=
  (idx.map fun i => cells.getD i 1).find? fun w => !CellW.forward w

/-- Cell numbers of the active row or column that a feeder serves. -/
def feederCells (g : CluCfg) (side : Side) (index : Nat) : List Nat :=
  match side with
  | .a => (List.range g.cols).map fun col => index * 32 + col
  | .b => (List.range g.rows).map fun row => row * 32 + index

/-- The number of a feeder within its set (R126). -/
def feederNo : Side → Nat → Nat
  | .a, i => i
  | .b, i => 20 + i

/-- Read a block's rows one after another from the scratchpad. -/
def State.readRows (s : State) (c : Nat) (addr : Nat → Nat) (w : Nat) : List Nat → SpadRead
  | [] => ⟨s, [], none⟩
  | j :: js =>
    let r := s.spadRead c (addr j) w
    match r.bad with
    | some o => ⟨r.st, [], some o⟩
    | none =>
      let q := r.st.readRows c addr w js
      ⟨q.st, r.data ++ q.data, q.bad⟩

/-- How far ahead of its first cell a feeder runs: 8 blocks (R47), one during the wingbeat ramp, the first 48 beats from the
RUN's start (R157). -/
def State.feederAhead (s : State) (c : Nat) (r : RunSt) : Nat := if s.beatOf (dieOf c) < r.start + 48 then 1 else 8

/-- The beats in which a feeder has issued, of the 64 up to now. -/
def State.fedBeats (s : State) (c no : Nat) : List Nat :=
  (getK [] (s.clu c).fed no).filter fun b => decide (s.beatOf (dieOf c) < b + 64)

/-- Whether a feeder may issue in this beat: it issues on at most PWR_HOLD.D of every 64 beats (R423; a stall as any other by
R50). -/
def State.dutyLets (s : State) (c no : Nat) : Bool :=
  (s.fedBeats c no).contains (s.beatOf (dieOf c)) || decide ((s.fedBeats c no).length < s.rd PWR_HOLD.D 0 0 (dieOf c))

/-- A feeder issues in this beat. -/
def State.fedNow (s : State) (c no : Nat) : List Nat :=
  let l := s.fedBeats c no
  let now := s.beatOf (dieOf c)
  if l.contains now then l else l ++ [now]

/-- The banks that offsets lie in. -/
def banksOf (offs : List Nat) : List Nat := (offs.map (· / 65536)).eraseDups

/-- FEEDER_BLOCK_ISSUE: an enabled feeder with a block left and room in its first cell's queue, in a beat its hold duty lets it
issue in (R423), reads the block and its scale bytes, once its banks serve it (R53, R61), and puts them there (R47, R126, R157, R496). An uncorrectable word faults the cluster (R63). -/
def execFeederBlockIssue (c : Fin 512) (side : Side) (index : Fin 32) (s : State) : Answer :=
  .next <| match s.runCfg c with
  | none => s
  | some (g, r) =>
    let no := feederNo side index
    let f := (g.feed.getD r.fset []).getD no 0
    let b := getK 0 r.issued no
    let first := match side with | .a => s.cell c index 0 | .b => s.cell c 0 index
    let q := match side with | .a => first.aq | .b => first.bq
    let word := firstActive g.cells (feederCells g side index)
    match word.bind fun w => blockOp (seqOps g.ops 64 (CellW.seq w + r.seqOff)) b with
    | none => s
    | some w =>
      if ¬ FeedW.en f ∨ FeedW.c0 f * FeedW.c1 f ≤ b ∨ s.feederAhead c r ≤ q.length ∨ ¬ s.dutyLets c no
          ∨ (side = .a ∧ 20 ≤ index.val) then s
      else
        let rows := match side with | .a => opARows w | .b => opBRows w
        let width := match side with | .a => opABytes w | .b => opBBytes w
        let banks := banksOf ((List.range rows).map fun j => (FeedW.rowAddr f b j).toNat)
        if ¬ banks.all (s.bankFree c .feeder) then s
        else
        let s := s.tookBanks c .feeder banks
        let d := s.readRows c (fun j => (FeedW.rowAddr f b j).toNat) width (List.range rows)
        let e := if FeedW.scales f then d.st.spadRead c (FeedW.scaleAddr f (cubeK (OpW.afmt w)) b) 4
          else ⟨d.st, [], none⟩
        match d.bad, e.bad with
        | some o, _ => d.st.eccFault c ⟨0, 0, o, 1⟩
        | none, some o => e.st.eccFault c ⟨0, 0, o, 1⟩
        | none, none =>
          let blk : Block := ⟨d.data, if FeedW.scales f then some e.data else none⟩
          let s := match side with
            | .a => e.st.setCell c index 0 fun x => { x with aq := x.aq ++ [blk] }
            | .b => e.st.setCell c 0 index fun x => { x with bq := x.bq ++ [blk] }
          let beats := s.fedNow c no
          s.setClu c fun x => { x with
            run := x.run.map fun r => { r with issued := insK r.issued no (b + 1) }
            fed := setK [] x.fed no beats }

/-- The caldera set a patch accumulates into, and the change of it. -/
def Cell.curSet (x : Cell) : CalSet := if x.cur then x.set1 else x.set0
def Cell.setOf (x : Cell) (one : Bool) : CalSet := if one then x.set1 else x.set0
def Cell.putSet (x : Cell) (one : Bool) (v : CalSet) : Cell := if one then { x with set1 := v } else { x with set0 := v }

/-- Outputs (m, n) of a patch, in order. -/
def outputsOf (w : Nat) : List (Nat × Nat) :=
  (List.range (opM w)).flatMap fun m => (List.range (opN w)).map fun n => (m, n)

/-- The set a patch starts with: mode and anchor for the calderas it uses (R84, R85), the rest +0 (R44). -/
def freshSet (w : Nat) : CalSet :=
  let used := (outputsOf w).map fun p => opCal w p.1 p.2
  { cals := (List.range 16).map fun i =>
      if used.contains i then { Cal.zero with mode := opMode w, anchor := opAnchor w } else Cal.zero
    count := 0, out := 0, busy := true }

/-- A bias value as an added term or flags (R94). -/
def biasInto (c : Cal) (red : Bool) (x : Num) : Cal × (Int × Int × Bool) :=
  match x with
  | .nan => (c.flag true false false, (0, 0, false))
  | .inf neg => (c.flag false (!neg) neg, (0, 0, false))
  | x =>
    let t := x.term
    match c.mode with
    | .fixed => (c.accum none [t], (0, 0, false))
    | .float => (c.accum (floatAnchor [t]) [t], (0, 0, false))
    | .scaled => if red then (c.accum none [t], (0, 0, false)) else (c, (t.m, t.e, false))

/-- A continuation partial added as one term, or kept for the first block step in SCALED mode (R94, R103). -/
def contInto (c : Cal) (red : Bool) (p : Cal) : Cal × (Int × Int × Bool) :=
  match c.mode with
  | .scaled =>
    if red then (c.addPartial p, (0, 0, false))
    else (c.addPartial { p with v := 0 }, (p.v, p.anchor, true))
  | _ => (c.addPartial p, (0, 0, false))

/-- Reads the preload of every output of a patch into the set's calderas (R94, R125). -/
def State.preloads (s : State) (c w cw patch : Nat) (set : CalSet) (pre : List (Int × Int × Bool)) :
    List (Nat × Nat) → State × CalSet × List (Int × Int × Bool) × Option Nat
  | [] => (s, set, pre, none)
  | (m, n) :: rest =>
    let k := opCal w m n
    let red := decide (OpW.opc w = 2)
    let r := if OpW.pre w = 1 then s.spadRead c (opBiasAddr w cw patch n) (if OpW.biasfmt w = 0 then 4 else 2)
      else s.spadRead c (opSlotAddr w cw patch m n) 24
    match r.bad with
    | some o => (r.st, set, pre, some o)
    | none =>
      let cal := set.cals.getD k Cal.zero
      let q := if OpW.pre w = 1 then biasInto cal red (decodeElem (biasCode (OpW.biasfmt w)) false (leNat r.data))
        else contInto cal red (Cal.ofImage (leNat r.data))
      r.st.preloads c w cw patch { set with cals := set.cals.set k q.1 } (pre.set k q.2) rest

/-- Who holds a tile. -/
def Clu.holder (x : Clu) (tile : Nat) : Option Claimant := (x.claims.find? (·.1 = tile)).map (·.2)

/-- The cell, of either caldera set, that a claimant is. -/
def Claimant.sameCell (a b : Claimant) : Bool :=
  match a, b with
  | .cell r k _, .cell r' k' _ => r == r' && k == k'
  | .vector, .vector => true
  | _, _ => false

/-- What a claim of tiles meets (R161, R162): free, held by the same cell's other set (wait), or refused at a tile. -/
inductive ClaimResult where
  | free | waits | refused (tile : Nat)
  deriving DecidableEq, Repr

/-- Whether a claimant may claim tiles. -/
def Clu.tryClaim (x : Clu) (who : Claimant) : List Nat → ClaimResult
  | [] => .free
  | t :: ts =>
    match x.holder t with
    | none => x.tryClaim who ts
    | some h => if h = who then x.tryClaim who ts else if h.sameCell who then .waits else .refused t

/-- Claim tiles that are free. -/
def Clu.claim (x : Clu) (who : Claimant) (ts : List Nat) : Clu :=
  { x with claims := x.claims ++ (ts.filter fun t => (x.holder t).isNone).map fun t => (t, who) }

/-- Release every claim of a claimant. -/
def Clu.release (x : Clu) (who : Claimant) : Clu := { x with claims := x.claims.filter fun p => p.2 != who }

/-- Opens the patch a cell stands before, when its set is free: initial set, preload, continuation claim (R50, R94,
R161). Gives the state unchanged where it must wait. -/
def State.openPatch (s : State) (c row col : Nat) (g : CluCfg) : State :=
  let x := s.cell c row col
  let w := g.ops.getD x.op 0
  let cw := g.cells.getD (row * 32 + col) 0
  if x.phase ≠ .inOp ∨ x.opened ∨ x.curSet.busy ∨ (OpW.opc w ≠ 1 ∧ OpW.opc w ≠ 2) then s
  else
    let who := Claimant.cell row col x.cur
    let tiles := if OpW.pre w = 2 then [opTile w cw x.patch] else []
    match (s.clu c).tryClaim who tiles with
    | .waits => s
    | .refused t => s.faultClu c stTileClaim ⟨row, col, pmBase + t * 512, 2⟩
    | .free =>
      let s := s.setClu c fun q => q.claim who tiles
      let r := if OpW.pre w = 0 then (s, freshSet w, [], none)
        else s.preloads c w cw x.patch (freshSet w) (List.replicate 16 (0, 0, false)) (outputsOf w)
      match r.2.2.2 with
      | some o => r.1.eccFault c ⟨row, col, o, 2⟩
      | none => r.1.setCell c row col fun y =>
          { y.putSet y.cur r.2.1 with opened := true, k := 0, pre := r.2.2.1 }

/-- Whether the neighbour a cell forwards to has room in its queue (R47); at the active array's edge nothing is
forwarded (R46, R120). -/
def State.roomEast (s : State) (c row col : Nat) (g : CluCfg) : Bool :=
  decide (g.cols ≤ col + 1) || decide ((s.cell c row (col + 1)).aq.length < 8)
def State.roomSouth (s : State) (c row col : Nat) (g : CluCfg) : Bool :=
  decide (g.rows ≤ row + 1) || decide ((s.cell c (row + 1) col).bq.length < 8)

/-- Forward the head of the A queue east, unchanged (R46). -/
def State.forwardA (s : State) (c row col : Nat) (g : CluCfg) : State :=
  match (s.cell c row col).aq with
  | [] => s
  | b :: rest =>
    let s := s.setCell c row col fun x => { x with aq := rest }
    if g.cols ≤ col + 1 then s else s.setCell c row (col + 1) fun x => { x with aq := x.aq ++ [b] }

/-- Forward the head of the B queue south, unchanged (R46). -/
def State.forwardB (s : State) (c row col : Nat) (g : CluCfg) : State :=
  match (s.cell c row col).bq with
  | [] => s
  | b :: rest =>
    let s := s.setCell c row col fun x => { x with bq := rest }
    if g.rows ≤ row + 1 then s else s.setCell c (row + 1) col fun x => { x with bq := x.bq ++ [b] }

/-- A set after one cube of a MAC: every output's caldera takes the cube's products, the product count grows by the
products per output, and past 2^24 every caldera of the set has CAPACITY (R86, R105). -/
def CalSet.cube (set : CalSet) (w : Nat) (a b : Block) (pre : List (Int × Int × Bool)) : CalSet :=
  let cals := (outputsOf w).foldl (fun cs p =>
    let k := opCal w p.1 p.2
    cs.set k ((cs.getD k Cal.zero).cubeStep (OpW.afmt w) (OpW.bfmt w) (OpW.mx w) a b p.1 p.2 pre[k]?)) set.cals
  let n := min (set.count + cubeK (OpW.afmt w)) (2 ^ 25 - 1)
  { set with count := n, cals := if 2 ^ 24 < n then cals.map fun x => { x with cap := true } else cals }

/-- A cell whose queues hold what its operation takes, whose set is free and whose neighbours have room executes one cube
and forwards its blocks (R46, R50); a FORWARD cell passes on what it holds (R121). -/
def State.cube (s : State) (c : Nat) (row col : Nat) : State :=
  match s.runCfg c with
  | none => s
  | some (g, _) =>
    if g.rows ≤ row ∨ g.cols ≤ col then s
    else if CellW.forward (g.cells.getD (row * 32 + col) 1) then
      let s := if s.roomEast c row col g then s.forwardA c row col g else s
      if s.roomSouth c row col g then s.forwardB c row col g else s
    else
      let s := s.openPatch c row col g
      let x := s.cell c row col
      let w := g.ops.getD x.op 0
      if x.phase ≠ .inOp then s
      else
        match OpW.opc w, x.aq, x.bq with
        | 1, a :: _, b :: _ =>
          if x.opened ∧ x.k < opBlocks w ∧ s.roomEast c row col g ∧ s.roomSouth c row col g then
            let s := s.setCell c row col fun y =>
              { y.putSet y.cur (y.curSet.cube w a b y.pre) with k := y.k + 1, pre := [], cubes := y.cubes + 1 }
            ((s.forwardA c row col g).forwardB c row col g).progress c
          else s
        | 2, a :: _, _ =>
          if x.opened ∧ x.k < opBlocks w ∧ s.roomEast c row col g then
            let s := s.setCell c row col fun y =>
              let set := y.curSet
              let i := y.k % 16
              let cal := (set.cals.getD i Cal.zero).addPartial (Cal.ofImage (leNat (a.bytes.take 24)))
              { y.putSet y.cur { set with cals := set.cals.set i cal } with k := y.k + 1, cubes := y.cubes + 1 }
            (s.forwardA c row col g).progress c
          else s
        | 3, _ :: _, _ :: _ =>
          if s.roomEast c row col g ∧ s.roomSouth c row col g then
            let done := decide (x.k + 1 = opAllBlocks w)
            let s := s.setCell c row col fun y =>
              if done then { y with k := 0, cubes := y.cubes + 1, phase := .atOp, op := y.op + 1 }
              else { y with k := y.k + 1, cubes := y.cubes + 1 }
            ((s.forwardA c row col g).forwardB c row col g).progress c
          else s
        | _, _, _ => s

/-- CUBE_EXECUTE: a cell executes one cube; a parity error in what it reads faults its cluster and names the cell (R438; SOURCE
reads 0, log entry 196). -/
def execCubeExecute (c : Fin 512) (row : Fin 20) (x : CubeIn) (s : State) : Answer :=
  .next <|
    if x.parity ∧ (s.runCfg c).isSome then s.faultClu c stEcc ⟨row, x.col, 0, 0⟩ else s.cube c row x.col

/-- The bytes an output writes, each with the mask of its bits (R51, R125). -/
def outputPuts (w cw p m n : Nat) (c : Cal) (r : Rounded) : List (Nat × Byte × Byte) :=
  if OpW.ofmt w = 10 then
    let off := opSlotAddr w cw p m n
    let img := leBytes 24 (c.image (OpW.osh w)) ++ List.replicate 8 0
    (List.range 32).map fun i => (off + i, img.getD i 0, 0xFF)
  else
    let h := opOutHalf w cw p m n
    if fmtBits (OpW.ofmt w) = 4 then
      if h % 2 = 0 then [(h / 2, BitVec.ofNat 8 r.pat, 0x0F)] else [(h / 2, BitVec.ofNat 8 (r.pat * 16), 0xF0)]
    else
      let bs := leBytes (fmtBits (OpW.ofmt w) / 8) r.pat
      (List.range bs.length).map fun i => (h / 2 + i, bs.getD i 0, 0xFF)

/-- Pieces of a list, `n` elements each. -/
def chunks {α : Type} (n : Nat) : Nat → List α → List (List α)
  | 0, _ => []
  | _, [] => []
  | f + 1, l => l.take n :: chunks n f (l.drop n)

/-- The PM tiles that offsets touch. -/
def tilesOf (offs : List Nat) : List Nat :=
  ((offs.filter (fun o => decide (pmBase ≤ o))).map fun o => (o - pmBase) / 512).eraseDups

/-- The handshakes of a finished patch (R51). -/
def packPatch (w cw p row col : Nat) (one : Bool) (set : CalSet) : List Handshake :=
  let outs := (outputsOf w).map fun (m, n) =>
    let c := set.cals.getD (opCal w m n) Cal.zero
    outputPuts w cw p m n c (c.output (OpW.ofmt w) (OpW.rnd w) (OpW.ovf w) (OpW.osh w))
  let tiles := tilesOf (outs.flatten.map (·.1))
  (chunks (opPack w) 16 outs).map fun g => ⟨row, col, one, g.flatten, tiles, false⟩

/-- CAL_SPREAD over a set's calderas: the largest difference of cmax (R88, which zero blocks raise too) and the smallest
combined scale of a nonzero block. -/
def CalSet.spread (set : CalSet) : Nat :=
  set.cals.foldl (fun m c => match c.nzMin, c.cmax with | some a, some b => max m (b - a).toNat | _, _ => m) 0

/-- Add to a CAL_ counter and raise its bit when it advances (R112). -/
def State.calCount (s : State) (c : Nat) (f st : Fld) (n : Nat) : State :=
  if n = 0 then s else (s.bump f n c).raise st c

/-- Outputs and conversions count in CAL_NAN_OUT and CAL_SAT_OUT (R99, R100). -/
def State.countOuts (s : State) (c : Nat) (outs : List Rounded) : State :=
  let s := s.calCount c CAL_NAN_OUT.COUNT CAL_INT_STATUS.NAN_OUT (outs.filter (·.nan)).length
  s.calCount c CAL_SAT_OUT.COUNT CAL_INT_STATUS.SAT_OUT (outs.filter (·.sat)).length

/-- The CAL_ counters of a drained patch (R99, R100, R110). A reduction, which has no blocks, leaves CAL_SPREAD as it is
(DESIGN CHOICE, log entry 169). -/
def State.countPatch (s : State) (c w : Nat) (set : CalSet) : State :=
  let cals := (outputsOf w).map fun p => set.cals.getD (opCal w p.1 p.2) Cal.zero
  let outs := if OpW.ofmt w = 10 then [] else cals.map fun x => x.output (OpW.ofmt w) (OpW.rnd w) (OpW.ovf w) (OpW.osh w)
  let s := s.calCount c CAL_STICKY_PATCHES.COUNT CAL_INT_STATUS.STICKY (b2n (cals.any fun x => x.sticky != 0))
  let s := s.calCount c CAL_CAPACITY.COUNT CAL_INT_STATUS.CAPACITY (b2n (cals.any (·.cap)))
  let s := s.calCount c CAL_OVERFLOW.COUNT CAL_INT_STATUS.OVERFLOW (b2n (cals.any (·.ovf)))
  let s := s.countOuts c outs
  if opMode w = .scaled ∧ OpW.opc w = 1 then
    (s.wr CAL_SPREAD.LAST set.spread c).wr CAL_SPREAD.MAX (max (s.rd CAL_SPREAD.MAX c) set.spread) c
  else s

/-- What a set holds once its last step is done: a SCALED preload that no block took is added alone (R94, R95). -/
def CalSet.finish (set : CalSet) (pre : List (Int × Int × Bool)) : CalSet :=
  { set with cals := (List.range 16).map fun i =>
      let c := set.cals.getD i Cal.zero
      match pre[i]? with | some p => if p.1 = 0 then c else c.accum none [preTerm p] | none => c }

/-- PATCH_COMPLETE: a cell whose patch has taken all its cubes or partials shifts, rounds and packs its outputs into
drain handshakes, and goes on to its next patch in the other set (R44, R51, R96 to R100). -/
def execPatchComplete (c : Fin 512) (row : Fin 20) (col : Fin 32) (s : State) : Answer :=
  .next <| match s.runCfg c with
  | none => s
  | some (g, _) =>
    let s := s.openPatch c row col g
    let x := s.cell c row col
    let w := g.ops.getD x.op 0
    if x.phase ≠ .inOp ∨ ¬ x.opened ∨ x.k ≠ opBlocks w then s
    else
      let cw := g.cells.getD (row * 32 + col) 0
      let set := x.curSet.finish x.pre
      let hs := packPatch w cw x.patch row col x.cur set
      let lastPatch := decide (x.patch + 1 = OpW.patches w)
      let s := s.setCell c row col fun y =>
        { y.putSet y.cur { set with out := hs.length, busy := true } with
          own := y.own ++ hs, cur := !y.cur, opened := false, k := 0, pre := []
          patch := if lastPatch then 0 else y.patch + 1
          op := if lastPatch then y.op + 1 else y.op
          phase := if lastPatch then .atOp else .inOp }
      s.countPatch c w set

/-- The handshake a cell passes on next (R52): its own and its northern neighbour's in turn. -/
def Cell.drainNext (x : Cell) : Option (Handshake × Cell) :=
  match x.northTurn, x.north, x.own with
  | true, h :: r, _ => some (h, { x with north := r, northTurn := false })
  | true, [], h :: r => some (h, { x with own := r })
  | false, _, h :: r => some (h, { x with own := r, northTurn := true })
  | false, h :: r, [] => some (h, { x with north := r })
  | _, [], [] => none

/-- The active rows of a cluster, all 20 where no plan is active. -/
def State.rowsOf (s : State) (c : Nat) : Nat := match (s.clu c).act with | some g => g.rows | none => 20

/-- Runs of consecutive offsets among a handshake's bytes. -/
def putRuns : List (Nat × Byte × Byte) → List (Nat × List (Byte × Byte))
  | [] => []
  | (o, v, m) :: rest =>
    match putRuns rest with
    | (o', vs) :: more => if o' = o + 1 then (o, (v, m) :: vs) :: more else (o, [(v, m)]) :: (o', vs) :: more
    | [] => [(o, [(v, m)])]

/-- Write runs of masked bytes; bytes covered in part are merged with what they held. -/
def State.putMasked (s : State) (c : Nat) : List (Nat × List (Byte × Byte)) → SpadRead
  | [] => ⟨s, [], none⟩
  | (o, vs) :: rest =>
    let r := if vs.all (fun p => p.2 == 0xFF) then ⟨s, [], none⟩ else s.spadRead c o vs.length
    match r.bad with
    | some b => ⟨r.st, [], some b⟩
    | none =>
      let bytes := (List.range vs.length).map fun i =>
        let p := vs.getD i (0, 0)
        (p.1 &&& p.2) ||| ((r.data.getD i 0) &&& ~~~p.2)
      let q := r.st.spadWrite c o bytes
      match q.bad with
      | some b => ⟨q.st, [], some b⟩
      | none => q.st.putMasked c rest

/-- Drop every handshake of a cell's set. -/
def dropOf (row col : Nat) (one : Bool) (l : List Handshake) : List Handshake :=
  l.filter fun h => !(h.row == row && h.col == col && h.set1 == one)

/-- A refused patch writes nothing: its handshakes are dropped and its set is free (R162). -/
def State.dropPatch (s : State) (c row col : Nat) (one : Bool) : State :=
  let s := { s with cells := s.cells.map fun (e : Nat × Cell) =>
    (e.1, if ofClu c e.1 then { e.2 with own := dropOf row col one e.2.own, north := dropOf row col one e.2.north }
      else e.2) }
  let s := s.setClu c fun x =>
    { x with portq := (x.portq.map fun e => (e.1, dropOf row col one e.2)).filter fun e => !e.2.isEmpty }
  s.setCell c row col fun x => x.putSet one { x.setOf one with out := 0, busy := false }

/-- A handshake passes out of a cell: one step south, or into the column's drain port (R52, R53). -/
def State.passSouth (s : State) (c row col : Nat) (h : Handshake) (x : Cell) : State :=
  let s := s.setCell c row col fun _ => x
  if row + 1 < s.rowsOf c then s.setCell c (row + 1) col fun y => { y with north := y.north ++ [h] }
  else s.setClu c fun q => { q with portq := insK q.portq col (getK [] q.portq col ++ [h]) }

/-- A claim of a patch's output tiles is refused: the patch writes nothing, and the cluster faults (R162). -/
def State.refusePatch (s : State) (c : Nat) (h : Handshake) (tile : Nat) : State :=
  (s.dropPatch c h.row h.col h.set1).faultClu c stTileClaim ⟨h.row, h.col, pmBase + tile * 512, 2⟩

/-- DRAIN_HANDSHAKE: one handshake passes one step south along its column, or into the column's drain port (R52, R53). A
cell's own handshake passes under the claim of its patch's tiles, which the first of them makes; it waits while the cell's
other set holds one, and a claim refused faults the cluster with TILE_CLAIM (R161, R162). -/
def execDrainHandshake (c : Fin 512) (row : Fin 20) (col : Fin 32) (s : State) : Answer :=
  .next <| match (s.cell c row col).drainNext with
  | none => s
  | some (h, x) =>
    if h.row ≠ row.val then s.passSouth c row col h x
    else
      let who := Claimant.cell h.row h.col h.set1
      match (s.clu c).tryClaim who h.tiles with
      | .waits => s
      | .refused t => s.refusePatch c h t
      | .free => (s.setClu c fun q => q.claim who h.tiles).passSouth c row col h x

/-- DRAIN_WRITE: the drain port of a column writes its next handshake to the tagged offsets once its banks serve it (R53),
under the claims of R161; a claim refused faults the cluster with TILE_CLAIM and writes nothing (R162); the set's last
handshake frees it. -/
def execDrainWrite (c : Fin 512) (col : Fin 32) (s : State) : Answer :=
  .next <| match getK [] (s.clu c).portq col with
  | [] => s
  | h :: rest =>
    let who := Claimant.cell h.row h.col h.set1
    match (s.clu c).tryClaim who h.tiles with
    | .waits => s
    | .refused t => s.refusePatch c h t
    | .free =>
      let banks := banksOf (h.puts.map (·.1))
      if ¬ banks.all (s.bankFree c .drain) then s
      else
      let s := s.tookBanks c .drain banks
      let s := s.setClu c fun x => { x.claim who h.tiles with
        portq := if rest.isEmpty then eraseK x.portq col else insK x.portq col rest }
      let r := s.putMasked c (putRuns h.puts)
      match r.bad with
      | some o => r.st.eccFault c ⟨h.row, h.col, o, 2⟩
      | none =>
        let set := (r.st.cell c h.row h.col).setOf h.set1
        let s := r.st.setCell c h.row h.col fun x =>
          x.putSet h.set1 { set with out := set.out - 1, busy := decide (1 < set.out) }
        let s := if set.out ≤ 1 then s.setClu c fun x => x.release who else s
        s.settleHalt c

/-- The operation a cell stands before, in a RUN in progress. -/
def State.opAt (s : State) (c row col : Nat) : Option (CluCfg × Nat) :=
  match s.runCfg c with
  | none => none
  | some (g, _) =>
    let x := s.cell c row col
    if x.phase = .atOp then (g.ops[x.op]?).map fun w => (g, w) else none

/-- A cell begins a MAC or RED: with PATCHES = 0 it passes it over (R124), else it opens the first patch. -/
def State.beginOp (s : State) (c row col : Nat) (g : CluCfg) (w : Nat) : State :=
  if OpW.patches w = 0 then s.setCell c row col fun x => { x with op := x.op + 1 }
  else (s.setCell c row col fun x => { x with phase := .inOp, patch := 0, k := 0, opened := false }).openPatch c row col g

/-- MAC: the cell begins PATCHES patches of K / Kb cubes each (R123). -/
def execMac (c : Fin 512) (row : Fin 20) (col : Fin 32) (s : State) : Answer :=
  .next <| match s.opAt c row col with
  | some (g, w) => if OpW.opc w = 1 then s.beginOp c row col g w else s
  | none => s

/-- RED: the cell begins PATCHES patches of 16 × K long partials each (R103, R123). -/
def execRed (c : Fin 512) (row : Fin 20) (col : Fin 32) (s : State) : Answer :=
  .next <| match s.opAt c row col with
  | some (g, w) => if OpW.opc w = 2 then s.beginOp c row col g w else s
  | none => s

/-- FWD: the cell begins forwarding PATCHES × K / Kb blocks on A and on B (R123). -/
def execFwd (c : Fin 512) (row : Fin 20) (col : Fin 32) (s : State) : Answer :=
  .next <| match s.opAt c row col with
  | some (_, w) =>
    if OpW.opc w = 3 then
      s.setCell c row col fun x =>
        if opAllBlocks w = 0 then { x with op := x.op + 1 } else { x with phase := .inOp, k := 0, opened := false }
    else s
  | none => s

/-- CELL_END: the cell's sequence ends for the current RUN (R123). -/
def execCellEnd (c : Fin 512) (row : Fin 20) (col : Fin 32) (s : State) : Answer :=
  .next <| match s.opAt c row col with
  | some (_, w) => if OpW.opc w = 0 then s.setCell c row col fun x => { x with phase := .ended } else s
  | none => s

end Sys2Proof.Machine
end

