-- ==== Sys2Proof/Machine/Site.lean ====
section
/-! DEFINITION. Machine/Site.lean: what every user of the Cocoon site asks of it (R383, R384, R387). -/

namespace Sys2Proof.Machine

/-- States of the site (R390). -/
def cocEMPTY : Nat := 0
def cocTRAINING : Nat := 1
def cocNEGOTIATING : Nat := 2
def cocUP : Nat := 3
def cocFENCED : Nat := 4
def cocMISMATCH : Nat := 5

/-- The site's state. -/
def State.cocSt (s : State) : Nat := s.rd COC_STATUS.STATE

/-- Whether the die's requests are taken (R382 order 8, R387). -/
def State.siteUp (s : State) : Bool := s.cocSt == cocUP && !s.coc.fencing

/-- Whether a stream identifier is one of the die's (R283). -/
def cocoonStream (st : Nat) : Bool := decide (99 ≤ st) && decide (st ≤ 114)

/-- Requests of the die that are not completed. -/
def State.cocPending (s : State) : Nat :=
  let mine (r : Req) : Bool := r.agent.isNone && cocoonStream r.stream
  (s.coh.lineq.map fun (e : Nat × List Req) => (e.2.filter mine).length).foldl (· + ·) 0
    + (s.coh.txns.filter fun (e : Nat × Txn) => e.2.req.any mine).length

/-- Whether a request of a stream reaches the homes: the die's only while the site is UP in coherent mode and its link is up, on
a stream agreed, and no more of them than the discovery block's OUTSTANDING (R381, R383, R384). -/
def State.streamOpen (s : State) (st : Nat) : Bool :=
  !cocoonStream st
    || (s.siteUp && !s.coc.down && s.rd COC_STATUS.MODE == 1 && decide (st < 99 + s.rd COC_STATUS.STREAMS)
      && decide (s.cocPending < bits (s.rd COC_DISC.BLOCK 0 2) 0 16))

/-- Change what the site holds. -/
def State.setCoc (s : State) (f : Coc → Coc) : State := { s with coc := f s.coc }

end Sys2Proof.Machine
end

