-- ==== Sys2Proof/Machine/Coherence.lean ====
section
/-! DEFINITION. Machine/Coherence.lean: the commands of the coherence protocol (R284 to R305): requests, snoops, answers,
grants, the CXL bridge, and what lost agents leave (R304). -/

namespace Sys2Proof

/-- The key of a command's line. -/
def Line.key (l : Line) : Nat := Machine.lineKey l.hostMem l.addr

end Sys2Proof

namespace Sys2Proof.Machine

/-- Whether a line lies where a home serves it: HBM present, or host memory. -/
def State.hasHome (s : State) (k : Nat) : Bool := keyHost k || decide (keyAddr k * 64 < s.hbmEnd)

/-- A request arrives: it is taken off the channel. A core whose line is in the state that sends such a request, and
that has none on the way, sends it now (R290). -/
def State.sent (s : State) (k : Nat) (r : Req) : State :=
  if s.coh.net.contains (.req k r) then s.take (.req k r)
  else
    match r.agent with
    | none => s
    | some h =>
      if 96 ≤ h then s
      else
        let s' := match r.kind, (s.line k h).st with
          | .rds, .i => s.needRead k h none
          | .rdx, .i => s.needWrite k h none
          | .upg, .s | .upg, .o => s.needWrite k h none
          | .puts, .s | .pute, .e | .putm _ _, .m | .putm _ _, .o => s.giveUp k h
          | _, _ => s
        s'.take (.req k r)

/-- Whether a request travels as DAT, which a home always accepts (R279, R280). -/
def Req.isDat (r : Req) : Bool := match r.kind with | .putm _ _ => true | _ => false

/-- Whether a hub holds the 24,576 requests that it has room for (R480). -/
def State.hubFull (s : State) (n : Nat) : Bool :=
  decide (24576 ≤ (s.coh.txns.filter fun e => decide (s.home e.1 = n)).length
    + s.coh.lineq.foldl (fun m e => if s.home e.1 = n then m + e.2.length else m) 0)

/-- Whether a request cannot go to its home yet: a full hub has no room for a REQ message (R280), and the ordered class keeps
its order (R283). -/
def State.mustWait (s : State) (k : Nat) (q : Req) : Bool := s.heldBack k q || (!q.isDat && s.hubFull (s.home k))

/-- A request reaches its home (R281, R284); a full hub takes it once it has room, and one of the ordered class is held until earlier ones of its stream are performed
(R283), and has to be given again then (log entry 63). -/
def State.requestAt (s : State) (l : Line) (kind : ReqKind) (r : Requester) (token : Option Nat)
    (err : Option Nat := none) :
    State :=
  let k := l.key
  let q : Req := ⟨kind, r.agent.map (·.val), r.stream, token, false⟩
  if (s.homeUp k || q.isDat) && s.hasHome k && (r.agent.isSome || s.streamOpen r.stream) && !s.mustWait k q then
    (s.sent k q).arrive k q err
  else s

/-- An ECC error found in a line's directory entry when it is taken (R299): 1 corrected, 2 uncorrectable. -/
def State.dirError (s : State) (k err : Nat) : State :=
  if (s.entry k).isSome ∧ (s.txn k).isNone then
    let n := s.home k
    if err = 1 then s.bump DIR_ECC.CORR 1 n
    else if err = 2 then
      let s := (s.bump DIR_ECC.UNCORR 1 n).raise DIR_INT_STATUS.ECC_UNCORR n
      s.snoopAll k (Txn.of none .recover) ((List.range 97).map fun a => (a, .snpInv))
    else s
  else s

/-- RDS: the home takes a read for a shared copy (R284). -/
def execRds (l : Line) (r : Requester) (token : Option (Fin 8192)) (dirErr scErr : Fin 3) (s : State) : Answer :=
  .next ((if s.homeUp l.key then s.dirError l.key dirErr else s).requestAt l .rds r (token.map (·.val)) (some scErr.val))

/-- RDX: the home takes a read for a writable copy (R284). -/
def execRdx (l : Line) (r : Requester) (token : Option (Fin 8192)) (dirErr : Fin 3) (s : State) : Answer :=
  .next ((if s.homeUp l.key then s.dirError l.key dirErr else s).requestAt l .rdx r (token.map (·.val)))

/-- UPG: the home makes a held copy writable (R284). -/
def execUpg (l : Line) (r : Requester) (token : Option (Fin 8192)) (s : State) : Answer :=
  .next (s.requestAt l .upg r (token.map (·.val)))

/-- PUTS: an agent gives up a shared copy (R284, R286). -/
def execPuts (l : Line) (agent : Fin 97) (s : State) : Answer :=
  .next (s.requestAt l .puts ⟨some agent, agent⟩ none)

/-- PUTE: an agent gives up a clean exclusive copy (R284, R286). -/
def execPute (l : Line) (agent : Fin 97) (s : State) : Answer :=
  .next (s.requestAt l .pute ⟨some agent, agent⟩ none)

/-- PUTM: an owner gives up dirty data (R284, R285). -/
def execPutm (l : Line) (agent : Fin 97) (data : List Byte) (poison : Bool) (s : State) : Answer :=
  .next (s.requestAt l (.putm data poison) ⟨some agent, agent⟩ none)

/-- RDCUR: the current line for a requester that keeps no copy (R284, R292). -/
def execRdcur (l : Line) (r : Requester) (s : State) : Answer := .next (s.requestAt l .rdcur r none)

/-- WRFULL: a whole line is written (R284). -/
def execWrfull (l : Line) (r : Requester) (data : List Byte) (poison : Bool) (s : State) : Answer :=
  .next (s.requestAt l (.wrfull data poison) r none)

/-- WRPART: bytes of a line are written (R284), with the POISON flag of its data (R279). -/
def execWrpart (l : Line) (r : Requester) (mask : BitVec 64) (data : DataMsg) (s : State) : Answer :=
  .next (s.requestAt l (.wrpart mask.toNat data.bytes data.poison) r none)

/-- ATOMF: an atomic is performed at the home (R256, R258, R284). -/
def execAtomf (l : Line) (r : Requester) (op : AmoOp) (off : Fin 64) (size : Fin 5) (operand compare : BitVec 128)
    (s : State) : Answer :=
  .next (s.requestAt l (.atomf op off size operand.toNat compare.toNat) r none)

/-- ADDM: the memory-side adders add elements into a line (R180, R284, R319). -/
def execAddm (l : Line) (r : Requester) (off : Fin 64) (efmt : Fin 4) (elements : List Byte) (s : State) : Answer :=
  .next (s.requestAt l (.addm off efmt elements) r none)

/-- A snoop reaches a core (R288, R289). -/
def State.snoopArrives (s : State) (l : Line) (kind : SnpKind) (agent : Nat) : State :=
  ((s.take (.snp l.key kind agent)).hpmEvent agent 6).snoopCore l.key agent kind

/-- SNPS (R288). -/
def execSnps (l : Line) (agent : Fin 96) (s : State) : Answer := .next (s.snoopArrives l .snpS agent)

/-- SNPX (R288). -/
def execSnpx (l : Line) (agent : Fin 96) (s : State) : Answer := .next (s.snoopArrives l .snpX agent)

/-- SNPINV (R288). -/
def execSnpinv (l : Line) (agent : Fin 96) (s : State) : Answer := .next (s.snoopArrives l .snpInv agent)

/-- SNPCUR (R288). -/
def execSnpcur (l : Line) (agent : Fin 96) (s : State) : Answer := .next (s.snoopArrives l .snpCur agent)

/-- RSP: a snoop answer without data (R287). -/
def execRsp (l : Line) (agent : Fin 97) (st : LState) (wb : Bool) (s : State) : Answer :=
  .next ((s.take (.rsp l.key agent st wb)).answer l.key agent st wb none)

/-- RSPD: a snoop answer with data (R287). -/
def execRspd (l : Line) (agent : Fin 97) (st : LState) (data : List Byte) (dirty poison : Bool) (s : State) : Answer :=
  .next ((s.take (.rspd l.key agent st data dirty poison)).answer l.key agent st false (some (data, dirty, poison)))

/-- MEMORY_DATA: the data of a transaction's read return (R287), once the home is up and it is the requester's partition's turn
(R317); a write that waited behind it may have its turn then. -/
def execMemoryData (l : Line) (upset : Fin 3) (s : State) : Answer :=
  .next <| match s.txn l.key with
  | none => s
  | some t =>
    let k := l.key
    let part := s.txnPart t
    if !t.needMem || t.mem.isSome || keyHost k || !s.homeUp k || !(s.atHand (keyAddr k) || s.turn (keyAddr k) part) then s
    else
      let adder := match t.req with | some r => r.isAdder | none => false
      let r := if adder then s.bufferLine (keyAddr k) part else s.homeFetch (keyAddr k) t.stream part upset t.scWay
      ((r.st.setTxn k { t with mem := some (r.data, r.poison) }).goOn k).goOnHeld

/-- GNTS (R288): IS_D becomes S. -/
def execGnts (l : Line) (agent : Fin 96) (data : List Byte) (poison : Bool) (s : State) : Answer :=
  let s := s.take (.gnt l.key agent .s data poison)
  .next (if (s.line l.key agent).st = .isD then s.granted l.key agent .s data poison else s)

/-- GNTE (R288): IS_D becomes E. -/
def execGnte (l : Line) (agent : Fin 96) (data : List Byte) (poison : Bool) (s : State) : Answer :=
  let s := s.take (.gnt l.key agent .e data poison)
  .next (if (s.line l.key agent).st = .isD then s.granted l.key agent .e data poison else s)

/-- GNTM (R288): IM_D and IM_A become M. -/
def execGntm (l : Line) (agent : Fin 96) (data : List Byte) (poison : Bool) (s : State) : Answer :=
  let s := s.take (.gnt l.key agent .m data poison)
  let st := (s.line l.key agent).st
  .next (if st = .imD ∨ st = .imA then s.granted l.key agent .m data poison else s)

/-- GNTMA (R288): SM_A and OM_A become M on the copy held. -/
def execGntma (l : Line) (agent : Fin 96) (s : State) : Answer :=
  let s := s.take (.gntma l.key agent)
  let x := s.line l.key agent
  .next (if x.st = .smA ∨ x.st = .omA then s.granted l.key agent .m x.data x.poison else s)

/-- The bytes of an access in order. -/
def inOrder (n : Nat) (got : List (Nat × Byte)) : List Byte :=
  (List.range n).map fun i => match got.find? fun x => x.1 == i with | some x => x.2 | none => 0

/-- The data of a core's uncached or far access arrive: a load collects its lines, an atomic gives its old value (R255
to R258). -/
def State.coreData (s : State) (h k : Nat) (data : List Byte) (poison : Bool) : State :=
  match (s.core h).pend with
  | none => s
  | some p =>
    if p.need.head? ≠ some k then s
    else
      let done (s : State) : State := s.setCore h fun c => { c with pend := none }
      match p.acc with
      | .load rd addr n signed =>
        if poison then (done s).consumePoison h 5 addr
        else
          let got := p.got ++ (List.range n).filterMap fun i =>
            if hbmKey (addr + i) = k ∧ ¬ (p.got.any fun x => x.1 == i) then some (i, data.getD ((addr + i) % 64) 0) else none
          match p.need.tail with
          | [] => (done s).setXreg h rd (loadValue n signed (inOrder n got))
          | k2 :: more =>
            (s.setCore h fun c => { c with pend := some ⟨p.acc, k2 :: more, got⟩ }).post (.req k2 ⟨.rdcur, none, h, none, false⟩)
      | .amo _ rd addr n _ _ =>
        if poison then (done s).consumePoison h 7 addr
        else (done s).amoReturns h rd n (leNat ((data.drop (addr % 64)).take n))
      | _ => done s

/-- CMPD: RdCur or AtomF completes with data (R279). -/
def execCmpd (l : Line) (r : Requester) (data : List Byte) (poison : Bool) (s : State) : Answer :=
  let s := s.take (.cmpd l.key r.stream data poison)
  .next (if r.stream < 96 then s.coreData r.stream l.key data poison else s)

/-- CMPPUT: a Put completes and the agent enters I (R288). -/
def execCmpput (l : Line) (agent : Fin 96) (s : State) : Answer :=
  let s := s.take (.cmpput l.key agent)
  .next <| match (s.line l.key agent).st with
  | .miA | .oiA | .eiA | .siA | .iiA => (s.setLine l.key agent CLine.none).settleSleep agent
  | _ => s

/-- RETRY: the agent sends the same request again at once, with the token (R288, R297). -/
def execRetry (l : Line) (agent : Fin 96) (token : Fin 8192) (s : State) : Answer :=
  let s := s.take (.retry l.key agent token)
  let x := s.line l.key agent
  let again (s : State) (kind : ReqKind) : State :=
    (s.setLine l.key agent { x with token := some token.val }).request l.key agent kind (some token.val)
  .next <| match x.st with
  | .isD => again s .rds
  | .imD => again s .rdx
  | .smA | .omA | .imA => again s .upg
  | _ => s

/-! ## The CXL bridge (R301, R302, R343) -/

/-- Whether the host is attached: its link is up and it is not lost (R363). -/
def State.hostUp (s : State) : Bool := s.on HOST_LINK.UP && !s.on HOST_RESET.STATE

/-- A host access that names nothing completes as an unsupported request and is recorded (R10, R343, R490). -/
def State.hostUr (s : State) (addr : Nat) (write : Bool) : State :=
  let s := s.rasEvent stBadDescriptor 17 0 addr (if write then .uncorr else .info)
  { s with resp := ⟨if write then [] else List.replicate 64 0xFF, true, false⟩ }

/-- Requests of the host in the coherent domain (R301). -/
def State.hostRequests (s : State) : Nat :=
  let mine (r : Req) : Bool :=
    match r.kind with | .hostSnp _ => false | _ => r.agent == some hostAgent || r.stream == 96
  (s.coh.txns.filter fun e => match e.2.req with | some r => mine r | none => false).length
    + s.coh.lineq.foldl (fun n e => n + (e.2.filter mine).length) 0

/-- A CXL.mem request of the host goes to a line's home as a request of agent 96; `count` counts what it moves. It waits outside
while the bridge is full, while the home is in reset, and by R283 (log entry 63). -/
def State.bridge (s : State) (addr : Nat) (write : Bool) (count : State → State) (kind : State → Nat → Option ReqKind)
    (keepS : Bool) : State :=
  if ¬ s.hostUp then s
  else if ¬ s.decoded addr then s.hostUr addr write
  else
    let k := lineKey false (addr / 64)
    match kind s k with
    | some kind =>
      let q : Req := ⟨kind, some hostAgent, 96, none, keepS⟩
      if (s.homeUp k || q.isDat) && decide (s.hostRequests < 2048) && !s.mustWait k q then (count s).arrive k q else s
    | none => s

/-- A line that the host reads or writes is counted. -/
def State.lineOut (s : State) : State := s.bump HOST_BYTES_OUT.BYTES 64
def State.lineIn (s : State) : State := s.bump HOST_BYTES_IN.BYTES 64

/-- Whether the host holds a line in A (R277). -/
def State.hostInA (s : State) (k : Nat) : Bool := match s.entry k with | some e => e.owner == some hostAgent | none => false

/-- Whether an entry lists the host. -/
def State.hostListed (s : State) (k : Nat) : Bool := match s.entry k with | some e => e.lists hostAgent | none => false

/-- The request of a MemRd or MemRdData (R301). -/
def readKind (m : Meta) (s : State) (k : Nat) : Option ReqKind :=
  match m with
  | .a => some (if s.hostListed k then .upg else .rdx)
  | .s => some .rds
  | .i => some .rdcur

/-- The request of a MemInv or MemInvNT: the table has none for the MetaValue S (log entry 22). -/
def invKind (m : Meta) (s : State) (k : Nat) : Option ReqKind :=
  match m with
  | .a => some .upg
  | .i => some (if s.hostInA k then .pute else .puts)
  | .s => none

/-- MEMRD (R301). -/
def execMemrd (addr : Nat) (m : Meta) (s : State) : Answer :=
  .next (s.bridge addr false State.lineOut (readKind m) false)

/-- MEMRDDATA (R301). -/
def execMemrddata (addr : Nat) (m : Meta) (s : State) : Answer :=
  .next (s.bridge addr false State.lineOut (readKind m) false)

/-- MEMINV (R301). -/
def execMeminv (addr : Nat) (m : Meta) (s : State) : Answer :=
  .next (s.bridge addr false id (invKind m) (decide (m = .a)))

/-- MEMINVNT (R301). -/
def execMeminvnt (addr : Nat) (m : Meta) (s : State) : Answer :=
  .next (s.bridge addr false id (invKind m) (decide (m = .a)))

/-- MEMWR: PutM where the host holds A, keeping a shared copy with the MetaValue S, else WrFull (R301). -/
def execMemwr (addr : Nat) (m : Meta) (data : List Byte) (poison : Bool) (s : State) : Answer :=
  .next (s.bridge addr true State.lineIn (fun s k => some (if s.hostInA k then .putm data poison else .wrfull data poison))
    (decide (m = .s) && s.hostInA (lineKey false (addr / 64))))

/-- MEMWRPTL: WrPart (R301). -/
def execMemwrptl (addr : Nat) (mask : BitVec 64) (data : List Byte) (poison : Bool) (s : State) : Answer :=
  .next (s.bridge addr true State.lineIn (fun _ _ => some (.wrpart mask.toNat data poison)) false)

/-- MEMSPECRD is accepted with no effect (R300). -/
def execMemspecrd (_addr : Nat) (s : State) : Answer := .next s

/-- The back-invalidation of a line that is on its way leaves the channel. -/
def State.takeBisnp (s : State) (k : Nat) : State :=
  match s.coh.net.find? fun m => match m with | .bisnp k' _ => k' == k | _ => false with
  | some m => s.take m
  | none => s

/-- BIRSP: the host's answer is a snoop answer of agent 96 (R302). -/
def execBirsp (l : Line) (st : LState) (s : State) : Answer :=
  .next ((s.takeBisnp l.key).answer l.key hostAgent st false none)

/-- Whether DIR_HOST_TMO.US have passed since the back-invalidation (R302). -/
def State.hostLate (s : State) (k : Nat) (t : Txn) : Bool :=
  t.waiting.contains hostAgent && decide (t.sentAt + s.rdMax DIR_HOST_TMO.US 60000000 (s.home k) ≤ s.us)

/-- BIRSP_TIMEOUT: no answer within DIR_HOST_TMO.US; the host is taken as I; a line it held in A, or whose entry could not be read, is poisoned (R299,
R302). -/
def execBirspTimeout (l : Line) (s : State) : Answer :=
  let k := l.key
  .next <| match s.txn k with
  | none => s
  | some t =>
    if s.hostLate k t then
      let n := s.home k
      let inA := s.hostInA k || decide (t.why = .recover)
      let s := (s.takeBisnp k).raise DIR_INT_STATUS.HOST_TMO n
      let s := if inA then s.poisonLine k stHostLost hostAgent
        else
          let s := ((s.wr DIR_ERR.STATUS stHostLost n).wr DIR_ERR.AGENT hostAgent n).wr DIR_ERR.HOSTMEM 0 n
          ((s.wr DIR_ERR.VALID 1 n).wr DIR_ERR_ADDR.LINE (keyAddr k) n).raise DIR_INT_STATUS.ERR n
      let s := match s.txn k with
        | some t => s.setTxn k { t with mem := t.mem.map fun (d : List Byte × Bool) => (d.1, d.2 || inA) }
        | none => s
      s.answer k hostAgent .i false none
    else s

/-- BICONFLICT: the handshake is acknowledged; the home's order of arrival settles the conflict (R301). -/
def execBiconflict (l : Line) (s : State) : Answer := .next (s.post (.toHost l.key "BIConflictAck"))

/-! ## CXL.cache snoops and answers (R303) -/

/-- A host snoop reaches HD0's home of a host-memory line: it is taken in its turn for the line (R281, R303, log entry
154). -/
def State.hostSnoopAt (s : State) (addr : Nat) (kind : SnpKind) : State :=
  let k := lineKey true (addr / 64)
  if s.hostUp && s.homeUp k then s.arrive k ⟨.hostSnp kind, none, 96, none, false⟩ else s

/-- HOST_SNPDATA (R303). -/
def execHostSnpdata (addr : Nat) (s : State) : Answer := .next (s.hostSnoopAt addr .snpS)

/-- HOST_SNPINV (R303). -/
def execHostSnpinv (addr : Nat) (s : State) : Answer := .next (s.hostSnoopAt addr .snpInv)

/-- HOST_SNPCUR (R303). -/
def execHostSnpcur (addr : Nat) (s : State) : Answer := .next (s.hostSnoopAt addr .snpCur)

/-- HOST_CACHE_RESPONSE: the host grants what HD0 asked, with its data, and the on-package grant goes on (R303). -/
def execHostCacheResponse (l : Line) (granted : LState) (data : List Byte) (poison : Bool) (s : State) : Answer :=
  let k := l.key
  .next <| match s.txn k with
  | none => s
  | some t =>
    if keyHost k && t.asked then
      let s := if data.length = 64 then s.putHostLine k data poison else s
      let g := match granted with | .i => getK 0 s.coh.hostGrant k | .s => 1 | _ => 2
      let s := s.setCoh fun c => { c with hostGrant := setK 0 c.hostGrant k g }
      let mem := if data.length = 64 then some (data, poison)
        else if t.needMem then some (s.hostLine k) else t.mem
      (s.setTxn k { t with asked := false, mem := mem }).goOn k
    else s

/-! ## Lookup (R305) -/

/-- The SHARERS field of a lookup. -/
def DirEnt.sharerField (e : DirEnt) : Nat :=
  match e.group with
  | some g => g
  | none => e.sharers.getD 0 127 + e.sharers.getD 1 127 * 128 + e.sharers.getD 2 127 * 16384

/-- A snapshot of a line's entry (R305). -/
def State.lookup (s : State) (n : Nat) (hostMem : Bool) (line : Nat) : State :=
  let k := lineKey hostMem line
  let s := (s.wr DIR_LOOKUP_ADDR.HOSTMEM (b2n hostMem) n).wr DIR_LOOKUP_ADDR.LINE line n
  let e := if s.home k = n then s.entry k else none
  let x := e.getD (.empty 0 0)
  let st := if e.isNone then 0 else if x.owner.isNone then 1 else if x.ownedO then 3 else 2
  let s := ((s.wr DIR_LOOKUP_DATA.STATE st n).wr DIR_LOOKUP_DATA.HIT (b2n e.isSome) n).wr DIR_LOOKUP_DATA.BUSY
    (b2n (e.isSome && (s.txn k).isSome)) n
  let s := ((s.wr DIR_LOOKUP_DATA.MODE (b2n x.group.isSome) n).wr DIR_LOOKUP_DATA.OWNER (x.owner.getD 127) n).wr
    DIR_LOOKUP_DATA.SHARERS x.sharerField n
  ((s.wr DIR_LOOKUP_DATA.WAY x.way n).wr DIR_LOOKUP_DATA.SET (dirSet line) n).wr DIR_LOOKUP_DATA.VALID 1 n

/-- DIR_LOOKUP (R305). -/
def execDirLookup (o : Origin) (n : Fin 2) (hostMem : Bool) (line : BitVec 58) (s : State) : Answer :=
  .next <| s.asReg o (DIR_LOOKUP_ADDR.LINE.addr n 0) fun s => s.lookup n hostMem line.toNat

/-! ## Lost agents (R304) -/

/-- Go on with every line that has a transaction or a waiting request. -/
def State.goOnAll (s : State) : State :=
  s.pump (2 * s.rounds) ((s.coh.txns.map (·.1)) ++ s.coh.lineq.map (·.1))

/-- Drop every message from or to the cores. -/
def fromCore : Msg → Bool
  | .req _ r => match r.agent with | some a => decide (a < 96) | none => decide (r.stream < 96)
  | .snp _ _ _ => true
  | .rsp _ a _ _ => decide (a < 96)
  | .rspd _ a _ _ _ _ => decide (a < 96)
  | .gnt _ a _ _ _ => decide (a < 96)
  | .gntma _ _ => true
  | .cmpd _ st _ _ => decide (st < 96)
  | .cmp _ st => decide (st < 96)
  | .cmpput _ a => decide (a < 96)
  | .retry _ _ _ => true
  | _ => false

/-- An entry without its cores. -/
def DirEnt.noCores (e : DirEnt) : DirEnt :=
  let host := e.owner == some hostAgent
  { e with owner := if host then some hostAgent else none, ownedO := false
           sharers := e.sharers.filter (· == hostAgent), group := e.group.map fun g => g / 4096 * 4096 }

/-- A transaction whose requester is lost goes on only to take the answers it waits for: a read leaves the holders as they
answer, any other has invalidated them. -/
def Txn.orphan (t : Txn) : Txn :=
  let why := match t.req with
    | some r => (match r.kind with | .rds | .rdcur => TxnWhy.dropped | _ => .victim)
    | none => t.why
  { t with req := none, why := why, forLine := none, asked := false, upg := false }

/-- Keep only the requests of agents that are still there: the others leave the queues, the transactions and the ways
that wait for them, and their tokens are free. -/
def State.keepRequests (s : State) (ours : Req → Bool) : State :=
  let s := s.setCoh fun c => { c with
    lineq := (c.lineq.map fun (e : Nat × List Req) => (e.1, e.2.filter ours)).filter fun e => !e.2.isEmpty
    txns := c.txns.map fun (e : Nat × Txn) =>
      let t := { e.2 with forLine := e.2.forLine.filter fun p => ours p.2 }
      (e.1, match t.req with | some r => if ours r then t else t.orphan | none => t) }
  let held (t : Tok) : Bool :=
    ((getK [] s.coh.lineq t.line).any fun r => r.token == some t.token) || s.coh.net.any fun m =>
      match m with
      | .retry k _ x => k == t.line && x == t.token
      | .req k r => k == t.line && r.token == some t.token
      | _ => false
  let s := s.setCoh fun c => { c with
    tokq := (c.tokq.map fun (e : Nat × List Tok) => (e.1, e.2.filter held)).filter fun e => !e.2.isEmpty
    tokUsed := c.tokUsed.filter fun e => c.tokq.any fun q =>
      q.1 / 262144 == e.1 / 8192 && q.2.any fun t => t.token == e.1 % 8192 && held t }
  (s.tokenStats 0).tokenStats 1

/-- Write what is left of an entry: one that names no holder is freed, unless a transaction that goes on has its way. -/
def State.trimEntry (s : State) (k : Nat) (e : DirEnt) : State :=
  if (s.txn k).isSome then s.setEntry k (some e) else s.leaveEntry k e

/-- The cores are gone: every entry loses them, and each line whose owner was a core is poisoned; such a host-memory
line is given back poisoned. -/
def State.dropCores (s : State) : State :=
  let owned := s.coh.dir.filter fun e => match e.2.owner with | some a => decide (a < 96) | none => false
  let s := owned.foldl (fun s e =>
    let s := s.poisonLine e.1 stEcc (e.2.owner.getD 0)
    if keyHost e.1 then
      (s.post (.toHost e.1 "DirtyEvict, poisoned")).setCoh fun c => { c with hostGrant := setK 0 c.hostGrant e.1 0 }
    else s) s
  let s := s.setCoh fun c => { c with
    caches := [], net := c.net.filter fun m => !fromCore m
    txns := c.txns.map fun (e : Nat × Txn) => (e.1, { e.2 with
      waiting := e.2.waiting.filter (· == hostAgent), puts := e.2.puts.filter (· == hostAgent)
      kept := e.2.kept.filter fun p => p.1 == hostAgent }) }
  let s := s.keepRequests fun r => match r.agent with | some a => a == hostAgent | none => decide (96 ≤ r.stream)
  let s := s.coh.dir.foldl (fun s e => s.trimEntry e.1 e.2.noCores) s
  s.goOnAll

/-- CORE_WRITEBACK_TIMEOUT: 2 ms into a core-die reset, the lines still unwritten are lost and poisoned, and the RAS
record counts them (R271, R304). -/
def execCoreWritebackTimeout (s : State) : Answer :=
  .next <|
    if s.rst.busy.contains (3, 0) then
      let lost := (s.coh.dir.filter fun e => match e.2.owner with | some a => decide (a < 96) | none => false).length
      s.dropCores.rasEvent (if lost = 0 then stOK else stEcc) 18 3 0 .reset lost
    else s

/-- RECALL_TIMEOUT: 2 ms into a hub-die reset, recalled lines not answered are poisoned and their entries cleared
(R304). -/
def execRecallTimeout (n : Fin 2) (s : State) : Answer :=
  .next <|
    if s.rst.busy.contains (2, n.val) ∨ s.rst.busy.contains (4, 0) then
      let late := s.coh.txns.filter fun e =>
        decide (e.2.why = .recall) && !(e.2.waiting.isEmpty && e.2.puts.isEmpty) && decide (s.home e.1 = n)
      let s := late.foldl (fun s e =>
        let s := s.poisonLine e.1 stEcc ((e.2.waiting ++ e.2.puts).headD 0)
        s.setTxn e.1 { e.2 with waiting := [], puts := [] }) s
      s.goOnAll
    else s

/-- The host is gone (R304): it leaves every entry, HBM lines it held in A are poisoned, host-memory lines that cores
cache are invalidated and their dirty data discarded, and its requests are dropped. -/
def State.dropHost (s : State) : State :=
  let inA := s.coh.dir.filter fun e => e.2.owner == some hostAgent
  let s := inA.foldl (fun s e => s.poisonLine e.1 stHostLost hostAgent) s
  let s := s.setCoh fun c => { c with
    caches := c.caches.filter fun e => !keyHost (e.1 / 128)
    hostGrant := [], fresh := []
    net := c.net.filter fun m => match m with
      | .req k r => !keyHost k && r.agent != some hostAgent && r.stream != 96
      | .snp k _ _ | .rsp k _ _ _ | .rspd k _ _ _ _ _ | .gntma k _ | .retry k _ _ => !keyHost k
      | .gnt k a _ _ _ => !keyHost k && a != hostAgent
      | .cmpput k a => !keyHost k && a != hostAgent
      | .cmpd k st _ _ => !keyHost k && st != 96
      | .cmp k st => !keyHost k && st != 96
      | .bisnp _ _ | .toHost _ _ => false
    lineq := c.lineq.filter fun e => !keyHost e.1
    txns := (c.txns.map fun (e : Nat × Txn) => (e.1, { e.2 with
      waiting := e.2.waiting.filter (· != hostAgent), puts := e.2.puts.filter (· != hostAgent)
      forLine := e.2.forLine.filter fun p => !keyHost p.1 })).filter fun e => !keyHost e.1 }
  let s := s.keepRequests fun r => r.agent != some hostAgent && r.stream != 96
  let s := s.coh.dir.foldl (fun s e =>
    if keyHost e.1 then s.setEntry e.1 none
    else
      let x := e.2
      s.trimEntry e.1 { x with owner := if x.owner = some hostAgent then none else x.owner
                               sharers := x.sharers.filter (· != hostAgent), group := x.group.map (· % 4096) }) s
  s.goOnAll

end Sys2Proof.Machine
end

