-- ==== Sys2Proof/Machine/Hbm.lean ====
section
/-! DEFINITION. Machine/Hbm.lean: the commands of the stacks, the system caches and the geyser engines (R310 to R335). -/

namespace Sys2Proof.Machine

/-! ## Stacks -/

/-- Lines of a hub's pseudo-channels in service. -/
def State.hubLines (s : State) (n : Nat) : Nat :=
  ((List.range 384).filter fun i => !s.mappedOut (n * 384 + i)).length * 2 ^ 24

/-- HBM_SCRUB_READ: while scrub is enabled and the stack is not in self-refresh, a controller reads a line of its own, uncharged, and rewrites it if corrected
(R311, R312); a pass that has read every line of the hub raises SCRUB_DONE. -/
def execHbmScrubRead (n : Fin 2) (line : Nat) (upset : Fin 3) (s : State) : Answer :=
  .next <|
    if s.on HBM_SCRUB.EN ∧ line * 64 < s.hbmEnd ∧ hubOfPc (s.pcOfLine line) = n.val ∧
        getK false s.mem.selfRef (s.ctrlOf line) = false then
      let s := (s.hbmRead line upset).st
      let seen := setK false s.mem.scrubSeen line true
      let mine (l : Nat) : Bool := decide (hubOfPc (s.pcOfLine l) = n.val)
      if s.hubLines n ≤ (seen.filter fun e => mine e.1).length then
        { s with mem := { s.mem with scrubSeen := seen.filter fun e => !mine e.1 } }.raise HBM_INT_STATUS.SCRUB_DONE n
      else { s with mem := { s.mem with scrubSeen := seen } }
    else s

/-- REFRESH: the next bank of a pseudo-channel is refreshed, unless its stack refreshes itself (R310). -/
def execRefresh (pc : Fin 768) (s : State) : Answer :=
  .next <|
    if getK false s.mem.selfRef (pc / 64) then s
    else { s with mem := { s.mem with refreshed := setK 0 s.mem.refreshed pc ((getK 0 s.mem.refreshed pc + 1) % 64) } }

/-- The stack temperatures are read out (R310): the highest of each hub in HBM_TEMP, the doubled refresh of a stack above
85 °C, and TEMP_HIGH for one. -/
def State.readStacks (s : State) (temps : List Nat) : State :=
  (List.range 2).foldl (fun s n =>
    let ts := (List.range 6).map fun i => temps.getD (6 * n + i) 0
    let s := s.wr HBM_TEMP.MAX_C (min 255 (ts.foldl max 0)) n
    let fast := (List.range 6).foldl (fun m i => setK false m (6 * n + i) (decide (85 < ts.getD i 0))) s.mem.fastRef
    let s := { s with mem := { s.mem with fastRef := fast } }
    if ts.any fun t => decide (85 < t) then s.raise HBM_INT_STATUS.TEMP_HIGH n else s) s

/-- PSEUDO_CHANNEL_POWER_DOWN (R310): a stack in self-refresh has nothing more to power down. -/
def execPseudoChannelPowerDown (pc : Fin 768) (s : State) : Answer :=
  .next <|
    if getK false s.mem.selfRef (pc / 64) then s
    else { s with mem := { s.mem with powerDown := setK false s.mem.powerDown pc true } }

/-- A pseudo-channel is marked FAILED (R314). -/
def State.failPc (s : State) (pc : Nat) : State :=
  if s.mappedOut pc ∨ s.pcFailed pc then s
  else
    (s.wr HBM_FAILED.FAILED (setBit (s.rd HBM_FAILED.FAILED 0 (pc / 64)) (pc % 64) true) 0 (pc / 64)).raise
      HBM_INT_STATUS.FAILED (hubOfPc pc)

/-- PSEUDO_CHANNEL_FAILED (R314). -/
def execPseudoChannelFailed (pc : Fin 768) (s : State) : Answer := .next (s.failPc pc)

/-- HBM_POLICY_WRITE: stored in flash for the next module power-on (R313). -/
def execHbmPolicyWrite (o : Origin) (policy : Bool) (s : State) : Answer :=
  .next (s.asReg o (HBM_MAP.POLICY.addr 0 0) fun s => s.wr HBM_MAP.POLICY (b2n policy))

/-- PARTITION_REFILL: a hub's refill period ends: every partition gains its share, up to its cap, and the writes that waited go
on in turn (R317). -/
def execPartitionRefill (n : Fin 2) (s : State) : Answer :=
  .next <| State.goOnHeld <| (List.range 16).foldl (fun s p =>
    let k := partKey n p
    let gain : Int := (s.rd HBM_PART.MAX 0 p * s.periodBytes / 256 : Nat)
    let cap : Int := (s.rd HBM_PART.BURST_KIB 0 p * 1024 : Nat)
    { s with mem := { s.mem with credit := setK (65536 : Int) s.mem.credit k (min cap (s.credit n p + gain))
                                 charged := setK 0 s.mem.charged k 0 } }) s

/-! ## Ways -/

/-- Whether a way of a mask is disabled, or on its way there (DEDUCED, log entry 184). -/
def State.namesDisabled (s : State) (n ways : Nat) : Bool :=
  (List.range 16).any fun w => bit ways w && (s.wayState n w == 3 || s.leaving n w)

/-- An OFF or PENDING way that a preload or lock names comes to ON (R327). -/
def State.wakeWays (s : State) (n ways : Nat) : State :=
  (List.range 16).foldl (fun s w =>
    if bit ways w ∧ (s.wayState n w = 1 ∨ s.wayState n w = 2) then
      let s := (s.wr SC_WAY_STATE.STATE 0 n 0 w).wr SC_WAY_PWR.OFF_REQ (setBit (s.rd SC_WAY_PWR.OFF_REQ n) w false) n
      (s.raise SC_INT_STATUS.WAKE n).rasEvent stBankWake 4 w 0 .info
    else s) s

/-- The partition of a register's writer (R316). -/
def State.partOfOrigin (s : State) (o : Origin) : Nat :=
  match o with
  | .pf => s.partOf 96
  | .core h _ => s.partOf h
  | .vf v => getK 0 s.mem.pmap (97 + v)
  | .cocoon => s.partOf 99
  | _ => 0

/-- GO starts a preload charged to a partition, unless R324 forbids it. -/
def State.startPreload (s : State) (n ways part : Nat) : State :=
  let base := s.rd SC_PRELOAD_BASE.BASE n
  let len := s.rd SC_PRELOAD_LEN.LEN n
  if s.on SC_PRELOAD_CTRL.BUSY n ∨ 12 < popBits (s.rd SC_LOCK.LOCKED n ||| ways) 16 ∨ s.namesDisabled n ways
      ∨ len % 64 ≠ 0 ∨ s.hbmEnd < base * 64 + len then
    s.wr SC_PRELOAD_CTRL.STATUS stBadDescriptor n
  else
    let s := ((s.wakeWays n ways).wr SC_PRELOAD_CTRL.STATUS stOK n).wr SC_PRELOAD_CTRL.BUSY 1 n
    let s := (s.wr SC_PRELOAD_RESULT.LOADED 0 n).wr SC_PRELOAD_RESULT.SKIPPED 0 n
    { s with mem := { s.mem with
        preload := insK s.mem.preload n (base, base + len / 64, ways + part * 65536)
        sc := s.mem.sc.map fun (e : Nat × ScLine) =>
          (e.1, if e.1 / 16 / 131072 = n then { e.2 with preload := false } else e.2) } }

/-- SC_PRELOAD (R323). -/
def execScPreload (o : Origin) (n : Fin 2) (ways : BitVec 16) (s : State) : Answer :=
  .next <| s.asReg o (SC_PRELOAD_CTRL.GO.addr n 0) fun s => s.startPreload n ways.toNat (s.partOfOrigin o)

/-- One line of a preload (R323); a line that an add buffer holds is served from there, stays there, and is skipped (R319; DEDUCED,
log entry 184). -/
def State.preloadLine (s : State) (n ways part line : Nat) : State :=
  let set := scSet line
  let named := (List.range 16).filter fun w => bit ways w
  let open_ := named.filter fun w => match s.scAt n set w with | some l => !l.preload | none => true
  let here := s.scFind line
  if s.buffered line then s.bump SC_PRELOAD_RESULT.SKIPPED 1 n
  else
  let stay := match here with | some (w, l) => if named.contains w && !l.preload then some w else none | none => none
  let empty := open_.find? fun w => (s.scAt n set w).isNone
  match (stay.or empty).or open_.head? with
  | none => s.bump SC_PRELOAD_RESULT.SKIPPED 1 n
  | some w =>
    let s := match here with
      | some (v, l) =>
        if v = w then s.scPut n set w { l with preload := true, pf := false }
        else
          let s := (s.setSc (eraseK s.mem.sc (scKey n set v))).scEvict n set w
          s.scPut n set w { l with preload := true, pf := false }
      | none =>
        let r := (s.charge line part).hbmRead line 0
        let s := if r.poison then r.st.setPoison line true else r.st
        let s := (s.scEvict n set w).stamped
        s.scPut n set w ⟨line, false, s.mem.stamp, true, false⟩
    s.bump SC_PRELOAD_RESULT.LOADED 1 n

/-- PRELOAD_DONE: the range's lines homed on the hub are in the named ways, which are then locked (R323). -/
def execPreloadDone (n : Fin 2) (s : State) : Answer :=
  .next <| match s.mem.preload.find? (·.1 = n.val) with
  | none => s
  | some e =>
    let n := n.val
    let ways := e.2.2.2 % 65536
    let s := ((List.range (e.2.2.1 - e.2.1)).map (e.2.1 + ·)).foldl (fun s line =>
      if hubOfPc (s.pcOfLine line) = n then s.preloadLine n ways (e.2.2.2 / 65536) line else s) s
    let s := { s with mem := { s.mem with preload := eraseK s.mem.preload n } }
    let s := (s.wr SC_LOCK.LOCKED (s.rd SC_LOCK.LOCKED n ||| ways) n).wr SC_PRELOAD_CTRL.BUSY 0 n
    s.raise SC_INT_STATUS.PRELOAD_DONE n

/-- The named ways are locked as they stand and the others unlocked, unless R324 forbids it. -/
def State.lockWays (s : State) (n ways : Nat) : State :=
  if 12 < popBits ways 16 ∨ s.namesDisabled n ways then s.wr SC_LOCK.REJECT stBadDescriptor n
  else ((s.wakeWays n ways).wr SC_LOCK.LOCKED ways n).wr SC_LOCK.REJECT stOK n

/-- SC_LOCK (R324). -/
def execScLock (o : Origin) (n : Fin 2) (ways : BitVec 16) (s : State) : Answer :=
  .next <| s.asReg o (SC_LOCK.LOCKED.addr n 0) fun s => s.lockWays n ways.toNat

/-- A way's OFF_REQ becomes 1: an ON way becomes PENDING and the cleaner writes back its dirty lines; a locked way is
refused (R326). -/
def State.wayOff (s : State) (n way : Nat) : State :=
  if bit (s.rd SC_LOCK.LOCKED n) way then s.wr SC_WAY_PWR.REJECT stBadDescriptor n
  else
    let s := (s.wr SC_WAY_PWR.OFF_REQ (setBit (s.rd SC_WAY_PWR.OFF_REQ n) way true) n).wr SC_WAY_PWR.REJECT stOK n
    if s.wayState n way = 0 then (s.wr SC_WAY_STATE.STATE 1 n 0 way).cleanWay n way else s

/-- WAY_OFF_REQ (R326). -/
def execWayOffReq (o : Origin) (n : Fin 2) (way : Fin 16) (s : State) : Answer :=
  .next <| s.asReg o (SC_WAY_PWR.OFF_REQ.addr n 0) fun s => s.wayOff n way

/-- A way's OFF_REQ becomes 0: a PENDING way returns to ON, but for one that the hub disables; an OFF way returns to ON, empty
(R326, R329). -/
def State.wayOn (s : State) (n way : Nat) : State :=
  let s := (s.wr SC_WAY_PWR.OFF_REQ (setBit (s.rd SC_WAY_PWR.OFF_REQ n) way false) n).wr SC_WAY_PWR.REJECT stOK n
  if (s.wayState n way = 1 ∧ s.leaving n way = false) ∨ s.wayState n way = 2 then s.wr SC_WAY_STATE.STATE 0 n 0 way else s

/-- WAY_ON_REQ (R326). -/
def execWayOnReq (o : Origin) (n : Fin 2) (way : Fin 16) (s : State) : Answer :=
  .next <| s.asReg o (SC_WAY_PWR.OFF_REQ.addr n 0) fun s => s.wayOn n way

/-- Requests that have selected a way of a hub (R326). -/
def State.wayInFlight (s : State) (n way : Nat) : Bool :=
  s.coh.txns.any fun e => e.2.scWay == some way && e.2.mem.isNone && decide (s.home e.1 = n)

/-- WAY_GATE_CLOSE: the cleaner is done and no request is in flight: the way is emptied and becomes OFF (R326), or DISABLED where
the hub disables it (R329). -/
def execWayGateClose (n : Fin 2) (way : Fin 16) (s : State) : Answer :=
  .next <|
    if s.wayState n way = 1 ∧ ¬ s.wayInFlight n way then
      let s := (s.cleanWay n way).dropWay n way
      if s.leaving n way then s.wayDisabled n way else (s.wr SC_WAY_STATE.STATE 2 n 0 way).raise SC_INT_STATUS.GATE_DONE n
    else s

/-- Clearing a way's bit in SC_WAY_DISABLE returns it to ON and removes its record (R329). -/
def State.reenable (s : State) (n way : Nat) : State :=
  if bit (s.rd SC_WAY_DISABLE.DISABLED n) way then
    let s := s.wr SC_WAY_DISABLE.DISABLED (setBit (s.rd SC_WAY_DISABLE.DISABLED n) way false) n
    { s with mem := { s.mem with wayHist := setK false s.mem.wayHist (n * 16 + way) false } }.wr
      SC_WAY_STATE.STATE 0 n 0 way
  else s

/-- WAY_REENABLE (R329). -/
def execWayReenable (o : Origin) (n : Fin 2) (way : Fin 16) (s : State) : Answer :=
  .next <| s.asReg o (SC_WAY_DISABLE.DISABLED.addr n 0) fun s => s.reenable n way

/-! ## Geyser engines -/

/-- One step of CRC-64/ECMA-182 with a byte, most significant bit first (R332). -/
def crcByte (c : Nat) (b : Byte) : Nat :=
  (List.range 8).foldl (fun c i =>
    let top := bit c 63 != bit b.toNat (7 - i)
    let c := c * 2 % 2 ^ 64
    if top then c ^^^ 0x42F0E1EBA9EA3693 else c) c

/-- The CRC of R332, from a value on. -/
def crcFrom (c : Nat) (bs : List Byte) : Nat := bs.foldl crcByte c

/-- The CRC of R332. -/
def crc64 (bs : List Byte) : Nat := crcFrom 0 bs

/-- The bytes of a geyser pattern for a line (R331). -/
def patternLine (c : GeyCmd) (line : Nat) : List Byte :=
  match c.pattern with
  | 0 => List.replicate 64 0
  | 1 => List.replicate 64 0xFF
  | 2 => ((List.range 8).map fun _ => leBytes 8 c.value).flatten
  | 3 => ((List.range 8).map fun i => leBytes 8 (line * 64 + 8 * i)).flatten
  | _ => (List.range 64).map fun i => BitVec.ofNat 8 (Config.prbsByte (c.value % 2 ^ 31) (line * 64 + i - c.base))

/-- Whether a range meets the protected metadata region (R210). -/
def State.meetsMeta (s : State) (base len : Nat) : Bool :=
  let m := s.rd TIER_META_BASE.BASE * 2 ^ 21
  s.on TIER_CTRL.EN && decide (base < m + 290 * 2 ^ 20) && decide (m < base + len)

/-- Whether a geyser command ends with BAD_DESCRIPTOR (R331). A LENGTH of 0 makes no range. -/
def State.geyBad (s : State) (c : GeyCmd) : Bool :=
  !(c.op == 1 || c.op == 2) || decide (5 ≤ c.pattern)
    || (c.length != 0 && ((c.op == 1 && (c.base % 64 != 0 || c.length % 64 != 0))
      || decide (s.hbmEnd < c.base + c.length) || s.meetsMeta c.base c.length
      || (c.op == 1 && c.pattern == 4 && c.value % 2 ^ 31 == 0)))

/-- The stream of the engine of a line's channel (R283, R307). -/
def State.geyStream (s : State) (line : Nat) : Nat := 1152 + s.pcOfLine line / 2

/-- GEY_DONE shows the oldest completion that has not been read (R333). -/
def State.geyView (s : State) : State :=
  match s.mem.geyDone with
  | [] => ((s.wr GEY_DONE.STATUS 0).wr GEY_DONE.TAG 0).wr GEY_DONE.VALID 0
  | d :: _ => ((s.wr GEY_DONE.STATUS d.status).wr GEY_DONE.TAG d.tag).wr GEY_DONE.VALID 1

/-- A completion record is posted (R333). -/
def State.geyPost (s : State) (status tag crc : Nat) : State :=
  let s := { s with mem := { s.mem with geyDone := s.mem.geyDone ++ [(⟨status, tag, crc⟩ : GeyDone)] } }.geyView
  if status = stOK then s.raise GEY_INT_STATUS.DONE else s.raise GEY_INT_STATUS.ERR

/-- GEY_GO queues GEY_CMD0 to GEY_CMD3; ignored while 16 commands are queued (R331). -/
def State.geyGo (s : State) : State :=
  if 16 ≤ s.mem.geyq.length then s
  else
    let c : GeyCmd := ⟨s.rd GEY_CMD0.OP, s.rd GEY_CMD0.PATTERN, s.rd GEY_CMD0.PART, s.rd GEY_CMD0.TAG,
      s.rd GEY_CMD1.BASE, s.rd GEY_CMD2.LENGTH, s.rd GEY_CMD3.VALUE⟩
    let s := { s with mem := { s.mem with geyq := s.mem.geyq ++ [c] } }
    s.wr GEY_GO.FULL (b2n (decide (16 ≤ s.mem.geyq.length)))

/-- FILL: a GEY_GO with OP FILL in GEY_CMD0 (R331). -/
def execFill (o : Origin) (s : State) : Answer :=
  .next <| s.asReg o (GEY_GO.GO.addr 0 0) fun s => if s.rd GEY_CMD0.OP = 1 then s.geyGo else s

/-- CRC: a GEY_GO with OP CRC in GEY_CMD0 (R331). -/
def execCrc (o : Origin) (s : State) : Answer :=
  .next <| s.asReg o (GEY_GO.GO.addr 0 0) fun s => if s.rd GEY_CMD0.OP = 2 then s.geyGo else s

/-- Whether a command's range meets a FAILED pseudo-channel, whose engine does not take the command (R314): it then ends with
ECC_UNCORRECTED, and what it fills there is dropped as other writes are (DESIGN CHOICE, log entry 185). -/
def State.meetsFailed (s : State) (c : GeyCmd) : Bool :=
  (keysOf c.base c.length).any fun k => s.pcFailed (s.pcOfLine (keyAddr k))

/-- Fill lines with a command's pattern, as WrFull requests charged to its partition. -/
def State.fillLines (s : State) (c : GeyCmd) (line : Nat) : Nat → State
  | 0 => s
  | n + 1 =>
    (s.engineWrite (lineKey false line) (s.geyStream line) c.part 0 (patternLine c line)).fillLines c (line + 1) n

/-- GEYSER_COMPLETE: the oldest queued command is carried out and its completion record posted (R331 to R333); it waits
while a line of its range is busy at its home or its partition has no credit. -/
def execGeyserComplete (s : State) : Answer :=
  .next <| match s.mem.geyq with
  | [] => s
  | c :: rest =>
    let pop (s : State) : State := { s with mem := { s.mem with geyq := rest } }.wr GEY_GO.FULL 0
    if s.geyBad c then (pop s).geyPost stBadDescriptor c.tag 0
    else if c.length = 0 then (pop s).geyPost stOK c.tag 0
    else
      let p := s.prepare (keysOf c.base c.length) (c.op == 1)
      if ¬ p.2 ∨ ¬ s.creditFor (keysOf c.base c.length) c.part then p.1
      else if c.op = 1 then
        let t := (pop p.1).fillLines c (c.base / 64) (c.length / 64)
        t.geyPost (if s.meetsFailed c then stEcc else stOK) c.tag 0
      else
        let r := (pop p.1).rangeRead c.base c.length (s.geyStream (c.base / 64)) c.part
        if r.poison || s.meetsFailed c then r.st.geyPost stEcc c.tag 0 else r.st.geyPost stOK c.tag (crc64 r.data)

/-- A read of GEY_DONE removes the completion it returns and latches its CRC (R333). -/
def State.geyPop (s : State) : State :=
  match s.mem.geyDone with
  | [] => s
  | d :: rest => ({ s with mem := { s.mem with geyDone := rest } }.wr GEY_CRC.CRC d.crc).geyView

/-- GEY_DONE: the read of GEY_DONE, with the word it returns. -/
def execGeyDone (o : Origin) (s : State) : Answer :=
  .next <| s.asReg o (GEY_DONE.STATUS.addr 0 0) fun s =>
    let r : Resp := ⟨leBytes 8 (s.recWord [GEY_DONE.STATUS, GEY_DONE.TAG, GEY_DONE.VALID] 0), false, false⟩
    { s.geyPop with resp := r }

/-- A start of GEY_TEST_CTRL (R334): refused with BAD_DESCRIPTOR where the table forbids it, while a test runs, or with a
reserved pattern. -/
def State.geyTestGo (s : State) (n pc mode pattern : Nat) : State :=
  let ours := decide (pc < 768) && decide (hubOfPc pc = n)
  let ok := ours && !s.on GEY_TEST_CTRL.BUSY n && decide (pattern < 5)
    && (if mode = 1 then !s.mappedOut pc else mode == 2 && (s.mappedOut pc || s.pcFailed pc))
  if ok then
    let s := ((s.wr GEY_TEST_CTRL.BUSY 1 n).wr GEY_TEST_CTRL.REJECT stOK n)
    { s with mem := { s.mem with geyTest := insK s.mem.geyTest n (pc, mode, pattern) } }
  else s.wr GEY_TEST_CTRL.REJECT stBadDescriptor n

/-- READ_CHECK (R334). -/
def execReadCheck (o : Origin) (n : Fin 2) (pc : Fin 1024) (s : State) : Answer :=
  .next <| s.asReg o (GEY_TEST_CTRL.GO.addr n 0) fun s =>
    ((s.wr GEY_TEST_CTRL.PC pc n).wr GEY_TEST_CTRL.MODE 1 n).geyTestGo n pc 1 0

/-- WRITE_CHECK (R334). -/
def execWriteCheck (o : Origin) (n : Fin 2) (pc : Fin 1024) (pattern : Fin 8) (s : State) : Answer :=
  .next <| s.asReg o (GEY_TEST_CTRL.GO.addr n 0) fun s =>
    (((s.wr GEY_TEST_CTRL.PC pc n).wr GEY_TEST_CTRL.MODE 2 n).wr GEY_TEST_CTRL.PATTERN pattern n).geyTestGo n pc 2 pattern

/-- What READ_CHECK found (R334): the controllers' counts, HBM_ERR_LAST and the interrupt of an uncorrectable error (R311). -/
def State.checkFound (s : State) (n pc row bank : Nat) (e : CheckErrors) : State :=
  let s := s.bump HBM_ERR_CORR.COUNT e.corr.toNat n
  if e.uncorr.toNat = 0 then s
  else
    let s := (s.bump HBM_ERR_UNCORR.COUNT e.uncorr.toNat n).wr HBM_ERR_LAST.PC pc n
    let s := ((s.wr HBM_ERR_LAST.BANK bank n).wr HBM_ERR_LAST.ROW row n).wr HBM_ERR_LAST.STATUS stEcc n
    (s.wr HBM_ERR_LAST.VALID 1 n).raise HBM_INT_STATUS.ECC_UNCORR n

/-- A whole pseudo-channel is charged to partition 0 of a hub (R334). -/
def State.chargeCheck (s : State) (n : Nat) : State :=
  let k := partKey n 0
  let s := s.bump HBM_PART_BYTES.BYTES (2 ^ 30) n 0
  { s with mem := { s.mem with
    credit := setK (65536 : Int) s.mem.credit k (s.credit n 0 - 2 ^ 30)
    charged := setK 0 s.mem.charged k (getK 0 s.mem.charged k + 2 ^ 30) } }

/-- GEY_TEST_DONE: the test's result, the sum of its errors and the first failing place (R334). READ_CHECK is charged to
partition 0, and its ECC findings count; WRITE_CHECK leaves its pattern in the tested pseudo-channel. -/
def execGeyTestDone (n : Fin 2) (errors : CheckErrors) (row : BitVec 14) (bank : BitVec 6) (col : BitVec 10) (s : State) :
    Answer :=
  .next <| match s.mem.geyTest.find? (·.1 = n.val) with
  | none => s
  | some e =>
    let n := n.val
    let s := { s with mem := { s.mem with geyTest := eraseK s.mem.geyTest n } }
    let s := if e.2.2.1 = 1 then (s.chargeCheck n).checkFound n e.2.1 row.toNat bank.toNat errors
      else { s with mem := { s.mem with testMem := insK s.mem.testMem e.2.1 e.2.2.2 } }
    let s := ((s.wr GEY_TEST_RESULT.ERRORS errors.count n).wr GEY_TEST_RESULT.ROW row.toNat n).wr
      GEY_TEST_RESULT.BANK bank.toNat n
    ((s.wr GEY_TEST_RESULT.COL col.toNat n).wr GEY_TEST_RESULT.DONE 1 n).wr GEY_TEST_CTRL.BUSY 0 n

end Sys2Proof.Machine
end

