-- ==== Sys2Proof/Machine/Tier.lean ====
section
/-! DEFINITION. Machine/Tier.lean: the tier manager (R208 to R240): its tables, the pool, the commands, the copies,
erases and checksums. -/

namespace Sys2Proof.Machine

/-! ## Tables and pool -/

/-- Change the tier manager. -/
def State.setTier (s : State) (f : Tier → Tier) : State := { s with tier := f s.tier }

/-- An object-table entry. -/
def State.obj (s : State) (i : Nat) : Obj := getK Obj.free s.tier.objs i

/-- Change an entry. -/
def State.setObj (s : State) (i : Nat) (f : Obj → Obj) : State :=
  s.setTier fun t => { t with objs := setK Obj.free t.objs i (f (s.obj i)) }

/-- A context's record, if it exists. -/
def State.ctx (s : State) (c : Nat) : Option Ctx := (s.tier.ctxs.find? (·.1 = c)).map (·.2)

/-- Whether a context exists and belongs to a function (R214, R494). -/
def State.ownsCtx (s : State) (func c : Nat) : Bool :=
  match s.ctx c with | some r => r.func == func | none => false

/-- The partition a context's copies, erases and checksums are charged to (R215). -/
def State.ctxPart (s : State) (c : Nat) : Nat := match s.ctx c with | some r => r.part | none => 0

/-- Entries of the object table (R210). -/
def tierEntries : Nat := 4194304

/-- Contexts of the context table (R214). -/
def tierContexts : Nat := 1048576

/-- The handle of an entry (R216). -/
def State.handleOf (s : State) (i : Nat) : Nat := i + (s.obj i).gen * 2 ^ 22

/-- The entry of a valid handle (R216). -/
def State.handleEntry (s : State) (h : Nat) : Option Nat :=
  let i := h % 2 ^ 22
  let o := s.obj i
  if o.state ≠ 0 ∧ o.state ≠ 6 ∧ o.gen = h / 2 ^ 22 then some i else none

/-- Whether an entry's object is sealed: RESIDENT, EVICTING, ABSENT or FETCHING. -/
def Obj.sealed (o : Obj) : Bool := 2 ≤ o.state && o.state ≤ 5

/-- The pool's bounds (R211). -/
def State.poolBase (s : State) : Nat := s.rd TIER_POOL_BASE.BASE * 65536
def State.poolLimit (s : State) : Nat := s.rd TIER_POOL_LIMIT.LIMIT * 65536

/-- Put an extent into a list ordered by address. -/
def insertExt (e : Nat × Nat) : List (Nat × Nat) → List (Nat × Nat)
  | [] => [e]
  | x :: l => if e.1 ≤ x.1 then e :: x :: l else x :: insertExt e l

/-- The extents of the pool that are held, or released and not yet erased, in address order. -/
def State.heldExtents (s : State) : List (Nat × Nat) :=
  let objs := s.tier.objs.filterMap fun e => if e.2.units = 0 then none else some (e.2.t1, e.2.units)
  (objs ++ s.tier.exts.map fun e => (e.addr, e.units)).foldl (fun l e => insertExt e l) []

/-- The free ranges between held extents, as (address, units). -/
def gaps (limit : Nat) : Nat → List (Nat × Nat) → List (Nat × Nat)
  | at_, [] => if at_ < limit then [(at_, (limit - at_) / 65536)] else []
  | at_, (a, u) :: l =>
    (if at_ < a then [(at_, (a - at_) / 65536)] else []) ++ gaps limit (max at_ (a + u * 65536)) l

/-- The free ranges of the pool. -/
def State.freeRanges (s : State) : List (Nat × Nat) := gaps s.poolLimit s.poolBase s.heldExtents

/-- The lowest free range that fits (R211); no units take none and have address 0 (R492). -/
def State.findExtent (s : State) (units : Nat) : Option Nat :=
  if units = 0 then some 0 else (s.freeRanges.find? fun g => units ≤ g.2).map (·.1)

/-- Units a context holds in T1: its entries' extents, with those not yet erased (R213, R215). -/
def State.ctxUnits (s : State) (c : Nat) : Nat :=
  s.tier.objs.foldl (fun n e => if e.2.state ≠ 0 ∧ e.2.ctx = c then n + e.2.units else n) 0
    + s.tier.exts.foldl (fun n e => if e.entry.isSome ∧ e.ctx = c then n + e.units else n) 0

/-- Whether a context has room for units more under its quota (R215). -/
def State.quotaFits (s : State) (c units : Nat) : Bool :=
  match s.ctx c with
  | some r => r.quota == 2 ^ 40 - 1 || decide (s.ctxUnits c + units ≤ r.quota)
  | none => false

/-- The entries that are not FREE. -/
def State.objUsed (s : State) : Nat := (s.tier.objs.filter fun e => e.2.state != 0).length

/-- The entry at the head of the free queue (R501). -/
def State.freeEntry (s : State) : Option Nat :=
  let t := s.tier
  let n := t.objs.length + t.tail.length + 1
  match (List.range n).find? fun k =>
      t.cursor + k < tierEntries && (s.obj (t.cursor + k)).state == 0 && !t.tail.contains (t.cursor + k) with
  | some k => some (t.cursor + k)
  | none => t.tail.head?

/-- Take the entry at the head of the free queue. -/
def State.takeEntry (s : State) (i : Nat) : State :=
  s.setTier fun t =>
    if t.tail.contains i then { t with tail := t.tail.filter (· != i) } else { t with cursor := i + 1 }

/-- The registers that show the tables and the pool (R239); a low mark crossed downward is raised. -/
def State.tierView (s : State) : State :=
  let oldFree := s.rd TIER_T1_FREE.UNITS
  let oldUsed := s.rd TIER_OBJ_USED.COUNT
  let g := s.freeRanges
  let free := g.foldl (fun n e => n + e.2) 0
  let used := s.objUsed
  let s := (s.wr TIER_OBJ_USED.COUNT used).wr TIER_CTX_USED.COUNT s.tier.ctxs.length
  let s := (s.wr TIER_T1_FREE.UNITS free).wr TIER_T1_LARGEST.UNITS (g.foldl (fun n e => max n e.2) 0)
  let s := s.wr TIER_ERASE_PENDING.UNITS (s.tier.exts.foldl (fun n e => n + e.units) 0)
  let mu := s.rd TIER_LOW_MARK.UNITS
  let me := s.rd TIER_LOW_MARK.ENTRIES
  let s := if free < mu ∧ mu ≤ oldFree then s.raise TIER_INT_STATUS.UNITS_LOW else s
  if tierEntries - used < me ∧ me ≤ tierEntries - oldUsed then s.raise TIER_INT_STATUS.TABLE_LOW else s

/-! ## Results (R220) -/

/-- RESULT codes. -/
def rDone : Nat := 0
def rCancelled : Nat := 1
def rRetained : Nat := 2
def rJoined : Nat := 3
def rSuperseded : Nat := 4

/-- A tier command's outcome (R220). -/
structure TierRes where
  status : Nat
  result : Nat
  detail : Nat
  handle : Nat
  t1 : Nat

/-- OK with a RESULT. -/
def TierRes.ok (handle : Nat) (result : Nat := 0) (t1 : Nat := 0) : TierRes := ⟨stOK, result, 0, handle, t1⟩

/-- A failure with its DETAIL. -/
def TierRes.fail (status detail : Nat) (handle : Nat := 0) : TierRes := ⟨status, 0, detail, handle, 0⟩

/-- A command completes: a failure is recorded in TIER_ERR, and the result record goes to whoever asked (R218, R220). -/
def State.tierDone (s : State) (cmd : Nat) (reply : TierReply) (r : TierRes) : State :=
  let s := if r.status = stOK then s
    else
      let s := ((s.wr TIER_ERR.STATUS r.status).wr TIER_ERR.CMD cmd).wr TIER_ERR.DETAIL r.detail
      ((s.wr TIER_ERR.HANDLE r.handle).wr TIER_ERR.VALID 1).raise TIER_INT_STATUS.ERR
  let q0 := r.status + r.result * 2 ^ 8 + r.detail * 2 ^ 12 + r.handle * 2 ^ 32
  match reply with
  | .regs => ((s.wr TIER_RESULT0.Q q0).wr TIER_RESULT1.Q r.t1).wr TIER_CMD_GO.BUSY 0
  | .ring rg slot => s.complete rg slot r.status q0 r.t1
  | .direct f => s.send (.tierResult f q0 r.t1)
  | .loader => s

/-! ## Releasing extents (R230, R232) -/

/-- Whether what a move resolved to takes in an address of the extent of an entry that begins at a base. -/
def ObjLoc.reads (x : ObjLoc) (i base addr : Nat) : Bool :=
  match x with
  | .t1 e a n => e == i && a == base && decide (addr < a + cdiv n 65536 * 65536)
  | _ => false

/-- The moves that resolved to an entry's extent at a base and read the part of it from an address on (R231). -/
def State.t1Readers (s : State) (i base addr : Nat) : Nat :=
  (s.clus.flatMap fun e => [e.2.mov0, e.2.mov1]).countP fun m =>
    match m.cur with
    | some v => (match v.obj with | some x => x.reads i base addr | none => false)
    | none => false

/-- Part of an entry's extent is released: it is erased once no move that resolved to that extent reads it. -/
def State.release (s : State) (i addr units : Nat) : State :=
  if units = 0 then s
  else
    let o := s.obj i
    s.setTier fun t => { t with exts := t.exts ++ [⟨addr, units, some i, o.ctx, o.t1, s.t1Readers i o.t1 addr⟩] }

/-- An entry gives up its whole extent: T1REFS keeps counting the moves that read it (R230). -/
def State.releaseAll (s : State) (i : Nat) : State :=
  let o := s.obj i
  (s.release i o.t1 o.units).setObj i fun o => { o with t1 := 0, units := 0 }

/-- The object of an entry leaves T1: its extent is released, and a checksum that waited for it has none to compute (DESIGN
CHOICE, log entry 25). -/
def State.leaveT1 (s : State) (i : Nat) : State :=
  let h := s.handleOf i
  let cut := (s.obj i).sums.filter fun x => x.1 != 0x07
  let s := (s.releaseAll i).setObj i fun o => { o with sums := [] }
  cut.foldl (fun s x => s.tierDone x.1 x.2 (.fail stBadDescriptor 3 h)) s

/-- Whether a released extent belongs to an entry. -/
def State.extOf (s : State) (i : Nat) : Bool := s.tier.exts.any fun e => e.entry == some i

/-- An entry that counts as erased is FREE, with its generation advanced (R216, R228). -/
def Obj.erased (o : Obj) : Obj := { Obj.free with gen := if o.gen = 1023 then 1 else o.gen + 1 }

/-- An ERASING entry with nothing left to erase and, where it had no extent, no reader of its T2 copy returns to FREE:
its generation advances and it joins the tail of the free queue; the FREE completes (R216, R228, R501). -/
def State.settleErasing (s : State) (i : Nat) (hadExt : Bool) : State :=
  let o := s.obj i
  if o.state = 6 ∧ ¬ s.extOf i ∧ (hadExt ∨ o.t2refs = 0) then
    let s := s.setObj i Obj.erased
    let s := s.setTier fun t => { t with tail := t.tail ++ [i] }
    let h := i + o.gen * 2 ^ 22
    (o.waits.foldl (fun s w => s.tierDone w.cmd w.reply (.ok h)) s).tierView
  else s

/-- A move stops reading the T1 extent at `base` of an entry, of which it read an object of `len` bytes (R227, R230): the
released parts that it read lose a reader. -/
def State.dropT1Ref (s : State) (i base len : Nat) : State :=
  let s := s.setObj i fun o => { o with t1refs := o.t1refs - 1 }
  let drop (e : Ext) : Ext :=
    if e.entry = some i ∧ (ObjLoc.t1 i base len).reads i e.base e.addr then { e with refs := e.refs - 1 } else e
  s.setTier fun t => { t with exts := t.exts.map drop }

/-- RELEASE_T2 waits for T2REFS to reach 0 (R230). -/
def State.settleT2 (s : State) (i : Nat) : State :=
  if (s.obj i).t2refs = 0 then
    let ready := (s.obj i).waits.filter fun w => w.cmd == 0x0A
    let s := s.setObj i fun o => { o with waits := o.waits.filter fun w => w.cmd != 0x0A }
    ready.foldl (fun s w => s.tierDone w.cmd w.reply (.ok (s.handleOf i))) s
  else s

/-- A move stops reading the T2 copy of an entry. -/
def State.dropT2Ref (s : State) (i : Nat) : State :=
  ((s.setObj i fun o => { o with t2refs := o.t2refs - 1 }).settleT2 i).settleErasing i false

/-! ## Lines in bulk -/

/-- The keys of the lines of a range that some cache, the directory, a system cache or an add buffer holds. -/
def State.busyKeys (s : State) (addr len : Nat) : List Nat :=
  let inside (k : Nat) : Bool := !keyHost k && decide (addr ≤ keyAddr k * 64) && decide (keyAddr k * 64 < addr + len)
  let ks := s.coh.dir.map (·.1) ++ s.coh.txns.map (·.1) ++ s.coh.lineq.map (·.1)
    ++ (s.mem.sc.map fun e => lineKey false e.2.line) ++ (s.mem.addbuf.flatMap fun e => e.2.map (lineKey false))
  (ks.filter inside).eraseDups

/-- Bytes of a range that are homed at a hub, in granules of 256 bytes (R308). -/
def State.hubBytes (s : State) (addr len hub : Nat) : Nat :=
  (List.range (len / 256)).foldl (fun n i => if hubOfPc (s.place (addr + 256 * i)).pc = hub then n + 256 else n) 0

/-- Charge bytes of HBM traffic to a partition at a hub (R316). -/
def State.chargeBytes (s : State) (hub p n : Nat) : State :=
  let k := partKey hub p
  let s := s.bump HBM_PART_BYTES.BYTES n hub p
  { s with mem := { s.mem with
    credit := setK (65536 : Int) s.mem.credit k (s.credit hub p - n)
    charged := setK 0 s.mem.charged k (getK 0 s.mem.charged k + n) } }

/-- The geyser engines fill a range of whole units with zeros (R232): every copy is invalidated, and the bytes are
charged to a partition. -/
def State.zeroHbm (s : State) (addr len part : Nat) : State :=
  let s := (s.busyKeys addr len).foldl (fun s k =>
    s.engineWrite k (s.geyStream (keyAddr k)) part 0 (List.replicate 64 0)) s
  let s := { s with
    hbm := memErase s.hbm addr (addr + len)
    hbmPoison := dropRange s.hbmPoison (addr / 64) ((addr + len) / 64)
    mem := { s.mem with err := dropRange s.mem.err (addr / 64) ((addr + len) / 64) } }
  (s.chargeBytes 0 part (s.hubBytes addr len 0)).chargeBytes 1 part (s.hubBytes addr len 1)

/-! ## Enabling and disabling (R212, R213) -/

/-- Size of the metadata region (R210). -/
def metaSize : Nat := 290 * 2 ^ 20

/-- Base of the metadata region. -/
def State.metaBase (s : State) : Nat := s.rd TIER_META_BASE.BASE * 2 ^ 21

/-- Why a write that would enable the tier manager is rejected, if it is (R212); of several conditions the lowest code
(R485). -/
def State.tierReject (s : State) : Nat :=
  let m := s.metaBase
  let full := decide (s.poolBase < s.poolLimit)
  if full ∧ s.poolBase < m + metaSize ∧ m < s.poolLimit then stBadDescriptor
  else if s.hbmEnd < s.poolLimit ∨ s.hbmEnd < m + metaSize then stBadDescriptor
  else if ¬ full then stZeroWindow
  else stOK

/-- Bytes 0x00 to 0x37 of the table header (R213). -/
def State.headerHead (s : State) : List Byte :=
  leBytes 8 0x3152444852454954 ++ leBytes 8 (s.rd TIER_SESSION.SESSION) ++ leBytes 8 s.metaBase
    ++ leBytes 8 s.poolBase ++ leBytes 8 s.poolLimit ++ List.replicate 16 0

/-- The table header. -/
def State.tierHeader (s : State) : List Byte := s.headerHead ++ leBytes 8 (crc64 s.headerHead)

/-- The header's line. -/
def State.headerLine (s : State) : Nat := (s.metaBase + 288 * 2 ^ 20) / 64

/-- The 64-byte image of an entry (R492). -/
def State.entryImage (s : State) (i : Nat) : List Byte :=
  let o := s.obj i
  let moving := o.state == 3 || o.state == 5
  leBytes 8 (o.state + b2n (moving && o.intentIn) * 2 ^ 3 + b2n o.t2valid * 2 ^ 4 + b2n o.crc.isSome * 2 ^ 5
      + o.gen * 2 ^ 8 + o.ctx * 2 ^ 24 + o.pins * 2 ^ 48)
    ++ leBytes 8 (o.len + o.units * 2 ^ 40) ++ leBytes 8 (o.t1 + o.slotRefs * 2 ^ 40) ++ leBytes 8 o.t2addr
    ++ leBytes 8 (o.pasid + b2n o.pv * 2 ^ 20 + o.t1refs * 2 ^ 32 + o.t2refs * 2 ^ 48) ++ leBytes 8 (o.crc.getD 0)
    ++ List.replicate 16 0

/-! ## The tables in HBM (R210, R213) -/

/-- Size of the object and context tables (R210). -/
def tablesSize : Nat := 288 * 2 ^ 20

/-- Objects that a context holds (R213, R215). -/
def State.ctxObjs (s : State) (c : Nat) : Nat := s.tier.objs.countP fun e => e.2.state != 0 && e.2.ctx == c

/-- The 32 bytes of a context's record (R210, R215): in four quadwords its identifier, function and partition with a bit that
tells that it holds a context, its quota, its units and its object count (DESIGN CHOICE, log entry 109). -/
def State.ctxBytes (s : State) (e : Nat × Ctx) : List Byte :=
  leBytes 8 (e.1 + e.2.func * 2 ^ 24 + e.2.part * 2 ^ 32 + 2 ^ 63) ++ leBytes 8 e.2.quota ++ leBytes 8 (s.ctxUnits e.1)
    ++ leBytes 8 (s.ctxObjs e.1)

/-- The lines of the tables that hold anything, by their address: an entry's line holds its image of R492, and the contexts
stand in the order of their identifiers (DESIGN CHOICE, log entry 109). -/
def State.tableLines (s : State) : List (Nat × List Byte) :=
  let m := s.metaBase
  let recs := s.tier.ctxs.map s.ctxBytes
  s.tier.objs.map (fun e => (m + 64 * e.1, s.entryImage e.1))
    ++ (List.range (cdiv recs.length 2)).map fun j =>
      (m + 2 ^ 28 + 64 * j, ((recs.getD (2 * j) []) ++ (recs.getD (2 * j + 1) []) ++ List.replicate 64 0).take 64)

/-- The tables stand in their region of HBM, for whoever reads it while the tier manager is disabled (R210). -/
def State.putTables (s : State) : State :=
  let m := s.metaBase
  let lines := s.tableLines
  { s with
    hbm := lines.foldl (fun h l => memWrite h l.1 l.2) (memErase s.hbm m (m + tablesSize))
    hbmPoison := lines.foldl (fun h l => setK false h (l.1 / 64) false) s.hbmPoison }

/-- An entry as its line has it (R492). -/
def entryOf (b : List Byte) : Obj :=
  let q (n : Nat) : Nat := leNat ((b.drop (8 * n)).take 8)
  { Obj.free with
    state := bits (q 0) 0 3, intentIn := bit (q 0) 3, t2valid := bit (q 0) 4, crc := if bit (q 0) 5 then some (q 5) else none
    gen := bits (q 0) 8 10, ctx := bits (q 0) 24 24, pins := bits (q 0) 48 16, len := bits (q 1) 0 40, units := bits (q 1) 40 24
    t1 := bits (q 2) 0 40, slotRefs := bits (q 2) 40 16, t2addr := q 3, pasid := bits (q 4) 0 20, pv := bit (q 4) 20
    t1refs := bits (q 4) 32 16, t2refs := bits (q 4) 48 16 }

/-- What the region's lines hold: the entries, the contexts with the units and objects each is said to have, the former
extents of the entries whose line is as it was written, and whether a line reads poisoned. -/
structure TableRead where
  st : State
  objs : SMap Obj
  ctxs : List (Nat × Ctx × Nat × Nat)
  exts : List Ext
  poison : Bool

/-- The contexts of a line of the context table: those its records hold, with the counts they give. -/
def ctxsOf (b : List Byte) : List (Nat × Ctx × Nat × Nat) :=
  [b.take 32, b.drop 32].filterMap fun x =>
    let q (n : Nat) : Nat := leNat ((x.drop (8 * n)).take 8)
    if bit (q 0) 63 then some (bits (q 0) 0 24, ⟨bits (q 0) 24 8, bits (q 0) 32 4, bits (q 1) 0 40⟩, q 2, q 3) else none

/-- One line of the tables is read: where it holds what the tier manager wrote, its entry or contexts are as they were, else
they are what the line spells (R213). -/
def State.readTable (s : State) (x : TableRead) (line : Nat) : TableRead :=
  let m := s.metaBase
  let a := line * 64
  let was : List Byte := (s.tableLines.find? fun (l : Nat × List Byte) => l.1 == a).elim (List.replicate 64 0) (·.2)
  let r : LineRead := x.st.rangeRead a 64 98 0
  let x : TableRead := { x with st := r.st, poison := x.poison || r.poison }
  if r.data = was then x
  else if a < m + 2 ^ 28 then
    let i := (a - m) / 64
    { x with objs := setK Obj.free x.objs i (entryOf r.data), exts := x.exts.filter fun e => e.entry != some i }
  else
    let j := 2 * ((a - m - 2 ^ 28) / 64)
    let gone := ((s.tier.ctxs.drop j).take 2).map (·.1)
    { x with ctxs := (x.ctxs.filter fun c => !gone.contains c.1) ++ ctxsOf r.data }

/-- The lines of the region that may hold something else than zero, be poisoned, or be held in a cache. -/
def State.tableKeys (s : State) : List Nat :=
  let lo := s.metaBase / 64
  let hi := lo + metaSize / 64
  let inside (l : Nat) : Bool := decide (lo ≤ l) && decide (l < hi)
  let held : List Nat := s.hbm.map fun (e : Nat × Byte) => e.1 / 64
  let bad : List Nat := s.mem.err.map (·.1) ++ s.hbmPoison.map (·.1)
  let own : List Nat := s.tableLines.map fun (e : Nat × List Byte) => e.1 / 64
  (own ++ (held ++ bad).filter inside ++ (s.busyKeys s.metaBase metaSize).map keyAddr).eraseDups

/-- Whether a line of the region lies on a pseudo-channel that is FAILED: it reads poisoned (R314). -/
def State.metaFailed (s : State) : Bool :=
  ((List.range 768).any s.pcFailed)
    && (List.range (metaSize / 256)).any fun i => s.pcFailed (s.place (s.metaBase + 256 * i)).pc

/-- The tables as their region of HBM holds them (R213). -/
def State.readTables (s : State) : TableRead :=
  let all : TableRead := ⟨s, s.tier.objs, s.tier.ctxs.map (fun c => (c.1, c.2, s.ctxUnits c.1, s.ctxObjs c.1)), s.tier.exts,
    s.metaFailed⟩
  (s.tableKeys.filter fun l => l * 64 < s.metaBase + tablesSize).foldl s.readTable all

/-- Enable with MODE FRESH (R212): the tables become empty with context 0, the header is written, and the pool's erase
begins. -/
def State.tierFresh (s : State) (share : Nat) : State :=
  if s.tierReject ≠ stOK then s.wr TIER_CTRL.REJECT s.tierReject
  else
    let s := (((s.wr TIER_CTRL.EN 1).wr TIER_CTRL.MODE 0).wr TIER_CTRL.READY 0).wr TIER_CTRL.ERASE_SHARE share
    let s := (s.wr TIER_CTRL.REJECT stOK).zeroHbm s.metaBase metaSize 0
    let s := s.engineWrite (lineKey false s.headerLine) 98 0 0 s.tierHeader
    let pool : Ext := ⟨s.poolBase, (s.poolLimit - s.poolBase) / 65536, none, 0, s.poolBase, 0⟩
    (s.setTier fun _ => ⟨[], [(0, ⟨0, 0, 2 ^ 40 - 1⟩)], 0, [], [pool], [], false⟩).tierView

/-- Enable with MODE RECOVER (R212): the checks of R213 follow at TIER_READY. -/
def State.tierRecover (s : State) (share : Nat) : State :=
  if s.tierReject ≠ stOK then s.wr TIER_CTRL.REJECT s.tierReject
  else
    let s := (((s.wr TIER_CTRL.EN 1).wr TIER_CTRL.MODE 1).wr TIER_CTRL.READY 0).wr TIER_CTRL.ERASE_SHARE share
    (s.wr TIER_CTRL.REJECT stOK).setTier fun t => { t with recovering := true }

/-- Whether no object holds T1: none is OPEN, RESIDENT, EVICTING or FETCHING (R212). -/
def State.tierIdle (s : State) : Bool := s.tier.objs.all fun e => e.2.state == 0 || e.2.state == 4 || e.2.state == 6

/-- A write of TIER_CTRL with EN = 0 while EN is 1 (R210, R212): an accepted one leaves the tables in their region. -/
def State.tierOff (s : State) : State :=
  if ¬ s.tierIdle then s.wr TIER_CTRL.REJECT stBadDescriptor
  else (((s.wr TIER_CTRL.EN 0).wr TIER_CTRL.READY 0).wr TIER_CTRL.REJECT stOK).putTables

/-- Whether extents in address order overlap or leave the pool. -/
def State.extentsGood (s : State) : Bool :=
  let es := s.heldExtents
  let rec apart : Nat → List (Nat × Nat) → Bool
    | at_, [] => decide (at_ ≤ s.poolLimit)
    | at_, (a, u) :: l => decide (at_ ≤ a) && a % 65536 == 0 && apart (a + u * 65536) l
  apart s.poolBase es

/-- The checks of R213 on the tables: states, generations, contexts, extents. -/
def State.tablesGood (s : State) : Bool :=
  (s.tier.objs.all fun e => e.2.state == 0 || (decide (e.2.state ≤ 6) && decide (1 ≤ e.2.gen) && decide (e.2.gen ≤ 1023)
    && (s.ctx e.2.ctx).isSome)) && s.extentsGood && (s.ctx 0).isSome

/-- The checks of R213 on the tables as the region holds them: also that no identifier stands twice, and that each context's
counts are the sums over its entries. -/
def TableRead.good (x : TableRead) : Bool :=
  let t := x.st.setTier fun t => { t with objs := x.objs, exts := x.exts, ctxs := x.ctxs.foldl (fun m c => insK m c.1 c.2.1) [] }
  t.tablesGood && t.tier.ctxs.length == x.ctxs.length
    && x.ctxs.all fun c => c.2.2.1 == t.ctxUnits c.1 && c.2.2.2 == t.ctxObjs c.1

/-- Lines of the metadata region that read poisoned. -/
def State.metaPoisoned (s : State) : Bool :=
  s.hbmPoison.any fun e => e.2 && decide (s.metaBase ≤ e.1 * 64) && decide (e.1 * 64 < s.metaBase + metaSize)

/-! ## Commands -/

/-- A command record from its four quadwords (R218). -/
def TierCmd.ofWords (q0 q1 q2 q3 : Nat) : TierCmd :=
  { cmd := bits q0 0 5, pin := bit q0 5, crc := bit q0 6, verify := bit q0 7, ctx := bits q0 8 24,
    handle := bits q0 32 32, addr := q1, length := bits q2 0 40, part := bits q2 40 4, pasid := bits q3 0 20,
    pv := bit q3 20, quota := bits q3 24 40, bad := bits q2 44 20 != 0 || bits q3 21 3 != 0 }

/-- A record with no field set. -/
def TierCmd.blank (cmd ctx : Nat) : TierCmd :=
  { cmd := cmd, pin := false, crc := false, verify := false, ctx := ctx, handle := 0, addr := 0, length := 0, part := 0,
    pasid := 0, pv := false, quota := 0, bad := false }

/-- CTX_CREATE (R214). -/
def State.doCtxCreate (s : State) (c : TierCmd) (func : Nat) (reply : TierReply) : State :=
  if c.ctx = 0xFFFFFF then s.tierDone c.cmd reply (.fail stBadDescriptor 1)
  else if (s.ctx c.ctx).isSome then s.tierDone c.cmd reply (.fail stBadDescriptor 3)
  else if tierContexts ≤ s.tier.ctxs.length then s.tierDone c.cmd reply (.fail stNoContext 0)
  else
    let s := s.setTier fun t => { t with ctxs := insK t.ctxs c.ctx ⟨func, c.part, c.quota⟩ }
    s.tierView.tierDone c.cmd reply (.ok 0)

/-- CTX_DESTROY (R214). -/
def State.doCtxDestroy (s : State) (c : TierCmd) (func : Nat) (reply : TierReply) : State :=
  if ¬ s.ownsCtx func c.ctx then s.tierDone c.cmd reply (.fail stNoContext 0)
  else if c.ctx = 0 then s.tierDone c.cmd reply (.fail stBadDescriptor 1)
  else if s.tier.objs.any (fun e => e.2.state != 0 && e.2.ctx == c.ctx) then
    s.tierDone c.cmd reply (.fail stBadDescriptor 5)
  else
    let s := s.setTier fun t => { t with ctxs := eraseK t.ctxs c.ctx }
    s.tierView.tierDone c.cmd reply (.ok 0)

/-- A new object in an entry (R216, R501). -/
def State.newObj (s : State) (i : Nat) (o : Obj) : State :=
  (s.takeEntry i).setObj i fun old => { o with gen := if old.gen = 0 then 1 else old.gen }

/-- ALLOC_OPEN (R222). -/
def State.doAllocOpen (s : State) (c : TierCmd) (func : Nat) (reply : TierReply) : State :=
  let units := cdiv c.length 65536
  if ¬ s.ownsCtx func c.ctx then s.tierDone c.cmd reply (.fail stNoContext 0)
  else if c.length = 0 ∨ 2 ^ 34 < c.length then s.tierDone c.cmd reply (.fail stBadDescriptor 6)
  else match s.freeEntry with
  | none => s.tierDone c.cmd reply (.fail stNoObjectSlot 1)
  | some i =>
    match s.findExtent units with
    | none => s.tierDone c.cmd reply (.fail stNoObjectSlot 2)
    | some a =>
      if ¬ s.quotaFits c.ctx units then s.tierDone c.cmd reply (.fail stNoObjectSlot 3)
      else
        let s := (s.newObj i { Obj.free with state := 1, ctx := c.ctx, len := units * 65536, units := units, t1 := a }).tierView
        s.tierDone c.cmd reply (.ok (s.handleOf i) rDone a)

/-- ADOPT (R225). -/
def State.doAdopt (s : State) (c : TierCmd) (func : Nat) (reply : TierReply) : State :=
  if ¬ s.ownsCtx func c.ctx then s.tierDone c.cmd reply (.fail stNoContext 0)
  else if c.length = 0 ∨ 2 ^ 34 < c.length then s.tierDone c.cmd reply (.fail stBadDescriptor 6)
  else match s.freeEntry with
  | none => s.tierDone c.cmd reply (.fail stNoObjectSlot 1)
  | some i =>
    let s := (s.newObj i { Obj.free with state := 4, ctx := c.ctx, len := c.length, t2valid := true, t2addr := c.addr,
                                         pasid := c.pasid, pv := c.pv }).tierView
    s.tierDone c.cmd reply (.ok (s.handleOf i))

/-- A command on a handle, its context and handle checked in the order of R494. -/
def State.onHandle (s : State) (c : TierCmd) (func : Nat) (reply : TierReply) (f : State → Nat → State) : State :=
  if ¬ s.ownsCtx func c.ctx then s.tierDone c.cmd reply (.fail stNoContext 0 c.handle)
  else match s.handleEntry c.handle with
  | none => s.tierDone c.cmd reply (.fail stBadDescriptor 2 c.handle)
  | some i => if (s.obj i).ctx = c.ctx then f s i else s.tierDone c.cmd reply (.fail stBadDescriptor 2 c.handle)

/-- SEAL (R224). -/
def State.doSeal (s : State) (c : TierCmd) (func : Nat) (reply : TierReply) : State :=
  s.onHandle c func reply fun s i =>
    let o := s.obj i
    if o.state ≠ 1 then s.tierDone c.cmd reply (.fail stBadDescriptor 3 c.handle)
    else if o.len < c.length then s.tierDone c.cmd reply (.fail stBadDescriptor 6 c.handle)
    else
      let keep := cdiv c.length 65536
      let s := s.release i (o.t1 + keep * 65536) (o.units - keep)
      let s := s.setObj i fun o => { o with
        state := 2, len := c.length, units := keep, t1 := if keep = 0 then 0 else o.t1, t2valid := false
        sums := if c.crc then o.sums ++ [(c.cmd, reply)] else o.sums }
      let s := s.tierView
      if c.crc then s else s.tierDone c.cmd reply (.ok c.handle)

/-- A command waits on an object. -/
def State.waitOn (s : State) (i cmd : Nat) (reply : TierReply) (pinned joined : Bool) : State :=
  s.setObj i fun o => { o with waits := o.waits ++ [⟨cmd, reply, pinned, joined⟩] }

/-- EVICT (R228). -/
def State.doEvict (s : State) (c : TierCmd) (func : Nat) (reply : TierReply) : State :=
  s.onHandle c func reply fun s i =>
    let o := s.obj i
    let bad (d : Nat) : State := s.tierDone c.cmd reply (.fail stBadDescriptor d c.handle)
    match o.state with
    | 1 => bad 3
    | 2 =>
      if 0 < o.pins then bad 4
      else if o.t2valid ∧ c.addr = 0 then
        let s := (((s.leaveT1 i).setObj i fun o => { o with state := 4 }).bump TIER_EVICTS.COUNT 1).tierView
        s.tierDone c.cmd reply (.ok c.handle)
      else if c.addr = 0 then bad 1
      else
        (s.setObj i fun o => { o with state := 3, intentIn := false, t2valid := false, t2addr := c.addr,
                                      pasid := c.pasid, pv := c.pv }).waitOn i c.cmd reply false false
    | 3 => if 0 < o.pins then bad 4 else (s.setObj i fun o => { o with intentIn := false }).waitOn i c.cmd reply false false
    | 4 => s.tierDone c.cmd reply (.ok c.handle)
    | _ => if 0 < o.pins then bad 4 else (s.setObj i fun o => { o with intentIn := false }).waitOn i c.cmd reply false false

/-- Add a pin if the FETCH asks for one. -/
def State.addPin (s : State) (i : Nat) (pin : Bool) : State :=
  if pin then s.setObj i fun o => { o with pins := o.pins + 1 } else s

/-- FETCH (R227, R228, R233). -/
def State.doFetch (s : State) (c : TierCmd) (func : Nat) (reply : TierReply) : State :=
  s.onHandle c func reply fun s i =>
    let o := s.obj i
    let bad (d : Nat) : State := s.tierDone c.cmd reply (.fail stBadDescriptor d c.handle)
    if c.pin ∧ 65535 ≤ o.pins then bad 4
    else if c.verify ∧ o.crc.isNone then bad 3
    else
      match o.state with
      | 1 | 2 => (s.addPin i c.pin).tierDone c.cmd reply (.ok c.handle)
      | 3 => ((s.addPin i c.pin).setObj i fun o => { o with intentIn := true }).waitOn i c.cmd reply c.pin false
      | 4 =>
        let units := cdiv o.len 65536
        match s.findExtent units with
        | none => s.tierDone c.cmd reply (.fail stNoObjectSlot 2 c.handle)
        | some a =>
          if ¬ s.quotaFits o.ctx units then s.tierDone c.cmd reply (.fail stNoObjectSlot 3 c.handle)
          else
            let s := (s.addPin i c.pin).setObj i fun o => { o with state := 5, intentIn := true, t1 := a, units := units,
                                                                    verify := c.verify }
            s.tierView.waitOn i c.cmd reply c.pin false
      | _ =>
        ((s.addPin i c.pin).setObj i fun o => { o with intentIn := true, verify := o.verify || c.verify }).waitOn i c.cmd
          reply c.pin true

/-- UNPIN (R228). -/
def State.doUnpin (s : State) (c : TierCmd) (func : Nat) (reply : TierReply) : State :=
  s.onHandle c func reply fun s i =>
    if (s.obj i).pins = 0 then s.tierDone c.cmd reply (.fail stBadDescriptor 4 c.handle)
    else (s.setObj i fun o => { o with pins := o.pins - 1 }).tierDone c.cmd reply (.ok c.handle)

/-- FREE (R228, R230). -/
def State.doFree (s : State) (c : TierCmd) (func : Nat) (reply : TierReply) : State :=
  s.onHandle c func reply fun s i =>
    let o := s.obj i
    if 0 < o.pins then s.tierDone c.cmd reply (.fail stBadDescriptor 4 c.handle)
    else if o.slotRefs ≠ 0 then s.tierDone c.cmd reply (.fail stBadDescriptor 5 c.handle)
    else
      let had := o.units != 0
      let s := (s.releaseAll i).setObj i fun o => { o with state := 6, sums := [], waits := [⟨c.cmd, reply, false, false⟩] }
      let s := o.waits.foldl (fun s w => s.tierDone w.cmd w.reply (.fail stBadDescriptor 2 c.handle)) s
      let s := o.sums.foldl (fun s w => if w.1 = 0x07 then s else s.tierDone w.1 w.2 (.fail stBadDescriptor 2 c.handle)) s
      (s.settleErasing i had).tierView

/-- RELEASE_T2 (R228, R230). -/
def State.doReleaseT2 (s : State) (c : TierCmd) (func : Nat) (reply : TierReply) : State :=
  s.onHandle c func reply fun s i =>
    if (s.obj i).state ≠ 2 then s.tierDone c.cmd reply (.fail stBadDescriptor 3 c.handle)
    else ((s.setObj i fun o => { o with t2valid := false }).waitOn i c.cmd reply false false).settleT2 i

/-- VERIFY (R233). -/
def State.doVerify (s : State) (c : TierCmd) (func : Nat) (reply : TierReply) : State :=
  s.onHandle c func reply fun s i =>
    let o := s.obj i
    if o.state = 2 ∨ o.state = 3 then s.setObj i fun o => { o with sums := o.sums ++ [(c.cmd, reply)] }
    else s.tierDone c.cmd reply (.fail stBadDescriptor 3 c.handle)

/-- QUERY (R219, R492). -/
def State.doQuery (s : State) (c : TierCmd) (func : Nat) (reply : TierReply) : State :=
  s.onHandle c func reply fun s i =>
    let m := s.metaBase
    if c.addr % 64 ≠ 0 ∨ s.hbmEnd < c.addr + 64 ∨ (c.addr < m + metaSize ∧ m < c.addr + 64) then
      s.tierDone c.cmd reply (.fail stBadDescriptor 1 c.handle)
    else
      let s := s.rangeWrite 98 (s.ctxPart (s.obj i).ctx) c.addr (s.entryImage i)
      s.tierDone c.cmd reply (.ok c.handle rDone (s.obj i).t1)

/-- Carry out an accepted command (R219, R221). -/
def State.tierCmd (s : State) (c : TierCmd) (func : Nat) (reply : TierReply) : State :=
  if c.bad then s.tierDone c.cmd reply (.fail stBadDescriptor 1 c.handle)
  else
    match c.cmd with
    | 0x01 => s.doCtxCreate c func reply
    | 0x02 => s.doCtxDestroy c func reply
    | 0x03 => s.doAllocOpen c func reply
    | 0x04 => s.doSeal c func reply
    | 0x05 => s.doAdopt c func reply
    | 0x06 => s.doEvict c func reply
    | 0x07 => s.doFetch c func reply
    | 0x08 => s.doUnpin c func reply
    | 0x09 => s.doFree c func reply
    | 0x0A => s.doReleaseT2 c func reply
    | 0x0B => s.doVerify c func reply
    | 0x0C => s.doQuery c func reply
    | _ => s.tierDone c.cmd reply (.fail stBadDescriptor 1 c.handle)

/-- Whether HD0 is in a reset, which stops the tier manager (R235). -/
def State.hub0Reset (s : State) : Bool := s.rst.busy.contains (dHub, 0) || s.rst.busy.contains (dPackage, 0)

/-- Whether the tier manager runs: enabled, READY, and HD0 not in a reset (R235). -/
def State.tierRuns (s : State) : Bool := s.on TIER_CTRL.EN && s.on TIER_CTRL.READY && !s.hub0Reset

/-- A command is given (R212, R235): it waits until the tier manager runs, and while EN is 0 it completes at once with
BAD_DESCRIPTOR, DETAIL 3. -/
def State.tierAsk (s : State) (c : TierCmd) (func : Nat) (reply : TierReply) : State :=
  if ¬ s.on TIER_CTRL.EN then s.tierDone c.cmd reply (.fail stBadDescriptor 3 c.handle)
  else if s.tierRuns then s.tierCmd c func reply
  else s.setTier fun t => { t with waiting := t.waiting ++ [(c, func, reply)] }

/-- The commands that waited are accepted in the order they were given. -/
def State.tierResume (s : State) : State :=
  let q := s.tier.waiting
  q.foldl (fun s w => s.tierCmd w.1 w.2.1 w.2.2) (s.setTier fun t => { t with waiting := [] })

/-- HD0 has left a reset: the tier manager goes on (R235). -/
def State.tierGoOn (s : State) : State := if s.tierRuns then s.tierResume else s

/-- TIER_CMD_GO: TIER_CMD0 to TIER_CMD3 act for the physical function (R218); ignored while BUSY. -/
def State.tierGo (s : State) : State :=
  if s.on TIER_CMD_GO.BUSY then s
  else
    let q (n : Nat) : Nat := s.rd TIER_CMD.Q 0 n
    (s.wr TIER_CMD_GO.BUSY 1).tierAsk (.ofWords (q 0) (q 1) (q 2) (q 3)) 0 .regs

/-! ## Copies settle (R228) -/

/-- The commands that wait for a copy complete: EVICTs (6) and FETCHes (7) with their results. -/
def State.settleWaits (s : State) (i : Nat) (ev fe : TierWait → TierRes) : State :=
  let ws := (s.obj i).waits.filter fun w => w.cmd == 6 || w.cmd == 7
  let s := s.setObj i fun o => { o with waits := o.waits.filter fun w => !(w.cmd == 6 || w.cmd == 7) }
  (ws.foldl (fun s w => s.tierDone w.cmd w.reply (if w.cmd = 6 then ev w else fe w)) s).tierView

/-- The function whose requester ID a copy of an object carries: the owner of its context (R348). -/
def State.copyFunc (s : State) (i : Nat) : Nat := match s.ctx (s.obj i).ctx with | some r => r.func | none => 0

/-- A copy to T2 fails: RESIDENT with no T2 copy. -/
def State.evictFails (s : State) (i st : Nat) : State :=
  let h := s.handleOf i
  (s.setObj i fun o => { o with state := 2, t2valid := false }).settleWaits i (fun _ => .fail st 0 h)
    (fun _ => .ok h rRetained)

/-- A copy from T2, or its check, fails: ABSENT, the extent released and the waiting FETCHes' pins removed. -/
def State.fetchFails (s : State) (i st : Nat) : State :=
  let h := s.handleOf i
  let pins := ((s.obj i).waits.filter fun w => w.cmd == 7 && w.pinned).length
  let s := (s.releaseAll i).setObj i fun o => { o with state := 4, pins := o.pins - pins, verify := false, sums := [] }
  (s.bump TIER_EVICTS.COUNT 1).settleWaits i (fun _ => .ok h) (fun _ => .fail st 0 h)

/-- A fetched copy is in place and has passed its check, by INTENT. -/
def State.fetchSettles (s : State) (i : Nat) : State :=
  let h := s.handleOf i
  if (s.obj i).intentIn then
    let s := (s.setObj i fun o => { o with state := 2, verify := false }).bump TIER_FETCHES.COUNT 1
    let n := ((s.obj i).waits.filter fun w => w.cmd == 6).length
    (s.bump TIER_CANCELS.COUNT n).settleWaits i (fun _ => .ok h rCancelled)
      (fun w => .ok h (if w.joined then rJoined else rDone))
  else
    let s := ((s.releaseAll i).setObj i fun o => { o with state := 4, verify := false }).bump TIER_EVICTS.COUNT 1
    s.settleWaits i (fun _ => .ok h) (fun _ => .ok h rSuperseded)

/-- A copy to T2 has its bytes in host memory (R228). -/
def State.evictLands (s : State) (i : Nat) : State :=
  let o := s.obj i
  let p := s.prepare (if o.len = 0 then [] else keysOf o.t1 o.len) false
  if ¬ p.2 then p.1
  else
    let r := p.1.rangeRead o.t1 o.len 98 (s.ctxPart o.ctx)
    if r.poison then r.st.evictFails i stEcc
    else
      let s := (r.st.hostWrite (s.copyFunc i) (if o.pv then o.pasid else 0) o.t2addr r.data).bump TIER_T2_BYTES.BYTES o.len
      let h := s.handleOf i
      if o.intentIn then
        let n := (o.waits.filter fun w => w.cmd == 6).length
        ((s.setObj i fun o => { o with state := 2, t2valid := true }).bump TIER_CANCELS.COUNT n).settleWaits i
          (fun _ => .ok h rCancelled) (fun _ => .ok h rRetained)
      else
        let s := ((s.leaveT1 i).setObj i fun o => { o with state := 4, t2valid := true }).bump TIER_EVICTS.COUNT 1
        s.settleWaits i (fun _ => .ok h) (fun _ => .ok h rSuperseded)

/-- A copy from T2 has its bytes in HBM (R228); with VERIFY the checksum run follows. -/
def State.fetchLands (s : State) (i : Nat) : State :=
  let o := s.obj i
  let p := s.prepare (if o.len = 0 then [] else keysOf o.t1 o.len) true
  if ¬ p.2 then p.1
  else
    let r := p.1.hostRead (s.copyFunc i) (if o.pv then o.pasid else 0) o.t2addr o.len
    let s := (r.1.rangeWrite 98 (s.ctxPart o.ctx) o.t1 r.2).bump TIER_T2_BYTES.BYTES o.len
    if o.intentIn ∧ o.verify then s.setObj i fun o => { o with sums := o.sums ++ [(0x07, .loader)] }
    else s.fetchSettles i

/-- A checksum run ends (R224, R233): the CRC of the T1 copy is stored, or compared with the one stored. -/
def State.sumEnds (s : State) (i : Nat) : State :=
  match (s.obj i).sums with
  | [] => s
  | (cmd, reply) :: rest =>
    let o := s.obj i
    let p := s.prepare (if o.len = 0 then [] else keysOf o.t1 o.len) false
    if ¬ p.2 then p.1
    else
      let r := p.1.rangeRead o.t1 o.len (s.geyStream (o.t1 / 64)) (s.ctxPart o.ctx)
      let s := r.st.setObj i fun o => { o with sums := rest }
      let h := s.handleOf i
      let good := !r.poison && (match o.crc with | some x => x == crc64 r.data | none => cmd != 0x07)
      let s := if cmd ≠ 0x07 ∧ !r.poison ∧ (o.crc.isNone ∨ cmd = 0x04) then
          s.setObj i fun o => { o with crc := some (crc64 r.data) }
        else s
      if cmd = 0x07 then
        if ¬ o.intentIn then s.fetchSettles i else if good then s.fetchSettles i else s.fetchFails i stEcc
      else if cmd = 0x04 then s.tierDone cmd reply (if r.poison then .fail stEcc 0 h else .ok h)
      else s.tierDone cmd reply (if good then .ok h else .fail stEcc 0 h)

/-! ## The commands of the table -/

/-- A write of TIER_CTRL with EN 1 (R212); an ERASE_SHARE of 0 is rejected. -/
def State.tierOn (s : State) (recover : Bool) (share : Nat) : State :=
  if ¬ s.on TIER_CTRL.EN ∧ s.tierReject = stBadDescriptor then s.wr TIER_CTRL.REJECT stBadDescriptor
  else if share = 0 then s.wr TIER_CTRL.REJECT stZeroWindow
  else if s.on TIER_CTRL.EN then
    ((s.wr TIER_CTRL.MODE (b2n recover)).wr TIER_CTRL.ERASE_SHARE share).wr TIER_CTRL.REJECT stOK
  else if recover then s.tierRecover share
  else s.tierFresh share

/-- A write of TIER_CTRL with EN 0 (R212). -/
def State.tierWriteOff (s : State) (mode share : Nat) : State :=
  if s.on TIER_CTRL.EN ∧ ¬ s.tierIdle then s.tierOff
  else if share = 0 then s.wr TIER_CTRL.REJECT stZeroWindow
  else ((if s.on TIER_CTRL.EN then s.tierOff else s.wr TIER_CTRL.REJECT stOK).wr TIER_CTRL.MODE mode).wr
    TIER_CTRL.ERASE_SHARE share

/-- TIER_ENABLE_FRESH (R212). -/
def execTierEnableFresh (o : Origin) (share : Fin 16) (s : State) : Answer :=
  .next <| s.asReg o (TIER_CTRL.EN.addr 0 0) fun s => s.tierOn false share

/-- TIER_ENABLE_RECOVER (R212, R213). -/
def execTierEnableRecover (o : Origin) (share : Fin 16) (s : State) : Answer :=
  .next <| s.asReg o (TIER_CTRL.EN.addr 0 0) fun s => s.tierOn true share

/-- TIER_DISABLE (R212). -/
def execTierDisable (o : Origin) (s : State) : Answer :=
  .next <| s.asReg o (TIER_CTRL.EN.addr 0 0) fun s => if s.on TIER_CTRL.EN then s.tierOff else s

/-- An entry after RECOVER (R236): nothing reads it and no slot names it, so an ERASING entry without an extent is FREE. -/
def Obj.recovered (o : Obj) (hasExt : Bool) : Obj :=
  if o.state = 6 ∧ hasExt = false then o.erased else { o with t1refs := 0, t2refs := 0, slotRefs := 0 }

/-- TIER_READY (R212, R213): the pool erase of FRESH, or the checks of RECOVER, have completed. -/
def execTierReady (s : State) : Answer :=
  .next <|
    if ¬ s.on TIER_CTRL.EN ∨ s.on TIER_CTRL.READY ∨ s.hub0Reset then s
    else
      let up (s : State) : State := ((s.wr TIER_CTRL.READY 1).raise TIER_INT_STATUS.READY).tierView.tierResume
      if ¬ s.tier.recovering then
        let s := s.tier.exts.foldl (fun s e => if e.entry.isNone then s.zeroHbm e.addr (e.units * 65536) 0 else s) s
        up (s.setTier fun t => { t with exts := t.exts.filter fun e => e.entry.isSome })
      else if s.metaPoisoned then ((s.wr TIER_CTRL.EN 0).wr TIER_CTRL.READY 0).wr TIER_CTRL.REJECT stEcc
      else
        let x := s.readTables
        let r := x.st.rangeRead (s.headerLine * 64) 64 98 0
        let bad := if x.poison || r.poison then stEcc
          else if r.data = s.tierHeader ∧ x.good then stOK else stBadDescriptor
        if bad = stOK then
          up (r.st.setTier fun t => { t with
            objs := (x.objs.map fun (e : Nat × Obj) =>
              (e.1, e.2.recovered (x.exts.any fun y => y.entry == some e.1))).filter fun e => decide (e.2 ≠ Obj.free)
            ctxs := x.ctxs.foldl (fun m c => insK m c.1 c.2.1) []
            exts := x.exts.map fun e => { e with refs := 0 }
            cursor := 0, tail := [] })
        else (((r.st.wr TIER_CTRL.EN 0).wr TIER_CTRL.READY 0).wr TIER_CTRL.REJECT bad)

/-- The reply to a command that a function gives (R218, R239): the physical function gives it through TIER_CMD while that is not
BUSY, and its result stands in TIER_RESULT; else the record goes to the function (DEDUCED, log entry 175). -/
def State.rowReply (s : State) (f : Nat) : TierReply := if f = 0 ∧ s.on TIER_CMD_GO.BUSY = false then .regs else .direct f

/-- A command that a function gives: TIER_CMD is BUSY until the result of one given there is written (R239). -/
def State.tierRow (s : State) (c : TierCmd) (f : Nat) : State :=
  (if s.rowReply f = .regs then s.wr TIER_CMD_GO.BUSY 1 else s).tierAsk c f (s.rowReply f)

/-- CTX_CREATE. -/
def execCtxCreate (f : Fin 65) (ctx : BitVec 24) (part : Fin 16) (quota : BitVec 40) (s : State) : Answer :=
  .next <| s.tierRow { TierCmd.blank 0x01 ctx.toNat with part := part, quota := quota.toNat } f

/-- CTX_DESTROY. -/
def execCtxDestroy (f : Fin 65) (ctx : BitVec 24) (s : State) : Answer :=
  .next <| s.tierRow (TierCmd.blank 0x02 ctx.toNat) f

/-- ALLOC_OPEN. -/
def execAllocOpen (f : Fin 65) (ctx : BitVec 24) (length : BitVec 40) (s : State) : Answer :=
  .next <| s.tierRow { TierCmd.blank 0x03 ctx.toNat with length := length.toNat } f

/-- SEAL. -/
def execSeal (f : Fin 65) (ctx : BitVec 24) (handle : BitVec 32) (length : BitVec 40) (crc : Bool) (s : State) : Answer :=
  .next <| s.tierRow { TierCmd.blank 0x04 ctx.toNat with handle := handle.toNat, length := length.toNat, crc := crc } f

/-- ADOPT. -/
def execAdopt (f : Fin 65) (ctx : BitVec 24) (addr : BitVec 64) (length : BitVec 40) (pasid : BitVec 20) (pv : Bool)
    (s : State) : Answer :=
  .next <| s.tierRow { TierCmd.blank 0x05 ctx.toNat with
      addr := addr.toNat, length := length.toNat, pasid := pasid.toNat, pv := pv } f

/-- EVICT. -/
def execEvict (f : Fin 65) (ctx : BitVec 24) (handle : BitVec 32) (addr : BitVec 64) (pasid : BitVec 20) (pv : Bool)
    (s : State) : Answer :=
  .next <| s.tierRow { TierCmd.blank 0x06 ctx.toNat with
      handle := handle.toNat, addr := addr.toNat, pasid := pasid.toNat, pv := pv } f

/-- FETCH. -/
def execFetch (f : Fin 65) (ctx : BitVec 24) (handle : BitVec 32) (pin verify : Bool) (s : State) : Answer :=
  .next <| s.tierRow { TierCmd.blank 0x07 ctx.toNat with handle := handle.toNat, pin := pin, verify := verify } f

/-- UNPIN. -/
def execUnpin (f : Fin 65) (ctx : BitVec 24) (handle : BitVec 32) (s : State) : Answer :=
  .next <| s.tierRow { TierCmd.blank 0x08 ctx.toNat with handle := handle.toNat } f

/-- FREE. -/
def execFree (f : Fin 65) (ctx : BitVec 24) (handle : BitVec 32) (s : State) : Answer :=
  .next <| s.tierRow { TierCmd.blank 0x09 ctx.toNat with handle := handle.toNat } f

/-- RELEASE_T2. -/
def execReleaseT2 (f : Fin 65) (ctx : BitVec 24) (handle : BitVec 32) (s : State) : Answer :=
  .next <| s.tierRow { TierCmd.blank 0x0A ctx.toNat with handle := handle.toNat } f

/-- VERIFY. -/
def execVerify (f : Fin 65) (ctx : BitVec 24) (handle : BitVec 32) (s : State) : Answer :=
  .next <| s.tierRow { TierCmd.blank 0x0B ctx.toNat with handle := handle.toNat } f

/-- QUERY. -/
def execQuery (f : Fin 65) (ctx : BitVec 24) (handle : BitVec 32) (addr : BitVec 64) (s : State) : Answer :=
  .next <| s.tierRow { TierCmd.blank 0x0C ctx.toNat with handle := handle.toNat, addr := addr.toNat } f

/-- EVICTION_COPY_LANDS (R228). -/
def execEvictionCopyLands (entry : Fin 4194304) (s : State) : Answer :=
  .next <| if s.tierRuns ∧ (s.obj entry).state = 3 ∧ s.hostUp then s.evictLands entry else s

/-- FETCH_COPY_LANDS (R228). -/
def execFetchCopyLands (entry : Fin 4194304) (s : State) : Answer :=
  .next <|
    if s.tierRuns ∧ (s.obj entry).state = 5 ∧ s.hostUp ∧ ¬ (s.obj entry).sums.any (·.1 == 0x07) then s.fetchLands entry
    else s

/-- A copy fails (R228, R236). -/
def State.copyFail (s : State) (i st : Nat) : State :=
  match (s.obj i).state with
  | 3 => s.evictFails i st
  | 5 => s.fetchFails i st
  | _ => s

/-- COPY_FAILS (R228): HOST_LOST, or ECC_UNCORRECTED on a T1 read of an eviction or on a checksum mismatch of a fetch. -/
def execCopyFails (entry : Fin 4194304) (why : CopyFailure) (s : State) : Answer :=
  .next <|
    let st := (s.obj entry).state
    match why with
    | .hostLost => if s.tierRuns then s.copyFail entry stHostLost else s
    | .eccT1 => if s.tierRuns ∧ st = 3 then s.copyFail entry stEcc else s
    | .checksum => if s.tierRuns ∧ st = 5 ∧ (s.obj entry).verify then s.copyFail entry stEcc else s

/-- ERASE_COMPLETE (R230, R232): the erase of the released extent that begins at a unit of HBM completes, once no move
reads it. -/
def execEraseComplete (unit : BitVec 24) (s : State) : Answer :=
  .next <|
    match s.tier.exts.find? fun e => e.addr == unit.toNat * 65536 && e.refs == 0 && e.entry.isSome with
    | none => s
    | some e =>
      if ¬ s.tierRuns then s
      else
        let p := s.prepare (s.busyKeys e.addr (e.units * 65536)) true
        if ¬ p.2 then p.1
        else
          let s := p.1.zeroHbm e.addr (e.units * 65536) (s.ctxPart e.ctx)
          let s := (s.setTier fun t => { t with exts := t.exts.filter fun x => x.addr != e.addr }).tierView
          match e.entry with
          | some i => s.settleErasing i true
          | none => s

/-- CHECKSUM_COMPLETE (R224, R233). -/
def execChecksumComplete (entry : Fin 4194304) (s : State) : Answer :=
  .next <| if s.tierRuns then s.sumEnds entry else s

end Sys2Proof.Machine
end

