-- ==== Sys2Proof/Machine/Movers.lean ====
section
/-! DEFINITION. Machine/Movers.lean: the tensor movers (R174 to R185): descriptors and their checks, dispatch, the units
a move lands in, and how it ends; the landing-counter commands (R186 to R191). -/

namespace Sys2Proof.Machine

/-! ## The descriptor (R176) -/

/-- A quadword of a move's descriptor. -/
def Move.q (v : Move) (i : Nat) : Nat := v.desc.getD i 0

def Move.op (v : Move) : Nat := bits (v.q 0) 0 4
def Move.sspace (v : Move) : Nat := bits (v.q 0) 4 3
def Move.dspace (v : Move) : Nat := bits (v.q 0) 7 3
def Move.ndim (v : Move) : Nat := bits (v.q 0) 10 3
def Move.lcntEn (v : Move) : Bool := bit (v.q 0) 13
def Move.lcnt (v : Move) : Nat := bits (v.q 0) 14 8
def Move.lclu (v : Move) : Nat := bits (v.q 0) 22 9
def Move.scntEn (v : Move) : Bool := bit (v.q 0) 31
def Move.scnt (v : Move) : Nat := bits (v.q 0) 32 8
def Move.efmt (v : Move) : Nat := bits (v.q 0) 40 2
def Move.pasid (v : Move) : Nat := bits (v.q 0) 42 20
def Move.pv (v : Move) : Bool := bit (v.q 0) 62
def Move.saddr (v : Move) : Nat := v.q 1
def Move.daddr (v : Move) : Nat := v.q 2

/-- C0: bytes of a run. -/
def Move.runBytes (v : Move) : Nat := bits (v.q 3) 0 24

/-- The count of dimension k, 1 to 4, as the descriptor holds it. -/
def Move.rawCount (v : Move) (k : Nat) : Nat := bits (v.q 3) (24 + 10 * (k - 1)) 10

/-- The count of dimension k: one run for a dimension at or beyond NDIM (R177). -/
def Move.count (v : Move) (k : Nat) : Nat := if k < v.ndim then v.rawCount k else 1

/-- A stride field: q 4 and 5 hold the source strides, 6 and 7 the destination strides, two each. -/
def Move.strideField (v : Move) (dst : Bool) (k : Nat) : Nat :=
  bits (v.q ((if dst then 6 else 4) + (k - 1) / 2)) (30 * ((k - 1) % 2)) 30

/-- A signed stride. -/
def Move.stride (v : Move) (dst : Bool) (k : Nat) : Int := sext (v.strideField dst k) 30

/-- Runs of the move: elements of a COPY or GET, rows otherwise. -/
def Move.runs (v : Move) : Nat := v.count 1 * v.count 2 * v.count 3 * v.count 4

/-- The total of the move (R177). -/
def Move.total (v : Move) : Nat := v.runBytes * v.runs

/-- Size of an element of an add (R176). -/
def efmtBytes (e : Nat) : Nat := match e with | 0 => 4 | 1 => 2 | 2 => 4 | _ => 8

/-- Offset of the index table of a GATHER or SCATTER (R177). -/
def Move.table (v : Move) : Nat := v.strideField (v.op != 1) 2 % 2 ^ 22

/-- The PASID for host addresses: the descriptor's when PV is 1. -/
def Move.hostPasid (v : Move) : Nat := if v.pv then v.pasid else 0

/-- The offset of a run from the side's address: the sum of index × stride (R177), the index of a table in place of i1
where that side is indexed. -/
def Move.runOff (v : Move) (dst : Bool) (r : Nat) (idx : Option Nat) : Int :=
  let c1 := v.count 1
  let c2 := v.count 2
  let c3 := v.count 3
  let at_ (k i : Nat) : Int := if k < v.ndim then v.stride dst k * (i : Int) else 0
  match idx with
  | some i => v.stride dst 1 * (i : Int)
  | none => at_ 1 (r % c1) + at_ 2 (r / c1 % c2) + at_ 3 (r / (c1 * c2) % c3) + at_ 4 (r / (c1 * c2 * c3))

/-- Lowest and highest run offset of a side over the whole shape. -/
def Move.span (v : Move) (dst : Bool) : Int × Int :=
  [1, 2, 3, 4].foldl (fun (p : Int × Int) k =>
    let e : Int := if k < v.ndim then v.stride dst k * ((v.count k : Int) - 1) else 0
    (p.1 + min e 0, p.2 + max e 0)) (0, 0)

/-! ## Spaces (R175) -/

/-- A side of a move, resolved: a cluster's scratchpad, this module's HBM, host memory, or another module's HBM or
scratchpad; with the address the run offsets are added to. -/
inductive Side2 where
  | spad (c base : Nat)
  | hbm (base : Nat)
  | host (base : Nat)
  | peer (mod : Nat) (spad : Bool) (base : Nat)
  | none
  deriving DecidableEq, Repr

/-- A side of a move of cluster c (R175, R399). A REMOTE address of this module is local. -/
def State.side (s : State) (c : Nat) (v : Move) (dst : Bool) : Side2 :=
  let a := if dst then v.daddr else v.saddr
  match if dst then v.dspace else v.sspace with
  | 0 => .spad c (bits a 0 22)
  | 1 => .spad (bits a 22 9) (bits a 0 22)
  | 2 => .hbm a
  | 3 => .host a
  | 4 =>
    let m := bits a 48 16
    if m = s.ownAddr then (if bit a 47 then .spad (bits a 22 9) (bits a 0 22) else .hbm (bits a 0 40))
    else if bit a 47 then .peer m true (bits a 0 31) else .peer m false (bits a 0 40)
  | 5 =>
    match v.obj with
    | some (.t1 _ addr _) => .hbm (addr + v.objOff)
    | some (.t2 _ addr _ _ _) => .host (addr + v.objOff)
    | none => .none
  | _ => .none

/-- Whether the address bits that a space does not use are 0 (R175). -/
def addrUnusedZero (space a : Nat) : Bool :=
  match space with
  | 0 => a / 2 ^ 22 == 0
  | 1 => a / 2 ^ 31 == 0
  | 2 => a / 2 ^ 40 == 0
  | 4 => if bit a 47 then bits a 31 16 == 0 else bits a 40 7 == 0
  | _ => true

/-- Whether an address field is one of its space: unused bits 0, and a module address of 1 to 8,192 (R175). -/
def addrBitsGood (space a : Nat) : Bool :=
  addrUnusedZero space a && (space != 4 || (decide (1 ≤ bits a 48 16) && decide (bits a 48 16 ≤ 8192)))

/-- Whether the range [lo, hi) of a side leaves its space (R181): a scratchpad's 3 MiB, or the HBM present after map-out,
and for a GX3 plan its window (R147). -/
def State.leaves (s : State) (v : Move) (sd : Side2) (lo hi : Int) : Bool :=
  match sd with
  | .spad _ base => decide ((base : Int) + lo < 0) || decide ((0x300000 : Int) < (base : Int) + hi)
  | .hbm base =>
    let a : Int := (base : Int) + lo
    let b : Int := (base : Int) + hi
    match v.window with
    | some w => decide (a < (w : Int)) || decide (((w + 192 * 2 ^ 30 : Nat) : Int) < b) || decide ((s.hbmEnd : Int) < b)
    | none => decide (a < 0) || decide ((s.hbmEnd : Int) < b)
  | _ => false

/-- Whether a run of a PHYS destination overlaps the protected metadata region (R181, R210). -/
def State.hitsMeta (s : State) (sd : Side2) (off : Int) (n : Nat) : Bool :=
  match sd with
  | .hbm base => let a : Int := (base : Int) + off; decide (0 ≤ a) && s.meetsMeta a.toNat n
  | _ => false

/-! ## The check before the first byte (R181) -/

/-- Whether the encoding of a descriptor breaks R181: operation and spaces, NDIM, counts, reserved bits, total, and what
R177 and R180 ask of the operation. -/
def Move.badEncoding (v : Move) : Bool :=
  let op := v.op
  let ss := v.sspace
  let ds := v.dspace
  let okOp := decide (op ≤ 4)
  let okSrc := if op = 4 then ss == 4 && !bit v.saddr 47 else ss == 0 || ss == 1 || ss == 2 || ss == 3 || ss == 5
  let okDst := if op = 4 then decide (ds ≤ 2)
    else if op = 3 then ds == 2 || (ds == 4 && !bit v.daddr 47) else decide (ds ≤ 4)
  let okDim := if op = 0 ∨ op = 4 then decide (1 ≤ v.ndim) && decide (v.ndim ≤ 5) else v.ndim == 2
  let okCount := [1, 2, 3, 4].all fun k => decide (k < v.ndim) || v.rawCount k == 0
  let okBits := !bit (v.q 0) 63 && ([4, 5, 6, 7].all fun i => bits (v.q i) 60 4 == 0)
    && (if op = 1 then bits (v.strideField false 2) 22 8 == 0
        else if op = 2 ∨ op = 3 then bits (v.strideField true 2) 22 8 == 0 else true)
  let e := efmtBytes v.efmt
  let okAdd := op != 3 || (v.runBytes % e == 0 && v.stride true 1 % (e : Int) == 0 && v.daddr % e == 0)
  !(okOp && okSrc && okDst && okDim && okCount && okBits && decide (v.total ≤ 2 ^ 40 - 1) && okAdd)

/-- Whether a move breaks an address rule of R181. The indexed side of a GATHER or SCATTER is checked row by row. -/
def State.badAddress (s : State) (c : Nat) (v : Move) : Bool :=
  let n : Int := v.runBytes
  let src := v.span false
  let dst := v.span true
  let sd := s.side c v true
  let bitsGood := (if v.sspace = 5 then true else addrBitsGood v.sspace v.saddr) && addrBitsGood v.dspace v.daddr
  let srcBad := v.op != 1 && v.sspace != 5 && s.leaves v (s.side c v false) src.1 (src.2 + n)
  let dstBad := !(v.op == 2 || v.op == 3) && s.leaves v sd dst.1 (dst.2 + n)
  let metaBad := !(v.op == 2 || v.op == 3) && (match sd with
    | .hbm base => decide (0 ≤ (base : Int) + dst.1)
        && s.meetsMeta ((base : Int) + dst.1).toNat (dst.2 + n - dst.1).toNat
        && (List.range v.runs).any fun r => s.hitsMeta sd (v.runOff true r none) v.runBytes
    | _ => false)
  let tableBad := (v.op == 1 || v.op == 2 || v.op == 3) && decide (0x300000 < v.table + 4 * v.count 1)
  !bitsGood || srcBad || dstBad || metaBad || tableBad

/-- Whether a side lies in another module. -/
def Side2.remote : Side2 → Bool
  | .peer _ _ _ => true
  | _ => false

/-- The module a move exchanges bytes with, if any. -/
def State.peerOf (s : State) (c : Nat) (v : Move) : Option Nat :=
  match s.side c v true, s.side c v false with
  | .peer m _ _, _ => some m
  | _, .peer m _ _ => some m
  | _, _ => none

/-- The check of R181 with what R183 and R231 end a move for before its first byte. -/
def State.moveCheck (s : State) (c : Nat) (v : Move) : Option Nat :=
  if v.badEncoding then some stBadDescriptor
  else if v.total = 0 then none
  else if s.badAddress c v then some stBadDescriptor
  else if v.sspace = 5 ∧ ¬ s.on TIER_CTRL.EN then some stBadDescriptor
  else match s.peerOf c v with
    | some m => if s.ownAddr = 0 ∨ ¬ s.routed m then some stAddrUnassigned else none
    | none => none

/-! ## Movers -/

/-- A mover. -/
def State.mover (s : State) (c m : Nat) : Mover := if m = 0 then (s.clu c).mov0 else (s.clu c).mov1

/-- Change a mover. -/
def State.setMover (s : State) (c m : Nat) (f : Mover → Mover) : State :=
  s.setClu c fun x => if m = 0 then { x with mov0 := f x.mov0 } else { x with mov1 := f x.mov1 }

/-- Change the move a mover executes. -/
def State.setMove (s : State) (c m : Nat) (f : Move → Move) : State :=
  s.setMover c m fun x => { x with cur := x.cur.map f }

/-- SRC of MOV_STATE. -/
def MoveSrc.code : MoveSrc → Nat
  | .step => 0
  | .migrate _ => 1
  | .host _ _ => 2

/-- MOV_STATE shows a mover's move and whether host moves wait (R204). -/
def State.moverView (s : State) (c m : Nat) : State :=
  let x := s.mover c m
  let st := match x.cur with
    | none => 0
    | some v => if v.sspace = 5 ∧ v.total ≠ 0 ∧ v.obj.isNone ∧ v.err.isNone then 2 else 1
  let op := match x.cur with | some v => v.op | none => 0
  let src := match x.cur with | some v => v.src.code | none => 0
  if m = 0 then
    (((s.wr MOV_STATE.STATE0 st c).wr MOV_STATE.OP0 op c).wr MOV_STATE.SRC0 src c).wr MOV_STATE.HOSTQ0
      (b2n !x.hostq.isEmpty) c
  else
    (((s.wr MOV_STATE.STATE1 st c).wr MOV_STATE.OP1 op c).wr MOV_STATE.SRC1 src c).wr MOV_STATE.HOSTQ1
      (b2n !x.hostq.isEmpty) c

/-- A mover takes a descriptor and checks it (R181). -/
def State.takeMove (s : State) (c m : Nat) (v : Move) : State :=
  let v := { v with err := s.moveCheck c v, place := (s.clu c).place }
  (s.setMover c m fun x => { x with cur := some v }).moverView c m

/-- A new move of a descriptor. -/
def Move.fresh (desc : List Nat) (src : MoveSrc) (func : Nat) (window : Option Nat) (objOff : Nat) : Move :=
  { desc := desc, src := src, func := func, window := window, objOff := objOff, obj := none, begun := false, units := [],
    landed := 0, rows := [], lost := 0, err := none, place := 0, since := 0, ahead := [], queued := 0, flight := [] }

/-! ## Steps and migration entries of the plan (R128, R133) -/

/-- The plan of a cluster's active configuration. -/
def State.planOf (s : State) (c : Nat) : Option PlanCfg :=
  match (s.clu c).act with
  | some a => (s.slot a.slot).cfg
  | none => none

/-- A step word: Q0 in the low 64 bits, Q1 above. -/
def State.stepWord (s : State) (c pc : Nat) : Option Nat :=
  match (s.clu c).act with
  | some a => a.steps[pc]?
  | none => none

/-- The step a cluster stands at, while it runs a pass. -/
def State.curStep (s : State) (c : Nat) : Option Nat :=
  if (s.clu c).inPass then s.stepWord c (s.clu c).pc else none

/-- Fields of a MIGRATE record (R133), held as one 256-bit number. -/
def migHandle (r : Nat) : Nat := bits r 0 32
def migOffset (r : Nat) : Nat := bits r 64 40
def migDest (r : Nat) : Nat := bits r 128 22
def migLen (r : Nat) : Nat := bits r 150 23
def migMover (r : Nat) : Nat := bits r 173 1
def migAfter (r : Nat) : Nat := bits r 174 11
def migDeadline (r : Nat) : Nat := bits r 192 12
def migFum (r : Nat) : Nat := bits r 204 10
def migCnt (r : Nat) : Nat := bits r 214 8
def migClu (r : Nat) : Nat := bits r 222 9
def migOrder (r : Nat) : Nat := bits r 231 16

/-- The migration entries of a cluster, as (index, record). -/
def State.migsOf (s : State) (c : Nat) : List (Nat × Nat) :=
  match s.planOf c with
  | some p => ((List.range p.mig.length).zip p.mig).filter fun e => migClu e.2 == c
  | none => []

/-- Entries become ready, each once a pass (R497). -/
def State.makeReady (s : State) (c : Nat) (p : Nat → Bool) : State :=
  let es := ((s.migsOf c).filter fun e => p (migAfter e.2) && !(s.clu c).migSeen.contains e.1).map (·.1)
  s.setClu c fun x => { x with migReady := x.migReady ++ es, migSeen := x.migSeen ++ es }

/-- The entries that become ready when a step completes, or at pass start (0x7FF) (R133). -/
def State.addReady (s : State) (c after : Nat) : State := s.makeReady c (· == after)

/-- The current step completes and the cluster goes on at `next` (R128, R166). -/
def State.stepDone (s : State) (c next : Nat) : State :=
  let pc := (s.clu c).pc
  let s := (s.setClu c fun x => { x with pc := next, waitFrom := none, late := false }).addReady c pc
  s.progress c

/-- The COPY of a migration entry (R133): from its object into the cluster, counted on its counter. -/
def migMove (e r : Nat) : Move :=
  let q0 := 5 * 2 ^ 4 + 1 * 2 ^ 10 + 2 ^ 13 + migCnt r * 2 ^ 14
  .fresh [q0, migHandle r * 2 ^ 32 + migOffset r % 2 ^ 32, migDest r, migLen r, 0, 0, 0, 0] (.migrate e) 0 none (migOffset r)

/-- The ready entry of a mover with the lowest ORDER, the earliest record first (R182). -/
def State.nextMig (s : State) (c m : Nat) : Option (Nat × Nat) :=
  let es := (s.migsOf c).filter fun e => migMover e.2 == m && (s.clu c).migReady.contains e.1
  match es with
  | [] => none
  | e0 :: rest => some (rest.foldl (fun b e => if migOrder e.2 < migOrder b.2 then e else b) e0)

/-- A template's descriptor as it issues: a GX3 plan's PHYS addresses are offsets into its window (R489). -/
def issueDesc (desc : List Nat) (window : Option Nat) : List Nat :=
  match window with
  | none => desc
  | some w =>
    let q0 := desc.getD 0 0
    let fix (space a : Nat) : Nat := if space = 2 then a + w else a
    [q0, fix (bits q0 4 3) (desc.getD 1 0), fix (bits q0 7 3) (desc.getD 2 0)] ++ desc.drop 3

/-- The move of the MOVE step a cluster stands at, if that names this mover (R128). -/
def State.stepMove (s : State) (c m : Nat) : Option Move :=
  match s.curStep c with
  | none => none
  | some w =>
    if bits w 0 4 = 4 ∧ bits w 4 1 = m then
      match s.planOf c with
      | some p => (p.templates[bits w 8 12]?).map fun d =>
          .fresh (issueDesc d p.window) .step 0 p.window (bits (d.getD 1 0) 0 32)
      | none => none
    else none

/-- A free mover takes its next descriptor (R182): the MOVE step that waits for it, else the ready migration entry with
the lowest ORDER, else the oldest host move. -/
def State.dispatch (s : State) (c m : Nat) : State :=
  if (s.mover c m).cur.isSome then s
  else match s.stepMove c m with
    | some v => (s.takeMove c m v).stepDone c ((s.clu c).pc + 1)
    | none =>
      match s.nextMig c m with
      | some (e, r) =>
        (s.setClu c fun x => { x with migReady := x.migReady.filter (· != e) }).takeMove c m (migMove e r)
      | none =>
        match (s.mover c m).hostq with
        | h :: rest =>
          let s := s.setMover c m fun x => { x with hostq := rest }
          s.takeMove c m (.fresh h.desc (.host h.ring h.slot) h.func none (bits (h.desc.getD 1 0) 0 32))
        | [] => s.moverView c m

/-- Both movers of a cluster take what is ready. -/
def State.dispatchBoth (s : State) (c : Nat) : State := (s.dispatch c 0).dispatch c 1

/-! ## The end of a move (R183) -/

/-- The references of a move on its object are dropped (R227, R231). -/
def State.dropObj (s : State) (v : Move) : State :=
  match v.obj with
  | some (.t1 e a n) => s.dropT1Ref e a n
  | some (.t2 e _ _ _ _) => s.dropT2Ref e
  | none => s

/-- MOV_ERR and MOV_ERR_DESC record a failed move (R204). -/
def State.recordMoveErr (s : State) (c m : Nat) (v : Move) (st : Nat) : State :=
  let s := ((s.wr MOV_ERR.STATUS st c).wr MOV_ERR.MOVER m c).wr MOV_ERR.SRC v.src.code c
  let s := (s.wr MOV_ERR.VALID 1 c).wr MOV_ERR.LANDED v.landed c
  ((List.range 8).foldl (fun s i => s.wr MOV_ERR_DESC.Q (v.q i) c i) s).raise MOV_INT_STATUS.ERR c

/-- The status a move ends with once nothing of it is left: its error, ECC_UNCORRECTED where a unit could not land, else
OK. -/
def Move.status (v : Move) : Nat := match v.err with | some e => e | none => if 0 < v.lost then stEcc else stOK

/-- Whether nothing of a put to another module waits for the link or for an answer (R183, R399). -/
def Move.answered (v : Move) : Bool := v.queued == 0 && v.flight.all (· == 0)

/-- Whether a move has ended: it has begun and every byte has landed or could not, or it met an error and nothing that it
read or sent before is still to land (R183, R500). What a GET still brings after a NACK the mover cannot know, and its
completion is the event. -/
def Move.ended (v : Move) : Bool :=
  (v.err.isSome && (v.op == 4 || (v.answered && v.ahead.isEmpty))) || (v.begun && v.landed + v.lost == v.total)

/-- A move completes (R183): its status is recorded, SCNT advances by the total on OK, the issuer learns of it, and the
mover takes its next descriptor. -/
def State.finishMove (s : State) (c m : Nat) (v : Move) : State :=
  let st := v.status
  let s := s.dropObj v
  let s := if st = stOK then s.bump (if m = 0 then MOV_DONE0.MOVES else MOV_DONE1.MOVES) 1 c
    else s.recordMoveErr c m v st
  let s := s.setMover c m fun x => { x with cur := none }
  let s := if st = stOK ∧ v.scntEn then s.advance c v.scnt v.total else s
  let far := (s.side c v true).remote && (v.op == 1 || v.op == 2 || v.op == 3) && v.runBytes != 0
  let s := if far then s.bump MOV_ROWS.ROWS (v.landed / v.runBytes) c else s
  let s := match v.src with
    | .step => s
    | .migrate _ => s
    | .host r k => s.complete r k st v.landed 0
  ((s.dispatch c m).moverView c m).settleHalt c

/-! ## Beginning a move -/

/-- Whether a move reads the issuing cluster's own scratchpad: its source or its index table (R196). -/
def State.readsOwn (s : State) (c : Nat) (v : Move) : Bool :=
  v.total != 0 && ((match s.side c v false with | .spad d _ => d == c | _ => false)
    || v.op == 1 || v.op == 2 || v.op == 3)

/-- Whether a RUN or VEC that a step earlier than a move's place started is still in progress (R196). -/
def State.unitsBusy (s : State) (c : Nat) (v : Move) : Bool :=
  (match (s.clu c).run with | some r => decide (r.place < v.place) | none => false)
    || ((s.clu c).vact && decide ((s.clu c).vplace < v.place))

/-- Whether a move may begin now: it passed its check, its object is resolved, and its own-scratchpad reads wait for RUN
and VEC (R181, R196, R231). -/
def State.mayBegin (s : State) (c : Nat) (v : Move) : Bool :=
  !v.begun && v.err.isNone && (v.sspace != 5 || v.total == 0 || v.obj.isSome) && !(s.readsOwn c v && s.unitsBusy c v)

/-- A mover begins a move of an operation, taking it first where the mover is free. -/
def State.beginMove (s : State) (c m op : Nat) : State :=
  let s := s.dispatch c m
  match (s.mover c m).cur with
  | some v => if v.op = op ∧ s.mayBegin c v then s.setMove c m fun v => { v with begun := true, since := s.us } else s
  | none => s

/-- COPY (R177). -/
def execCopy (c : Fin 512) (m : Fin 2) (s : State) : Answer := .next (s.beginMove c m 0)

/-- GATHER (R177, R179). -/
def execGather (c : Fin 512) (m : Fin 2) (s : State) : Answer := .next (s.beginMove c m 1)

/-- SCATTER (R177, R179). -/
def execScatter (c : Fin 512) (m : Fin 2) (s : State) : Answer := .next (s.beginMove c m 2)

/-- SCATTER_ADD (R177, R180). -/
def execScatterAdd (c : Fin 512) (m : Fin 2) (s : State) : Answer := .next (s.beginMove c m 3)

/-- The job of a move (R401). -/
def State.jobOf (s : State) (c : Nat) (v : Move) : Nat :=
  match v.src with
  | .host _ _ => s.jobOfFunc v.func
  | _ => match (s.clu c).act with | some a => s.jobOfSlot a.slot | none => 0

/-- The header of a run or a GET of a mover (R395, R400). -/
def State.moverHdr (s : State) (c m : Nat) (v : Move) (mod : Nat) (spad : Bool) (addr : Nat) : ObHdr :=
  { dest := mod, src := s.ownAddr, job := s.jobOf c v, tag := 2 * c + m, reply := false, add := v.op == 3
    efmt := if v.op = 3 then v.efmt else 0, spad := spad, addr := addr, lcntEn := v.lcntEn, lcnt := v.lcnt
    lclu := v.lclu, hops := s.rd OBL_CTRL.HOPS_INIT, repoch := 0 }

/-- GET (R177, R400): the descriptor is sent to the module that holds the bytes; one that names this module is a local
copy. -/
def execGet (c : Fin 512) (m : Fin 2) (s : State) : Answer :=
  .next <|
    let t := s.beginMove c m 4
    match (s.dispatch c m |>.mover c m).cur, (t.mover c m).cur with
    | some v0, some v =>
      if v.op = 4 ∧ v.begun ∧ ¬ v0.begun ∧ v.total ≠ 0 then
        match t.side c v false with
        | .peer mod _ _ =>
          t.sendPkt 0 false (.get { t.moverHdr c m v mod false 0 with repoch := t.ownEpoch } v.desc)
        | _ => t
      else t
    | _, _ => t

/-! ## OBJECT sources (R231) -/

/-- Whether a move may read an object: any function those of context 0, the physical function all, a virtual function
its own contexts' (R215; DEDUCED, log entry 26). -/
def State.mayRead (s : State) (func ctx : Nat) : Bool := ctx == 0 || func == 0 || s.ownsCtx func ctx

/-- A handle is resolved for a move: its location and reference, or BAD_DESCRIPTOR where it is invalid or the range
leaves the object (R181, R231). -/
def State.resolve (s : State) (c m : Nat) (v : Move) : State :=
  let bad := (s.setMove c m fun v => { v with err := some stBadDescriptor }).moverView c m
  match s.handleEntry (v.saddr / 2 ^ 32) with
  | none => bad
  | some i =>
    let o := s.obj i
    let off : Int := v.objOff
    let sp := v.span false
    if ¬ s.mayRead v.func o.ctx then bad
    else if v.op ≠ 1 ∧ (off + sp.1 < 0 ∨ (o.len : Int) < off + sp.2 + v.runBytes) then bad
    else if o.state ≤ 3 then
      ((s.setObj i fun o => { o with t1refs := o.t1refs + 1 }).setMove c m fun v =>
        { v with obj := some (.t1 i o.t1 o.len) }).moverView c m
    else
      ((s.setObj i fun o => { o with t2refs := o.t2refs + 1 }).setMove c m fun v =>
        { v with obj := some (.t2 i o.t2addr o.pasid o.pv o.len) }).moverView c m

/-- OBJECT_RESOLVE (R231): while the tier manager is READY. -/
def execObjectResolve (c : Fin 512) (m : Fin 2) (s : State) : Answer :=
  .next <|
    match (s.mover c m).cur with
    | none => s
    | some v =>
      if v.sspace ≠ 5 ∨ v.total = 0 ∨ v.obj.isSome ∨ v.err.isSome then s
      else if ¬ s.on TIER_CTRL.EN then (s.setMove c m fun v => { v with err := some stBadDescriptor }).moverView c m
      else if s.tierRuns then s.resolve c m v
      else s

/-! ## Landing (R183, R186) -/

/-- A move meets an error and issues nothing more; what it had read before an uncorrectable word was met still lands
(R183, R500). -/
def State.moveErr (s : State) (c m st : Nat) : State :=
  s.setMove c m fun v => { v with
    err := match v.err with | some e => some e | none => some st
    ahead := if st = stEcc then v.ahead else [] }

/-- Whether a packet is a put of a mover of this module. -/
def State.putOf (s : State) (c m : Nat) (e : Nat × ObPkt) : Bool :=
  match e.2 with
  | .put h _ => e.1 == 0 && h.src == s.ownAddr && h.tag == 2 * c + m && !h.reply
  | _ => false

/-- The packets of a put that have not been sent are withdrawn from the ports (DEDUCED, log entry 172). -/
def State.withdraw (s : State) (c m : Nat) : State :=
  let clean (x : ObPort) : ObPort := { x with
    txq := (x.txq.map fun (q : Nat × List (Nat × ObPkt)) => (q.1, q.2.filter fun e => !s.putOf c m e)).filter fun q => !q.2.isEmpty
    txRun := x.txRun.filter fun r => !s.putOf c m (0, .put r.2.1 []) }
  let s := { s with obl := { s.obl with
    ports := (s.obl.ports.map fun (e : Nat × ObPort) => (e.1, clean e.2)).filter fun e => decide (e.2 ≠ ObPort.idle) } }
  s.setMove c m fun v => { v with queued := 0 }

/-- The bytes a unit boundary lies between: 256 of a packet to another module, else 64 (R186). -/
def Side2.granule : Side2 → Nat
  | .peer _ _ _ => 256
  | _ => 64

/-- Units reserved for each run. -/
def Move.perRun (v : Move) (g : Nat) : Nat := v.runBytes / g + 2

/-- The index of a row, read from the table in the issuing cluster's scratchpad; an uncorrectable word ends the move. -/
def State.rowIndex (s : State) (c : Nat) (v : Move) (r : Nat) : State × Option Nat :=
  let q := s.spadRead c (v.table + 4 * r) 4
  match q.bad with
  | some w => (q.st.spadEvent c w, none)
  | none => (q.st, some (leNat q.data))

/-- What a read of a unit's source gives: the bytes, that it must wait, or the status the move ends with. -/
inductive SrcRead where
  | bytes (b : List Byte)
  | wait
  | fail (status : Nat)
  deriving DecidableEq, Repr

/-- The stream of a mover (R283). -/
def moverStream (c m : Nat) : Nat := 128 + 2 * c + m

/-- The PASID of a move's host accesses: the descriptor's, else its ring's (R348). -/
def State.movePasid (s : State) (v : Move) : Nat :=
  match v.src with
  | .host r _ => if v.pv then v.pasid else s.ringPasid r
  | _ => v.hostPasid

/-- Read the source of a unit (R63, R311, R348, R350, R500). -/
def State.readSource (s : State) (c m : Nat) (v : Move) (sd : Side2) (off : Int) (n : Nat) (denied : Bool) :
    State × SrcRead :=
  match sd with
  | .spad d base =>
    if s.cluSt d = cResetting ∨ (s.clu d).bist then (s, .wait)
    else
      let r := s.spadRead d ((base : Int) + off).toNat n
      match r.bad with
      | some w => (r.st.spadEvent d w, .fail stEcc)
      | none => (r.st, .bytes r.data)
  | .hbm base =>
    let a := ((base : Int) + off).toNat
    let p := s.prepare (keysOf a n) false
    if ¬ p.2 ∨ ¬ s.creditFor (keysOf a n) (s.partOf (moverStream c m)) then (p.1, .wait)
    else
      let r := p.1.rangeRead a n (moverStream c m) (s.partOf (moverStream c m))
      if r.poison then (r.st, .fail stEcc) else (r.st, .bytes r.data)
  | .host base =>
    let a := wrap ((base : Int) + off) 64
    let pasid := match v.obj with
      | some (.t2 _ _ p pv _) => if pv then p else 0
      | _ => s.movePasid v
    if ¬ s.hostUp then (s, .fail stHostLost)
    else if denied then
      (match v.obj with
      | some _ => (s.hostRefuses v.func pasid a, .fail stHostLost)
      | none => (s.hostRefuses v.func pasid a, .fail stBadDescriptor))
    else let r := s.hostRead v.func pasid a n; (r.1, .bytes r.2)
  | _ => (s, .wait)

/-- The counter a unit of a move is counted on at its destination (R176). -/
def Move.counter (v : Move) (sd : Side2) : Option (Nat × Nat) :=
  if v.lcntEn then
    match sd with
    | .spad d _ => some (d, v.lcnt)
    | .hbm _ => some (v.lclu, v.lcnt)
    | _ => none
  else none

/-- A unit of a move has been dealt with: it landed, or it could not. -/
def State.unitDone (s : State) (c m k n : Nat) (ok : Bool) : State :=
  let s := s.setMove c m fun v => { v with
    units := insK v.units k true
    landed := if ok then v.landed + n else v.landed
    lost := if ok then v.lost else v.lost + n
    since := s.us, ahead := setK [] v.ahead k [] }
  let s := s.progress c
  if ok then s.bump (if m = 0 then MOV_BYTES0.BYTES else MOV_BYTES1.BYTES) n c else s

/-- Bytes of a row have landed: the row is counted once all of it has (R204). -/
def State.countRow (s : State) (c m r n : Nat) : State :=
  match (s.mover c m).cur with
  | none => s
  | some v =>
    let have_ := getK 0 v.rows r + n
    let s := s.setMove c m fun v => { v with rows := setK 0 v.rows r have_ }
    if (v.op = 1 ∨ v.op = 2 ∨ v.op = 3) ∧ have_ = v.runBytes then s.bump MOV_ROWS.ROWS 1 c else s

/-- The bytes [lo, hi) of the destination that unit k of a move holds: piece k mod P of run k / P, cut at the boundaries
of its destination (R186, R396). `d` is where the run begins. -/
def Move.unitSpan (v : Move) (g k d : Nat) : Nat × Nat :=
  let i := d / g + k % v.perRun g
  (max d (i * g), min (d + v.runBytes) ((i + 1) * g))

/-- The address a side's run offsets are added to. -/
def Side2.base : Side2 → Nat
  | .spad _ b | .hbm b | .host b | .peer _ _ b => b
  | .none => 0

/-- Where the bytes of a unit come from: those its hub has read ahead, else a read of its source (R194). -/
def State.unitBytes (s : State) (c m k : Nat) (v : Move) (off : Int) (n : Nat) (denied : Bool) : State × SrcRead :=
  match getK [] v.ahead k with
  | [] => s.readSource c m v (s.side c v false) off n denied
  | b => (s, .bytes b)

/-- The bytes of a unit arrive at its destination (R63, R180, R186, R189). -/
def State.deliver (s : State) (c m k r : Nat) (v : Move) (dst : Side2) (lo : Nat) (bytes : List Byte) (denied : Bool) : State :=
  let len := bytes.length
  let cnt := v.counter dst
  match dst with
  | .spad e _ =>
    let w := s.landSpad e lo bytes
    (match w.2 with
    | .wait => w.1
    | .bad => w.1.unitDone c m k len false
    | .ok => ((w.1.counted cnt len).unitDone c m k len true).countRow c m r len)
  | .hbm _ =>
    let w := s.landHbm (moverStream c m) (s.partOf (moverStream c m)) lo bytes (if v.op = 3 then some v.efmt else none)
    (match w.2 with
    | .wait => w.1
    | .bad => w.1.moveErr c m stEcc
    | .ok => ((w.1.counted cnt len).unitDone c m k len true).countRow c m r len)
  | .host _ =>
    if ¬ s.hostUp then s.moveErr c m stHostLost
    else if denied then (s.hostRefuses v.func (s.movePasid v) lo).moveErr c m stBadDescriptor
    else ((s.hostWrite v.func (s.movePasid v) lo bytes).unitDone c m k len true).countRow c m r len
  | .peer mod spad _ =>
    let t := s.sendPkt 0 false (.put (s.moverHdr c m v mod spad (lo % 2 ^ 40)) bytes)
    (t.setMove c m fun v => { v with
      units := insK v.units k true, queued := v.queued + len, ahead := setK [] v.ahead k [] }).progress c
  | .none => s

/-- One unit lands (R186). -/
def State.landUnit (s : State) (c m k : Nat) (denied : Bool) (v : Move) : State :=
  let dst := s.side c v true
  let r := k / v.perRun dst.granule
  let indexed := v.op == 1 || v.op == 2 || v.op == 3
  let ix := if indexed then s.rowIndex c v r else (s, some 0)
  match ix.2 with
  | none => ix.1.moveErr c m stEcc
  | some i =>
    let so := v.runOff false r (if v.op = 1 then some i else none)
    let d0 := v.runOff true r (if v.op = 2 ∨ v.op = 3 then some i else none)
    let n := v.runBytes
    let srcOut := v.op == 1 && (s.leaves v (s.side c v false) so (so + n) || (match v.obj with
      | some o =>
        let len := match o with | .t1 _ _ n | .t2 _ _ _ _ n => n
        decide ((v.objOff : Int) + so < 0) || decide ((len : Int) < (v.objOff : Int) + so + n)
      | none => false))
    let dstOut := (v.op == 2 || v.op == 3) && (s.leaves v dst d0 (d0 + n) || s.hitsMeta dst d0 n)
    if srcOut ∨ dstOut then ix.1.moveErr c m stBadDescriptor
    else
      let d := wrap ((dst.base : Int) + d0) 64
      let u := v.unitSpan dst.granule k d
      if u.2 ≤ u.1 ∨ s.countWaits (v.counter dst) then s
      else
        let rd := ix.1.unitBytes c m k v (so + ((u.1 - d : Nat) : Int)) (u.2 - u.1) denied
        match rd.2 with
        | .wait => rd.1
        | .fail st => rd.1.moveErr c m st
        | .bytes bytes => rd.1.deliver c m k r v dst u.1 bytes denied

/-- The hub reads unit k of a streaming COPY from HBM ahead, while its read-ahead buffer of 64 KiB has room (R194). -/
def State.readAheadUnit (s : State) (c m k : Nat) : State :=
  match (s.mover c m).cur with
  | none => s
  | some v =>
    let dst := s.side c v true
    let r := k / v.perRun dst.granule
    let d := wrap ((dst.base : Int) + v.runOff true r none) 64
    let u := v.unitSpan dst.granule k d
    let held := v.ahead.foldl (fun n e => n + e.2.length) 0
    if v.err.isSome ∨ u.2 ≤ u.1 ∨ 65536 < held + (u.2 - u.1) ∨ v.units.any (·.1 == k) ∨ v.ahead.any (·.1 == k) then s
    else
      let rd := s.readSource c m v (s.side c v false) (v.runOff false r none + ((u.1 - d : Nat) : Int)) (u.2 - u.1) false
      match rd.2 with
      | .wait => rd.1
      | .fail st => rd.1.moveErr c m st
      | .bytes b => rd.1.setMove c m fun v => { v with ahead := setK [] v.ahead k b }

/-- A begun COPY from HBM is read ahead, from its first unit that has not landed, 1,024 units at most. -/
def State.readAhead (s : State) (c m : Nat) : State :=
  match (s.mover c m).cur with
  | none => s
  | some v =>
    let isHbm : Bool := match s.side c v false with | .hbm _ => true | _ => false
    if ¬ v.begun ∨ v.err.isSome ∨ v.op ≠ 0 ∨ ¬ isHbm then s
    else
      let units := v.runs * v.perRun (s.side c v true).granule
      let first := v.units.length
      (List.range (min 1024 (units - first))).foldl (fun s k => s.readAheadUnit c m (first + k)) s

/-- MOVE_COMPLETE (R183). -/
def execMoveComplete (c : Fin 512) (m : Fin 2) (s : State) : Answer :=
  .next <|
    match (s.mover c m).cur with
    | some v => if v.ended then s.finishMove c m v else s
    | none => s

/-- Whether a move has had no answer for the period of its cluster's watchdog (R185), counted from its last answer (DEDUCED,
log entry 173). -/
def State.wdogDue (s : State) (c : Nat) (v : Move) : Bool := decide (v.since + s.rdMax MOV_WDOG.PERIOD_US 60000000 c ≤ s.us)

/-- MOVER_WATCHDOG (R185): a transaction of a move to another module, to host memory or on the package has gone
unanswered for the period: the move ends, and waits for no answer any more. -/
def execMoverWatchdog (c : Fin 512) (m : Fin 2) (target : WdogTarget) (s : State) : Answer :=
  .next <|
    match (s.mover c m).cur with
    | none => s
    | some v =>
      let isHost (x : Side2) : Bool := match x with | .host _ => true | _ => false
      let src := s.side c v false
      let dst := s.side c v true
      let fits : Bool := match target with
        | .peer => src.remote || dst.remote
        | .host => isHost src || isHost dst
        | .package => !(src.remote && v.op == 4) && !(isHost src && isHost dst)
      let st := match target with
        | .peer => stPeerTimeout
        | .host => stHostLost
        | .package => stCounterTimeout
      if s.on MOV_WDOG.EN c ∧ v.begun ∧ ¬ v.ended ∧ fits ∧ s.wdogDue c v then
        (((s.moveErr c m st).withdraw c m).setMove c m fun v => { v with flight := [], ahead := [] }).raise
          MOV_INT_STATUS.WDOG c
      else s

/-! ## Landing counters -/

/-- LND_ADD (R190): the add counts as a landing with no data. -/
def execLndAdd (o : Origin) (c : Fin 512) (cnt : Fin 256) (amount : BitVec 32) (s : State) : Answer :=
  .next <| s.asRegStore o (LND_ADD.CNT.addr c 0) [(LND_ADD.CNT, cnt), (LND_ADD.AMOUNT, amount.toNat)] fun s =>
    s.lndAdd c cnt amount.toNat

/-- Arm the watch of a cluster (R187): a target of 0 fires at once. -/
def State.armWatch (s : State) (c n t : Nat) : State :=
  let s := ((s.wr LND_WATCH.CNT n c).wr LND_WATCH.TARGET t c).wr LND_WATCH.ARMED 1 c
  if t = 0 then (s.wr LND_WATCH.ARMED 0 c).raise LND_INT_STATUS.WATCH c else s.watchFire c n

/-- LND_WATCH (R187). -/
def execLndWatch (o : Origin) (c : Fin 512) (cnt : Fin 256) (target : BitVec 48) (s : State) : Answer :=
  .next <| s.asRegStore o (LND_WATCH.CNT.addr c 0) [(LND_WATCH.CNT, cnt), (LND_WATCH.TARGET, target.toNat)] fun s => s.armWatch c cnt target.toNat

/-- Clear counters, while the cluster is STOPPED and owned by no slot (R189). -/
def State.clearCounters (s : State) (c n : Nat) (all : Bool) : State :=
  if s.cluSt c = cStopped ∧ (s.clu c).owner = none then
    (if all then s.zeroCounters c else s.wr LND_CNT.COUNT 0 c n)
  else s

/-- LND_CLEAR (R189). -/
def execLndClear (o : Origin) (c : Fin 512) (cnt : Fin 256) (all : Bool) (s : State) : Answer :=
  .next <| s.asRegStore o (LND_CLEAR.CNT.addr c 0) [(LND_CLEAR.CNT, cnt), (LND_CLEAR.ALL, b2n all)] fun s => s.clearCounters c cnt all

end Sys2Proof.Machine
end

