-- ==== Sys2Proof/Machine/PlanImage.lean ====
section
/-! DEFINITION. Machine/PlanImage.lean: the plan image (R113 to R119, R489): its header, section table and records, the
translation of placement (R118) and of GX3 words (R489), and the checks 0x01, 0x02, 0x06, 0x07, 0x0B and 0x16. -/

namespace Sys2Proof.Machine

/-- A failed check (R140): its status and detail code, the section table index and the record index. -/
structure PlanFail where
  status : Nat
  check : Nat
  sect : Nat
  item : Nat
  deriving DecidableEq, Repr

/-- A PLAN_CHECK failure. -/
def failAt (check sect item : Nat) : Option PlanFail := some ⟨stPlanCheck, check, sect, item⟩

/-- The failure of a check that does not hold. -/
def need (ok : Bool) (check sect item : Nat) : Option PlanFail := if ok then none else failAt check sect item

/-- The first failure over a list. -/
def firstFail {α : Type} (f : α → Option PlanFail) : List α → Option PlanFail
  | [] => none
  | a :: l => (f a).orElse fun _ => firstFail f l

/-- A list with positions. -/
def numbered {α : Type} (l : List α) : List (Nat × α) := (List.range l.length).zip l

/-! ## Bytes -/

/-- `n` bytes of an image as a number. -/
def imgNat (img : List Byte) (off n : Nat) : Nat := leNat ((img.drop off).take n)

/-- Whether the bytes of a range are all zero. -/
def imgZero (img : List Byte) (lo hi : Nat) : Bool := ((img.drop lo).take (hi - lo)).all (· == 0)

/-- `n` records of `size` bytes as numbers. -/
def records (img : List Byte) (off size n : Nat) : List Nat := (List.range n).map fun i => imgNat img (off + i * size) size

/-! ## Header (R114) -/

/-- Version of the image: 0x0400, or 0x0300 for a GX3 plan. -/
def imgVersion (img : List Byte) : Nat := imgNat img 4 2

/-- Whether an image is a GX3 plan. -/
def imgGx3 (img : List Byte) : Bool := imgVersion img == 0x0300

/-- Sections of the image. -/
def imgSects (img : List Byte) : Nat := imgNat img 0x0C 2

/-- Check 0x01 on the header's bytes. -/
def checkHeader (img : List Byte) (len : Nat) : Option PlanFail :=
  need (imgNat img 0 4 == 0x4E414C50 && (imgVersion img == 0x0400 || imgVersion img == 0x0300)
    && imgNat img 6 2 == 128 && imgNat img 8 4 == len
    && imgZero img 0x0F 0x10 && imgZero img 0x14 0x18 && imgZero img 0x20 0x80) 0x01 0 0

/-- Check 0x06: the stepping. -/
def checkStepping (img : List Byte) : Option PlanFail :=
  need (imgNat img 0x0E 1 == if imgGx3 img then 0x00 else 0xB0) 0x06 0 0

/-! ## Section table (R115) -/

/-- A section table entry with its index. -/
structure Sect where
  typ : Nat
  flags : Nat
  off : Nat
  len : Nat
  count : Nat
  idx : Nat
  deriving DecidableEq, Repr

/-- The entries of the section table. -/
def imgTable (img : List Byte) : List Sect :=
  (List.range (imgSects img)).map fun j =>
    let o := 128 + 16 * j
    ⟨imgNat img o 2, imgNat img (o + 2) 2, imgNat img (o + 4) 4, imgNat img (o + 8) 4, imgNat img (o + 12) 4, j⟩

/-- Section types. -/
def tRegion : Nat := 1
def tCluster : Nat := 2
def tMove : Nat := 3
def tDeadline : Nat := 4
def tFumarole : Nat := 5
def tMigrate : Nat := 6
def tPreload : Nat := 7
def tGx3 : Nat := 8
def tData : Nat := 9
def tSignature : Nat := 0xFF

/-- Record size of a section type (none for records of variable size) and the limits of its count (R115). -/
def sectRule : Nat → Option (Option Nat × Nat × Nat)
  | 1 => some (some 128, 1, 1)
  | 2 => some (none, 1, 512)
  | 3 => some (some 64, 0, 4096)
  | 4 => some (some 8, 0, 4096)
  | 5 => some (some 16, 0, 1024)
  | 6 => some (some 32, 0, 65536)
  | 7 => some (some 16, 0, 8192)
  | 8 => some (none, 1, 256)
  | 9 => some (some 1, 0, 67108864)
  | 0xFF => some (some 128, 1, 1)
  | _ => none

/-- Whether a section type is allowed in a version (R115, R489). -/
def sectAllowed (gx3 : Bool) (t : Nat) : Bool :=
  if gx3 then t == tRegion || t == tGx3 || t == tMove || t == tSignature else t != tGx3

/-- The section of a type. -/
def sectOf (ts : List Sect) (t : Nat) : Option Sect := ts.find? fun x => x.typ == t

/-- The table index of a section type, 0 where it is absent. -/
def sectIdx (ts : List Sect) (t : Nat) : Nat := match sectOf ts t with | some x => x.idx | none => 0

/-- Put a section into a list ordered by offset; of equal offsets the earlier entry stays first. -/
def insertSect (x : Sect) : List Sect → List Sect
  | [] => [x]
  | y :: l => if x.off < y.off then x :: y :: l else y :: insertSect x l

/-- The sections that hold bytes, in the order they lie in the image: an empty section overlaps none (R115). -/
def byOffset (ts : List Sect) : List Sect := (ts.filter fun x => x.len != 0).foldl (fun l x => insertSect x l) []

/-- Check 0x02 on one entry. -/
def checkSect (img : List Byte) (gx3 : Bool) (ts : List Sect) (x : Sect) : Option PlanFail :=
  match sectRule x.typ with
  | none => failAt 0x02 x.idx 0
  | some (size, lo, hi) =>
    need (x.flags == 0 && sectAllowed gx3 x.typ && (ts.filter fun y => y.typ == x.typ).length == 1
      && x.off % 64 == 0 && decide (128 + 16 * ts.length ≤ x.off) && decide (x.off + x.len ≤ img.length)
      && decide (lo ≤ x.count) && decide (x.count ≤ hi)
      && (match size with | some n => x.len == n * x.count | none => true)) 0x02 x.idx 0

/-- Check 0x02 on overlap and the zeros between sections, in image order. -/
def checkGaps (img : List Byte) : Nat → List Sect → Option PlanFail
  | _, [] => none
  | at_, x :: l =>
    (need (decide (at_ ≤ x.off) && imgZero img at_ x.off) 0x02 x.idx 0).orElse fun _ => checkGaps img (x.off + x.len) l

/-- Check 0x02 (R113, R115, R116). -/
def checkTable (img : List Byte) : Option PlanFail :=
  let ts := imgTable img
  let n := imgSects img
  if n < 3 ∨ 64 < n ∨ img.length < 128 + 16 * n then failAt 0x02 0 0
  else
    (firstFail (checkSect img (imgGx3 img) ts) ts).orElse fun _ =>
    (need ((sectOf ts tRegion).isSome && (sectOf ts (if imgGx3 img then tGx3 else tCluster)).isSome
      && (sectOf ts tSignature).isSome) 0x02 0 0).orElse fun _ =>
    (match ts.getLast? with
      | some x => need (x.typ == tSignature && x.off + x.len == img.length
          && imgZero img (x.off + 1) (x.off + 8) && imgZero img (x.off + 72) (x.off + 128)) 0x02 x.idx 0
      | none => failAt 0x02 0 0).orElse fun _ =>
    checkGaps img (128 + 16 * n) (byOffset ts)

/-! ## Region and placement (R117, R118) -/

/-- The plan-relative clusters of a region record at an offset. -/
def regionClusters (img : List Byte) (off : Nat) : List Nat :=
  let m := imgNat img (off + 0x40) 64
  (List.range 512).filter fun j => bit m j

/-- Check 0x0B on the REGION record. -/
def checkRegion (img : List Byte) (x : Sect) : Option PlanFail :=
  let o := x.off
  let d := imgNat img (o + 4) 1
  let r := imgNat img (o + 5) 1
  let c := imgNat img (o + 6) 1
  let n := imgNat img o 2
  let g := imgNat img (o + 2) 2
  let js := regionClusters img o
  need (decide (1 ≤ n) && decide (n ≤ 512) && decide (1 ≤ g) && decide (g ≤ 256) && decide (1 ≤ d) && decide (d ≤ 4)
    && decide (1 ≤ r) && decide (r ≤ 8) && decide (1 ≤ c) && decide (c ≤ 16) && imgZero img (o + 7) (o + 0x40)
    && js.length == n
    && js.all fun j => decide (j / 128 < d) && decide (j / 16 % 8 < r) && decide (j % 16 < c)) 0x0B x.idx 0

/-- A placement: the translation of PLN_PLACE. -/
structure Place where
  d : Nat
  r : Nat
  c : Nat
  deriving DecidableEq, Repr

/-- The physical cluster of a plan-relative one; none off the grid (R118). -/
def Place.cluster (p : Place) (j : Nat) : Option Nat :=
  let d := j / 128 + p.d
  let r := j / 16 % 8 + p.r
  let c := j % 16 + p.c
  if d ≤ 3 ∧ r ≤ 7 ∧ c ≤ 15 then some (128 * d + 16 * r + c) else none

/-- The same where the plan has been placed. -/
def Place.at (p : Place) (j : Nat) : Nat := (p.cluster j).getD 0

/-- Check 0x07: every cluster of the plan lies on the grid. -/
def checkPlace (img : List Byte) (p : Place) (x : Sect) : Option PlanFail :=
  need ((regionClusters img x.off).all fun j => (p.cluster j).isSome) 0x07 x.idx 0

/-! ## GX3 words (R489) -/

/-- A GX3 scratchpad offset on the GX4. -/
def gx3Off (x : Nat) : Nat := if x < 0x100000 then x else x + 0x80000

/-- A word with its field of `w` bits at `lo` replaced. -/
def putBits (x lo w v : Nat) : Nat := x - bits x lo w * 2 ^ lo + v % 2 ^ w * 2 ^ lo

/-- A word with a GX3 offset field translated. -/
def gx3Field (x lo w : Nat) : Nat := putBits x lo w (gx3Off (bits x lo w))

/-- A GX3 operation word: OBASE of an output to AM or PM and BIAS. -/
def gx3Op (w : Nat) : Nat := gx3Field (gx3Field w 128 22) 192 22

/-- A GX3 feeder word: BASE and SBASE. -/
def gx3Feed (w : Nat) : Nat := gx3Field (gx3Field w 0 22) 192 22

/-- A GX3 vector instruction: the offset IMM of LD, ST and LDLP and the address of SETA (DEDUCED, log entry 33). -/
def gx3Vec (w : Nat) : Nat :=
  if VecW.op w = 1 ∨ VecW.op w = 2 ∨ VecW.op w = 3 ∨ VecW.op w = 0x30 then gx3Field w 40 22 else w

/-- A GX3 MOVE descriptor: the offsets of LOCAL and CLUSTER addresses and the index table. -/
def gx3Move (d : List Nat) : List Nat :=
  let q (i : Nat) : Nat := d.getD i 0
  let near (s : Nat) : Bool := s == 0 || s == 1
  let s := if near (bits (q 0) 4 3) then gx3Field (q 1) 0 22 else q 1
  let t := if near (bits (q 0) 7 3) then gx3Field (q 2) 0 22 else q 2
  let op := bits (q 0) 0 4
  let q4 := if op = 1 then gx3Field (q 4) 30 22 else q 4
  let q6 := if op = 2 ∨ op = 3 then gx3Field (q 6) 30 22 else q 6
  [q 0, s, t, q 3, q4, q 5, q6, q 7]

/-- Whether a GX3 offset lies in the GX3's scratchpads. -/
def gx3In (x : Nat) : Bool := decide (x < 0x280000)

/-- Formats of a GX3 operand. -/
def gx3Fmt (c : Nat) : Bool := decide (4 ≤ c) && decide (c ≤ 9)

/-- Whether a GX3 operation word stays within R489. -/
def gx3OpOk (w : Nat) : Bool :=
  !OpW.mx w && gx3In (OpW.obase w) && gx3In (OpW.bias w) && (match OpW.opc w with
    | 1 => gx3Fmt (OpW.afmt w) && gx3Fmt (OpW.bfmt w) && (gx3Fmt (OpW.ofmt w) || OpW.ofmt w == 10)
    | 2 => gx3Fmt (OpW.ofmt w) || OpW.ofmt w == 10
    | 3 => gx3Fmt (OpW.afmt w) && gx3Fmt (OpW.bfmt w)
    | _ => true)

/-- Whether a GX3 feeder word does. -/
def gx3FeedOk (w : Nat) : Bool := !FeedW.scales w && gx3In (FeedW.base w) && gx3In (FeedW.sbase w)

/-- Whether a GX3 step word does: no WAITDL. -/
def gx3StepOk (w : Nat) : Bool := StepW.opc w != 6

/-- Whether a GX3 vector instruction does: no CVTMX, and no MX conversion in CVTI. -/
def gx3VecOk (w : Nat) : Bool :=
  VecW.op w != 0x12 && !(VecW.op w == 0x10 && bit (VecW.imm w) 0)
    && (!(VecW.op w == 1 || VecW.op w == 2 || VecW.op w == 3 || VecW.op w == 0x30) || gx3In (VecW.imm w))

/-- Whether a GX3 MOVE descriptor does: its spaces, its offsets and its index table's. -/
def gx3MoveOk (d : List Nat) : Bool :=
  let q (i : Nat) : Nat := d.getD i 0
  let ok (s a : Nat) : Bool :=
    if s = 0 ∨ s = 1 then gx3In (bits a 0 22) else s == 2 && a / 2 ^ 38 == 0
  let op := bits (q 0) 0 4
  ok (bits (q 0) 4 3) (q 1) && ok (bits (q 0) 7 3) (q 2) && (op != 1 || gx3In (bits (q 4) 30 22))
    && ((op != 2 && op != 3) || gx3In (bits (q 6) 30 22))

/-! ## Cluster records (R119) -/

/-- A cluster record: its header's fields, its position, its arrays as the image holds them, and where the next record
begins. -/
structure CluRec where
  off : Nat
  index : Nat
  stage : Nat
  rows : Nat
  cols : Nat
  nops : Nat
  nfeed : Nat
  nsteps : Nat
  nvec : Nat
  banks : Nat
  lndExt : Nat
  next : Nat
  deriving DecidableEq, Repr

/-- Feeder words in a set, and cell words, of a version. -/
def feedWords (gx3 : Bool) : Nat := if gx3 then 48 else 52
def cellWords (gx3 : Bool) : Nat := if gx3 then 512 else 640

/-- The cluster record at an offset. -/
def cluRec (img : List Byte) (gx3 : Bool) (o : Nat) : CluRec :=
  let nops := imgNat img (o + 5) 1
  let nfeed := imgNat img (o + 6) 1
  let nsteps := imgNat img (o + 8) 2
  let nvec := imgNat img (o + 0x0A) 2
  let end_ := o + 64 + nops * 32 + nfeed * feedWords gx3 * 32 + cellWords gx3 * 8 + nsteps * 16 + nvec * 8
  ⟨o, imgNat img o 2, imgNat img (o + 2) 1, imgNat img (o + 3) 1, imgNat img (o + 4) 1, nops, nfeed, nsteps, nvec,
    imgNat img (o + 0x10) 8, imgNat img (o + 0x18) 32, if gx3 then cdiv end_ 64 * 64 else end_⟩

/-- The records of a section, back to back. -/
def cluRecs (img : List Byte) (gx3 : Bool) : Nat → Nat → List CluRec
  | 0, _ => []
  | n + 1, o => let r := cluRec img gx3 o; r :: cluRecs img gx3 n r.next

/-- Where a record's arrays end. -/
def CluRec.fin (r : CluRec) (gx3 : Bool) : Nat :=
  r.off + 64 + r.nops * 32 + r.nfeed * feedWords gx3 * 32 + cellWords gx3 * 8 + r.nsteps * 16 + r.nvec * 8

/-- Check 0x0B on a cluster record header; a GX3 record's rows beyond 16 are check 0x16. -/
def checkCluRec (img : List Byte) (gx3 : Bool) (x : Sect) (region : List Nat) (nstage : Nat) (p : Nat × CluRec) :
    Option PlanFail :=
  let r := p.2
  (need (region.contains r.index && decide (r.stage < nstage) && decide (1 ≤ r.rows) && decide (r.rows ≤ 20)
    && decide (1 ≤ r.cols) && decide (r.cols ≤ 32) && decide (1 ≤ r.nops) && decide (r.nops ≤ 64)
    && decide (1 ≤ r.nfeed) && decide (r.nfeed ≤ 8) && decide (1 ≤ r.nsteps) && decide (r.nsteps ≤ 1024)
    && decide (r.nvec ≤ 4096) && r.banks / 2 ^ 48 == 0 && imgZero img (r.off + 7) (r.off + 8)
    && imgZero img (r.off + 0x0C) (r.off + 0x10) && imgZero img (r.off + 0x38) (r.off + 0x40)
    && decide (r.fin gx3 ≤ x.off + x.len)) 0x0B x.idx p.1).orElse fun _ =>
  need (!gx3 || decide (r.rows ≤ 16)) 0x16 x.idx p.1

/-- Check 0x0B on the records together: one for each cluster of the region, filling the section, with no stage empty. -/
def checkCluRecs (x : Sect) (gx3 : Bool) (region : List Nat) (nstage : Nat) (rs : List CluRec) : Option PlanFail :=
  (need (x.count == region.length) 0x0B x.idx 0).orElse fun _ =>
  (firstFail (fun (p : Nat × CluRec) => need (((rs.take p.1).all fun y => y.index != p.2.index)) 0x0B x.idx p.1)
    (numbered rs)).orElse fun _ =>
  (need (match rs.getLast? with | some r => r.fin gx3 == x.off + x.len || r.next == x.off + x.len | none => false)
    0x0B x.idx 0).orElse fun _ =>
  need ((List.range nstage).all fun g => rs.any fun r => r.stage == g) 0x0B x.idx 0

/-- The configuration a record gives its cluster, GX3 words translated, spares not yet chosen. -/
def CluRec.cfg (r : CluRec) (img : List Byte) (gx3 : Bool) (slot : Nat) : CluCfg :=
  let o1 := r.off + 64
  let o2 := o1 + r.nops * 32
  let o3 := o2 + r.nfeed * feedWords gx3 * 32
  let o4 := o3 + cellWords gx3 * 8
  let o5 := o4 + r.nsteps * 16
  let ops := records img o1 32 r.nops
  let feeds := (List.range r.nfeed).map fun k => records img (o2 + k * feedWords gx3 * 32) 32 (feedWords gx3)
  let cells := records img o3 8 (cellWords gx3)
  let vec := records img o5 8 r.nvec
  { slot := slot, stage := r.stage, rows := r.rows, cols := r.cols, banks := r.banks % 2 ^ 48, lndExt := r.lndExt
    ops := if gx3 then ops.map gx3Op else ops
    feed := if gx3 then feeds.map fun f => (f.take 16).map gx3Feed ++ List.replicate 4 0 ++ (f.drop 16).map gx3Feed
      else feeds
    cells := if gx3 then cells ++ List.replicate 128 0 else cells
    steps := records img o4 16 r.nsteps, vec := if gx3 then vec.map gx3Vec else vec, spareUsed := 0 }

/-- Check 0x16 on the words of a GX3 cluster record. -/
def checkGx3 (img : List Byte) (x : Sect) (p : Nat × CluRec) : Option PlanFail :=
  let r := p.2
  let o1 := r.off + 64
  let o2 := o1 + r.nops * 32
  let o3 := o2 + r.nfeed * 48 * 32
  let o4 := o3 + 4096
  need ((records img o1 32 r.nops).all gx3OpOk && (records img o2 32 (r.nfeed * 48)).all gx3FeedOk
    && (records img o4 16 r.nsteps).all gx3StepOk && (records img (o4 + r.nsteps * 16) 8 r.nvec).all gx3VecOk)
    0x16 x.idx p.1

/-! ## The records of a placed plan -/

/-- A MOVE record as eight quadwords. -/
def moveRec (img : List Byte) (o : Nat) : List Nat := records img o 8 8

/-- Whether a MOVE template counts on LCLU: LCNT_EN with a destination in HBM (R176). -/
def usesLclu (d : List Nat) : Bool := bit (d.getD 0 0) 13 && (bits (d.getD 0 0) 7 3 == 2 || bits (d.getD 0 0) 7 3 == 4)

/-- A MOVE template with its cluster coordinates translated: those of CLUSTER addresses and LCLU (R118, R175); none where
one lies off the grid. -/
def placeMove (p : Place) (d : List Nat) : Option (List Nat) :=
  let q (i : Nat) : Nat := d.getD i 0
  let addr (space a : Nat) : Option Nat :=
    if space = 1 then (p.cluster (bits a 22 9)).map fun j => putBits a 22 9 j else some a
  match addr (bits (q 0) 4 3) (q 1), addr (bits (q 0) 7 3) (q 2),
      (if usesLclu d then (p.cluster (bits (q 0) 22 9)).map fun j => putBits (q 0) 22 9 j else some (q 0)) with
  | some a, some b, some q0 => some ([q0, a, b] ++ d.drop 3)
  | _, _, _ => none

/-- A plan as read: the region's clusters, stages, records with translated coordinates, and the sections. -/
structure PlanRead where
  sects : List Sect
  gx3 : Bool
  region : List Nat
  nstage : Nat
  place : Place
  recs : List CluRec
  clus : List (Nat × CluCfg)
  moves : List (List Nat)
  deadlines : List Nat
  fum : List Nat
  mig : List Nat
  pres : List Nat
  deriving DecidableEq, Repr

/-- The records of a section of fixed size. -/
def sectRecords (img : List Byte) (ts : List Sect) (t size : Nat) : List Nat :=
  match sectOf ts t with
  | some x => records img x.off size x.count
  | none => []

/-- Read a plan image whose header and section table have passed their checks. -/
def readPlan (img : List Byte) (p : Place) (slot : Nat) : PlanRead :=
  let ts := imgTable img
  let gx3 := imgGx3 img
  let region := match sectOf ts tRegion with | some x => regionClusters img x.off | none => []
  let nstage := match sectOf ts tRegion with | some x => imgNat img (x.off + 2) 2 | none => 0
  let recs := match sectOf ts (if gx3 then tGx3 else tCluster) with
    | some x => cluRecs img gx3 (min x.count 512) x.off
    | none => []
  let moves := match sectOf ts tMove with
    | some x => (List.range x.count).map fun i => moveRec img (x.off + 64 * i)
    | none => []
  { sects := ts, gx3 := gx3, region := region, nstage := nstage, place := p, recs := recs
    clus := recs.map fun r => (p.at r.index, r.cfg img gx3 slot)
    moves := moves.map fun d => (placeMove p (if gx3 then gx3Move d else d)).getD d
    deadlines := sectRecords img ts tDeadline 8, fum := sectRecords img ts tFumarole 16
    mig := (sectRecords img ts tMigrate 32).map fun r => putBits r 222 9 (p.at (migClu r))
    pres := (sectRecords img ts tPreload 16).map fun r => putBits r 0 9 (p.at (PreW.cluster r)) }

end Sys2Proof.Machine
end

