-- ==== Sys2Proof/Machine/PlanCheck.lean ====
section
/-! DEFINITION. Machine/PlanCheck.lean: the plan checker's rules on records (R120 to R137, R140, R144, R489, R493,
R497, R498): checks 0x0A, 0x0C to 0x16 and the signature's 0x03 to 0x05. -/

namespace Sys2Proof.Machine

/-! ## Operations and cells (checks 0x0C) -/

/-- Whether the MX mark is accepted on a format code (R81). -/
def mxCode (c : Nat) : Bool := decide (1 ≤ c) && decide (c ≤ 6)

/-- Whether a code is an output format of a cell (R96). -/
def outCode (c : Nat) : Bool := [0, 1, 4, 5, 6, 7, 8, 9, 10].contains c

/-- Whether two operand codes pair (R82), with the MX mark (R81). -/
def pairs (w : Nat) : Bool :=
  decide (OpW.afmt w ≤ 9) && decide (OpW.bfmt w ≤ 9) && fmtClass (OpW.afmt w) == fmtClass (OpW.bfmt w)
    && (OpW.opc w == 3 || fmtClass (OpW.afmt w) != 2 || OpW.afmt w == OpW.bfmt w)
    && (!OpW.mx w || (mxCode (OpW.afmt w) && mxCode (OpW.bfmt w)))

/-- Whether K suits the cube (R124). -/
def kFits (w : Nat) : Bool :=
  decide (OpW.k w ≤ 2 ^ 24) && OpW.k w % cubeK (OpW.afmt w) == 0 && (!OpW.mx w || OpW.k w % 32 == 0)

/-- The rules on outputs and preloads of MAC and RED (R124). -/
def outputRules (w : Nat) : Bool :=
  outCode (OpW.ofmt w) && (OpW.odest w == 1 || (OpW.ofmt w != 10 && OpW.ofmt w != 9)) && OpW.pre w != 3
    && OpW.biasfmt w != 3

/-- An operation word that only its operand formats, MX, K and PATCHES give (the zero fields of FWD, R124). -/
def fwdWord (w : Nat) : Nat :=
  3 + OpW.afmt w * 2 ^ 4 + OpW.bfmt w * 2 ^ 8 + b2n (OpW.mx w) * 2 ^ 16 + OpW.k w * 2 ^ 64 + OpW.patches w * 2 ^ 89

/-- Whether an operation word's encoding meets R122 to R124. -/
def opOk (w : Nat) : Bool :=
  bits w 25 7 == 0 && bits w 40 24 == 0 && bits w 125 3 == 0 && bits w 188 4 == 0 && bits w 252 4 == 0
    && (match OpW.opc w with
      | 0 => true
      | 1 => pairs w && kFits w && outputRules w
      | 2 => OpW.afmt w == 10 && decide (OpW.bfmt w ≤ 2) && !OpW.mx w && decide (OpW.k w ≤ 2 ^ 24) && outputRules w
      | 3 => pairs w && kFits w && fwdWord w == w
      | _ => false)

/-- Whether a cell number lies in the active rectangle (R120). -/
def CluCfg.inside (g : CluCfg) (i : Nat) : Bool := decide (i / 32 < g.rows) && decide (i % 32 < g.cols)

/-- The active cells' numbers. -/
def CluCfg.active (g : CluCfg) : List Nat := (List.range 640).filter g.inside

/-- The ACTIVE cells' numbers, of the active rectangle. -/
def CluCfg.cellsOn (g : CluCfg) : List Nat := g.active.filter fun i => !CellW.forward (g.cells.getD i 1)

/-- Whether a sequence reaches END within the operation table. -/
def reachesEnd (ops : List Nat) (i : Nat) : Bool := (ops.drop i).any fun w => OpW.opc w == 0

/-- The RUN steps of a cluster as (FSET, SEQ_OFF). -/
def CluCfg.runs (g : CluCfg) : List (Nat × Nat) :=
  (g.steps.filter fun w => StepW.opc w == 2).map fun w => (StepW.fset w, StepW.seqOff w)

/-- The sequence offsets in use: those of the RUN steps, or 0 where there is none. -/
def CluCfg.seqOffs (g : CluCfg) : List Nat := if g.runs.isEmpty then [0] else g.runs.map (·.2)

/-- The operations a cell runs in a RUN. -/
def CluCfg.seqOf (g : CluCfg) (cell off : Nat) : List Nat :=
  seqOps g.ops 64 (CellW.seq (g.cells.getD cell 1) + off)

/-- Check 0x0C on a cluster: its operation words and its cell words (R120 to R124). -/
def opsCellsOk (g : CluCfg) : Bool :=
  g.ops.all opOk
    && (List.range 640).all (fun i =>
      let w := g.cells.getD i 0
      if g.inside i then bits w 7 1 == 0 && bits w 56 8 == 0 else w == 0)
    && g.seqOffs.all fun o => g.cellsOn.all fun i => reachesEnd g.ops (CellW.seq (g.cells.getD i 1) + o)

/-! ## Steps and vector programs (checks 0x10, 0x11) -/

/-- Whether a step word is legal (R128): opcode, reserved bits, indexes, forward JUMP. -/
def stepOk (g : CluCfg) (templates migs : Nat) (p : Nat × Nat) : Bool :=
  let w := p.2
  match StepW.opc w with
  | 0 => w / 2 ^ 4 == 0
  | 1 => bits w 60 4 == 0 && bits w 112 16 == 0
  | 2 => bits w 7 1 == 0 && w / 2 ^ 14 == 0 && decide (StepW.fset w < g.feed.length)
  | 3 => w / 2 ^ 16 == 0 && decide (StepW.vpc w < g.vec.length)
  | 4 => bits w 5 3 == 0 && w / 2 ^ 20 == 0 && decide (StepW.template w < templates)
  | 5 => w / 2 ^ 8 == 0
  | 6 => w / 2 ^ 20 == 0 && decide (StepW.entry w < migs)
  | 7 => w / 2 ^ 14 == 0 && decide (p.1 < StepW.jump w) && decide (StepW.jump w < g.steps.length)
  | _ => false

/-- The vector operations that are not reserved (R130). -/
def vecOps : List Nat :=
  [0x00, 0x01, 0x02, 0x03, 0x04, 0x08, 0x09, 0x0A, 0x0B, 0x0C, 0x0D, 0x0E, 0x0F, 0x10, 0x11, 0x12, 0x18, 0x19, 0x1A,
    0x1B, 0x20, 0x21, 0x22, 0x23, 0x24, 0x30, 0x31, 0x32, 0x33]

/-- Whether a vector instruction is legal (R130). -/
def vecOk (p : Nat × Nat) : Bool :=
  let w := p.2
  vecOps.contains (VecW.op w) && bits w 39 1 == 0 && bits w 62 2 == 0 && (VecW.op w != 0x33 || decide (VecW.imm w ≤ p.1))

/-! ## Ranges (check 0x0D) -/

/-- The scratchpad limits of a plan: WM, AM and PM as [lo, hi); a GX3 plan's WM is 1 MiB (R489). -/
def spadsOf (gx3 : Bool) : List (Nat × Nat) :=
  [(0, if gx3 then 0x100000 else 0x180000), (0x180000, 0x280000), (0x280000, 0x300000)]

/-- Whether [lo, hi) lies within one scratchpad. -/
def inOne (gx3 : Bool) (lo hi : Int) : Bool :=
  (spadsOf gx3).any fun p => decide ((p.1 : Int) ≤ lo) && decide (hi ≤ (p.2 : Int))

/-- The blocks [b, b + n) of a feeder as boxes of (i0, i1): (first i0, last i0, first i1, last i1). -/
def blockBoxes (c0 b n : Nat) : List (Nat × Nat × Nat × Nat) :=
  if n = 0 ∨ c0 = 0 then []
  else
    let e := b + n - 1
    let y0 := b / c0
    let y1 := e / c0
    if y0 = y1 then [(b % c0, e % c0, y0, y0)]
    else [(b % c0, c0 - 1, y0, y0), (0, e % c0, y1, y1)] ++ if y0 + 1 < y1 then [(0, c0 - 1, y0 + 1, y1 - 1)] else []

/-- The hull of the addresses base + i0 × s0 + i1 × s1 over a box. -/
def boxHull (base s0 s1 : Int) (x : Nat × Nat × Nat × Nat) : Int × Int :=
  let a0 := s0 * (x.1 : Int)
  let a1 := s0 * (x.2.1 : Int)
  let b0 := s1 * (x.2.2.1 : Int)
  let b1 := s1 * (x.2.2.2 : Int)
  (base + min a0 a1 + min b0 b1, base + max a0 a1 + max b0 b1)

/-- The smallest byte range that holds some byte ranges: none where there are none. -/
def rangeHull : List (Int × Int) → Option (Int × Int)
  | [] => none
  | h :: t => some (t.foldl (fun m x => min m x.1) h.1, t.foldl (fun m x => max m x.2) h.2)

/-- The bytes of blocks [b, b + n) of a feeder, for the block shape of an operation (R126), as ranges. -/
def feedRange (a : Bool) (f w b n : Nat) : List (Int × Int) :=
  let rows := if a then opARows w else opBRows w
  let width := if a then opABytes w else opBBytes w
  ((blockBoxes (FeedW.c0 f) b n).map (boxHull (FeedW.base f) (FeedW.s0 f) (FeedW.s1 f))).map fun h =>
    (h.1, h.2 + ((rows - 1) * FeedW.rstride f + width : Nat))

/-- The scale bytes of the blocks (R496). A long partial takes no scales. -/
def scaleRange (f w b n : Nat) : List (Int × Int) :=
  if !FeedW.scales f || OpW.opc w == 2 then []
  else
    let kb := cubeK (OpW.afmt w)
    let at_ (i0 i1 : Nat) : Nat := FeedW.sbase f + i0 * kb / 32 * 4 + i1 * FeedW.sstride f
    (blockBoxes (FeedW.c0 f) b n).map fun x => ((at_ x.1 x.2.2.1 : Nat), (at_ x.2.1 x.2.2.2 + 4 : Nat))

/-- The ranges of a feeder's blocks and of their scale bytes over the operations of a sequence, from block `b` on. -/
def feedSeq (a : Bool) (f : Nat) : Nat → List Nat → List (Int × Int) × List (Int × Int)
  | _, [] => ([], [])
  | b, w :: ws =>
    let n := if a ∨ OpW.opc w ≠ 2 then opAllBlocks w else 0
    let r := feedSeq a f (b + n) ws
    (feedRange a f w b n ++ r.1, scaleRange f w b n ++ r.2)

/-- A feeder's block bytes lie all in one scratchpad, and its scale bytes all in one (R496). -/
def feedSeqOk (gx3 a : Bool) (f : Nat) (ws : List Nat) : Bool :=
  let r := feedSeq a f 0 ws
  let ok (l : List (Int × Int)) : Bool := match rangeHull l with | none => true | some h => inOne gx3 h.1 h.2
  ok r.1 && ok r.2

/-- A set's feeder words: rows 0 to 19, then columns. -/
def CluCfg.feeder (g : CluCfg) (fset no : Nat) : Nat := (g.feed.getD fset []).getD no 0

/-- The sides and indexes of the active rows and columns. -/
def CluCfg.edges (g : CluCfg) : List (Side × Nat) :=
  ((List.range g.rows).map fun r => (Side.a, r)) ++ (List.range g.cols).map fun c => (Side.b, c)

/-- The ranges of the feeders of a RUN, with the shapes of each edge's first ACTIVE cell. -/
def runFeedOk (gx3 : Bool) (g : CluCfg) (r : Nat × Nat) : Bool :=
  g.edges.all fun e =>
    let f := g.feeder r.1 (feederNo e.1 e.2)
    !FeedW.en f || match firstActive g.cells (feederCells g e.1 e.2) with
      | none => true
      | some w => feedSeqOk gx3 (e.1 == .a) f (seqOps g.ops 64 (CellW.seq w + r.2))

/-- Whether the outputs and the biases of an operation of a cell lie in their scratchpads (R125). -/
def outRangeOk (gx3 : Bool) (cw w : Nat) : Bool :=
  OpW.opc w == 3 || OpW.patches w == 0 ||
    let p := OpW.patches w - 1
    let m := opM w - 1
    let n := opN w - 1
    let tiles := OpW.ofmt w == 10 || OpW.pre w == 2
    (!tiles || decide (opTile w cw p < 1024))
      && (OpW.ofmt w == 10 || (
        let lo := opOutHalf w cw 0 0 0
        let hi := opOutHalf w cw p m n + halfBytes (OpW.ofmt w)
        if OpW.odest w = 0 then decide (2 * 0x180000 ≤ lo) && decide (hi ≤ 2 * 0x280000)
        else decide (2 * 0x280000 ≤ lo) && decide (hi ≤ 2 * 0x300000)))
      && (OpW.pre w != 1 ||
        inOne gx3 (opBiasAddr w cw 0 0) (opBiasAddr w cw p n + (if OpW.biasfmt w = 0 then 4 else 2) : Nat))

/-- Check 0x0D on a cluster. -/
def rangesOk (gx3 : Bool) (g : CluCfg) : Bool :=
  g.runs.all fun r =>
    runFeedOk gx3 g r && g.cellsOn.all fun i => (g.seqOf i r.2).all (outRangeOk gx3 (g.cells.getD i 0))

/-! ## Feeders (check 0x0F) -/

/-- Whether a feeder word's reserved bits are 0 (R126). -/
def feedBitsOk (f : Nat) : Bool := bits f 46 18 == 0 && bits f 112 16 == 0 && bits f 176 16 == 0 && bits f 236 20 == 0

/-- Whether a feeder set has EN only on active rows and columns (R120). -/
def feedEnOk (g : CluCfg) (fs : List Nat) : Bool :=
  (List.range 52).all fun no =>
    !FeedW.en (fs.getD no 0) || if no < 20 then decide (no < g.rows) else decide (no - 20 < g.cols)

/-- Blocks that a sequence takes from a side's link: a RED takes none from the B link. -/
def seqBlocks (a : Bool) (ops : List Nat) : Nat :=
  ops.foldl (fun n w => if a ∨ OpW.opc w ≠ 2 then n + opAllBlocks w else n) 0

/-- R127 on one edge of a RUN: equal block counts that the feeder's own equals, REDs alone in their column, and SCALES
where an operation has MX. A disabled feeder gives no block. -/
def edgeOk (g : CluCfg) (r : Nat × Nat) (e : Side × Nat) : Bool :=
  let a := e.1 == .a
  let f := g.feeder r.1 (feederNo e.1 e.2)
  let cells := (feederCells g e.1 e.2).filter fun i => !CellW.forward (g.cells.getD i 1)
  let seqs := cells.map fun i => g.seqOf i r.2
  let given := if FeedW.en f then FeedW.c0 f * FeedW.c1 f else 0
  let red := !a && seqs.any fun l => l.any fun w => OpW.opc w == 2
  (seqs.all fun l => seqBlocks a l == given)
    && (!red || (!FeedW.en f && seqs.all fun l => l.all fun w => OpW.opc w == 2))
    && (FeedW.scales f || seqs.all fun l => l.all fun w => !OpW.mx w)

/-- Check 0x0F on a cluster; a RUN whose set is out of range is left to check 0x10 (R140). -/
def feedersOk (g : CluCfg) : Bool :=
  g.feed.all (fun fs => fs.all feedBitsOk && feedEnOk g fs) && g.runs.all fun r => decide (g.feed.length ≤ r.1) || g.edges.all (edgeOk g r)

/-! ## Tile claims (check 0x0E) -/

/-- A set of PM tiles as a number, with the tiles of bytes [lo, hi) added. -/
def addTiles (s lo hi : Nat) : Nat :=
  if hi ≤ lo then s else
    (List.range ((hi - 1 - pmBase) / 512 + 1 - (lo - pmBase) / 512)).foldl
      (fun s k => s ||| 2 ^ ((lo - pmBase) / 512 + k)) s

/-- The PM tiles that a patch of an operation claims (R129, R161). -/
def patchTiles (w cw p s : Nat) : Nat :=
  let s := if OpW.ofmt w = 10 ∨ OpW.pre w = 2 then s ||| 2 ^ opTile w cw p else s
  if OpW.ofmt w = 10 ∨ OpW.odest w = 0 then s
  else (List.range (opM w)).foldl (fun s m =>
    addTiles s (opOutHalf w cw p m 0 / 2) (cdiv (opOutHalf w cw p m (opN w - 1) + halfBytes (OpW.ofmt w)) 2)) s

/-- The PM tiles that a cell claims in a RUN. -/
def cellTiles (g : CluCfg) (off i : Nat) : Nat :=
  (g.seqOf i off).foldl (fun s w =>
    if OpW.opc w = 3 then s
    else (List.range (OpW.patches w)).foldl (fun s p => patchTiles w (g.cells.getD i 0) p s) s) 0

/-- Whether sets of tiles are disjoint. -/
def disjointSets : Nat → List Nat → Bool
  | _, [] => true
  | s, t :: ts => s &&& t == 0 && disjointSets (s ||| t) ts

/-- Check 0x0E on a cluster (R129). -/
def claimsOk (g : CluCfg) : Bool := g.runs.all fun r => disjointSets 0 (g.cellsOn.map (cellTiles g r.2))

/-! ## Spares (check 0x0A, R144) -/

/-- Whether a cell, or spare 640 + 4 × band + spare, of a cluster is in the retired-cell list. -/
def State.retiredCell (s : State) (c n : Nat) : Bool := getK false s.rst.retired (c * 1024 + n)

/-- The retired cells of the active rectangle in a band, in order. -/
def State.bandRetired (s : State) (c : Nat) (g : CluCfg) (band : Nat) : List Nat :=
  g.active.filter fun i => decide (i / 32 / 5 = band) && s.retiredCell c i

/-- The healthy spares of a band, lowest first. -/
def State.bandSpares (s : State) (c band : Nat) : List Nat :=
  (List.range 4).filter fun k => !s.retiredCell c (640 + 4 * band + k)

/-- Whether the spares serve every retired cell of the active rectangle. -/
def State.sparesServe (s : State) (c : Nat) (g : CluCfg) : Bool :=
  (List.range 4).all fun b => decide ((s.bandRetired c g b).length ≤ (s.bandSpares c b).length)

/-- The spares in use (CLU_SPARE.USED): the lowest healthy ones of each band. -/
def State.spareMap (s : State) (c : Nat) (g : CluCfg) : Nat :=
  (List.range 4).foldl (fun m b =>
    ((s.bandSpares c b).take (s.bandRetired c g b).length).foldl (fun m k => m ||| 2 ^ (4 * b + k)) m) 0

/-! ## MOVE templates and counters (check 0x12) -/

/-- A template as a move, for the encoding checks of R181. -/
def templateMove (d : List Nat) : Move := Move.fresh d .step 0 none 0

/-- The templates that a cluster's MOVE steps name. -/
def issuedBy (p : PlanRead) (g : CluCfg) : List (List Nat) :=
  (g.steps.filter fun w => StepW.opc w == 4).filterMap fun w => p.moves[StepW.template w]?

/-- The cluster in which a template's landing counter lies, for the cluster that issues it: the destination's, or LCLU
where the destination is in HBM (R176). -/
def lcntClu (issuer : Nat) (v : Move) : Option Nat :=
  match v.dspace with
  | 0 => some issuer
  | 1 => some (bits v.daddr 22 9)
  | 2 => some v.lclu
  | _ => none

/-- Whether a template, issued or not, lands on a counter of a cluster (R131). The counter of a LOCAL destination lies in
the clusters that issue the template (DEDUCED, log entry 119). -/
def landsOn (p : PlanRead) (c n : Nat) : Bool :=
  p.moves.any fun d =>
    let v := templateMove d
    v.lcntEn && v.lcnt == n
      && (if v.dspace = 0 then p.clus.any fun e => e.1 == c && (issuedBy p e.2).contains d else lcntClu c v == some c)

/-- Whether a counter of a cluster is advanced from inside the plan (R131). -/
def advanced (p : PlanRead) (c n : Nat) (g : CluCfg) : Bool :=
  landsOn p c n || (p.mig.any fun r => migClu r == c && migCnt r == n)
    || (issuedBy p g).any fun d => (templateMove d).scntEn && (templateMove d).scnt == n

/-- R131 on a cluster: every counter a WAIT names is fed from outside or from inside the plan. -/
def waitsOk (p : PlanRead) (c : Nat) (g : CluCfg) : Bool :=
  g.steps.all fun w =>
    StepW.opc w != 1 || (StepW.target w == 0 && StepW.perpass w == 0) || bit g.lndExt (StepW.cnt w)
      || advanced p c (StepW.cnt w) g

/-- R497 on a migration record: its counter is advanced by migration copies only. -/
def migCounterOk (p : PlanRead) (r : Nat) : Bool :=
  match p.clus.find? (·.1 = migClu r) with
  | none => true
  | some e => !bit e.2.lndExt (migCnt r) && !landsOn p e.1 (migCnt r)
      && !(issuedBy p e.2).any fun d => (templateMove d).scntEn && (templateMove d).scnt == migCnt r

/-! ## Deadlines, fumarole records, migration and preloads (checks 0x13, 0x0D) -/

/-- Whether a DEADLINE record is legal (R132). -/
def deadlineOk (r : Nat) : Bool := bits r 0 32 != 0 && r / 2 ^ 32 == 0

/-- Whether a FUMAROLE record is legal (R134): zero bits, and a resident copy inside WM. -/
def fumOk (r : Nat) : Bool :=
  r / 2 ^ 57 == 0
    && (if 2 ≤ FumW.kind r then FumW.wmBase r == 0
        else decide (FumW.wmBase r + FumW.wmLen r ≤ 0x180000))

/-- Whether a MIGRATE record is legal (R133): zero bits, its cluster in the plan, its range in WM, ISSUE_AFTER a step of
its cluster or pass start. -/
def migOk (p : PlanRead) (r : Nat) : Bool :=
  bits r 32 32 == 0 && bits r 104 24 == 0 && bits r 185 7 == 0 && bits r 247 9 == 0
    && decide (1 ≤ migLen r) && decide (migLen r ≤ 0x180000) && decide (migDest r + migLen r ≤ 0x180000)
    && (match p.clus.find? (·.1 = migClu r) with
      | none => false
      | some e => migAfter r == 0x7FF || decide (migAfter r < e.2.steps.length))

/-- Whether byte ranges [a, a + n) and [b, b + m) overlap. -/
def overlap (a n b m : Nat) : Bool := decide (0 < n) && decide (0 < m) && decide (a < b + m) && decide (b < a + n)

/-- The WAITDL steps of a cluster as (step, entry). -/
def waitdls (g : CluCfg) : List (Nat × Nat) :=
  ((numbered g.steps).filter fun x => StepW.opc x.2 == 6).map fun x => (x.1, StepW.entry x.2)

/-- R498 on the WAITDLs of a cluster: its own entries, indexes of records, and a forward ALT_STEP (R128). -/
def waitdlsOk (p : PlanRead) (c : Nat) (g : CluCfg) : Bool :=
  (waitdls g).all fun x =>
    let r := p.mig.getD x.2 0
    migClu r == c && decide (migDeadline r < p.deadlines.length) && decide (migFum r < p.fum.length)
      && (let f := p.fum.getD (migFum r) 0
          FumW.kind f == 3 || (decide (x.1 < FumW.altStep f) && decide (FumW.altStep f < g.steps.length)))

/-- The interval of steps that is an entry's lifetime (R498), as first and last step. -/
def lifetime (g : CluCfg) (e r : Nat) : Nat × Nat :=
  let last := g.steps.length - 1
  let from_ := if migAfter r = 0x7FF then 0 else migAfter r
  match (waitdls g).find? (·.2 = e) with
  | none => (from_, last)
  | some x =>
    match (numbered g.steps).find? fun y => decide (x.1 < y.1) && (StepW.opc y.2 == 2 || StepW.opc y.2 == 3) with
    | some y => (from_, y.1)
    | none => (from_, last)

/-- The entries of a cluster. -/
def migsIn (p : PlanRead) (c : Nat) : List (Nat × Nat) := (numbered p.mig).filter fun x => migClu x.2 == c

/-- R498 on a FUMAROLE record: its resident copy overlaps the DEST range of no MIGRATE record. -/
def residentOk (p : PlanRead) (f : Nat) : Bool :=
  decide (2 ≤ FumW.kind f) || p.mig.all fun y => !overlap (FumW.wmBase f) (FumW.wmLen f) (migDest y) (migLen y)

/-- R498 on the ranges of a cluster: no two entries of overlapping lifetimes share bytes. -/
def migRangesOk (p : PlanRead) (c : Nat) (g : CluCfg) : Bool :=
  let es := migsIn p c
  let pairOk (x y : Nat × Nat) : Bool :=
    x.1 == y.1 || !overlap (migDest x.2) (migLen x.2) (migDest y.2) (migLen y.2) ||
      let a := lifetime g x.1 x.2
      let b := lifetime g y.1 y.2
      decide (a.2 < b.1) || decide (b.2 < a.1)
  es.all fun x => es.all (pairOk x)

/-- Whether a PRELOAD record is legal (R136), for the section PRELOAD_DATA of a length. -/
def preOk (p : PlanRead) (dataLen : Nat) (r : Nat) : Bool :=
  bits r 55 9 == 0 && (p.clus.any fun e => e.1 == PreW.cluster r)
    && decide (PreW.dest r + PreW.length r ≤ 0x300000)
    && (PreW.src r || decide (PreW.srcOff r + PreW.length r ≤ dataLen))

/-! ## Routed long partials (check 0x15, R493) -/

/-- A set of bytes of a cluster's scratchpad, as intervals [lo, hi). -/
abbrev Spans := List (Int × Int)

/-- Whether two sets share a byte. -/
def Spans.meets (a b : Spans) : Bool := a.any fun x => b.any fun y => decide (x.1 < y.2) && decide (y.1 < x.2)

/-- A place where long partials of a mode (and in FIXED mode an anchor) lie or are read. -/
structure Partials where
  clu : Nat
  mode : CalMode
  anchor : Option Int
  spans : Spans
  deriving DecidableEq, Repr

/-- Whether a mode and anchor agree. -/
def Partials.agrees (a b : Partials) : Bool := a.mode == b.mode && a.anchor == b.anchor

/-- The tile slots of an operation over its patches. -/
def slotSpans (w cw : Nat) : Spans :=
  (List.range (OpW.patches w)).map fun p =>
    let lo : Int := (opSlotAddr w cw p 0 0 : Nat)
    (lo, lo + (32 * opM w * opN w : Nat))

/-- Every slot of every PM tile that an operation writes or reads over its patches (R493). -/
def tileSpans (w cw : Nat) : Spans :=
  (List.range (OpW.patches w)).map fun p =>
    let lo : Int := (pmBase + 512 * opTile w cw p : Nat)
    (lo, lo + 512)

/-- The anchor a mode carries. -/
def fixedAnchor (w : Nat) (a : Int) : Option Int := if opMode w = .fixed then some a else none

/-- The producers of a cluster (R493). -/
def producersOf (c : Nat) (g : CluCfg) : List Partials :=
  g.seqOffs.flatMap fun o => g.cellsOn.flatMap fun i =>
    ((g.seqOf i o).filter fun w => (OpW.opc w == 1 || OpW.opc w == 2) && OpW.ofmt w == 10).map fun w =>
      ⟨c, opMode w, fixedAnchor w (opOutAnchor w), tileSpans w (g.cells.getD i 0)⟩

/-- The bytes that the A feeder of a row reads for a RED: blocks [b, b + n). -/
def redSpans (f b n : Nat) : Spans :=
  (List.range n).map fun k => let a := FeedW.rowAddr f (b + k) 0; (a, a + 32)

/-- The REDs of a sequence with the first of their blocks. -/
def redsFrom : Nat → List Nat → List (Nat × Nat)
  | _, [] => []
  | b, w :: ws => (if OpW.opc w = 2 then [(b, w)] else []) ++ redsFrom (b + opAllBlocks w) ws

/-- The consumers of a cluster (R493): REDs and continuations. -/
def consumersOf (c : Nat) (g : CluCfg) : List Partials :=
  (g.runs.flatMap fun r => g.cellsOn.flatMap fun i =>
    (redsFrom 0 (g.seqOf i r.2)).map fun x =>
      ⟨c, opMode x.2, fixedAnchor x.2 (opAnchor x.2),
        redSpans (g.feeder r.1 (feederNo .a (i / 32))) x.1 (opAllBlocks x.2)⟩)
  ++ g.seqOffs.flatMap fun o => g.cellsOn.flatMap fun i =>
    ((g.seqOf i o).filter fun w => (OpW.opc w == 1 || OpW.opc w == 2) && OpW.pre w == 2).map fun w =>
      ⟨c, opMode w, fixedAnchor w (opAnchor w), slotSpans w (g.cells.getD i 0)⟩

/-- The bytes of a side of a COPY in a scratchpad: its cluster, for the cluster that issues it, and its runs. -/
def copySide (issuer : Nat) (v : Move) (dst : Bool) : Option (Nat × Spans) :=
  let a := if dst then v.daddr else v.saddr
  let spans : Spans := (List.range v.runs).map fun r =>
    let lo := ((bits a 0 22 : Nat) : Int) + v.runOff dst r none
    (lo, lo + (v.runBytes : Int))
  match if dst then v.dspace else v.sspace with
  | 0 => some (issuer, spans)
  | 1 => some (bits a 22 9, spans)
  | _ => none

/-- The COPY templates of a plan between scratchpads, issued or not (R493). A LOCAL side lies in each cluster that issues
the template; the rows of an index table give no static range (DEDUCED, log entry 119). -/
def copiesOf (p : PlanRead) : List ((Nat × Spans) × (Nat × Spans)) :=
  p.moves.flatMap fun d =>
    let v := templateMove d
    let homes := if v.sspace = 0 ∨ v.dspace = 0 then
        (p.clus.filter fun e => (issuedBy p e.2).contains d).map fun (e : Nat × CluCfg) => e.1
      else [0]
    if v.op ≠ 0 then []
    else homes.filterMap fun c => match copySide c v false, copySide c v true with
      | some a, some b => some (a, b)
      | _, _ => none

/-- One more round of copies of producer ranges. -/
def spread (cs : List ((Nat × Spans) × (Nat × Spans))) : Nat → List Partials → List Partials
  | 0, ps => ps
  | n + 1, ps =>
    let new := cs.flatMap fun c =>
      (ps.filter fun x => x.clu == c.1.1 && x.spans.meets c.1.2).map fun x => { x with clu := c.2.1, spans := c.2.2 }
    spread cs n (new.foldl (fun ps x => if ps.contains x then ps else ps ++ [x]) ps)

/-- R493 on the consumers of a cluster. -/
def routedOk (p : PlanRead) (c : Nat) (g : CluCfg) : Bool :=
  let cs := copiesOf p
  let ps := spread cs (cs.length + 1) (p.clus.flatMap fun e => producersOf e.1 e.2)
  (consumersOf c g).all fun x => ps.all fun y => !(y.clu == x.clu && y.spans.meets x.spans) || y.agrees x

/-! ## The checker -/

/-- The section index of a plan's cluster records. -/
def PlanRead.cluSect (p : PlanRead) : Nat := sectIdx p.sects (if p.gx3 then tGx3 else tCluster)

/-- Checks 0x0C, 0x0F, 0x10, 0x11, 0x0D and 0x0E on a cluster record, in the order of its arrays, then 0x0A. -/
def State.checkCluster (s : State) (p : PlanRead) (x : Nat × Nat × CluCfg) : Option PlanFail :=
  let g := x.2.2
  let n (ok : Bool) (c : Nat) : Option PlanFail := need ok c p.cluSect x.1
  (n (opsCellsOk g) 0x0C).orElse fun _ =>
  (n (feedersOk g) 0x0F).orElse fun _ =>
  (n ((numbered g.steps).all (stepOk g p.moves.length p.mig.length)) 0x10).orElse fun _ =>
  (n ((numbered g.vec).all vecOk) 0x11).orElse fun _ =>
  (n (rangesOk p.gx3 g) 0x0D).orElse fun _ =>
  (n (claimsOk g) 0x0E).orElse fun _ =>
  n (s.sparesServe x.2.1 g) 0x0A

/-- Whether the address bits that a template's spaces do not use are 0 (R175, R181). -/
def unusedBitsOk (v : Move) : Bool :=
  (v.sspace == 5 || addrUnusedZero v.sspace v.saddr) && addrUnusedZero v.dspace v.daddr

/-- Checks 0x07 and 0x12 on a MOVE template, and 0x16 in window mode. -/
def checkTemplate (img : List Byte) (p : PlanRead) (x : Nat × List Nat) : Option PlanFail :=
  let i := sectIdx p.sects tMove
  let raw := match sectOf p.sects tMove with | some y => moveRec img (y.off + 64 * x.1) | none => []
  (need (!(templateMove x.2).badEncoding && unusedBitsOk (templateMove x.2)) 0x12 i x.1).orElse fun _ =>
  (need (!p.gx3 || gx3MoveOk raw) 0x16 i x.1).orElse fun _ =>
  need (placeMove p.place (if p.gx3 then gx3Move raw else raw)).isSome 0x07 i x.1

/-- Check 0x14: a handle names a sealed object (R140). -/
def State.sealedHandle (s : State) (h : Nat) : Bool :=
  match s.handleEntry h with | some i => (s.obj i).sealed | none => false

/-- The length of PRELOAD_DATA. -/
def PlanRead.dataLen (p : PlanRead) : Nat := match sectOf p.sects tData with | some x => x.len | none => 0

/-- Whether PRELOAD_DATA lies after PRELOAD and is present where a record needs it (R115, R136). -/
def PlanRead.dataOk (p : PlanRead) : Bool :=
  match sectOf p.sects tPreload, sectOf p.sects tData with
  | some a, some b => decide (a.off < b.off)
  | _, some _ => true
  | _, none => p.pres.all fun r => PreW.src r

/-- The rules on records, section by section, and across sections. Where a plan breaks several, the one met first in
this order is reported (DESIGN CHOICE, log entry 35). -/
def State.checkRecords (s : State) (img : List Byte) (p : PlanRead) : Option PlanFail :=
  let clus := numbered p.clus
  (firstFail (s.checkCluster p) clus).orElse fun _ =>
  (firstFail (checkTemplate img p) (numbered p.moves)).orElse fun _ =>
  (firstFail (fun x => need (deadlineOk x.2) 0x13 (sectIdx p.sects tDeadline) x.1) (numbered p.deadlines)).orElse fun _ =>
  (firstFail (fun x => need (fumOk x.2 && residentOk p x.2) 0x13 (sectIdx p.sects tFumarole) x.1) (numbered p.fum)).orElse fun _ =>
  (firstFail (fun x => need (p.place.cluster (migClu x.2)).isSome 0x07 (sectIdx p.sects tMigrate) x.1)
    (numbered (sectRecords img p.sects tMigrate 32))).orElse fun _ =>
  (firstFail (fun x => (need (migOk p x.2) 0x13 (sectIdx p.sects tMigrate) x.1).orElse fun _ =>
    (need (s.sealedHandle (migHandle x.2)) 0x14 (sectIdx p.sects tMigrate) x.1).orElse fun _ =>
    need (migCounterOk p x.2) 0x12 (sectIdx p.sects tMigrate) x.1) (numbered p.mig)).orElse fun _ =>
  (need p.dataOk 0x0D (sectIdx p.sects tPreload) 0).orElse fun _ =>
  (firstFail (fun x => need (p.place.cluster (PreW.cluster x.2)).isSome 0x07 (sectIdx p.sects tPreload) x.1)
    (numbered (sectRecords img p.sects tPreload 16))).orElse fun _ =>
  (firstFail (fun x => (need (preOk p p.dataLen x.2) 0x0D (sectIdx p.sects tPreload) x.1).orElse fun _ =>
    need (!PreW.src x.2 || s.sealedHandle (PreW.handle x.2)) 0x14 (sectIdx p.sects tPreload) x.1)
    (numbered p.pres)).orElse fun _ =>
  (firstFail (fun x => (need (waitsOk p x.2.1 x.2.2) 0x12 p.cluSect x.1).orElse fun _ =>
    (need (waitdlsOk p x.2.1 x.2.2) 0x13 p.cluSect x.1).orElse fun _ =>
    (need (migRangesOk p x.2.1 x.2.2) 0x13 p.cluSect x.1).orElse fun _ =>
    need (routedOk p x.2.1 x.2.2) 0x15 p.cluSect x.1) clus)

/-! ## The signature (checks 0x03 to 0x05) -/

/-- The offset of the signature section. -/
def sigOff (img : List Byte) : Nat := match sectOf (imgTable img) tSignature with | some x => x.off | none => 0

/-- The digest of an image (R116). -/
def planDigest (img : List Byte) : List Byte := sha512 (img.take (sigOff img))

/-- A failed signature check. -/
def sigFail (check sect : Nat) : Option PlanFail := some ⟨stPlanSignature, check, sect, 0⟩

end Sys2Proof.Machine
end

