-- ==== Sys2Proof/Machine/Retire.lean ====
section
/-! DEFINITION. Machine/Retire.lean: the retired-cell list (R35, R56, R145). -/

namespace Sys2Proof.Machine

/-- The band of a cell, or of spare 640 + 4 × band + spare (R54). -/
def bandOf (n : Nat) : Nat := if n < 640 then n / 160 else (n - 640) / 4

/-- A cluster's cells, spares included. -/
def cellNumbers : List Nat := List.range 656

/-- What CLU_SPARE.RETIRED and SPARE_SHORT read follows the list: a retired spare counts against its band (R56). -/
def State.retireView (s : State) (c : Nat) : State :=
  let dead := cellNumbers.filter fun n => s.retiredCell c n
  let short := (List.range 4).any fun b => decide (4 < (dead.filter fun n => bandOf n == b).length)
  (s.wr CLU_SPARE.RETIRED dead.length c).wr CLU_STATUS.SPARE_SHORT (b2n short) c

/-- Cells of a cluster enter the retired-cell list; the plan loaded there goes on, with its slot's RETIRE bit raised
(R145). -/
def State.retire (s : State) (c : Nat) (cells : List Nat) : State :=
  let s := { s with rst := { s.rst with
    retired := cells.foldl (fun m n => setK false m (c * 1024 + n) true) s.rst.retired } }
  let s := s.retireView c
  match (s.clu c).owner with
  | some k => s.raise PLN_INT_STATUS.RETIRE 0 (2 ^ k)
  | none => s

end Sys2Proof.Machine
end

