-- ==== Sys2Proof/Machine/Ageing.lean ====
section
/-! DEFINITION. Machine/Ageing.lean: what measured degradation changes, and the ageing history (R430 to R434). -/

namespace Sys2Proof.Machine

/-- A unit's ageing: clusters 0 to 511, core groups 512 + g. -/
def State.ageUnit (s : State) (u : Nat) : AgeUnit := getK AgeUnit.fresh s.age.units u

/-- A unit's degradation: the largest of its monitors' (R430). -/
def AgeUnit.degrade (u : AgeUnit) : Nat := u.mons.foldl max 0

/-- The largest degradation of units, and the first of them that has it. -/
def State.worst (s : State) (us : List Nat) : Nat × Nat :=
  us.foldl (fun b u => let d := (s.ageUnit u).degrade; if b.2 < d then (u, d) else b) (us.headD 0, 0)

/-- Change the ageing state. -/
def State.setAge (s : State) (f : Age → Age) : State := { s with age := f s.age }

/-- The clusters of a matrix die. -/
def dieClusters (d : Nat) : List Nat := (List.range 128).map (· + 128 * d)

/-- V_MIN of a die in mV (R433): 550 and 5 mV per 1 % of its worst cluster, at most 650; parts of a millivolt count as
one (DESIGN CHOICE, log entry 53). -/
def State.vminOf (s : State) (d : Nat) : Nat := min 650 (550 + cdiv (s.worst (dieClusters d)).2 20)

/-- Steps of 5 mV a core group's degradation asks for (R433). -/
def State.guardSteps (s : State) (g : Nat) : Nat := cdiv (s.ageUnit (512 + g)).degrade 100

/-- The highest frequency of a group in 0.1 GHz. -/
def State.topFreq (s : State) (g : Nat) : Nat := max 12 (36 - (s.guardSteps g - 12))

/-- The AGE_ registers that show what acts: V_MIN, the guards, the worst unit. -/
def State.ageView (s : State) : State :=
  let s := (List.range 4).foldl (fun s d => s.wr AGE_VMIN.VMIN (getK 550 s.age.vmin d) 0 0 d) s
  let s := (List.range 12).foldl (fun s g => s.wr AGE_VGUARD.GUARD (getK 0 s.age.guard g) 0 0 g) s
  let w := s.worst (List.range 524)
  let worn := ((List.range 512).filter fun c => (s.ageUnit c).state == 2).length
  ((s.wr AGE_WORST.UNIT w.1).wr AGE_WORST.DEGRADE w.2).wr AGE_WORST.WORN worn

/-- One measurement is taken up (R430, R431, R432); whether a trim changed. -/
def State.measure (s : State) (r : AgeReading) : State × Bool :=
  let u := s.ageUnit r.unit
  let lim := 100 * s.rd AGE_CTRL.MARGIN_MIN
  let isClu := decide (r.unit < 512)
  let more := isClu && (decide (r.margin < lim) || (u.rising && decide (r.margin < lim + 200)))
  let up := more && decide (u.trim < 15)
  let worn := isClu && decide (u.trim = 15) && decide (r.margin < lim) && u.state != 2
  let v : AgeUnit :=
    { mons := r.monitors.take 4, margin := if isClu then r.margin else 0,
      trim := if up then u.trim + 1 else u.trim,
      state := if worn then 2 else if up && u.state == 0 then 1 else u.state,
      hours := r.hours, rising := more }
  let s := s.setAge fun a => { a with units := setK AgeUnit.fresh a.units r.unit v }
  let s := if up then s.raise AGE_INT_STATUS.TRIM else s
  let s := if worn then (s.retire r.unit cellNumbers).raise AGE_INT_STATUS.WORN else s
  (s, up)

/-- V_MIN of a die follows its measurements; whether it changed. -/
def State.replanDie (s : State) (d : Nat) : State × Bool :=
  let old := getK 550 s.age.vmin d
  let new := s.vminOf d
  let s := s.setAge fun a => { a with vmin := setK 550 a.vmin d new }
  (if old < new then s.raise AGE_INT_STATUS.VMIN else s, old != new)

/-- A core group's guard and highest frequency follow its measurements; whether the guard changed. -/
def State.replanGroup (s : State) (g : Nat) : State × Bool :=
  let old := getK 0 s.age.guard g
  let new := min 12 (s.guardSteps g)
  let f := s.topFreq g
  let falls := decide (f < s.rd mcoreinfo.FREQ (8 * g))
  let s := s.setAge fun a => { a with guard := setK 0 a.guard g new }
  let s := (List.range 8).foldl (fun s k =>
    s.wr mcoreinfo.FREQ (min f (s.rd mcoreinfo.FREQ (8 * g + k))) (8 * g + k)) s
  (if falls ∨ (old < 12 ∧ new = 12) then s.raise AGE_INT_STATUS.GUARD else s, old != new)

/-- The ageing history is written (R434). -/
def State.writeHistory (s : State) : State :=
  s.setAge fun a => { a with hist := a.units, vminHist := a.vmin, guardHist := a.guard }

/-- Trims, V_MIN and guards are restored from the history (R434). -/
def State.restoreHistory (s : State) : State :=
  (s.setAge fun a => { a with units := a.hist, vmin := a.vminHist, guard := a.guardHist }).ageView

/-- Whether a reading is of a unit that is measured: monitors of an OFF cluster are not. -/
def State.measurable (s : State) (r : AgeReading) : Bool :=
  decide (r.unit < 524) && !(decide (r.unit < 512) && s.cluSt r.unit == cOff)

/-- Run a list of changes, each saying whether something changed. -/
def State.each {α : Type} (s : State) (f : State → α → State × Bool) (l : List α) : State × Bool :=
  l.foldl (fun p x => let q := f p.1 x; (q.1, p.2 || q.2)) (s, false)

/-- Whether PERIOD_MIN minutes have passed since the last measurement, values above 1,440 acting as 1,440 (R430, R436); the first
after module power-on is due at once (DESIGN CHOICE, log entry 195). -/
def State.measureDue (s : State) : Bool :=
  match s.age.measured with
  | some t => decide (t + 60000000 * s.rdMax AGE_CTRL.PERIOD_MIN 1440 ≤ s.us)
  | none => true

/-- AGEING_MEASUREMENT (R430 to R434): the Hawkmoth measures the units every PERIOD_MIN minutes while AGE_CTRL.EN is 1. -/
def execAgeingMeasurement (rs : List AgeReading) (s : State) : Answer :=
  .next <|
    if s.on AGE_CTRL.EN ∧ s.measureDue then
      let s := s.setAge fun a => { a with measured := some s.us }
      let m := s.each State.measure (rs.filter s.measurable)
      let v := m.1.each State.replanDie (List.range 4)
      let g := v.1.each State.replanGroup (List.range 12)
      let s := if m.2 || v.2 || g.2 then g.1.writeHistory else g.1
      s.ageView
    else s

/-- AGEING_HISTORY_WRITE (R434): once every 24 hours. -/
def execAgeingHistoryWrite (s : State) : Answer := .next s.writeHistory

end Sys2Proof.Machine
end

