-- ==== Sys2Proof/Machine/Banks.lean ====
section
/-! DEFINITION. Machine/Banks.lean: bank service and scrub (R60 to R64), bank and cluster power (R68 to R72), the fault
record and the caldera snapshot (R77, R111). -/

namespace Sys2Proof.Machine

/-- New bit flips in a stored word. -/
def State.upset (s : State) (c bank row word : Nat) (flips : BitVec 72) : State :=
  let k := wordKey c (bank * 65536 + row * 64 + word * 8)
  { s with spadErr := setK 0 s.spadErr k (getK 0 s.spadErr k ^^^ flips) }

/-- SOURCE of CLU_FAULT for a requester. -/
def faultSource : BankUser → Nat
  | .feeder => 1
  | .drain => 2
  | .vector => 3
  | .mover 0 => 4
  | .mover 1 => 5
  | .window => 6
  | .scrub => 7

/-- Whether a cluster counts as stopped for its window (R66). -/
def State.stoppedForWindow (s : State) (c : Nat) : Bool :=
  s.cluSt c == cOff || s.cluSt c == cStopped || s.cluSt c == cFaulted

/-- The corrected words of a row written back; the row leaves the write-back queue. -/
def State.writeBackRow (s : State) (c bank row : Nat) : State :=
  let off := bank * 65536 + row * 64
  let s := (List.range 8).foldl (fun s k =>
    let w := s.word c (off + 8 * k)
    if w.corrected.isSome then s.putBytes c (off + 8 * k) (leBytes 8 w.data) else s) s
  s.setClu c fun x => { x with fixq := x.fixq.filter fun p => p != (bank, row) }

/-- CORRECTED_ROW_WRITEBACK: the queued write-back of a corrected row is made, unless a write came between (R62,
R64). -/
def execCorrectedRowWriteback (c : Fin 512) (bank : Fin 48) (row : Fin 1024) (s : State) : Answer :=
  .next (if (s.clu c).fixq.contains (bank.val, row.val) then (s.touchBank c bank).writeBackRow c bank row else s)

/-- The scrub engine reads a row of an ON bank while scrub is enabled: corrected words are counted and written back, an
uncorrectable one is left and recorded (R62 to R64). -/
def State.scrubRow (s : State) (c bank row : Nat) : State :=
  if ¬ s.on CLU_SCRUB.EN c ∨ s.gated c bank ∨ s.cluSt c = cOff ∨ s.cluSt c = cResetting then s
  else
    let off := bank * 65536 + row * 64
    let s := (List.range 8).foldl (fun s k =>
      let w := s.word c (off + 8 * k)
      if w.bad then s.rasEvent stEcc 0 c (spadLoc (off + 8 * k)) .uncorr
      else match w.corrected with
        | some syn => s.countCorrected c (off + 8 * k) syn
        | none => s) s
    let s := s.writeBackRow c bank row
    s.setClu c fun x => { x with scrubbed := insK x.scrubbed (bank * 1024 + row) true }

/-- SCRUB_READ. -/
def execScrubRead (c : Fin 512) (bank : Fin 48) (row : Fin 1024) (upset : List (Fin 8 × BitVec 72)) (s : State) :
    Answer :=
  .next <|
  let s := upset.foldl (fun s u => s.upset c bank row u.1 u.2) s
  s.scrubRow c bank row

/-- A mover's move ends with ECC_UNCORRECTED. -/
def State.moverFails (s : State) (c : Nat) (m : Fin 2) : State :=
  let fail (v : Mover) : Mover := { v with cur := v.cur.map fun x => { x with err := some stEcc } }
  s.setClu c fun x => if m = 0 then { x with mov0 := fail x.mov0 } else { x with mov1 := fail x.mov1 }

/-- An uncorrectable word at an offset stops a requester's access (R63): the cluster faults, or a RAS record names the
word and a mover's move ends. -/
def State.badWord (s : State) (c off : Nat) (u : BankUser) : State :=
  match u with
  | .feeder | .drain | .vector => s.eccFault c ⟨0, 0, off, faultSource u⟩
  | .mover m => (s.rasEvent stEcc 0 c (spadLoc off) .uncorr).moverFails c m
  | .scrub | .window => s.rasEvent stEcc 0 c (spadLoc off) .uncorr

/-- A window access to a cluster that is not stopped is refused (R9, R67). -/
def State.refuseWindow (s : State) (c bank : Nat) (r : BankReq) : State :=
  let off := bank * 65536 + r.row * 64
  let s := s.rasEvent stBadDescriptor 0 c (0xE000000000 + spadKey c off) (if r.data.isSome then .uncorr else .info)
  if r.data.isSome then s
  else s.setClu c fun x => { x with rowOut := some (r.user, r.row, List.replicate 64 0xFF, false) }

/-- A row access that a bank serves: a write stores its bytes, a read delivers the row, corrected, or acts on an
uncorrectable word by its reader (R62, R63); a scrub request is the scrub engine's read (R64). -/
def State.serveBank (s : State) (c bank : Nat) (r : BankReq) : State :=
  let off := bank * 65536 + r.row * 64
  if r.user = .scrub then s.scrubRow c bank r.row
  else if r.user = .window ∧ ¬ s.stoppedForWindow c then s.refuseWindow c bank r
  else match r.data with
  | some bytes =>
    let q := s.spadWrite c (off + r.word * 8) (bytes.take (64 - r.word * 8))
    match q.bad with
    | some o => q.st.badWord c o r.user
    | none => q.st
  | none =>
    let q := s.spadRead c off 64
    match q.bad with
    | none => q.st.setClu c fun x => { x with rowOut := some (r.user, r.row, q.data, false) }
    | some o =>
      let t := q.st.badWord c o r.user
      if r.user = .window then t.setClu c fun x => { x with rowOut := some (r.user, r.row, [], true) } else t

/-- BANK_ACCESS: requests arrive at a bank, and the bank serves one row access by the priority of R61. A window access that
finds the cluster not stopped is refused as it arrives (R67). -/
def execBankAccess (c : Fin 512) (bank : Fin 48) (arrive : List BankReq) (upset : List (Fin 1024 × Fin 8 × BitVec 72))
    (s : State) : Answer :=
  .next <|
  let s := upset.foldl (fun s u => s.upset c bank u.1 u.2.1 u.2.2) s
  let late (r : BankReq) : Bool := r.user == .window && !s.stoppedForWindow c
  let s := (arrive.filter late).foldl (fun s r => s.refuseWindow c bank r) s
  let q := getK [] (s.clu c).bankq bank ++ arrive.filter fun r => !late r
  match (s.clu c).pickReq bank q with
  | none => s
  | some (r, rest) =>
    let waiting := rest.map fun x => { x with waited := x.waited + 1 }
    let s := s.setClu c fun x => { x.served bank r.user with bankq := setK [] x.bankq bank waiting }
    s.serveBank c bank r

/-- BANK_WAKE: an access reaches a bank in RETAIN or OFF and wakes it, or an OFF cluster and wakes that (R71, R72). -/
def execBankWake (c : Fin 512) (bank : Fin 48) (s : State) : Answer := .next (s.touchBank c bank)

/-- Whether every row that stayed ON throughout a scrub pass has been read (R64). -/
def State.scrubComplete (s : State) (c : Nat) : Bool :=
  let x := s.clu c
  (List.range 48).all fun b =>
    bit x.offInPass b || s.gated c b
      || (x.scrubbed.filter fun e => e.1 / 1024 == b).length == 1024

/-- SCRUB_PASS_END: a scrub period ends; PASS_DONE is set when every row that stayed ON was read, and the next pass
begins at once, with the period now in CLU_SCRUB (R64). -/
def execScrubPassEnd (c : Fin 512) (s : State) : Answer :=
  .next <|
  if ¬ s.on CLU_SCRUB.EN c then s
  else
    let s := if s.scrubComplete c then s.wr CLU_SCRUB.PASS_DONE 1 c else s
    let gatedNow := (List.range 48).foldl (fun m b => setBit m b (s.gated c b)) 0
    let p := s.rd CLU_SCRUB.PERIOD_S c
    s.setClu c fun x => { x with scrubbed := [], offInPass := gatedNow, scrubPeriod := p }

/-- A request for RETAIN or OFF of a bank: an ON bank's gate becomes pending; from RETAIN to OFF the contents are lost
(R68, R70). A gated bank changes between the two at once (DESIGN CHOICE, log entry 165). -/
def State.gateBank (s : State) (c b v : Nat) : State :=
  if s.gated c b then (if v = 2 then (s.setBankPwr c b v).zeroBank c b else s.setBankPwr c b v)
  else (s.setBankPwr c b v).setGatePending c b true

/-- A write of a bank's power field (R68 to R70). -/
def State.bankRequest (s : State) (c b v : Nat) : State :=
  if v = 3 then s
  else if v = 0 then (s.setBankPwr c b 0).setGatePending c b false
  else if (s.cluSt c = cRunning ∨ s.cluSt c = cStopping) ∧ bit (s.rd CLU_BANK_INUSE.INUSE c) b then s
  else if s.cluSt c = cOff then s.setBankPwr c b v
  else s.gateBank c b v

/-- BANK_POWER_REQUEST: software requests ON, RETAIN or OFF for a bank (R69, R70). -/
def execBankPowerRequest (c : Fin 512) (bank : Fin 48) (state : Fin 4) (s : State) : Answer :=
  .next (s.bankRequest c bank state)

/-- A cluster on its way to OFF enters it once the gates of all 48 banks have closed (R72). -/
def State.settleOff (s : State) (c : Nat) : State :=
  if s.goingOff c && (List.range 48).all (s.gated c) then s.enterOff c else s

/-- GATE_CLOSE: a pending bank's in-flight count is zero: the gate closes, GATE_DONE is raised, an OFF bank loses its
contents (R68, R70); the last gate of a power-off takes the cluster to OFF (R72). -/
def execGateClose (c : Fin 512) (bank : Fin 48) (s : State) : Answer :=
  .next <|
  if s.gatePending c bank ∧ (getK [] (s.clu c).bankq bank).isEmpty then
    let s := s.setGatePending c bank false
    let s := if s.bankPwr c bank = 2 then s.zeroBank c bank else s
    let s := s.setClu c fun x => { x with offInPass := setBit x.offInPass bank true }
    (s.raise CLU_INT_STATUS.GATE_DONE c).settleOff c
  else s

/-- OFF_REQ written 1 to a STOPPED cluster starts closing every bank's gate (R72). -/
def State.reqPowerOff (s : State) (c : Nat) : State :=
  if s.cluSt c = cStopped ∧ ¬ s.on CLU_POWER.OFF_REQ c then
    let s := s.wr CLU_POWER.OFF_REQ 1 c
    ((List.range 48).foldl (fun s b => s.gateBank c b 2) s).settleOff c
  else s

/-- CLUSTER_POWER_OFF (R72). -/
def execClusterPowerOff (c : Fin 512) (s : State) : Answer := .next (s.reqPowerOff c)

/-- CLUSTER_WAKE: an access reaches an OFF cluster, which wakes to STOPPED with every bank ON and zero (R72). -/
def execClusterWake (c : Fin 512) (s : State) : Answer :=
  .next (if s.cluSt c = cOff then s.wakeCluster c else s)

/-- Every field of CLU_FAULT is cleared (R77). -/
def State.clearFault (s : State) (c : Nat) : State :=
  (((((((s.wr CLU_FAULT.STATUS 0 c).wr CLU_FAULT.CELL_ROW 0 c).wr CLU_FAULT.CELL_COL 0 c).wr
    CLU_FAULT.BANK 0 c).wr CLU_FAULT.BANK_ROW 0 c).wr CLU_FAULT.WORD 0 c).wr CLU_FAULT.SOURCE 0 c)

/-- CLU_FAULT_CLEAR (R77). -/
def execCluFaultClear (c : Fin 512) (s : State) : Answer := .next (s.clearFault c)

/-- The three data registers of the caldera snapshot. -/
def State.wrPeek (s : State) (c a b d : Nat) : State :=
  ((s.wr CAL_PEEK_DATA0.DATA a c).wr CAL_PEEK_DATA1.DATA b c).wr CAL_PEEK_DATA2.DATA d c

/-- A write of CAL_PEEK_SEL captures the selected caldera's image while the cluster is STOPPED or FAULTED and the row is
below 20, and is refused otherwise (R111). The selector's fields are stored either way (DESIGN CHOICE, log entry 171). -/
def State.peek (s : State) (c val : Nat) : State :=
  let row := bits val 0 5
  let s := (((s.wr CAL_PEEK_SEL.CELL_ROW row c).wr CAL_PEEK_SEL.CELL_COL (bits val 5 5) c).wr CAL_PEEK_SEL.SET
    (bits val 10 1) c).wr CAL_PEEK_SEL.CALDERA (bits val 11 4) c
  if (s.cluSt c = cStopped ∨ s.cluSt c = cFaulted) ∧ row ≤ 19 then
    let x := s.cell c row (bits val 5 5)
    let img := ((x.setOf (bit val 10)).cals.getD (bits val 11 4) Cal.zero).image 0
    (s.wr CAL_PEEK_SEL.STATUS stOK c).wrPeek c (bits img 0 64) (bits img 64 64) (bits img 128 64)
  else
    (s.wr CAL_PEEK_SEL.STATUS stBadDescriptor c).wrPeek c (2 ^ 64 - 1) (2 ^ 64 - 1) (2 ^ 64 - 1)

/-- CAL_PEEK (R111). -/
def execCalPeek (c : Fin 512) (val : Nat) (s : State) : Answer := .next (s.peek c val)

end Sys2Proof.Machine
end

