-- ==== Sys2Proof/Machine/Bus.lean ====
section
/-! DEFINITION. Machine/Bus.lean: how an access to the address map is answered (R9 to R11, R490). -/

namespace Sys2Proof.Machine

/-- Whether an access completes as an unsupported request on the host link when it names nothing (R10). -/
def hostSide : Origin → Bool
  | .pf | .vf _ => true
  | _ => false

/-- An access is answered. -/
def State.answerWith (s : State) (data : List Byte) (ur : Bool := false) (poison : Bool := false) : State :=
  { s with resp := ⟨data, ur, poison⟩ }

/-- A read that names nothing returns all ones and a write is dropped, without a record. -/
def State.answerOnes (s : State) (o : Origin) (size : Nat) (write : Bool) : State :=
  s.answerWith (if write then [] else List.replicate size 0xFF) (hostSide o)

/-- An access to an unmapped address (R10, R490). -/
def State.unmapped (s : State) (o : Origin) (addr size : Nat) (write : Bool) : State :=
  (s.rasEvent stBadDescriptor 17 0 addr (if write then .uncorr else .info)).answerOnes o size write

end Sys2Proof.Machine
end

