-- ==== Sys2Proof/Machine/Cocoon.lean ====
section
/-! DEFINITION. Machine/Cocoon.lean: the Cocoon site (R380 to R390): bring-up, offers, fences, the die's window, and its
streaming requests. -/

namespace Sys2Proof.Machine

/-! ## Records -/

/-- COC_ERR records an event (R390): SOURCE 1 power, 2 link, 3 window timeout, 4 refused request, 5 discovery. -/
def State.cocErr (s : State) (status source addr : Nat) : State :=
  let s := ((s.wr COC_ERR.STATUS status).wr COC_ERR.SOURCE source).wr COC_ERR.ADDR addr
  (s.wr COC_ERR.VALID 1).raise COC_INT_STATUS.ERR

/-! ## The discovery block (R381) -/

/-- A field of the discovery block: its bytes, least significant first. -/
def discField (d : List Byte) (off n : Nat) : Nat := leNat ((d.drop off).take n)

/-- The rates of R380 in GT/s. -/
def cocRates : List Nat := [4, 8, 12, 16, 24, 32]

/-- The highest rate of R380 not above a value, at least 4 (R390). -/
def cocRate (r : Nat) : Nat := (cocRates.filter (· ≤ r)).foldl max 4

/-- Whether a discovery block meets R381. -/
def discGood (d : List Byte) : Bool :=
  d.length == 64
    && discField d 0 2 != 0
    && (discField d 6 1 &&& 0xFC) == 0 && discField d 6 1 != 0
    && [1, 2, 4].contains (discField d 7 1)
    && cocRates.contains (discField d 8 1)
    && decide (1 ≤ discField d 9 1) && decide (discField d 9 1 ≤ 16)
    && decide (12 ≤ discField d 0xA 1) && decide (discField d 0xA 1 ≤ 28)
    && discField d 0xB 1 == 0
    && decide (discField d 0xC 2 ≤ 600)
    && decide (1 ≤ discField d 0x10 2) && decide (discField d 0x10 2 ≤ 512)
    && (d.drop 0x12).all (· == 0)

/-- The mode settled (R383, R390): 1 coherent, 2 streaming. Preference 3 acts as 0. -/
def cocMode (modes pref : Nat) : Nat :=
  let coh := bit modes 0
  let str := bit modes 1
  if pref = 2 then (if str then 2 else 1) else (if coh then 1 else 2)

/-- A field of the discovery block that COC_DISC0 to COC_DISC7 hold. -/
def State.disc (s : State) (off n : Nat) : Nat := bits (s.rd COC_DISC.BLOCK 0 (off / 8)) (8 * (off % 8)) (8 * n)

/-- MAX_W of the die in 0.25 W. -/
def State.cocMaxW (s : State) : Nat := s.disc 0xC 2

/-! ## Offers (R386) -/

/-- The Hawkmoth offers the die a limit, with the next epoch. -/
def State.offer (s : State) (limit : Nat) : State :=
  let e := (s.rd COC_OFFER.EPOCH + 1) % 65536
  ((s.wr COC_OFFER.LIMIT (min limit s.cocMaxW)).wr COC_OFFER.EPOCH e).send (.cocoonOffer e (min limit s.cocMaxW))

/-- Whether an offer waits for its ACCEPT. -/
def State.offered (s : State) : Bool :=
  (s.cocSt == cocNEGOTIATING || s.cocSt == cocUP) && !s.coc.fencing
    && s.rd COC_OFFER.EPOCH != s.rd COC_OFFER.ACC_EPOCH

/-! ## Fences (R387) -/

/-- The die's class has no power while the site is not UP (R418). -/
def State.cocoonClass (s : State) : State :=
  s.wr PWR_CLASS.MAX (if s.siteUp then s.cocMaxW / 4 else 0) 0 4

/-- Whether a message carries a response for the die. -/
def forCocoon : Msg → Bool
  | .cmpd _ st _ _ | .cmp _ st => cocoonStream st
  | .req _ r => r.agent.isNone && cocoonStream r.stream
  | _ => false

/-- A fence begins (R387): the die's requests are no longer taken, responses to it are discarded, its window behaves as
unmapped. -/
def State.fence (s : State) (reason source : Nat) : State :=
  if ¬ ((s.cocSt == cocUP || s.cocSt == cocNEGOTIATING || s.cocSt == cocTRAINING) && !s.coc.fencing) then s
  else
    let s := s.setCoc fun x => { x with fencing := true, above := false, found := none }
    let s := { s with coh := { s.coh with net := s.coh.net.filter fun m => !forCocoon m } }
    let s := ((s.wr COC_STATUS.REASON reason).wr COC_DRAW.EXCESS_MS 0).cocoonClass
    let s := s.raise COC_INT_STATUS.FENCED
    if source = 0 then s else s.cocErr reason source 0

/-- SITE_RAIL_REMOVAL (R387): 1 ms after the fence. -/
def execSiteRailRemoval (s : State) : Host.Outcome State Fault Refusal :=
  .next <|
    if s.coc.fencing then
      (s.setCoc fun x => { x with fencing := false, rail := false, down := false }).wr COC_STATUS.STATE cocFENCED
    else s

/-- Power causes: the offer is not accepted within 1 ms (R386). -/
def execOfferTimeout (s : State) : Host.Outcome State Fault Refusal :=
  .next <| if s.offered then s.fence stOutOfService 1 else s

/-- The grace time of an excessive draw, values above 1,000 acting as 1,000 (R390). -/
def State.graceMs (s : State) : Nat := s.rdMax COC_ENF.GRACE_MS 1000

/-- GRACE_EXPIRY (R386): the draw has stayed above 1.05 × the accepted limit for GRACE_MS. -/
def execGraceExpiry (s : State) : Host.Outcome State Fault Refusal :=
  .next <| if s.siteUp ∧ s.coc.above ∧ s.graceMs ≤ s.rd COC_DRAW.EXCESS_MS then s.fence stOutOfService 1 else s

/-- The site's 1 ms average of its draw, in 0.25 W (R386): each at or under 1.05 × the accepted limit restarts the
grace time. -/
def State.cocDraw (s : State) (avg : Nat) : State :=
  let s := s.wr COC_DRAW.AVG avg
  let s := s.wr COC_DRAW.MAX (max avg (s.rd COC_DRAW.MAX))
  if ¬ s.siteUp then s
  else if 105 * s.rd COC_OFFER.ACC_LIMIT < 100 * avg then
    if s.coc.above then s.bump COC_DRAW.EXCESS_MS 1 else s.setCoc fun x => { x with above := true }
  else (s.setCoc fun x => { x with above := false }).wr COC_DRAW.EXCESS_MS 0

/-- COCOON_LINK_DOWN: the link goes down; its traffic waits (R387, R390). -/
def execCocoonLinkDown (s : State) : Host.Outcome State Fault Refusal :=
  .next <|
    if s.siteUp then s.setCoc fun x => { x with down := true, downAt := if x.down then x.downAt else s.us } else s

/-- COCOON_LINK_RETRAIN (R380): the link is up again; retrain and retry lose nothing. -/
def execCocoonLinkRetrain (s : State) : Host.Outcome State Fault Refusal :=
  .next <| s.setCoc fun x => { x with down := false }

/-- Whether the link has been down for longer than COC_ENF.DOWN_MS, values above 10,000 acting as 10,000 (R387, R390). -/
def State.cocDownLong (s : State) : Bool :=
  s.coc.down && decide (s.coc.downAt + 1000 * s.rdMax COC_ENF.DOWN_MS 10000 < s.us)

/-- COCOON_LINK_DOWN_TIMEOUT (R387): down for longer than COC_ENF.DOWN_MS. -/
def execCocoonLinkDownTimeout (s : State) : Host.Outcome State Fault Refusal :=
  .next <| if s.cocDownLong then s.fence stPeerTimeout 2 else s

/-! ## Bring-up (R382) -/

/-- The bring-up of R382, orders 1 to 3: the rail at standby power, and what the die presents at sideband address 0. -/
def State.siteBringup (s : State) (d : List Byte) : State :=
  let s := s.setCoc fun _ => ⟨false, false, false, false, false, [], none, 0⟩
  if s.trust.cocoonCode = 0 then s.wr COC_STATUS.STATE cocEMPTY
  else
    let s := (((s.wr COC_STATUS.MODE 0).wr COC_STATUS.MODULES 0).wr COC_STATUS.RATE 0).wr COC_STATUS.STREAMS 0
    (s.setCoc fun x => { x with rail := true, found := some d }).wr COC_STATUS.STATE cocTRAINING

/-- What the part and the die settle (R383, R382 order 5). -/
def State.siteAgree (s : State) (d : List Byte) : State :=
  let s := (s.wr COC_STATUS.MODULES (min (discField d 7 1) 4)).wr COC_STATUS.RATE
    (min (discField d 8 1) (cocRate (s.rd COC_CFG.RATE_MAX)))
  let s := (s.wr COC_STATUS.STREAMS (min (discField d 9 1) 16)).wr COC_STATUS.WINDOW_LOG2 (min (discField d 0xA 1) 28)
  s.wr COC_STATUS.MODE (cocMode (discField d 6 1) (s.rd COC_CFG.MODE_PREF))

/-- The rest of a bring-up in training (R382, orders 3 to 7): the block is shown and checked; one that fails the check has the
rail removed; else the parameters are settled and the first offer is made. -/
def State.siteTrained (s : State) (d : List Byte) : State :=
  let s := s.setCoc fun x => { x with found := none }
  let s := (List.range 8).foldl (fun s j => s.wr COC_DISC.BLOCK (discField d (8 * j) 8) 0 j) s
  if ¬ discGood d ∨ discField d 2 2 ≠ s.trust.cocoonCode then
    (((s.setCoc fun x => { x with rail := false }).wr COC_STATUS.STATE cocMISMATCH).wr COC_STATUS.REASON
      stBadDescriptor).cocErr stBadDescriptor 5 0
  else ((s.siteAgree d).wr COC_STATUS.STATE cocNEGOTIATING).offer (Config.firstOffer (s.rd COC_OFFER.EPOCH))

/-- A bring-up goes on once time passes (DESIGN CHOICE, log entry 194). -/
def State.siteSettle (s : State) : State :=
  match s.coc.found with
  | some d => s.siteTrained d
  | none => s

/-- BRINGUP (R382): by COC_CTRL.BRINGUP, ignored while STATE is UP, or by the Hawkmoth where a reset that contains HD1
made it due. A fence in progress runs to its end first. -/
def execBringup (o : Origin) (discovery : List Byte) (s : State) : Host.Outcome State Fault Refusal :=
  .next <|
    match o with
    | .hawkmoth => if s.coc.due then s.siteBringup discovery else s
    | _ => s.asReg o (COC_CTRL.BRINGUP.addr 0 0) fun s =>
        if s.cocSt = cocUP ∨ s.coc.fencing then s else s.siteBringup discovery

/-- ACCEPT (R386): the die accepts the newest offer; the first brings the site UP (R382 order 8). -/
def execAccept (epoch : BitVec 16) (s : State) : Host.Outcome State Fault Refusal :=
  .next <|
    if s.offered ∧ epoch.toNat = s.rd COC_OFFER.EPOCH then
      let s := (s.wr COC_OFFER.ACC_LIMIT (s.rd COC_OFFER.LIMIT)).wr COC_OFFER.ACC_EPOCH epoch.toNat
      let s := s.raise COC_INT_STATUS.ACCEPTED
      if s.cocSt = cocNEGOTIATING then
        ((s.wr COC_STATUS.STATE cocUP).cocoonClass).raise COC_INT_STATUS.UP
      else s
    else s

/-- REQUEST (R386): the die wants another limit. The answer is a new offer, of what it wants up to what its class is
granted (DESIGN CHOICE, log entry 44). -/
def execRequest (limit : BitVec 16) (s : State) : Host.Outcome State Fault Refusal :=
  .next <| if s.siteUp then s.offer (min limit.toNat (4 * s.rd PWR_CLASS.GRANT 0 4)) else s

/-! ## The die's register window (R385) -/

/-- Base of the window. -/
def cocWindow : Nat := 0xF020000000

/-- Whether an address lies in the part of the window that reaches the die. -/
def State.inWindow (s : State) (addr : Nat) : Bool :=
  s.siteUp && decide (cocWindow ≤ addr) && decide (addr < cocWindow + 2 ^ s.rd COC_STATUS.WINDOW_LOG2)

/-- A core's load from the window completes with what the access returned (R252). -/
def State.cocLoaded (s : State) (o : Origin) (addr size : Nat) : State :=
  match o with
  | .core h _ =>
    match (s.core h).pend with
    | some ⟨.load rd a n signed, [], _⟩ =>
      if a = addr ∧ n = size ∧ s.resp.data.length = n then
        (s.setXreg h rd (loadValue n signed s.resp.data)).setCore h fun c => { c with pend := none }
      else s
    | _ => s
  | _ => s

/-- An access of the window's range; a load of a core that waits for it completes. -/
def State.cocAccess (s : State) (o : Origin) (addr size : Nat) (data : Option (List Byte)) (answer : Option (List Byte)) :
    State :=
  if ¬ s.inWindow addr then (s.unmapped o addr size data.isSome).cocLoaded o addr size
  else if ¬ ([1, 2, 4, 8].contains size && addr % size == 0) then
    (s.rasEvent stBadDescriptor 17 0 addr (if data.isSome then .uncorr else .info)).answerOnes o size data.isSome
  else
    match answer with
    | none => s.setCoc fun x => { x with open_ := x.open_ ++ [(addr, data.isSome, size, s.us)] }
    | some a =>
      match data with
      | some d => (s.send (.cocoonWrite (addr - cocWindow) (d.take size))).answerWith []
      | none => (s.answerWith (a.take size)).cocLoaded o addr size

/-- COCOON_WINDOW_ACCESS (R385): a naturally aligned access of 1, 2, 4 or 8 bytes; one of another kind is as R11 gives.
An access the die does not answer stays open. -/
def execCocoonWindowAccess (o : Origin) (addr size : Nat) (data : Option (List Byte)) (answer : Option (List Byte))
    (s : State) : Host.Outcome State Fault Refusal :=
  .next <| s.asReg o addr fun s =>
    if addr < cocWindow ∨ cocWindow + 0x10000000 ≤ addr then s
    else s.cocAccess o addr size data answer

/-- WINDOW_ANSWER_TIMEOUT (R385): an access open for COC_ENF.WIN_US completes as an unmapped one, and COC_ERR records
PEER_TIMEOUT. -/
def execWindowAnswerTimeout (o : Origin) (addr : Nat) (write : Bool) (s : State) : Host.Outcome State Fault Refusal :=
  .next <|
    match s.coc.open_.find? fun e => e.1 == addr && e.2.1 == write with
    | some e =>
      if e.2.2.2 + s.rd COC_ENF.WIN_US ≤ s.us then
        (((s.setCoc fun x => { x with open_ := x.open_.erase e }).cocErr stPeerTimeout 3 addr).unmapped o addr e.2.2.1
          write).cocLoaded o addr e.2.2.1
      else s
    | none => s

/-! ## Streaming requests (R384) -/

/-- Whether the die may stream: UP in streaming mode, and its link up. -/
def State.streaming (s : State) : Bool := s.siteUp && s.rd COC_STATUS.MODE == 2 && !s.coc.down

/-- Where a streaming request aims: a range of HBM present, a range of a scratchpad by cluster and offset, or neither. -/
inductive StreamAt where
  | hbm (a : Nat)
  | spad (c off : Nat)
  | none
  deriving DecidableEq, Repr

/-- The target of a streaming request: CLUSTER addresses are those of R175. -/
def State.streamAt (s : State) (cluster : Bool) (addr n : Nat) : StreamAt :=
  if cluster then
    (if addr < 2 ^ 31 ∧ bits addr 0 22 + n ≤ 0x300000 then .spad (bits addr 22 9) (bits addr 0 22) else .none)
  else if addr + n ≤ s.hbmEnd then .hbm addr
  else .none

/-- The stream and the partition of the die's requests (R283, R316). -/
def cocStream : Nat := 99
def State.cocPart (s : State) : Nat := s.partOf cocStream

/-- The bytes of a put land in units of 64 bytes, each counted (R186, R192, R384); the rest waits with a unit that must
wait. -/
def State.landPut (s : State) (t : StreamAt) (cnt : Option (Nat × Nat)) (bytes : List Byte) : State :=
  match t with
  | .spad c off =>
    (List.range 5).foldl (fun s i =>
      let lo := if i = 0 then off else (off / 64 + i) * 64
      let hi := min (off + bytes.length) ((off / 64 + i + 1) * 64)
      if hi ≤ lo then s
      else
        let w := s.landSpad c lo ((bytes.drop (lo - off)).take (hi - lo))
        match w.2 with
        | .ok => w.1.counted cnt (hi - lo)
        | _ => w.1) s
  | .hbm a => (s.rangeWrite cocStream s.cocPart a bytes).counted cnt bytes.length
  | .none => s

/-- Whether a put must wait: R189, a busy line, or no credit. -/
def State.putReady (s : State) (t : StreamAt) (cnt : Option (Nat × Nat)) (n : Nat) : State × Bool :=
  if s.countWaits cnt then (s, false)
  else match t with
  | .spad c _ => (s, !(s.cluSt c == cResetting || (s.clu c).bist))
  | .hbm a =>
    let ks := keysOf a n
    let p := s.prepare ks true
    (p.1, p.2 && s.creditFor ks s.cocPart)
  | .none => (s, true)

/-- COCOON_PUT (R384): up to 256 bytes to HBM or to a cluster, counted on LCNT where it names one; a request beyond them
is refused, and COC_ERR records it with SOURCE 4. -/
def execCocoonPut (cluster : Bool) (addr : Nat) (data : List Byte) (lcnt : Option (Fin 256)) (lclu : Nat) (s : State) :
    Host.Outcome State Fault Refusal :=
  .next <|
    if ¬ s.streaming ∨ data.isEmpty ∨ 256 < data.length then s
    else
      let t := s.streamAt cluster addr data.length
      let cnt := lcnt.map fun n => (if cluster then bits addr 22 9 else lclu % 512, n.val)
      match t with
      | .none => s.cocRefuse addr
      | _ =>
        let p := s.putReady t cnt data.length
        if p.2 then p.1.landPut t cnt data else p.1

/-- COCOON_GET (R384): up to 256 bytes of HBM or of a cluster, answered with a put to the die; an uncorrectable word or a
poisoned line is refused. -/
def execCocoonGet (cluster : Bool) (addr : Nat) (len : Fin 257) (s : State) : Host.Outcome State Fault Refusal :=
  .next <|
    if ¬ s.streaming ∨ len.val = 0 then s
    else
      match s.streamAt cluster addr len with
      | .none => s.cocRefuse addr
      | .spad c off =>
        let r := s.spadRead c off len
        (match r.bad with
        | some w => (r.st.spadEvent c w).cocErr stEcc 4 addr
        | none => r.st.send (.cocoonPut addr r.data))
      | .hbm a =>
        let ks := keysOf a len
        let p := s.prepare ks false
        if ¬ p.2 ∨ ¬ s.creditFor ks s.cocPart then p.1
        else
          let r := p.1.rangeRead a len cocStream s.cocPart
          if r.poison then r.st.cocErr stEcc 4 addr else r.st.send (.cocoonPut addr r.data)

end Sys2Proof.Machine
end

