-- ==== Sys2Proof/Machine/Irq.lean ====
section
/-! DEFINITION. Machine/Irq.lean: the registers of the APLIC, the IMSIC pages and MTIMER (R265), in the layouts that the
published AIA and ACLINT specifications give them (PRESUMED, log entry 14). -/

namespace Sys2Proof.Machine

/-! ## APLIC -/

/-- Sources that are connected (R266). -/
def aplicSources : Nat := 548

/-- Whether a source is configured in a domain: the M-level one unless delegated. -/
def State.ownsSource (s : State) (dom src : Nat) : Bool :=
  decide (1 ≤ src) && decide (src ≤ aplicSources) && s.aplicDomain src == dom

/-- Whether a source is active in a domain: it is configured there in a mode other than inactive. -/
def State.activeSource (s : State) (dom src : Nat) : Bool := s.ownsSource dom src && s.sourceMode dom src != 0

/-- The rectified input of a source in a domain. -/
def State.rectifiedIn (s : State) (dom src : Nat) : Bool :=
  match s.sourceMode dom src with
  | 4 | 6 => s.source src
  | 5 | 7 => !s.source src
  | _ => false

/-- A source stops being active in a domain: its pending and enable bits and its target clear. -/
def State.sourceOff (s : State) (dom src : Nat) : State :=
  let e := 0x1E00 + src / 32 * 4
  ((s.setAplicPending dom src false).setAplic dom e (setBit (s.aplic dom e) (src % 32) false)).setAplic dom
    (0x3000 + 4 * src) 0

/-- sourcecfg is written: bit 10 of the M-level one delegates the source to the S-level domain; reserved modes read as
inactive. -/
def State.writeSourcecfg (s : State) (dom src v : Nat) : State :=
  if src = 0 ∨ aplicSources < src ∨ (dom = 1 ∧ ¬ s.ownsSource 1 src) then s
  else if dom = 0 ∧ bit v 10 then ((s.sourceOff 0 src).setAplic 0 (4 * src) 0x400)
  else
    let sm := if bits v 0 3 = 2 ∨ bits v 0 3 = 3 then 0 else bits v 0 3
    let was := s.aplicDomain src
    let s := s.setAplic dom (4 * src) sm
    let s := if was = 1 ∧ dom = 0 then (s.sourceOff 1 src).setAplic 1 (4 * src) 0 else s
    if sm = 0 then s.sourceOff dom src else s

/-- A source is set pending by a write: a level-sensitive one only while its rectified input is high. -/
def State.setPending (s : State) (dom src : Nat) : State :=
  if ¬ s.activeSource dom src then s
  else if 6 ≤ s.sourceMode dom src ∧ ¬ s.rectifiedIn dom src then s
  else (s.setAplicPending dom src true).aplicForward dom src

/-- A source's pending bit is cleared by a write. -/
def State.clearPending (s : State) (dom src : Nat) : State :=
  if s.activeSource dom src then s.setAplicPending dom src false else s

/-- A source's enable bit is written. -/
def State.setEnable (s : State) (dom src : Nat) (on : Bool) : State :=
  if ¬ s.activeSource dom src then s
  else
    let e := 0x1E00 + src / 32 * 4
    (s.setAplic dom e (setBit (s.aplic dom e) (src % 32) on)).aplicForward dom src

/-- Act on each source whose bit is set in a written word of 32 sources. -/
def State.eachSource (s : State) (base v : Nat) (f : State → Nat → State) : State :=
  (List.range 32).foldl (fun s b => if bit v b then f s (base + b) else s) s

/-- Forward whatever is pending and enabled in a domain. -/
def State.forwardAll (s : State) (dom : Nat) : State :=
  (List.range aplicSources).foldl (fun s k => if s.ownsSource dom (k + 1) then s.aplicForward dom (k + 1) else s) s

/-- The four bytes of a word in the other byte order. -/
def swap4 (v : Nat) : Nat := leNat ((leBytes 4 v).reverse)

/-- genmsi: an MSI is sent at once to the file of the domain's level. -/
def State.genMsi (s : State) (dom v : Nat) : State :=
  if 96 ≤ bits v 18 14 then s else s.imsicSet (bits v 18 14 * 16 + dom) (bits v 0 11)

/-- A 4-byte register of an APLIC domain is written. -/
def State.writeAplic (s : State) (dom off v : Nat) : State :=
  if off = 0 then (s.setAplic dom 0 (v &&& 0x100)).forwardAll dom
  else if off < 0x1000 then s.writeSourcecfg dom (off / 4) v
  else if off < 0x1C00 then s
  else if off < 0x1C80 then s.eachSource ((off - 0x1C00) * 8) v fun s k => s.setPending dom k
  else if off = 0x1CDC then s.setPending dom v
  else if 0x1D00 ≤ off ∧ off < 0x1D80 then s.eachSource ((off - 0x1D00) * 8) v fun s k => s.clearPending dom k
  else if off = 0x1DDC then s.clearPending dom v
  else if 0x1E00 ≤ off ∧ off < 0x1E80 then s.eachSource ((off - 0x1E00) * 8) v fun s k => s.setEnable dom k true
  else if off = 0x1EDC then s.setEnable dom v true
  else if 0x1F00 ≤ off ∧ off < 0x1F80 then s.eachSource ((off - 0x1F00) * 8) v fun s k => s.setEnable dom k false
  else if off = 0x1FDC then s.setEnable dom v false
  else if off = 0x2000 then s.setPending dom v
  else if off = 0x2004 then s.setPending dom (swap4 v)
  else if off = 0x3000 then s.genMsi dom v
  else if 0x3000 < off then
    (if s.activeSource dom ((off - 0x3000) / 4) then
      (s.setAplic dom off v).aplicForward dom ((off - 0x3000) / 4)
    else s)
  else s

/-- A 4-byte register of an APLIC domain as it reads: domaincfg in MSI delivery mode, little-endian; the MSI address
registers of the M-level domain locked, as the part's MSI addresses are fixed. -/
def State.readAplic (s : State) (dom off : Nat) : Nat :=
  if off = 0 then 0x80000004 + (s.aplic dom 0 &&& 0x100)
  else if off < 0x1000 then s.aplic dom off
  else if off = 0x1BC4 ∧ dom = 0 then 0x80000000
  else if 0x1C00 ≤ off ∧ off < 0x1C80 then s.aplic dom off
  else if 0x1D00 ≤ off ∧ off < 0x1D80 then
    (List.range 32).foldl (fun (v : Nat) b =>
      let k := (off - 0x1D00) * 8 + b
      v + b2n (s.ownsSource dom k && s.rectifiedIn dom k) * 2 ^ b) 0
  else if 0x1E00 ≤ off ∧ off < 0x1E80 then s.aplic dom off
  else if 0x3000 < off ∧ off < 0x4000 then s.aplic dom off
  else 0

/-! ## MTIMER (R267) -/

/-- The interrupt bit of a comparator of a hart: mip bit 7, 5 or 6. -/
def timerBit : TimerKind → Nat
  | .mtimecmp => 7
  | .stimecmp => 5
  | .vstimecmp => 6

/-- The place of a comparator. -/
def timerNo : TimerKind → Nat
  | .mtimecmp => 0
  | .stimecmp => 1
  | .vstimecmp => 2

/-- A comparator of a hart. -/
def State.comparator (s : State) (h : Nat) (k : TimerKind) : Nat := getK 0 s.cores.cmp (h * 4 + timerNo k)

/-- The timer interrupt of a comparator is pending while mtime has reached it. -/
def State.timerCheck (s : State) (h : Nat) (k : TimerKind) : State :=
  let x := getK Core.held s.cores.core h
  let x := { x with mip := setBit x.mip (timerBit k) (decide (s.comparator h k ≤ s.cores.mtime)) }
  { s with cores := { s.cores with core := setK Core.held s.cores.core h x } }

/-- Every comparator is compared again. -/
def State.timersCheck (s : State) : State :=
  (s.cores.core.map (·.1)).foldl (fun s h =>
    [TimerKind.mtimecmp, .stimecmp, .vstimecmp].foldl (fun s k => s.timerCheck h k) s) s

/-- A comparator is written. -/
def State.setComparator (s : State) (h : Nat) (k : TimerKind) (v : Nat) : State :=
  ({ s with cores := { s.cores with cmp := setK 0 s.cores.cmp (h * 4 + timerNo k) (v % 2 ^ 64) } }).timerCheck h k

/-! ## The IMSIC files as their harts see them -/

/-- A register of an IMSIC file. -/
def State.imsicReg (s : State) (file reg : Nat) : Nat := getK 0 s.irq.imsic (imsicKey file reg)

/-- Write a register of an IMSIC file. -/
def State.setImsicReg (s : State) (file reg v : Nat) : State :=
  { s with irq := { s.irq with imsic := setK 0 s.irq.imsic (imsicKey file reg) v } }

/-- The most urgent identity pending and enabled in a file and below its threshold: the lowest; 0 for none. -/
def State.topei (s : State) (file : Nat) : Nat :=
  let thr := s.imsicReg file 0x72
  match (List.range (imsicTop file)).find? fun i =>
      bit (s.eip file &&& s.imsicReg file 0xC0) (i + 1) && (thr == 0 || decide (i + 1 < thr)) with
  | some i => i + 1
  | none => 0

/-- Whether a file raises its hart's external interrupt. -/
def State.fileRaises (s : State) (file : Nat) : Bool := s.imsicReg file 0x70 == 1 && s.topei file != 0

/-- 64 bits of a file's pending or enable bits by an even selector. -/
def imsicPart (sel base : Nat) : Nat := (sel - base) * 32

/-- A file's register by its selector. -/
def State.readIndirect (s : State) (file sel : Nat) : Nat :=
  if sel = 0x70 ∨ sel = 0x72 then s.imsicReg file sel
  else if 0x80 ≤ sel ∧ sel < 0xC0 ∧ sel % 2 = 0 then bits (s.eip file) (imsicPart sel 0x80) 64
  else if 0xC0 ≤ sel ∧ sel < 0x100 ∧ sel % 2 = 0 then bits (s.imsicReg file 0xC0) (imsicPart sel 0xC0) 64
  else 0

/-- 64 bits of a file's pending or enable bits are written; identity 0 and those the file does not have stay 0. -/
def State.writeBitsOf (s : State) (file reg lo v : Nat) : State :=
  let old := s.imsicReg file reg
  let new := old + (v % 2 ^ 64) * 2 ^ lo - bits old lo 64 * 2 ^ lo
  s.setImsicReg file reg (bits new 1 (imsicTop file) * 2)

/-- A file's register is written by its selector. -/
def State.writeIndirect (s : State) (file sel v : Nat) : State :=
  if sel = 0x70 then s.setImsicReg file sel (v % 2)
  else if sel = 0x72 then s.setImsicReg file sel (v % (imsicTop file + 1))
  else if 0x80 ≤ sel ∧ sel < 0xC0 ∧ sel % 2 = 0 then s.writeBitsOf file 0x80 (imsicPart sel 0x80) v
  else if 0xC0 ≤ sel ∧ sel < 0x100 ∧ sel % 2 = 0 then s.writeBitsOf file 0xC0 (imsicPart sel 0xC0) v
  else s

/-- A write of mtopei or stopei claims the top identity. -/
def State.claimTop (s : State) (file : Nat) : State :=
  if s.topei file = 0 then s else s.setImsicReg file 0x80 (setBit (s.eip file) (s.topei file) false)

/-! ## Accesses -/

/-- Where an address stands among the interrupt blocks: the width of the register there and what it is. -/
inductive IrqReg where
  | aplic (dom off : Nat)
  | imsic (file : Nat) (off : Nat)
  | mtimecmp (h : Nat)
  | mtime
  | mtimerGap
  deriving DecidableEq, Repr

/-- The interrupt blocks (R265, R486). -/
def irqAt (a : Nat) : Option IrqReg :=
  if 0xF040000000 ≤ a ∧ a < 0xF040004000 then some (.aplic 0 (a - 0xF040000000))
  else if 0xF040010000 ≤ a ∧ a < 0xF040014000 then some (.aplic 1 (a - 0xF040010000))
  else if 0xF041000000 ≤ a ∧ a < 0xF041000000 + 96 * 0x1000 then
    some (.imsic ((a - 0xF041000000) / 0x1000 * 16) (a % 0x1000))
  else if 0xF042000000 ≤ a ∧ a < 0xF042000000 + 96 * 0x8000 then
    some (.imsic ((a - 0xF042000000) / 0x8000 * 16 + 1 + a % 0x8000 / 0x1000) (a % 0x1000))
  else if 0xF043000000 ≤ a ∧ a < 0xF043008000 then
    let off := a - 0xF043000000
    if off < 96 * 8 then some (.mtimecmp (off / 8))
    else if off = 0x7FF8 then some .mtime
    else some .mtimerGap
  else none

/-- The width in bytes of a register. -/
def IrqReg.width : IrqReg → Nat
  | .aplic _ _ | .imsic _ _ => 4
  | _ => 8

/-- A register of an interrupt block as it reads. -/
def State.readIrq (s : State) : IrqReg → Nat
  | .aplic d o => s.readAplic d o
  | .imsic _ _ => 0
  | .mtimecmp h => s.comparator h .mtimecmp
  | .mtime => s.cores.mtime
  | .mtimerGap => 0

/-- An IMSIC page is written: seteipnum in either byte order. -/
def State.writeImsic (s : State) (file off v : Nat) : State :=
  if off = 0 then s.imsicSet file v else if off = 4 then s.imsicSet file (swap4 v) else s

/-- A register of an interrupt block is written. -/
def State.writeIrq (s : State) (r : IrqReg) (v : Nat) : State :=
  match r with
  | .aplic d o => s.writeAplic d o v
  | .imsic f o => s.writeImsic f o v
  | .mtimecmp h => s.setComparator h .mtimecmp v
  | .mtime => ({ s with cores := { s.cores with mtime := v % 2 ^ 64 } }).timersCheck
  | .mtimerGap => s

/-- TIMER_COMPARE: a comparator is compared with mtime (R267): its interrupt is pending once mtime has reached it. -/
def execTimerCompare (h : Fin 96) (k : TimerKind) (s : State) : Host.Outcome State Fault Refusal :=
  .next (s.timerCheck h k)

/-- Whether a requester may write an IMSIC file: any agent in the coherent domain (R266), and the PF through register
space. -/
def coherentAgent : Origin → Bool
  | .pf | .core _ _ | .cocoon | .hawkmoth => true
  | _ => false

/-- IMSIC_WRITE: an identity becomes pending in a hart's file (R265, R266). -/
def execImsicWrite (o : Origin) (h : Fin 96) (file : ImsicFile) (identity : BitVec 32) (s : State) :
    Host.Outcome State Fault Refusal :=
  .next <| if coherentAgent o then s.imsicSet (imsicFile h file) identity.toNat else s

end Sys2Proof.Machine
end

