-- ==== Sys2Proof/Machine/Csr.lean ====
section
/-! DEFINITION. Machine/Csr.lean: the CSRs that the published RISC-V specifications give a hart with the extensions of R241:
their fields, who may reach them, physical memory protection (PRESUMED, log entry 176). -/

namespace Sys2Proof.Machine

/-! ## Held CSRs -/

/-- The bits of a CSR that can be written, those that always read as 1, and its value at reset. -/
structure CsrInfo where
  mask : Nat
  fixed : Nat := 0
  reset : Nat := 0
  deriving DecidableEq, Repr

/-- A number with the given bits set. -/
def bitsOn (l : List Nat) : Nat := l.foldl (fun n b => n + 2 ^ b) 0

/-- All 64 bits. -/
def all64 : Nat := 2 ^ 64 - 1

/-- Bits of sstatus and vsstatus that can be written: SIE, SPIE, SPP, VS, FS, SUM, MXR. -/
def sstatusMask : Nat := bitsOn [1, 5, 8, 9, 10, 13, 14, 18, 19]

/-- Bits of menvcfg and henvcfg: FIOM, CBIE, CBCFE, CBZE, PMM, ADUE, PBMTE, STCE; senvcfg has those up to PMM. -/
def envcfgMask : Nat := bitsOn [0, 4, 5, 6, 7, 32, 33, 61, 62, 63]

/-- Bits of mstateen0 and hstateen0: CONTEXT, IMSIC, AIA, CSRIND, ENVCFG, SE0. -/
def stateenMask : Nat := bitsOn [57, 58, 59, 60, 62, 63]

/-- Interrupts that mie can enable: the S, VS and M levels' software, timer and external ones, the guest one, LCOFI and the
local interrupt 24 of R254. -/
def mieMask : Nat := bitsOn [1, 2, 5, 6, 7, 9, 10, 11, 12, 13, 24]

/-- The interrupts of the VS level and of guests, which are always delegated. -/
def vsMask : Nat := 0x1444

/-- The fields of satp and vsatp: MODE, a 16-bit ASID and a page number of 28 bits; hgatp has a 14-bit VMID (R241, R242). -/
def atpMask (idBits : Nat) : Nat := 15 * 2 ^ 60 + (2 ^ idBits - 1) * 2 ^ 44 + (2 ^ 28 - 1)

/-- The CSRs that are held as plain registers, by number. -/
def csrInfo (n : Nat) : Option CsrInfo :=
  match n with
  | 0x003 => some { mask := 0xFF }
  | 0x008 => some { mask := 0x1FF }
  | 0x00F => some { mask := 7 }
  | 0x300 => some { mask := sstatusMask + bitsOn [3, 7, 11, 12, 17, 20, 21, 22, 38, 39], fixed := 2 ^ 33 + 2 ^ 35 }
  | 0x200 => some { mask := sstatusMask, fixed := 2 ^ 33 }
  | 0x600 => some { mask := bitsOn [6, 7, 8, 9, 12, 13, 14, 20, 21, 22, 48, 49], fixed := 2 ^ 33 }
  | 0x302 => some { mask := 0xF0B7FF }
  | 0x303 => some { mask := bitsOn [1, 5, 9, 13, 24], fixed := vsMask }
  | 0x602 => some { mask := 0xB1FF }
  | 0x603 | 0x645 => some { mask := 0x444 }
  | 0x607 => some { mask := 0xFE }
  | 0x305 | 0x105 | 0x205 => some { mask := all64 - 2 }
  | 0x306 | 0x106 | 0x606 => some { mask := 0x7FFFF }
  | 0x320 => some { mask := 0x7FFFD }
  | 0x30A | 0x60A => some { mask := envcfgMask }
  | 0x10A => some { mask := envcfgMask % 2 ^ 34 }
  | 0x30C | 0x60C => some { mask := stateenMask }
  | 0x30D | 0x30E | 0x30F | 0x60D | 0x60E | 0x60F => some { mask := 2 ^ 63 }
  | 0x747 => some { mask := bitsOn [0, 1, 2, 8, 9, 32, 33] }
  | 0x341 | 0x141 | 0x241 | 0x741 => some { mask := all64 - 1 }
  | 0x340 | 0x34A | 0x34B | 0x140 | 0x142 | 0x143 | 0x240 | 0x242 | 0x243 | 0x643 | 0x64A | 0x605 | 0x740 | 0xB02 =>
    some { mask := all64 }
  | 0x744 => some { mask := bitsOn [3, 7, 11, 12] }
  | 0x180 | 0x280 => some { mask := atpMask 16 }
  | 0x680 => some { mask := atpMask 14 - 3 }
  | 0x250 => some { mask := 0xFFF }
  | 0x7A0 => some { mask := 7 }
  | 0x7A5 => some { mask := bitsOn [3, 7] }
  | 0x7A8 => some { mask := 2 ^ 14 - 1 }
  | 0x5A8 => some { mask := 2 ^ 32 - 1 }
  | _ => none

/-- Key of a hart's held CSR. The data registers of trigger t stand at 0x800 + 4 t. -/
def csrKey (h n : Nat) : Nat := h * 4096 + n

/-- A held CSR: what was written, or its reset value, with its fixed bits. -/
def State.csr (s : State) (h n : Nat) : Nat :=
  match csrInfo n with
  | some i => getK i.reset s.cores.csrs (csrKey h n) ||| i.fixed
  | none => getK 0 s.cores.csrs (csrKey h n)

/-- Store a CSR. -/
def State.putCsr (s : State) (h n v : Nat) : State :=
  let d := match csrInfo n with | some i => i.reset | none => 0
  { s with cores := { s.cores with csrs := setK d s.cores.csrs (csrKey h n) v } }

/-- A value of two bits at a place, or the old one where it is the reserved one. -/
def keepIf (lo bad old v : Nat) : Nat := if bits v lo 2 = bad then v - bits v lo 2 * 2 ^ lo + bits old lo 2 * 2 ^ lo else v

/-- What a write of a held CSR leaves of its value, where the fields take only some values: a translation mode that is not
implemented leaves the register as it was, a reserved CBIE, PMM or MPP the field; MML, MMWP and NMIE stay set. -/
def csrLegal (n old v : Nat) : Nat :=
  match n with
  | 0x180 | 0x280 | 0x680 => if [0, 8, 9].contains (bits v 60 4) then v else old
  | 0x300 => keepIf 11 2 old v
  | 0x600 => keepIf 48 1 old v
  | 0x30A | 0x60A | 0x10A => keepIf 32 1 old (keepIf 4 2 old v)
  | 0x747 => keepIf 32 1 old v ||| (old &&& 3)
  | 0x744 => v ||| (old &&& 8)
  | 0x7A0 => if v < 8 then v else old
  | _ => v

/-- Write a held CSR. -/
def State.setCsr (s : State) (h n v : Nat) : State :=
  match csrInfo n with
  | some i => s.putCsr h n (csrLegal n (s.csr h n) v &&& i.mask)
  | none => s

/-- Write some bits of a held CSR through a view of it. -/
def State.setCsrBits (s : State) (h n mask v : Nat) : State :=
  let old := s.csr h n
  s.setCsr h n ((old ^^^ (old &&& mask)) ||| (v &&& mask))

/-! ## Status views -/

/-- SD: the vector or floating-point state is dirty. -/
def withSd (v : Nat) : Nat := if bits v 13 2 = 3 ∨ bits v 9 2 = 3 then v % 2 ^ 63 + 2 ^ 63 else v % 2 ^ 63

/-- The bits of mip and mie that a view at the S level shows. -/
def State.sBits (s : State) (h : Nat) : Nat := s.csr h 0x303 - vsMask

/-- The bits of hip and hie that a view at the VS level shows, one place lower. -/
def State.vsBits (s : State) (h : Nat) : Nat := s.csr h 0x603

/-- Write bits of mie. -/
def State.setMie (s : State) (h mask v : Nat) : State :=
  s.setCore h fun c => { c with mie := (c.mie ^^^ (c.mie &&& mask)) ||| (v &&& mask) }

/-- Write bits of mip that can be written. -/
def State.putMip (s : State) (h mask v : Nat) : State :=
  s.setCore h fun c => { c with mip := (c.mip ^^^ (c.mip &&& mask)) ||| (v &&& mask) }

/-! ## The topmost interrupt (Smaia, Ssaia) -/

/-- Interrupts from the highest default priority down. -/
def irqOrder : List Nat := [11, 3, 7, 9, 1, 5, 12, 10, 2, 6, 13, 24]

/-- The topmost pending and enabled interrupt and its priority: an external one has that of its file's top identity. -/
def topInterrupt (due ext top : Nat) : Nat :=
  match irqOrder.find? fun i => bit due i with
  | some i => i * 65536 + (if i = ext then min 255 top else 255)
  | none => 0

/-! ## Physical memory protection (Smepmp) -/

/-- The configuration byte and the address register of an entry. -/
def State.pmpCfg (s : State) (h e : Nat) : Nat := bits (s.csr h (0x3A0 + e / 8 * 2)) (8 * (e % 8)) 8
def State.pmpAddr (s : State) (h e : Nat) : Nat := s.csr h (0x3B0 + e)

/-- Whether an entry is locked: mseccfg.RLB lifts locks. -/
def State.pmpLocked (s : State) (h e : Nat) : Bool := decide (e < 16) && bit (s.pmpCfg h e) 7 && !bit (s.csr h 0x747) 2

/-- An address register as it reads at the granularity of 4 KiB. -/
def State.pmpAddrRead (s : State) (h e : Nat) : Nat :=
  if 2 ≤ bits (s.pmpCfg h e) 3 2 then s.pmpAddr h e ||| 0x1FF else s.pmpAddr h e / 1024 * 1024

/-- The configuration byte that a write leaves: NA4 cannot be selected, and R = 0 with W = 1 only under MML. -/
def pmpLegal (mml : Bool) (old v : Nat) : Nat :=
  if bits v 3 2 = 2 ∨ (mml = false ∧ bit v 0 = false ∧ bit v 1) then old else v &&& 0x9F

/-- A write of pmpcfg0 or pmpcfg2: eight entries, of which a locked one keeps its byte. -/
def State.writePmpCfg (s : State) (h n v : Nat) : State :=
  let mml := bit (s.csr h 0x747) 0
  let e0 := (n - 0x3A0) * 4
  s.putCsr h n ((List.range 8).foldl (fun w i =>
    let old := s.pmpCfg h (e0 + i)
    w + (if s.pmpLocked h (e0 + i) then old else pmpLegal mml old (bits v (8 * i) 8)) * 2 ^ (8 * i)) 0)

/-- A write of an address register: ignored where the entry is locked, or bounds a locked TOR entry from below. -/
def State.writePmpAddr (s : State) (h e v : Nat) : State :=
  if s.pmpLocked h e ∨ (s.pmpLocked h (e + 1) ∧ bits (s.pmpCfg h (e + 1)) 3 2 = 1) then s
  else s.putCsr h (0x3B0 + e) (v % 2 ^ 38)

/-- The range of an entry that is on. -/
def State.pmpRange (s : State) (h e : Nat) : Option (Nat × Nat) :=
  match bits (s.pmpCfg h e) 3 2 with
  | 1 => some (if e = 0 then 0 else s.pmpAddr h (e - 1) / 1024 * 4096, s.pmpAddr h e / 1024 * 4096)
  | 3 =>
    let v := s.pmpAddr h e ||| 0x1FF
    let base := (v &&& (v + 1)) * 4
    some (base, base + ((v ^^^ (v + 1)) + 1) * 4)
  | _ => none

/-- Whether M-mode may read or write by a configuration byte. -/
def pmpGrants (mml write : Bool) (c : Nat) : Bool :=
  let r := bit c 0
  let w := bit c 1
  let x := bit c 2
  if mml then
    if bit c 7 then (if write then r && w && !x else r || (w && x)) else w && !r
  else !bit c 7 || (if write then w else r)

/-- Whether PMP lets an access of a hart in M-mode: the lowest entry that meets it decides, and must take it in whole. -/
def State.pmpLets (s : State) (h addr n : Nat) (write : Bool) : Bool :=
  let sec := s.csr h 0x747
  match (List.range 16).findSome? fun e =>
      match s.pmpRange h e with
      | some (lo, hi) => if lo < addr + n ∧ addr < hi then some (e, decide (lo ≤ addr) && decide (addr + n ≤ hi)) else none
      | none => none with
  | some (e, whole) => whole && pmpGrants (bit sec 0) write (s.pmpCfg h e)
  | none => !bit sec 1

/-! ## Reading and writing -/

/-- misa: RV64 with A, B, C, D, F, H, I, M, S, U and V (R241). -/
def misa : Nat := 2 ^ 63 + bitsOn [0, 1, 2, 3, 5, 7, 8, 12, 18, 20, 21]

/-- The guest file that hstatus.VGEIN selects. -/
def State.vgein (s : State) (h : Nat) : Nat := bits (s.csr h 0x600) 12 3

/-- hgeip: the guest files that raise an interrupt. -/
def State.hgeip (s : State) (h : Nat) : Nat :=
  (List.range 7).foldl (fun v g => v + b2n (s.fileRaises (h * 16 + 2 + g)) * 2 ^ (g + 1)) 0

/-- The number of the guest file that VGEIN selects, if it selects one. -/
def State.guestFile (s : State) (h : Nat) : Option Nat := if s.vgein h = 0 then none else some (h * 16 + 1 + s.vgein h)

/-- A hart's mip as it reads: MEIP, SEIP and VSEIP follow its files, SGEIP hgeip and hgeie, and the VS level's bits hvip
too. -/
def State.mipOf (s : State) (h : Nat) : Nat :=
  let v := (s.core h).mip ||| s.csr h 0x645
  let v := setBit (setBit v 11 (s.fileRaises (h * 16))) 9 (s.fileRaises (h * 16 + 1))
  let v := match s.guestFile h with | some f => if s.fileRaises f then setBit v 10 true else v | none => v
  setBit v 12 (decide (s.hgeip h &&& s.csr h 0x607 ≠ 0))

/-- scountovf: bit n is OF of mhpmevent n. -/
def State.countOvf (s : State) (h : Nat) : Nat :=
  (List.range 16).foldl (fun v i => v + b2n (bit (getK 0 s.cores.hpm (hpmKey h (35 + i))) 63) * 2 ^ (3 + i)) 0

/-- A performance counter by its number: mcycle, and mhpmcounter3 to 18; those from 19 on read 0 (R242). -/
def State.counter (s : State) (h n : Nat) : Nat :=
  if n = 1 then s.cores.mtime
  else if n = 2 then s.csr h 0xB02
  else if n ≤ 18 then getK 0 s.cores.hpm (hpmKey h n)
  else 0

/-- tdata1 as a write leaves it: a trigger is of type 6 or disabled. -/
def trigLegal (v : Nat) : Nat := if bits v 60 4 = 6 then v % 2 ^ 59 + 6 * 2 ^ 60 else 15 * 2 ^ 60

/-- A CSR that the published specifications give the hart, by number; none where no such CSR exists (R241, R242, R254,
R267). -/
def State.readCsr (s : State) (h n : Nat) : Option Nat :=
  let tr (j : Nat) : Nat := getK 0 s.cores.csrs (csrKey h (0x800 + 4 * s.csr h 0x7A0 + j))
  if 0xB03 ≤ n ∧ n ≤ 0xB1F then some (s.counter h (n - 0xB00))
  else if 0xC00 ≤ n ∧ n ≤ 0xC1F then some (s.counter h (n - 0xC00))
  else if 0x323 ≤ n ∧ n ≤ 0x332 then some (getK 0 s.cores.hpm (hpmKey h (n - 0x320 + 32)))
  else if 0x333 ≤ n ∧ n ≤ 0x33F then some 0
  else if 0x3B0 ≤ n ∧ n ≤ 0x3BF then some (s.pmpAddrRead h (n - 0x3B0))
  else if 0x3A0 ≤ n ∧ n < 0x3F0 then (if n < 0x3B0 ∧ n % 2 = 1 then none else some (s.csr h n))
  else
    match n with
    | 0x001 => some (s.csr h 0x003 % 32)
    | 0x002 => some (s.csr h 0x003 / 32)
    | 0x009 => some (s.csr h 0x00F % 2)
    | 0x00A => some (s.csr h 0x00F / 2)
    | 0x015 => some (2 ^ 31 + Config.entropy s.trust.draws % 65536)
    | 0x300 => some (withSd (s.csr h 0x300))
    | 0x100 => some (withSd (s.csr h 0x300 &&& (sstatusMask + 3 * 2 ^ 32)))
    | 0x200 => some (withSd (s.csr h 0x200))
    | 0x301 => some misa
    | 0xB00 => some (s.counter h 0)
    | 0x14D => some (s.comparator h .stimecmp)
    | 0x24D => some (s.comparator h .vstimecmp)
    | 0x342 => some (s.core h).mcause
    | 0x343 => some (s.core h).mtval
    | 0x742 => some (s.core h).mncause
    | 0x304 => some (s.core h).mie
    | 0x344 => some (s.mipOf h)
    | 0x104 => some ((s.core h).mie &&& s.sBits h)
    | 0x144 => some (s.mipOf h &&& s.sBits h)
    | 0x604 => some ((s.core h).mie &&& vsMask)
    | 0x644 => some (s.mipOf h &&& vsMask)
    | 0x204 => some (((s.core h).mie &&& s.vsBits h) / 2)
    | 0x244 => some ((s.mipOf h &&& s.vsBits h) / 2)
    | 0xE12 => some (s.hgeip h)
    | 0x60A =>
      let m := s.csr h 0x30A
      some (s.csr h n &&& (m ||| (2 ^ 61 - 1)))
    | 0x60C | 0x60D | 0x60E | 0x60F => some (s.csr h n &&& s.csr h (n - 0x300))
    | 0x10C | 0x10D | 0x10E | 0x10F => some 0
    | 0x350 => some (s.core h).msel
    | 0x351 => some (s.readIndirect (h * 16) (s.core h).msel)
    | 0x35C => some (s.topei (h * 16) * 65537)
    | 0x150 => some (s.core h).ssel
    | 0x151 => some (s.readIndirect (h * 16 + 1) (s.core h).ssel)
    | 0x15C => some (s.topei (h * 16 + 1) * 65537)
    | 0x251 => some (match s.guestFile h with | some f => s.readIndirect f (s.csr h 0x250) | none => 0)
    | 0x25C => some (match s.guestFile h with | some f => s.topei f * 65537 | none => 0)
    | 0xFB0 =>
      let d := s.mipOf h &&& (s.core h).mie
      some (topInterrupt (d ^^^ (d &&& s.csr h 0x303)) 11 (s.topei (h * 16)))
    | 0xDB0 => some (topInterrupt (s.mipOf h &&& (s.core h).mie &&& s.sBits h) 9 (s.topei (h * 16 + 1)))
    | 0xEB0 =>
      some (topInterrupt ((s.mipOf h &&& (s.core h).mie &&& s.vsBits h) / 2) 9
        (match s.guestFile h with | some f => s.topei f | none => 0))
    | 0x308 | 0x309 | 0x608 | 0x609 | 0x646 | 0x647 => some 0
    | 0x6A8 => some (s.csr h 0x7A8)
    | 0x7A1 => some (if tr 0 = 0 then 15 * 2 ^ 60 else tr 0)
    | 0x7A2 => some (tr 1)
    | 0x7A3 => some (tr 2)
    | 0x7A4 => some 0x01008040
    | 0xC20 => some 0
    | 0xC21 => some (2 ^ 63)
    | 0xC22 => some 64
    | 0xDA0 => some (s.countOvf h)
    | 0xF11 => some (Config.vendorId % 2 ^ 32)
    | 0xF12 => some 0x447
    | 0xF13 => some 0xB0
    | 0xF14 => some h
    | 0xF15 => some 0
    | _ => (csrInfo n).map fun _ => s.csr h n

/-- They are written. Read-only ones are not reached (State.csrOpen). -/
def State.writeCsr (s : State) (h n v : Nat) : State :=
  let tr (j w : Nat) : State := s.putCsr h (0x800 + 4 * s.csr h 0x7A0 + j) w
  if 0xB03 ≤ n ∧ n ≤ 0xB12 then s.setHpm h (n - 0xB00) v
  else if 0x323 ≤ n ∧ n ≤ 0x332 then s.setHpm h (n - 0x320 + 32) v
  else if 0x3B0 ≤ n ∧ n ≤ 0x3BF then s.writePmpAddr h (n - 0x3B0) v
  else
    match n with
    | 0x001 => s.setCsrBits h 0x003 31 v
    | 0x002 => s.setCsrBits h 0x003 0xE0 (v * 32)
    | 0x009 => s.setCsrBits h 0x00F 1 v
    | 0x00A => s.setCsrBits h 0x00F 6 (v * 2)
    | 0x100 => s.setCsrBits h 0x300 sstatusMask v
    | 0xB00 => s.setHpm h 0 v
    | 0x14D => s.setComparator h .stimecmp v
    | 0x24D => s.setComparator h .vstimecmp v
    | 0x342 => s.setCore h fun c => { c with mcause := v }
    | 0x343 => s.setCore h fun c => { c with mtval := v }
    | 0x742 => s.setCore h fun c => { c with mncause := v }
    | 0x304 => s.setMie h mieMask v
    | 0x104 => s.setMie h (s.sBits h) v
    | 0x604 => s.setMie h vsMask v
    | 0x204 => s.setMie h (s.vsBits h) (v * 2)
    | 0x344 => (s.putMip h (bitsOn [1, 13, 24]) v).setCsrBits h 0x645 4 v
    | 0x144 => s.putMip h (bitsOn [1, 13, 24] &&& s.sBits h) v
    | 0x644 => s.setCsrBits h 0x645 4 v
    | 0x244 => s.setCsrBits h 0x645 (4 &&& s.vsBits h) (v * 2)
    | 0x3A0 | 0x3A2 => s.writePmpCfg h n v
    | 0x350 => s.setCore h fun c => { c with msel := v }
    | 0x351 => s.writeIndirect (h * 16) (s.core h).msel v
    | 0x35C => s.claimTop (h * 16)
    | 0x150 => s.setCore h fun c => { c with ssel := v }
    | 0x151 => s.writeIndirect (h * 16 + 1) (s.core h).ssel v
    | 0x15C => s.claimTop (h * 16 + 1)
    | 0x251 => match s.guestFile h with | some f => s.writeIndirect f (s.csr h 0x250) v | none => s
    | 0x25C => match s.guestFile h with | some f => s.claimTop f | none => s
    | 0x6A8 => s.setCsr h 0x7A8 v
    | 0x7A1 => tr 0 (trigLegal v)
    | 0x7A2 => tr 1 v
    | 0x7A3 => tr 2 v
    | _ => s.setCsr h n v

/-! ## Who may reach a CSR -/

/-- Whether a mode below M may reach a CSR of its level (taken as the HS level): the counters by mcounteren, the comparators
also by menvcfg.STCE, satp by TVM, seed by SSEED, and what mstateen governs. -/
def State.csrLower (s : State) (h n : Nat) : Bool :=
  let en := s.csr h 0x30C
  if 0xC00 ≤ n ∧ n ≤ 0xC1F then bit (s.csr h 0x306) (n - 0xC00)
  else
    match n with
    | 0x14D | 0x24D => bit (s.csr h 0x306) 1 && bit (s.csr h 0x30A) 63
    | 0x180 => !bit (s.csr h 0x300) 20
    | 0x015 => bit (s.csr h 0x747) 9
    | 0x10A | 0x60A => bit en 62
    | 0x10C | 0x60C => bit en 63
    | 0x10D | 0x10E | 0x10F => bit (s.csr h (n + 0x200)) 63
    | 0x60D | 0x60E | 0x60F => bit (s.csr h (n - 0x300)) 63
    | 0x150 | 0x151 | 0x250 | 0x251 => bit en 60
    | 0x15C | 0x25C => bit en 58
    | 0xDB0 | 0xEB0 | 0x608 | 0x609 | 0x646 | 0x647 => bit en 59
    | 0x5A8 | 0x6A8 => bit en 57
    | _ => true

/-- Whether a hart's instruction may reach a CSR: it exists, is not read-only where it is written, and its level is that of
the mode. Else it raises an illegal-instruction exception (R241, R272). The Plovton CSRs are of the M level. -/
def State.csrOpen (s : State) (h n : Nat) (mmode write : Bool) : Bool :=
  let own := [0xFC0, 0x7C0, 0x7C1, 0x7C2, 0x7C3].contains n
  (own || (s.readCsr h n).isSome) && !(write && n / 1024 == 3 && n != 0xFC0)
    && (mmode || (n / 256 % 4 != 3 && s.csrLower h n))

/-- A read of seed takes a draw of the Hawkmoth's entropy source (Zkr, R241). -/
def State.csrReadLeaves (s : State) (n : Nat) : State :=
  if n = 0x015 then { s with trust := { s.trust with draws := s.trust.draws + 1 } } else s

/-! ## Taking an interrupt -/

/-- A hart takes an interrupt: at the M level, or where mideleg delegates it at the S level, or from there to the VS level
(R254; DEDUCED, log entry 176). -/
def State.takeInterrupt (s : State) (h cause : Nat) : State :=
  let i := cause % 2 ^ 63
  let deleg := decide (2 ^ 63 ≤ cause) && decide (i < 64) && bit (s.csr h 0x303) i
  if ¬ deleg then s.setCore h fun c => { c with mcause := cause, mtval := 0, fenced := false }
  else
    let s := s.setCore h fun c => { c with fenced := false }
    if bit (s.csr h 0x603) i then (s.putCsr h 0x242 (cause - 1)).putCsr h 0x243 0
    else (s.putCsr h 0x142 cause).putCsr h 0x143 0

end Sys2Proof.Machine
end

