-- ==== Sys2Proof/Machine/Ports.lean ====
section
/-! DEFINITION. Machine/Ports.lean: the ports of the Obneurn Link: their states (R393), sequenced frames, credit and
retry (R394, R397, R398). -/

namespace Sys2Proof.Machine

/-! ## States (R393) -/

/-- A port's event raises its interrupt, and PORT where the port's is then asserted (R412). -/
def State.portRaise (s : State) (f : Fld) (p : Nat) : State :=
  let s := s.raise f p
  if s.intrOf .oblPort p then s.raise OBL_INT_STATUS.PORT else s

/-- Whether a port may train: its cage holds a supported device, it is enabled, the module has an address the link can
use, and the module is in service (R393, R407, R450). -/
def State.portMay (s : State) (p : Nat) : Bool :=
  s.on OBL_PORT_CTRL.EN p && decide (1 ≤ s.ownAddr) && decide (s.ownAddr ≤ 8192) && !s.on RAS_SERVICE.OUT

/-- An IDENT frame is sent (R392). -/
def State.sendIdent (s : State) (p : Nat) : State := s.send (.ident p s.ownAddr s.ownEpoch)

/-- A port starts to train. -/
def State.portTrains (s : State) (p : Nat) : State := (s.wr OBL_PORT_STATUS.STATE pTraining p).sendIdent p

/-- What a port held is given up: the frames of the replay buffer are counted (R398), and the packets that wait go to
their other output or are dropped (R404). -/
def State.portFlush (s : State) (p : Nat) : State :=
  let x := s.port p
  let s := s.setPort p fun y => { ObPort.idle with present := y.present }
  let s := if x.replay.isEmpty then s else s.oblDrop OBL_DROP.LINK x.replay.length
  x.txq.foldl (fun s (e : Nat × List (Nat × ObPkt)) =>
    e.2.foldl (fun s q => s.sendPkt q.1 (e.1 % 2 == 1) q.2) s) s

/-- A port goes to a state in which it carries no frame. -/
def State.portLeaves (s : State) (p st : Nat) : State :=
  let was := s.portSt p
  let s := s.wr OBL_PORT_STATUS.STATE st p
  if was = pUp ∨ was = pRecovery then s.portFlush p else s

/-- A port's state follows its cage, EN and the module's address (R393). -/
def State.portSettle (s : State) (p : Nat) : State :=
  let st := s.portSt p
  if ¬ (s.port p).present then (if st = pEmpty then s else s.portLeaves p pEmpty)
  else if ¬ s.portMay p then (if st = pDisabled then s else s.portLeaves p pDisabled)
  else if st = pEmpty ∨ st = pDisabled then s.portTrains p
  else s

/-- Every port. -/
def State.portsSettle (s : State) : State := (List.range 16).foldl State.portSettle s

/-- A port goes DOWN (R393, R398). -/
def State.portDown (s : State) (p : Nat) : State := (s.portLeaves p pDown).portRaise OBL_PORT_INT_STATUS.DOWN p

/-- A port enters RECOVERY (R393, R398). -/
def State.portRecovery (s : State) (p : Nat) : State :=
  (((s.setPort p fun x => { x with recAt := s.us }).wr OBL_PORT_STATUS.STATE pRecovery p).bump
    OBL_PORT_RETRY.RECOVERIES 1 p).sendIdent p

/-! ## Frames, credit and retry -/

/-- Bytes of a frame's body (R394 to R400). -/
def ObFrame.body : ObFrame → Nat
  | .hdr _ => 24
  | .data b => b.length
  | .get _ _ => 80
  | .ack _ | .nack _ => 16

/-- Credit units of a frame (R397). -/
def ObFrame.credit (f : ObFrame) : Nat := cdiv (8 + f.body) 64

/-- The class of a frame (R394). -/
def ObFrame.cls : ObFrame → Nat
  | .hdr _ | .data _ => cPut
  | .get _ _ => cGet
  | .ack _ | .nack _ => cRsp

/-- Receive buffer of a VC of a class, in credit units (R397). -/
def bufferUnits (cls : Nat) : Nat := if cls = cPut then 2048 else if cls = cGet then 128 else 32

/-- Whether the partner has granted credit for a frame on a class and VC: the counts are cumulative, in 16 bits, over the
buffer it starts with (DEDUCED, log entry 46). -/
def State.creditOn (s : State) (p key : Nat) (f : ObFrame) : Bool :=
  let x := s.port p
  let out := (getK 0 x.used key + 65536 - getK 0 x.granted key % 65536) % 65536
  decide (out + f.credit ≤ bufferUnits (key / 2))

/-- Whether the replay buffer of 128 KiB has room for a frame, and SEQ a number for it (R398). -/
def State.replayRoom (s : State) (p : Nat) (f : ObFrame) : Bool :=
  let q := (s.port p).replay
  decide (q.foldl (fun n e => n + 8 + e.2.2.body) (8 + f.body) ≤ 131072) && decide (q.length < 4095)

/-- Times within the last second (R39). -/
def lastSecond (now : Nat) (ts : List Nat) : List Nat := ts.filter fun t => decide (now < t + 1000000)

/-- A sequenced frame is sent: it takes the next SEQ, its credit, and a place in the replay buffer. -/
def State.sendFrame (s : State) (p key : Nat) (f : ObFrame) : State :=
  let x := s.port p
  let now := s.us
  let s := s.setPort p fun x => { x with
    seq := (x.seq + 1) % 4096
    replay := x.replay ++ [(x.seq, key, f)]
    sentAt := lastSecond now x.sentAt ++ [now]
    used := setK 0 x.used key ((getK 0 x.used key + f.credit) % 65536) }
  let s := s.bump OBL_PORT_FRAMES.COUNT 1 p
  let s := match f with | .data b => s.bump OBL_PORT_TX.BYTES b.length p | _ => s
  s.send (.frame p x.seq (key % 2) f)

/-- A CTL frame is sent (R397). -/
def State.sendCtl (s : State) (p : Nat) (nak : Bool) : State :=
  let x := s.port p
  (s.setPort p fun x => { x with rxCount := 0 }).send
    (.ctl p ((x.rxSeq + 4095) % 4096) nak ((List.range 6).map fun k => getK 0 x.returned k))

/-- Every frame of the replay buffer is sent again; after 8 times without progress the port enters RECOVERY (R398). -/
def State.resend (s : State) (p : Nat) : State :=
  let x := s.port p
  if 8 ≤ x.resends then s.portRecovery p
  else
    let now := s.us
    let again := List.replicate x.replay.length now
    let s := (s.setPort p fun x => { x with
      resends := x.resends + 1, resentAt := lastSecond now x.resentAt ++ again }).bump OBL_PORT_RETRY.RESENT x.replay.length p
    x.replay.foldl (fun s e => s.send (.frame p e.1 (e.2.1 % 2) e.2.2)) s

/-- An ACKSEQ covers the frames up to it. -/
def State.covered (s : State) (p ackSeq : Nat) : State :=
  let q := (s.port p).replay
  match q.findIdx? (·.1 == ackSeq) with
  | some i => s.setPort p fun x => { x with replay := q.drop (i + 1), resends := 0 }
  | none => s

/-- CTL: acknowledges, returns credit, and with NAK asks for the frames after ACKSEQ (R397, R398). -/
def execCtl (port : Fin 16) (crcOk : Bool) (b : ObCtl) (s : State) : Answer :=
  .next <|
    if s.portSt port ≠ pUp then s
    else if ¬ crcOk then s.sendCtl port true
    else
      let s := (s.covered port b.ackSeq).setPort port fun x => { x with
        granted := (List.range 6).foldl (fun g k => setK 0 g k (b.credits.getD k 0 % 65536)) x.granted }
      if b.nak then s.resend port else s

/-- CTL_PERIOD (R397): a CTL frame at least once per microsecond. -/
def execCtlPeriod (port : Fin 16) (s : State) : Answer :=
  .next <| if s.portSt port = pUp then s.sendCtl port false else s

/-- REPLAY_TIMEOUT (R398): no CTL frame has covered the oldest frame within 10 µs. -/
def execReplayTimeout (port : Fin 16) (s : State) : Answer :=
  .next <| if s.portSt port = pUp ∧ (s.port port).replay ≠ [] then s.resend port else s

/-- The partner that an IDENT names is recorded; a new one raises PARTNER (R412). -/
def State.partner (s : State) (p addr epoch port : Nat) : State :=
  let new := s.rd OBL_PORT_PARTNER.ADDR p != addr || s.rd OBL_PORT_PARTNER.EPOCH p != epoch
  let s := ((s.wr OBL_PORT_PARTNER.ADDR addr p).wr OBL_PORT_PARTNER.EPOCH epoch p).wr OBL_PORT_PARTNER.PORT port p
  if new then s.portRaise OBL_PORT_INT_STATUS.PARTNER p else s

/-- A port reaches UP. -/
def State.portUp (s : State) (p : Nat) : State :=
  (s.wr OBL_PORT_STATUS.STATE pUp p).portRaise OBL_PORT_INT_STATUS.UP p

/-- IDENT (R392, R398): the last step of training brings a port UP; after RECOVERY the same partner and epoch resume
replay, another discards it and the port goes DOWN. -/
def execIdent (port : Fin 16) (crcOk : Bool) (addr : BitVec 16) (epoch : BitVec 16) (partnerPort : BitVec 4)
    (s : State) : Answer :=
  .next <|
    if ¬ crcOk then s
    else if s.portSt port = pTraining then
      ((s.setPort port fun x => { ObPort.idle with present := x.present }).partner port addr.toNat epoch.toNat
        partnerPort.toNat).portUp port
    else if s.portSt port = pRecovery then
      if s.rd OBL_PORT_PARTNER.ADDR port = addr.toNat ∧ s.rd OBL_PORT_PARTNER.EPOCH port = epoch.toNat then
        ((s.setPort port fun x => { x with resends := 0 }).portUp port).resend port
      else (s.partner port addr.toNat epoch.toNat partnerPort.toNat).portDown port
    else s

/-- Whether a port's RECOVERY has lasted OBL_CTRL.RECOV_MS, values above 1,000 acting as 1,000 (R393, R412). -/
def State.recoveryOver (s : State) (p : Nat) : Bool :=
  s.portSt p == pRecovery && decide ((s.port p).recAt + 1000 * s.rdMax OBL_CTRL.RECOV_MS 1000 ≤ s.us)

/-- RECOVERY_TIMEOUT (R398): RECOVERY has lasted OBL_CTRL.RECOV_MS. -/
def execRecoveryTimeout (port : Fin 16) (s : State) : Answer :=
  .next <| if s.recoveryOver port then s.portDown port else s

/-- TRAINING_RETRY (R393): training of a DOWN port is tried again every second. -/
def execTrainingRetry (port : Fin 16) (s : State) : Answer :=
  .next <| if s.portSt port = pDown then s.portTrains port else s

/-- LOSS_OF_SIGNAL (R393): an UP port enters RECOVERY, and training fails. -/
def execLossOfSignal (port : Fin 16) (s : State) : Answer :=
  .next <|
    if s.portSt port = pUp then s.portRecovery port
    else if s.portSt port = pTraining then s.portDown port
    else s

/-! ## Sending (R396, R404) -/

/-- The packet a PUT VC sends next: of the run being continued, for at most 16 DATA frames while other inputs wait, else
the first of another input, else the first. -/
def pickPkt (run : Option (ObHdr × Nat)) (q : List (Nat × ObPkt)) : Option (Nat × ObPkt) :=
  let continues (e : Nat × ObPkt) : Bool := match run, e.2 with
    | some r, .put h _ => h == r.1
    | _, _ => false
  match q.find? continues with
  | none => q.head?
  | some e =>
    let others := q.filter fun x => x.1 != e.1
    match run, others with
    | some r, o :: _ => if 16 ≤ r.2 then some o else some e
    | _, _ => some e

/-- A packet leaves its queue. -/
def State.popPkt (s : State) (p key : Nat) (e : Nat × ObPkt) : State :=
  s.setPort p fun x => { x with txq := setK [] x.txq key ((getK [] x.txq key).erase e) }

/-- A put of this module's movers has gone out: a run's HDR opens a run that awaits its answer, and each DATA frame adds its
bytes to it (R399). -/
def State.putSent (s : State) (e : Nat × ObPkt) (bytes : Option Nat) : State :=
  match e.2 with
  | .put h _ =>
    let c := h.tag / 2
    let m := h.tag % 2
    if ¬ s.putOf c m e then s
    else s.setMove c m fun v => match bytes with
      | none => { v with flight := v.flight ++ [0] }
      | some n => { v with queued := v.queued - n, flight := v.flight.dropLast ++ [v.flight.getLastD 0 + n] }
  | _ => s

/-- One frame of a class and VC is sent, if the queue, the credit and the replay buffer allow: a packet of a run that is
not being continued first sends the run's HDR. -/
def State.sendNext (s : State) (p key : Nat) : State :=
  let x := s.port p
  let run := (x.txRun.find? (·.1 = key)).map (·.2)
  match pickPkt run (getK [] x.txq key) with
  | none => s
  | some e =>
    let fits (f : ObFrame) : Bool := s.creditOn p key f && s.replayRoom p f
    match e.2 with
    | .put h bytes =>
      let cont := match run with
        | some r => r.1 == h && (decide (r.2 < 16) || (getK [] x.txq key).all fun y => y.1 == e.1)
        | none => false
      if cont then
        if fits (.data bytes) then
          (((s.popPkt p key e).sendFrame p key (.data bytes)).setPort p fun x => { x with
            txRun := insK x.txRun key ({ h with addr := h.addr + bytes.length }, ((run.map (·.2)).getD 0) + 1) }).putSent e
              (some bytes.length)
        else s
      else if fits (.hdr h) then
        ((s.sendFrame p key (.hdr h)).setPort p fun x => { x with txRun := insK x.txRun key (h, 0) }).putSent e none
      else s
    | .get h d => if fits (.get h d) then (s.popPkt p key e).sendFrame p key (.get h d) else s
    | .ack a => if fits (.ack a) then (s.popPkt p key e).sendFrame p key (.ack a) else s
    | .nack a => if fits (.nack a) then (s.popPkt p key e).sendFrame p key (.nack a) else s

/-- FRAME_SEND (R394, R396, R397, R404). -/
def execFrameSend (port : Fin 16) (cls : Fin 3) (vc : Bool) (s : State) : Answer :=
  .next <| if s.portSt port = pUp then s.sendNext port (cls * 2 + b2n vc) else s

end Sys2Proof.Machine
end

