-- ==== Sys2Proof/Machine/ObRx.lean ====
section
/-! DEFINITION. Machine/ObRx.lean: what a port does with the frames it receives (R395 to R404, R410). -/

namespace Sys2Proof.Machine

/-! ## The link level (R394, R398) -/

/-- A sequenced frame is received: one with a bad CRC or out of order is discarded and answered with a NAK; `f` acts on
one in order and says whether it is taken. A frame that must wait stays on the link (DESIGN CHOICE, log entry 47). -/
def State.rxFrame (s : State) (k : ObLink) (cls credit : Nat) (f : State → State × Bool) : State :=
  let p := k.port.val
  if s.portSt p ≠ pUp then s
  else if ¬ k.crcOk ∨ k.seq ≠ (s.port p).rxSeq then s.sendCtl p true
  else
    let r := f s
    if ¬ r.2 then r.1
    else
      let key := cls * 2 + b2n k.vc
      let s := r.1.setPort p fun x => { x with
        rxSeq := (x.rxSeq + 1) % 4096
        rxCount := x.rxCount + 1
        returned := setK 0 x.returned key ((getK 0 x.returned key + credit) % 65536) }
      if 16 ≤ (s.port p).rxCount then s.sendCtl p false else s

/-- Whether a frame is addressed to this module. -/
def State.mine (s : State) (dest : Nat) : Bool := dest == s.ownAddr

/-- A NACK is sent, and OBL_NACK_LAST records it (R402, R412). -/
def State.sendNack (s : State) (h : ObHdr) (status : Nat) : State :=
  let s := ((s.wr OBL_NACK_LAST.STATUS status).wr OBL_NACK_LAST.SRC h.src).wr OBL_NACK_LAST.JOB h.job
  let s := (s.wr OBL_NACK_LAST.VALID 1).raise OBL_INT_STATUS.NACK
  s.sendPkt 0 false (.nack ⟨h.src, s.ownAddr, h.tag, status, 0⟩)

/-- The stream of the Obneurn Link's own accesses to HBM: R283 gives it no identifier and R316 no partition, so it has one
of its own and partition 0 (DEDUCED, log entry 49). -/
def oblStream : Nat := 1536

/-! ## Runs (R395, R399 to R402) -/

/-- The run being received on a VC of a port. -/
def State.rxRun (s : State) (p : Nat) (vc : Bool) : Option ObRun :=
  ((s.port p).rxRun.find? (·.1 = b2n vc)).map (·.2)

/-- A run begins on a VC. -/
def State.setRun (s : State) (p : Nat) (vc : Bool) (r : ObRun) : State :=
  s.setPort p fun x => { x with rxRun := insK x.rxRun (b2n vc) r }

/-- The GET outstanding that a reply answers (R400): its mover, when the epoch is this module's and the mover has a GET
outstanding to the reply's source. One that a NACK has ended still takes the replies read before, until it completes
(R500). -/
def State.replyTo (s : State) (h : ObHdr) : Option (Nat × Nat) :=
  let c := h.tag / 2
  let m := h.tag % 2
  match (s.mover c m).cur with
  | some v =>
    let from_ := match s.side c v false with | .peer mod _ _ => mod == h.src | _ => false
    if v.op == 4 && v.begun && from_ && h.repoch == s.ownEpoch then some (c, m) else none
  | none => none

/-- Whether a header can be admitted (R401, R402): its job, its address, LCLU; an ADD goes to HBM at an aligned
address. -/
def State.hdrGood (s : State) (h : ObHdr) : Bool :=
  (h.reply || s.admits h.job h.spad) && decide (h.lclu ≤ 511)
    && (if h.spad then decide (h.addr < 2 ^ 31) && decide (bits h.addr 0 22 < 0x300000) && !h.add
      else decide (h.addr < s.hbmEnd) && !(s.meetsMeta h.addr 1) && (!h.add || h.addr % efmtBytes h.efmt == 0))

/-- Whether the bytes of a packet stay where R402 allows. -/
def State.dataGood (s : State) (h : ObHdr) (a n : Nat) : Bool :=
  if h.spad then decide (a < 2 ^ 31) && decide (bits a 0 22 + n ≤ 0x300000)
  else decide (a + n ≤ s.hbmEnd) && !(s.meetsMeta a n) && (!h.add || (a % efmtBytes h.efmt == 0 && n % efmtBytes h.efmt == 0))

/-- A run header for this module. -/
def State.hdrMine (s : State) (p : Nat) (vc : Bool) (h : ObHdr) : State :=
  let start (s : State) (refused : Bool) : State := s.setRun p vc ⟨h, 0, refused⟩
  if s.on OBL_STATUS.QUIET then start (s.oblDrop OBL_DROP2.QUIET) true
  else if h.reply then
    match s.replyTo h with
    | some _ => start s false
    | none => start (s.oblDrop OBL_DROP2.STALE) true
  else if s.hdrGood h then start s false
  else start (s.sendNack h stBadDescriptor) true

/-- A run header for another module (R404): dropped at HOPS 0, or where nothing routes it. -/
def State.hdrPast (s : State) (p : Nat) (vc : Bool) (h : ObHdr) : State :=
  if h.hops = 0 then (s.oblDrop OBL_DROP2.LOOP).setRun p vc ⟨h, 0, true⟩
  else
    let s := if (s.output h.dest).isNone then s.oblDrop OBL_DROP.NOROUTE else s
    s.setRun p vc ⟨{ h with hops := h.hops - 1 }, 0, false⟩

/-- HDR (R395). -/
def execHdr (k : ObLink) (h : ObHdr) (s : State) : Answer :=
  .next <| s.rxFrame k cPut 1 fun s =>
    (if s.mine h.dest then s.hdrMine k.port k.vc h else s.hdrPast k.port k.vc h, true)

/-- The counter of a run (R395): a scratchpad run's own cluster's, or LCLU's. -/
def runCounter (h : ObHdr) (a : Nat) : Option (Nat × Nat) :=
  if h.lcntEn then some (if h.spad then bits a 22 9 else h.lclu, h.lcnt) else none

/-- A packet of a run lands whole or not at all (R396, R399). -/
def State.landPacket (s : State) (h : ObHdr) (a : Nat) (bytes : List Byte) : State × LandRes :=
  if s.countWaits (runCounter h a) then (s, .wait)
  else
    let stream := oblStream
    let r := if h.spad then s.landSpad (bits a 22 9) (bits a 0 22) bytes
      else s.landHbm stream (s.partOf stream) a bytes (if h.add then some h.efmt else none)
    match r.2 with
    | .ok => (r.1.counted (runCounter h a) bytes.length, .ok)
    | _ => r

/-- A packet for this module: it lands and is acknowledged (R399), lands as part of a reply (R400), or is refused
(R402). -/
def State.dataMine (s : State) (p : Nat) (vc : Bool) (r : ObRun) (bytes : List Byte) : State × Bool :=
  let a := r.h.addr + r.off
  let n := bytes.length
  let next (s : State) (refused : Bool) : State := s.setRun p vc ⟨r.h, r.off + n, refused⟩
  if r.refused then (next s true, true)
  else if r.h.reply then
    match s.replyTo r.h with
    | none => (next (s.oblDrop OBL_DROP2.STALE) true, true)
    | some (c, m) =>
      if ¬ s.dataGood r.h a n then (next (s.moveErr c m stBadDescriptor) true, true)
      else
        let w := s.landPacket r.h a bytes
        match w.2 with
        | .wait => (w.1, false)
        | .bad => (next (w.1.setMove c m fun v => { v with lost := v.lost + n, since := s.us }) false, true)
        | .ok =>
          let s := (w.1.setMove c m fun v => { v with landed := v.landed + n, since := s.us }).progress c
          (next (s.bump (if m = 0 then MOV_BYTES0.BYTES else MOV_BYTES1.BYTES) n c) false, true)
  else if ¬ s.dataGood r.h a n then (next (s.sendNack r.h stBadDescriptor) true, true)
  else
    let w := s.landPacket r.h a bytes
    match w.2 with
    | .wait => (w.1, false)
    | .bad => (next (w.1.sendNack r.h stEcc) true, true)
    | .ok => (next (w.1.sendPkt 0 false (.ack ⟨r.h.src, w.1.ownAddr, r.h.tag, stOK, n⟩)) false, true)

/-- DATA (R396): a packet of the run on its port and VC; one of a run dropped at HOPS 0 is dropped and counted
too (R404). Every landed packet is acknowledged, which meets R399's at least once per 16 KiB and at the run's end (DESIGN
CHOICE, log entry 48). -/
def execData (k : ObLink) (payload : List Byte) (s : State) : Answer :=
  .next <|
    if payload.isEmpty ∨ 256 < payload.length then s
    else s.rxFrame k cPut (cdiv (8 + payload.length) 64) fun s =>
      match s.rxRun k.port k.vc with
      | none => (s, true)
      | some r =>
        let q := if s.mine r.h.dest then s.dataMine k.port k.vc r payload
          else
            let t := if r.refused then s.oblDrop OBL_DROP2.LOOP
              else s.sendPkt (1 + k.port) k.vc (.put { r.h with addr := r.h.addr + r.off } payload)
            (t.setRun k.port k.vc { r with off := r.off + payload.length }, true)
        (if q.2 then q.1.bump OBL_PORT_RX.BYTES payload.length k.port else q.1, q.2)

/-! ## GETs (R400) -/

/-- A GET's descriptor as a move of this module. -/
def getMove (desc : List Nat) : Move := .fresh desc .step 0 none 0

/-- The HBM range a GET reads, with its run offsets; none where it is not within the HBM present and clear of the
metadata (R402). -/
def State.getBase (s : State) (h : ObHdr) (desc : List Nat) : Option Nat :=
  let v := getMove desc
  let a := bits v.saddr 0 40
  let sp := v.span false
  if bit v.saddr 47 then none
  else if (a : Int) + sp.1 < 0 ∨ (s.hbmEnd : Int) < (a : Int) + sp.2 then none
  else if s.hitsMeta (.hbm a) sp.1 (sp.2 - sp.1).toNat then none
  else if ¬ s.admits h.job false ∨ 511 < v.lclu then none
  else some a

/-- GET_FRAME (R400): a GET for this module joins the queue of its hub's 256 reply engines, is refused, or is dropped
while quiet; another is forwarded. -/
def execGetFrame (k : ObLink) (h : ObHdr) (desc : List Word) (s : State) : Answer :=
  .next <| s.rxFrame k cGet 2 fun s =>
    let hub := k.port.val / 8
    let d := desc.map (·.toNat)
    if s.mine h.dest then
      if s.on OBL_STATUS.QUIET then (s.oblDrop OBL_DROP2.QUIET, true)
      else
        match s.getBase h d with
        | none => (s.sendNack h stBadDescriptor, true)
        | some _ =>
          let q := getK [] s.obl.getq hub
          if 256 ≤ q.length then (s, false)
          else ({ s with obl := { s.obl with getq := setK [] s.obl.getq hub (q ++ [(h, d, b2n k.vc)]) } }, true)
    else if h.hops = 0 then (s.oblDrop OBL_DROP2.LOOP, true)
    else (s.sendPkt (1 + k.port) k.vc (.get { h with hops := h.hops - 1 } d), true)

/-- The header of the reply runs of a GET (R400): the requester's TAG, epoch, destination space and counter. -/
def State.replyHdr (s : State) (h : ObHdr) (v : Move) : ObHdr :=
  { dest := h.src, src := s.ownAddr, job := h.job, tag := h.tag, reply := true, add := false, efmt := 0
    spad := v.dspace != 2, addr := 0, lcntEn := v.lcntEn, lcnt := v.lcnt, lclu := v.lclu
    hops := s.rd OBL_CTRL.HOPS_INIT, repoch := h.repoch }

/-- The address of a reply's destination: LOCAL is the requesting mover's cluster. -/
def replyBase (h : ObHdr) (v : Move) : Nat :=
  if v.dspace = 0 then (h.tag / 2) * 2 ^ 22 + bits v.daddr 0 22 else v.daddr

/-- Read lines of HBM one after another, and no further than one that is poisoned (R500). -/
def State.readLines (s : State) : List Nat → LineRead
  | [] => ⟨s, [], false⟩
  | k :: ks =>
    let l := s.engineRead k oblStream (s.partOf oblStream)
    if l.poison then ⟨l.st, [], true⟩
    else
      let q := l.st.readLines ks
      ⟨q.st, l.data ++ q.data, q.poison⟩

/-- The packets of a reply's run, from an address of HBM to its destination, are read and queued one after another: each is a
unit, and the first that meets an uncorrectable line is not sent, nor any after it (R186, R396, R500). -/
def State.replyRun (s : State) (hdr : ObHdr) : Nat → Nat → Nat → Nat → State × Bool
  | 0, _, _, _ => (s, true)
  | f + 1, a, d, n =>
    if n = 0 then (s, true)
    else
      let k := min n (256 - d % 256)
      let x := s.readLines (keysOf a k)
      if x.poison then (x.st, false)
      else (x.st.sendPkt 0 false (.put { hdr with addr := d } ((x.data.drop (a % 64)).take k))).replyRun hdr f (a + k) (d + k)
        (n - k)

/-- The keys of the lines that a GET reads. -/
def getKeys (v : Move) (base : Nat) : List Nat :=
  (List.range v.runs).foldl (fun l r =>
    l ++ keysOf (wrap ((base : Int) + v.runOff false r (some 0)) 40) v.runBytes) []

/-- REPLY_ENGINE_START (R400): an engine of a hub takes the oldest GET, reads its range and returns it as reply runs; a
read that meets an uncorrectable error stops the reply with a NACK (R402). -/
def execReplyEngineStart (n : Fin 2) (s : State) : Answer :=
  .next <|
    match getK [] s.obl.getq n with
    | [] => s
    | (h, d, _) :: rest =>
      let v := getMove d
      let done (s : State) : State := { s with obl := { s.obl with getq := setK [] s.obl.getq n rest } }
      match s.getBase h d with
      | none => done (s.sendNack h stBadDescriptor)
      | some base =>
        if v.total = 0 then done s
        else
          let p := s.prepare (getKeys v base) false
          if ¬ p.2 then p.1
          else
            let r := (List.range v.runs).foldl (fun (q : State × Bool) i =>
              if q.2 then q.1.replyRun (q.1.replyHdr h v) (v.runBytes / 256 + 2) (wrap ((base : Int) + v.runOff false i (some 0)) 40)
                (wrap ((replyBase h v : Int) + v.runOff true i (some 0)) 40) v.runBytes else q) (p.1, true)
            done (if r.2 then r.1 else r.1.sendNack h stEcc)

/-! ## Acknowledgements (R399, R402) -/

/-- The mover that an ACK or a NACK is for: its move writes to the module that answers, or gets from it. -/
def State.ackTo (s : State) (a : ObAck) : Option (Nat × Nat) :=
  let c := a.tag / 2
  let m := a.tag % 2
  match (s.mover c m).cur with
  | some v =>
    let peer (x : Side2) : Bool := match x with | .peer mod _ _ => mod == a.src | _ => false
    if v.begun && (peer (s.side c v true) || (v.op == 4 && peer (s.side c v false))) then some (c, m) else none
  | none => none

/-- Bytes that an answer covers, taken from the runs on the link, the oldest first. -/
def covers : List Nat → Nat → List Nat
  | [], _ => []
  | x :: r, n => if n < x then (x - n) :: r else covers r (n - x)

/-- An acknowledgement for this module: its bytes have landed. A NACK's status ends the move: the rest of its run is dropped,
and what of the put has not been sent is withdrawn (R399, R402). Of a GET a NACK tells only the status: replies are not
acknowledged (R400). -/
def State.ackMine (s : State) (a : ObAck) (nack : Bool) : State :=
  match s.ackTo a with
  | none => s
  | some (c, m) =>
    match (s.mover c m).cur with
    | none => s
    | some v =>
      if v.op = 4 then (if nack then (s.moveErr c m a.status).progress c else s)
      else
        let s := (s.setMove c m fun v => { v with
          landed := v.landed + a.bytes, since := s.us
          flight := if nack then (covers v.flight a.bytes).drop 1 else covers v.flight a.bytes }).progress c
        let s := s.bump (if m = 0 then MOV_BYTES0.BYTES else MOV_BYTES1.BYTES) a.bytes c
        if nack then (s.moveErr c m a.status).withdraw c m else s

/-- ACK (R399). -/
def execAck (k : ObLink) (a : ObAck) (s : State) : Answer :=
  .next <| s.rxFrame k cRsp 1 fun s =>
    if s.mine a.dest then (s.ackMine a false, true) else (s.sendPkt (1 + k.port) k.vc (.ack a), true)

/-- NACK (R402). -/
def execNack (k : ObLink) (a : ObAck) (s : State) : Answer :=
  .next <| s.rxFrame k cRsp 1 fun s =>
    if s.mine a.dest then (s.ackMine a true, true) else (s.sendPkt (1 + k.port) k.vc (.nack a), true)

/-- Whether the quiet period has lasted OBL_CTRL.QUIET_MS, values above 60,000 acting as 60,000 (R410, R412). -/
def State.quietOver (s : State) : Bool := decide (s.obl.quietAt + 1000 * s.rdMax OBL_CTRL.QUIET_MS 60000 ≤ s.us)

/-- QUIET_END (R410). -/
def execQuietEnd (s : State) : Answer := .next <| if s.quietOver then s.wr OBL_STATUS.QUIET 0 else s

end Sys2Proof.Machine
end

