-- ==== Sys2Proof/Machine/Abandon.lean ====
section
/-! DEFINITION. Machine/Abandon.lean: tests that a reset or a pass abandons (R446, R452). -/

namespace Sys2Proof.Machine

/-- Whether the commanded test of a kind and target runs (R452). -/
def State.testing (s : State) (kind target : Nat) : Bool :=
  s.on BIST_CMD.BUSY && s.rd BIST_CMD.KIND == kind && s.rd BIST_CMD.TARGET == target

/-- A commanded test of a target is abandoned (R446, R452). -/
def State.abandonTest (s : State) (kind target : Nat) : State :=
  if s.testing kind target then (s.wr BIST_CMD.BUSY 0).wr BIST_RESULT.ABANDONED 1 else s

/-- Every test of a cluster is abandoned; its calderas hold +0. -/
def State.abandonCluTests (s : State) (c : Nat) : State :=
  if (s.clu c).bist then
    let s := s.abandonTest 0 c
    let s := { s with rst := { s.rst with rot := s.rst.rot.filter fun p => p.1 != c } }
    (s.restCells c).setClu c fun x => { x with bist := false }
  else s

end Sys2Proof.Machine
end

