-- ==== Sys2Proof/Machine/Steps.lean ====
section
/-! DEFINITION. Machine/Steps.lean: the steps of a cluster's step list (R128, R135, R157 to R160), passes and grants
(R150 to R153), the beat-stall watchdog and the counter-wait timeout (R166, R191). -/

namespace Sys2Proof.Machine

/-! ## Where a cluster stands -/

/-- The step word a running cluster stands at, when its opcode is `op`. -/
def State.stepAt (s : State) (c op : Nat) : Option Nat :=
  if s.running c then
    match s.curStep c with
    | some w => if StepW.opc w = op then some w else none
    | none => none
  else none

/-- The slot that owns a cluster. -/
def State.slotOf (s : State) (c : Nat) : Nat := match (s.clu c).owner with | some k => k | none => 0

/-- The grant of the slot that owns a cluster. -/
def State.grantOf (s : State) (c : Nat) : Nat := s.rd DLN_GRANT.G (s.slotOf c)

/-- Whether a mover of a cluster is idle as END_PASS and SYNC ask (R128): it runs no move of a step or a migration
entry, and none that is ready waits for it. -/
def State.moverIdle (s : State) (c m : Nat) : Bool :=
  (match (s.mover c m).cur with
    | none => true
    | some v => (match v.src with | .host _ _ => true | _ => false))
    && (s.nextMig c m).isNone && (s.stepMove c m).isNone

/-! ## Waits (R128, R187, R191) -/

/-- The target of a WAIT in pass n (R128, R187). -/
def waitTarget (w n : Nat) : Nat := (StepW.target w + n * StepW.perpass w) % 2 ^ 48

/-- A wait that is not satisfied is shown in LND_WAITING and starts the timeout of R191. -/
def State.holdWait (s : State) (c n t : Nat) : State :=
  let now := s.timer c
  let s := s.setClu c fun x => { x with waitFrom := match x.waitFrom with | some w => some w | none => some now }
  ((s.wr LND_WAITING.CNT n c).wr LND_WAITING.ACTIVE 1 c).wr LND_WAITING.TARGET t c

/-- LND_WAITING names the counter and target of the WAIT or WAITDL the cluster stands at (DEDUCED, log entry 69). -/
def State.showWait (s : State) (c n t : Nat) : State := (s.wr LND_WAITING.CNT n c).wr LND_WAITING.TARGET t c

/-- A wait is satisfied and the cluster goes on at the next step. -/
def State.endWait (s : State) (c next : Nat) : State := (s.wr LND_WAITING.ACTIVE 0 c).stepDone c next

/-- WAIT (R128): goes on once the counter has reached TARGET + n × PERPASS; with both 0 at once (R187). -/
def execWait (c : Fin 512) (s : State) : Answer :=
  .next <| match s.stepAt c 1 with
  | none => s
  | some w =>
    let t := waitTarget w (s.clu c).pass
    if StepW.target w = 0 ∧ StepW.perpass w = 0 then s.endWait c ((s.clu c).pc + 1)
    else if reached (s.cnt c (StepW.cnt w)) t then (s.showWait c (StepW.cnt w) t).endWait c ((s.clu c).pc + 1)
    else s.holdWait c (StepW.cnt w) t

/-- Whether a counter of a cluster is advanced from outside its plan (R119). -/
def State.lndExt (s : State) (c n : Nat) : Bool :=
  match (s.clu c).act with | some g => bit g.lndExt n | none => false

/-- COUNTER_WAIT_TIMEOUT (R191): a WAIT on a counter with its LND_EXT bit set has run out, from the later of its start and
the counter's last advance; the cluster faults with PEER_TIMEOUT. -/
def execCounterWaitTimeout (c : Fin 512) (s : State) : Answer :=
  .next <| match s.stepAt c 1, (s.clu c).waitFrom with
  | some w, some from_ =>
    let n := StepW.cnt w
    let t := waitTarget w (s.clu c).pass
    let start := max from_ (getK 0 (s.clu c).cntAdv n)
    let us := s.rdMax LND_TIMEOUT.US 60000000 c
    if ¬ s.lndExt c n ∨ (StepW.target w = 0 ∧ StepW.perpass w = 0) ∨ reached (s.cnt c n) t
        ∨ s.timer c < start + us * 1000 then s
    else
      let s := ((s.wr LND_TIMEOUT_LAST.CNT n c).wr LND_TIMEOUT_LAST.VALID 1 c).wr LND_TIMEOUT_LAST.TARGET t c
      let s := (s.wr LND_TIMEOUT_COUNT.COUNT (s.cnt c n) c).raise LND_INT_STATUS.TIMEOUT c
      s.faultClu c stPeerTimeout FaultAt.none
  | _, _ => s

/-! ## Deadlines and the fumarole path (R132 to R135, R159, R160) -/

/-- A migration entry as a WAITDL sees it: its record, its landing target in pass n (R497), its deadline in nanoseconds
after the pass start, and its FUMAROLE record. -/
structure DlEntry where
  mig : Nat
  target : Nat
  ns : Nat
  fum : Nat
  deriving DecidableEq, Repr

/-- Bytes that the entries of a list land on a counter. -/
def landBytes (es : List (Nat × Nat)) (cnt : Nat) : Nat :=
  es.foldl (fun (n : Nat) (e : Nat × Nat) => if migCnt e.2 = cnt then n + migLen e.2 else n) 0

/-- The landing target of a cluster's entry `e` with a counter in pass `n` (R497). -/
def State.landTarget (s : State) (c e cnt n : Nat) : Nat :=
  let es := s.migsOf c
  (n * landBytes es cnt + landBytes (es.filter fun x => decide (x.1 ≤ e)) cnt) % 2 ^ 48

/-- The entry that a WAITDL names. -/
def State.dlEntry (s : State) (c w : Nat) : Option DlEntry :=
  match s.planOf c with
  | none => none
  | some p =>
    (p.mig[StepW.entry w]?).map fun r =>
      ⟨r, s.landTarget c (StepW.entry w) (migCnt r) (s.clu c).pass, bits (p.deadlines.getD (migDeadline r) 0) 0 32,
        p.fum.getD (migFum r) 0⟩

/-- How late a wait is: nanoseconds past the deadline (R160). -/
def State.lateness (s : State) (c : Nat) (d : DlEntry) : Nat := s.timer c - ((s.clu c).passStart + d.ns)

/-- WAITDL (R135, R159): goes on once the entry's counter has reached its landing target; a wait that was late records
its lateness. -/
def execWaitdl (c : Fin 512) (s : State) : Answer :=
  .next <| match s.stepAt c 6 with
  | none => s
  | some w =>
    match s.dlEntry c w with
    | none => s
    | some d =>
      if reached (s.cnt c (migCnt d.mig)) d.target then
        let k := s.slotOf c
        let s := if (s.clu c).late then
            s.wr DLN_LATE_MAX.NS (max (s.rd DLN_LATE_MAX.NS k) (min (s.lateness c d) (2 ^ 32 - 1))) k
          else s
        (s.showWait c (migCnt d.mig) d.target).endWait c ((s.clu c).pc + 1)
      else s.holdWait c (migCnt d.mig) d.target

/-- DLN_MISS_LAST records a miss (R160). -/
def State.recordMiss (s : State) (c e kind : Nat) : State :=
  let k := s.slotOf c
  let s := ((s.wr DLN_MISS_LAST.ENTRY e k).wr DLN_MISS_LAST.CLUSTER c k).wr DLN_MISS_LAST.KIND kind k
  (s.wr DLN_MISS_LAST.VALID 1 k).wr DLN_MISS_LAST.PASS (s.clu c).pass k

/-- DEADLINE_EXPIRY (R159, R160): the deadline of the entry a WAITDL waits on has passed and its counter is short: with
KIND WAIT the wait is late, else the cluster goes on at ALT_STEP. -/
def execDeadlineExpiry (c : Fin 512) (s : State) : Answer :=
  .next <| match s.stepAt c 6 with
  | none => s
  | some w =>
    match s.dlEntry c w with
    | none => s
    | some d =>
      let k := s.slotOf c
      if reached (s.cnt c (migCnt d.mig)) d.target ∨ s.timer c < (s.clu c).passStart + d.ns then s
      else if FumW.kind d.fum = 3 then
        if (s.clu c).late then s
        else
          let s := (s.holdWait c (migCnt d.mig) d.target).setClu c fun x => { x with late := true }
          ((s.bump DLN_LATE.COUNT 1 k).recordMiss c (StepW.entry w) 3).raise DLN_INT_STATUS.LATE k
      else
        let s := (s.bump DLN_FALLBACK.COUNT 1 k).recordMiss c (StepW.entry w) (FumW.kind d.fum)
        (s.raise DLN_INT_STATUS.FALLBACK k).endWait c (FumW.altStep d.fum)

/-! ## RUN and the release tree (R157, R158) -/

/-- RUN (R128): once the previous RUN has completed, the start is requested of the release tree. -/
def execRun (c : Fin 512) (s : State) : Answer :=
  .next <| match s.stepAt c 2 with
  | none => s
  | some w =>
    if (s.clu c).run.isSome then s
    else
      let now := s.beatOf (dieOf c)
      s.setClu c fun x => { x with run := some ⟨StepW.fset w, StepW.seqOff w, false, now, [], now, x.place⟩ }

/-- The clusters of a die whose RUN start waits, with the beat it was requested at, in cluster order. -/
def State.waitingRuns (s : State) (d : Nat) : List (Nat × Nat) :=
  s.clus.filterMap fun e =>
    match e.2.run with
    | some r => if dieOf e.1 = d ∧ ¬ r.admitted ∧ s.running e.1 then some (e.1, r.asked) else none
    | none => none

/-- The start requested first; in one beat the lowest cluster (R158). -/
def firstAsked : List (Nat × Nat) → Option (Nat × Nat)
  | [] => none
  | e :: es =>
    match firstAsked es with
    | none => some e
    | some f => if f.2 < e.2 then some f else some e

/-- Starts a die has admitted within the last 48 beats. -/
def State.recentAdmits (s : State) (d : Nat) : List Nat :=
  (getK [] s.beats.admits d).filter fun b => decide (s.beatOf d < b + 48)

/-- Every ACTIVE cell starts at SEQ + SEQ_OFF (R121, R128). -/
def State.startCells (s : State) (c seqOff : Nat) (g : CluCfg) : State :=
  (List.range g.rows).foldl (fun s row =>
    (List.range g.cols).foldl (fun s col =>
      let w := g.cells.getD (row * 32 + col) 1
      s.setCell c row col fun x =>
        if CellW.forward w then { Cell.rest with set0 := x.set0, set1 := x.set1 }
        else { x with aq := [], bq := [], phase := .atOp, op := CellW.seq w + seqOff, patch := 0, k := 0, opened := false,
                      pre := [], cubes := 0 }) s) s

/-- RUN_ADMIT (R158): the release tree of a die admits the next RUN start, if fewer than DLN_ADMIT.GROUP lie within the last 48 beats;
the cells start and the RUN step completes. -/
def execRunAdmit (d : Fin 4) (s : State) : Answer :=
  .next <| match firstAsked (s.waitingRuns d) with
  | none => s
  | some (c, asked) =>
    let recent := s.recentAdmits d
    match (s.clu c).act, (s.clu c).run with
    | some g, some r =>
      if s.rd DLN_ADMIT.GROUP d ≤ recent.length then s
      else
        let now := s.beatOf d
        let wait := now - asked
        let s := { s with beats := { s.beats with admits := insK s.beats.admits d (now :: recent) } }
        let s := if wait = 0 then s
          else (s.bump DLN_ADMIT.DELAYED 1 d).wr DLN_ADMIT.MAX_WAIT (max (s.rd DLN_ADMIT.MAX_WAIT d) (min wait 65535)) d
        let s := s.setClu c fun x => { x with run := some { r with admitted := true, start := now } }
        (s.startCells c r.seqOff g).stepDone c ((s.clu c).pc + 1)
    | _, _ => s

/-- Whether a RUN has completed: every ACTIVE cell has reached END, and every output has landed (R128). -/
def State.runOver (s : State) (c : Nat) (g : CluCfg) : Bool :=
  ((List.range g.rows).all fun row => (List.range g.cols).all fun col =>
      CellW.forward (g.cells.getD (row * 32 + col) 1) || (s.cell c row col).phase == .ended)
    && (s.clu c).portq.isEmpty
    && s.cells.all fun e => !ofClu c e.1 || (e.2.own.isEmpty && e.2.north.isEmpty && e.2.set0.out == 0 && e.2.set1.out == 0)

/-- RUN_COMPLETE (R128): the cells come to rest; their calderas hold what they held (R111). -/
def execRunComplete (c : Fin 512) (s : State) : Answer :=
  .next <| match s.runCfg c with
  | none => s
  | some (g, _) => if s.runOver c g then
      ({ s with cells := abandonAll c s.cells } : State).setClu c fun x => { x with run := none }
    else s

/-! ## VEC, MOVE, SYNC, JUMP (R128) -/

/-- VEC: once the previous VEC has completed, the vector program starts at instruction PC. -/
def execVec (c : Fin 512) (s : State) : Answer :=
  .next <| match s.stepAt c 3 with
  | none => s
  | some w =>
    if (s.clu c).vact then s
    else (s.setClu c fun x => { x with vact := true, vplace := x.place, vpc := StepW.vpc w }).stepDone c ((s.clu c).pc + 1)

/-- MOVE: once the mover is free, the template issues on it. -/
def execMove (c : Fin 512) (s : State) : Answer :=
  .next <| match s.stepAt c 4 with
  | none => s
  | some w => s.dispatch c (StepW.mover w)

/-- Whether the units that a SYNC names are idle. -/
def State.syncMet (s : State) (c mask : Nat) : Bool :=
  (!bit mask 0 || (s.clu c).run.isNone) && (!bit mask 1 || !(s.clu c).vact) && (!bit mask 2 || s.moverIdle c 0)
    && (!bit mask 3 || s.moverIdle c 1)

/-- SYNC. -/
def execSync (c : Fin 512) (s : State) : Answer :=
  .next <| match s.stepAt c 5 with
  | none => s
  | some w => if s.syncMet c (StepW.mask w) then s.stepDone c ((s.clu c).pc + 1) else s

/-- JUMP. -/
def execJump (c : Fin 512) (s : State) : Answer :=
  .next <| match s.stepAt c 7 with
  | none => s
  | some w => s.stepDone c (StepW.jump w)

/-! ## Passes (R151 to R153) -/

/-- The state of a cluster that runs pass n under grant g (R152). -/
def passState (n g : Nat) : Nat := if grantLeft g (n + 1) then cRunning else cStopping

/-- Every bank in use is brought to ON, uncounted, before the first beat (R69). -/
def State.usedBanksOn (s : State) (c : Nat) : State :=
  (List.range 48).foldl (fun s b =>
    if bit (s.rd CLU_BANK_INUSE.INUSE c) b then (s.setBankPwr c b 0).setGatePending c b false else s) s

/-- A cluster begins its next pass (R151): the pass start is latched, step 0 is next, and the entries that issue at pass
start are ready. -/
def State.beginPass (s : State) (c : Nat) : State :=
  let now := s.timer c
  let n := (s.clu c).begun
  let s := s.setClu c fun x => { x with
    inPass := true, pass := n, begun := n + 1, pc := 0, passStart := now, waitFrom := none, late := false, migSeen := [],
    migReady := [] }
  let s := (s.usedBanksOn c).wr CLU_STATUS.STATE (passState n (s.grantOf c)) c
  (((s.addReady c 0x7FF).progress c).dispatchBoth c).execUpdate (s.slotOf c)

/-- Whether a cluster may begin a pass: its slot holds a loaded plan that is not halted, a granted pass is left (R151,
R153), and no window access that it has accepted waits (R67). -/
def State.mayPass (s : State) (c : Nat) : Bool :=
  match (s.clu c).owner with
  | none => false
  | some k => s.rd PLN_SLOT_STATUS.STATE k == 2 && s.rd DLN_SLOT_EXEC.EXEC k != 3 && (s.clu c).act.isSome
      && !(s.clu c).bist && grantLeft (s.rd DLN_GRANT.G k) (s.clu c).begun
      && !(s.clu c).bankq.any fun (e : Nat × List BankReq) => e.2.any fun r => r.user == .window

/-- PASS_BEGIN (R72, R151): a STOPPED cluster begins a granted pass; a pending power-off is cancelled. -/
def execPassBegin (c : Fin 512) (s : State) : Answer :=
  .next <| if s.cluSt c = cStopped ∧ s.mayPass c then (s.cancelOff c).beginPass c else s

/-- END_PASS (R128, R151): migration entries whose step was jumped over become ready (DEDUCED, log entry 30); once the
cells, the vector unit and both movers are idle the pass ends, and the next granted pass begins at once. -/
def execEndPass (c : Fin 512) (s : State) : Answer :=
  .next <| match s.stepAt c 0 with
  | none => s
  | some _ =>
    let s := (s.makeReady c fun _ => true).dispatchBoth c
    if ¬ s.syncMet c 15 then s
    else
      let s := ((s.setClu c fun x => { x with done := x.done + 1, inPass := false }).progress c)
      if grantLeft (s.grantOf c) (s.clu c).begun then s.beginPass c
      else (s.wr CLU_STATUS.STATE cStopped c).execUpdate (s.slotOf c)

/-- BEAT_STALL_WATCHDOG (R166): a running cluster has made no progress for the period; waiting on a counter with its
LND_EXT bit set is no stall. -/
def execBeatStallWatchdog (c : Fin 512) (s : State) : Answer :=
  .next <|
    let w := (s.curStep c).getD 0
    let d := dieOf c
    let op := StepW.opc w
    let idle := op == 1 && s.lndExt c (StepW.cnt w)
    let period := s.rdMax DLN_WDOG.PERIOD_US 60000000 d * 1000
    if ¬ s.running c ∨ ¬ s.on DLN_WDOG.EN d ∨ idle ∨ s.timer c < (s.clu c).lastProgress + period then s
    else
      let k := s.slotOf c
      let cnt := if op = 1 then StepW.cnt w
        else match s.dlEntry c w with | some e => if op = 6 then migCnt e.mig else 0 | none => 0
      let s := ((s.wr DLN_STALL.STEP (s.clu c).pc k).wr DLN_STALL.STEP_OPC op k).wr DLN_STALL.CNT cnt k
      let s := (s.wr DLN_STALL.CLUSTER c k).wr DLN_STALL.VALID 1 k
      s.faultClu c stCounterTimeout FaultAt.none

/-! ## Grants (R150) -/

/-- A grant is set: the clusters that run a pass are RUNNING or STOPPING by it (R152), and EXEC follows (R153). -/
def State.setGrant (s : State) (k g : Nat) : State :=
  let s := (s.wr DLN_GRANT.G g k).wr DLN_SLOT_EXEC.CONT (b2n (g == gCont)) k
  let s := (s.owned k).foldl (fun s c =>
    if s.running c ∧ (s.clu c).inPass then s.wr CLU_STATUS.STATE (passState (s.clu c).pass g) c else s) s
  s.execUpdate k

/-- A command that R150 does not accept. -/
def State.execRejects (s : State) (k : Nat) : State := s.wr DLN_SLOT_EXEC.CMD_REJECT 1 k

/-- Whether a slot takes PASS_START: it is LOADED, and IDLE or ACTIVE. -/
def State.execTakes (s : State) (k : Nat) : Bool :=
  s.rd PLN_SLOT_STATUS.STATE k == 2 && decide (s.rd DLN_SLOT_EXEC.EXEC k ≤ 1)

/-- The grant after P more passes: it saturates at 2^48 − 2; a continuous grant stays continuous (DEDUCED, log entry
31). -/
def addPasses (g p : Nat) : Nat := if g = gCont then g else min (g + p) (2 ^ 48 - 2)

/-- The tests of a slot's clusters are abandoned: a pass is to start on them (R452). -/
def State.abandonSlotTests (s : State) (k : Nat) : State := (s.owned k).foldl State.abandonCluTests s

/-- PASS_START with CONT = 0. -/
def State.passStart (s : State) (k p : Nat) : State :=
  if ¬ s.execTakes k then s.execRejects k
  else if p = 0 then s
  else (s.abandonSlotTests k).setGrant k (addPasses (s.rd DLN_GRANT.G k) p)

/-- PASS_START with CONT = 1. -/
def State.passStartCont (s : State) (k : Nat) : State :=
  if s.execTakes k then (s.abandonSlotTests k).setGrant k gCont else s.execRejects k

/-- The grant is lowered to the passes begun by the cluster that has begun the most. -/
def State.stopGrant (s : State) (k : Nat) : State :=
  let b := (s.owned k).foldl (fun m c => max m (s.clu c).begun) 0
  s.setGrant k (min (s.rd DLN_GRANT.G k) b)

/-- PASS_STOP: accepted where EXEC is IDLE or ACTIVE; in IDLE it changes nothing. -/
def State.passStop (s : State) (k : Nat) : State :=
  match s.rd DLN_SLOT_EXEC.EXEC k with
  | 0 => s
  | 1 => s.stopGrant k
  | _ => s.execRejects k

/-- MOLT, on a STANDBY slot whose predecessor is LOADED and IDLE or ACTIVE (R150, R167 order 1). -/
def State.startMolt (s : State) (t p : Nat) (cont : Bool) : State :=
  match (s.slot t).pred with
  | none => s.execRejects t
  | some q =>
    if s.rd PLN_SLOT_STATUS.STATE t = 3 ∧ (s.slot t).molt = none ∧ s.execTakes q then
      let s := if s.rd DLN_SLOT_EXEC.EXEC q = 1 then s.stopGrant q else s
      let s := (s.wr DLN_SLOT_EXEC.EXEC 2 q).wr DLN_SLOT_EXEC.EXEC 2 t
      (s.setSlot q fun x => { x with molt := some t }).setSlot t fun x =>
        { x with molt := some q, firstGrant := if cont then gCont else p }
    else s.execRejects t

/-- A write of DLN_SLOT_CMD: a core's follows its earlier stores (R195). -/
def State.slotStore (s : State) (o : Origin) (slot cmd : Nat) (cont : Bool) (passes : Nat) (f : State → State) : State :=
  s.asRegStore o (DLN_SLOT_CMD.CMD.addr slot 0)
    [(DLN_SLOT_CMD.CMD, cmd), (DLN_SLOT_CMD.CONT, b2n cont), (DLN_SLOT_CMD.PASSES, passes)] f

/-- PASS_START (R150, R195). -/
def execPassStart (o : Origin) (slot : Fin 16) (passes : BitVec 32) (s : State) : Answer :=
  .next <| s.slotStore o slot 1 false passes.toNat fun s => s.passStart slot passes.toNat

/-- PASS_START_CONTINUOUS (R150, R195). -/
def execPassStartContinuous (o : Origin) (slot : Fin 16) (s : State) : Answer :=
  .next <| s.slotStore o slot 1 true 0 fun s => s.passStartCont slot

/-- PASS_STOP (R150). -/
def execPassStop (o : Origin) (slot : Fin 16) (s : State) : Answer :=
  .next <| s.slotStore o slot 2 false 0 fun s => s.passStop slot

/-- MOLT (R150, R167). -/
def execMolt (o : Origin) (slot : Fin 16) (passes : BitVec 32) (cont : Bool) (s : State) : Answer :=
  .next <| s.slotStore o slot 3 cont passes.toNat fun s => s.startMolt slot passes.toNat cont

end Sys2Proof.Machine
end

