-- ==== Sys2Proof/Machine/ClusterReset.lean ====
section
/-! DEFINITION. Machine/ClusterReset.lean: how a reset of any domain begins and ends for the clusters it contains (R73,
R189, R442 to R448), the escalation of cluster resets (R449). -/

namespace Sys2Proof.Machine

/-! ## Domains (R442) -/

/-- Whether the first domain contains the second; domains are (domain, target). -/
def domainHas (x y : Nat × Nat) : Bool :=
  x == y || x.1 == dPackage || (x.1 == dMatrix && y.1 == dCluster && dieOf y.2 == x.2)

/-- The clusters of a domain. -/
def domainClusters (x : Nat × Nat) : List Nat :=
  match x.1 with
  | 0 => [x.2]
  | 1 => (List.range 128).map fun k => 128 * x.2 + k
  | 4 => List.range 512
  | _ => []

/-- Milliseconds since module power-on. -/
def State.ms (s : State) : Nat := s.clock / 100000

/-! ## A cluster under reset -/

/-- A move cut off by a reset of its cluster ends with OUT_OF_SERVICE, and host moves queued for it with it (R447). -/
def State.cutMover (s : State) (c m : Nat) : State :=
  let q := (s.mover c m).hostq
  let s := s.setMover c m fun x => { x with hostq := [] }
  let s := q.foldl (fun s h => s.complete h.ring h.slot stOutOfService 0 0) s
  match (s.mover c m).cur with
  | none => s
  | some v => s.finishMove c m (if v.ended then v else { v with err := some stOutOfService })

/-- The halt that a reset of a cluster causes (R444 order 1): of the slot that owns it, and, where a molt brings in a slot
that holds it, of the slot molted out of (R168). -/
def State.resetHalts (s : State) (c : Nat) : State :=
  match (s.clu c).owner with
  | none => s
  | some k =>
    match (s.slot k).molt with
    | some p => if s.rd PLN_SLOT_STATUS.STATE k = 3 then s.haltSlot p stOK c else s.haltSlot k stOK c
    | none => s.haltSlot k stOK c

/-- A cluster enters RESETTING (R444 orders 1 and 2): its slot halts, its tests are abandoned, its moves are cut off, and
its landing counters are 0 (R189). -/
def State.cluDown (s : State) (c : Nat) : State :=
  let s := (s.resetHalts c).abandonCluTests c
  let s := ((s.stopWork c).setClu c fun x => { x with halting := false })
  let s := (s.cutMover c 0).cutMover c 1
  ((s.wr CLU_STATUS.STATE cResetting c).zeroCounters c)

/-- The CLU_ block of a cluster is reset, but for CLU_FAULT unless the reset is of its die or larger, SPARE_SHORT and
CLU_SPARE.RETIRED (R442). -/
def State.resetCluBlock (s : State) (c : Nat) (big : Bool) : State :=
  let keep := [CLU_STATUS.SPARE_SHORT, CLU_SPARE.RETIRED] ++ if big then [] else [CLU_FAULT.STATUS, CLU_FAULT.CELL_ROW,
    CLU_FAULT.CELL_COL, CLU_FAULT.BANK, CLU_FAULT.BANK_ROW, CLU_FAULT.WORD, CLU_FAULT.SOURCE]
  let vals := keep.map fun f => (f, s.rd f c)
  vals.foldl (fun s p => s.wr p.1 p.2 c) (s.resetBlock .clu c 0x10000)

/-- A cluster leaves RESETTING in STOPPED (R73, R444 order 6): banks ON and zero, calderas +0, its registers reset, its
shadow configuration kept, the adds that waited counted (R189), its plan to be applied again (R143). -/
def State.cluUp (s : State) (c : Nat) (big : Bool) : State :=
  let x := s.clu c
  let s := (((((s.zeroSpad c).restCells c).resetCluBlock c big).resetBlock .cal c 0x1000).resetBlock .mov c
    0x1000).resetBlock .lnd c 0x1000
  let s := s.setClu c fun _ => { Clu.rest with owner := x.owner, shadow := x.shadow }
  let s := x.adds.foldl (fun s a => s.advance c a.1 a.2) (s.wr CLU_STATUS.STATE cStopped c)
  match x.owner with
  | some k => if s.rd PLN_SLOT_STATUS.STATE k = 2 then
      s.setSlot k fun y => { y with reapply := if y.reapply.contains c then y.reapply else y.reapply ++ [c] }
    else s
  | none => s

/-! ## The start of a reset -/

/-- Whether a reset would be absorbed into one in progress (R446). -/
def State.absorbs (s : State) (x : Nat × Nat) : Bool := s.rst.busy.any fun b => domainHas b x

/-- A reset begins for the record and the clusters (R444 orders 1 and 2, R446): resets it contains end in it. -/
def State.beginReset (s : State) (x : Nat × Nat) (source cause : Nat) : State :=
  let s := { s with rst := { s.rst with busy := (s.rst.busy.filter fun b => !domainHas x b) ++ [x] } }
  let s := (((s.wr RAS_RESET.BUSY 1).wr RAS_RESET_LAST.DOMAIN x.1).wr RAS_RESET_LAST.TARGET x.2).wr
    RAS_RESET_LAST.SOURCE source
  let s := ((s.wr RAS_RESET_LAST.CAUSE cause).wr RAS_RESET_LAST.VALID 1).wr RAS_RESET_LAST.TIME_MS s.ms
  (domainClusters x).foldl (fun s c => s.cluDown c) s

/-- The reset of a cluster, where none that contains it runs. -/
def State.resetCluster (s : State) (c source cause : Nat) : State :=
  if s.absorbs (dCluster, c) then s else s.beginReset (dCluster, c) source cause

/-- A reset's record at its end: a RAS event with BLOCK 18 (R439, R444 order 6). -/
def State.resetRecord (s : State) (x : Nat × Nat) : State :=
  let s := { s with rst := { s.rst with busy := s.rst.busy.filter fun b => b != x } }
  let s := s.wr RAS_RESET.BUSY (b2n !s.rst.busy.isEmpty)
  s.rasEvent (s.rd RAS_RESET_LAST.CAUSE) 18 x.2 0 .reset
    (s.recWord [RAS_RESET_LAST.DOMAIN, RAS_RESET_LAST.TARGET, RAS_RESET_LAST.SOURCE, RAS_RESET_LAST.CAUSE,
      RAS_RESET_LAST.VALID, RAS_RESET_LAST.TIME_MS] 0)

/-! ## Resets that the Hawkmoth starts for clusters (R443, R448, R449) -/

/-- Whether a cluster is held (R449). -/
def State.held (s : State) (c : Nat) : Bool := bit (s.rd RAS_CLU_HELD.HELD 0 (c / 64)) (c % 64)

/-- The times within a window of seconds, at most 86,400. -/
def recentTimes (s : State) (window : Nat) (ts : List Nat) : List Nat :=
  ts.filter fun t => decide (s.us ≤ t + min window 86400 * 1000000)

/-- A counted reset of a cluster (R449): the one that brings the count to LIMIT holds the cluster FAULTED in its place
(DEDUCED, log entry 36). -/
def State.countedCluReset (s : State) (c source cause : Nat) : State :=
  if s.absorbs (dCluster, c) ∨ s.held c then s
  else
    let ts := recentTimes s (s.rd RAS_CLU_ESCALATE.WINDOW_S) (getK [] s.rst.cluTimes c) ++ [s.us]
    let s := { s with rst := { s.rst with cluTimes := insK s.rst.cluTimes c ts } }
    if s.rd RAS_CLU_ESCALATE.LIMIT ≤ ts.length then
      let s := s.wr RAS_CLU_HELD.HELD (setBit (s.rd RAS_CLU_HELD.HELD 0 (c / 64)) (c % 64) true) 0 (c / 64)
      (s.wr CLU_STATUS.STATE cFaulted c).raise RAS_INT_STATUS.CLU_HELD
    else s.beginReset (dCluster, c) source cause

/-- A FAULTED cluster that no slot owns, or that waits for a takeover (R142), is reset while AUTO_CLUSTER is 1 (R448). -/
def State.autoReset (s : State) (c : Nat) : State :=
  let free : Bool := match (s.clu c).owner with | none => true | some k => (s.slot k).takeover
  if s.cluSt c = cFaulted ∧ free ∧ s.on RAS_CTRL.AUTO_CLUSTER then
    s.countedCluReset c 3 (s.rd CLU_STATUS.LAST_STATUS c)
  else s

/-! ## Uncorrectable errors of a cluster's memories that no bank holds (R438) -/

/-- A cluster faults for such an error; where no slot owns it, it is reset at once (R448). -/
def State.memoryFault (s : State) (c : Nat) : State :=
  if s.cluSt c = cOff ∨ s.cluSt c = cResetting then s else (s.faultClu c stEcc FaultAt.none).autoReset c

/-- The counter that a move advances at its destination has an uncorrectable error: the cluster it is in faults (R438), once
the unit has landed (DEDUCED, log entry 196). -/
def State.counterEcc (s : State) (cnt : Option (Nat × Nat)) : State :=
  match cnt with
  | some (e, _) => s.memoryFault e
  | none => s

/-- LANDING (R186): one unit of a begun move, in any order (R178); after an error only one that had been read before
(R500). A move of no bytes has none (R197). Every advance checks the counter (R438). -/
def execLanding (c : Fin 512) (m : Fin 2) (unit : Nat) (l : LandIn) (s : State) : Answer :=
  .next <|
    match (s.mover c m).cur with
    | none => s
    | some v =>
      let remoteGet := v.op == 4 && (s.side c v false).remote
      if ¬ v.begun ∨ (v.err.isSome ∧ getK [] v.ahead unit = []) ∨ v.units.any (·.1 == unit) ∨ remoteGet ∨ v.total = 0
          ∨ v.runs * v.perRun (s.side c v true).granule ≤ unit then s
      else
        let t := s.landUnit c m unit l.hostDenies v
        if l.counterBad then t.counterEcc (v.counter (s.side c v true)) else t

end Sys2Proof.Machine
end

