-- ==== Sys2Proof/Machine/D2dLinks.lean ====
section
/-! DEFINITION. Machine/D2dLinks.lean: the die-to-die links' bundles, their role maps and the links' states (R370 to
R375). -/

namespace Sys2Proof.Machine

/-- Key of a bundle of a link in a direction. -/
def bundleKey (link : Nat) (dir : Bool) (b : Nat) : Nat := link * 256 + b2n dir * 128 + b

/-- Bundles and spare bundles of a link in each direction (R370). -/
def linkBundles (link : Nat) : Nat :=
  if link < 8 then 96 else if link = 8 then 32 else if link < 11 then 24 else 2
def linkSpares (link : Nat) : Nat := if link < 8 then 4 else if link < 11 then 2 else 1

/-- Roles: 0 DOWN, 1 REQ, 2 SNP, 3 RSP, 4 DAT, 5 CTL, 6 SPARE (R389). -/
def roleDat : Nat := 4

/-- Bundles of each role, REQ, SNP, RSP, DAT, CTL, by link (R374). -/
def linkRoles (link : Nat) : List Nat :=
  if link < 8 then [12, 0, 8, 72, 4]
  else if link = 8 then [4, 2, 4, 20, 2]
  else if link < 11 then [6, 2, 4, 10, 2]
  else [0, 0, 0, 0, 2]

/-- The role each place of a link has, in the order REQ, SNP, RSP, CTL, DAT, so that what is short is taken from DAT
(R374; the order of the bundles is a DESIGN CHOICE, log entry 43). -/
def roleOrder (link : Nat) : List Nat :=
  let n (r : Nat) : Nat := (linkRoles link).getD (r - 1) 0
  List.replicate (n 1) 1 ++ List.replicate (n 2) 2 ++ List.replicate (n 3) 3 ++ List.replicate (n 5) 5
    ++ List.replicate (n 4) 4

/-- Change what the links hold. -/
def State.setD2d (s : State) (f : D2d → D2d) : State := { s with d2d := f s.d2d }

/-- The role of a bundle. -/
def State.role (s : State) (link : Nat) (dir : Bool) (b : Nat) : Nat := getK 0 s.d2d.role (bundleKey link dir b)

/-- The bundles of a role in a direction. -/
def State.roleCount (s : State) (link : Nat) (dir : Bool) (r : Nat) : Nat :=
  ((List.range (linkBundles link + linkSpares link)).filter fun b => s.role link dir b == r).length

/-- Whether a link is FAILED (R375): a role its kind uses has no bundle, or DAT holds fewer than half its count. -/
def State.linkFailed (s : State) (link : Nat) : Bool :=
  [false, true].any fun dir => [1, 2, 3, 4, 5].any fun r =>
    let want := (linkRoles link).getD (r - 1) 0
    let have_ := s.roleCount link dir r
    want != 0 && (have_ == 0 || (r == roleDat && decide (2 * have_ < want)))

/-- Whether a link has every bundle of its roles. -/
def State.linkWhole (s : State) (link : Nat) : Bool :=
  [false, true].all fun dir => [1, 2, 3, 4, 5].all fun r =>
    s.roleCount link dir r == (linkRoles link).getD (r - 1) 0

/-- Working bundles in a direction. -/
def State.working (s : State) (link : Nat) (dir : Bool) : Nat :=
  ((List.range (linkBundles link + linkSpares link)).filter fun b => s.role link dir b != 0).length

/-- A link's STATE follows its bundles (R375): 2 UP, 3 DEGRADED, 4 FAILED, with their interrupts as it becomes so. -/
def State.linkSettle (s : State) (link : Nat) : State :=
  let st := if s.linkFailed link then 4 else if s.linkWhole link then 2 else 3
  let was := s.rd D2D_LINK_STATUS.STATE link
  let s := (s.wr D2D_LINK_STATUS.UP_AB (s.working link false) link).wr D2D_LINK_STATUS.UP_BA (s.working link true) link
  let s := s.wr D2D_LINK_STATUS.STATE st link
  if st = was then s
  else if st = 3 then s.raise D2D_INT_STATUS.DEGRADED
  else if st = 4 then s.raise D2D_INT_STATUS.FAILED
  else s

/-- What the lane test finds of a bundle, with what the ageing history records (R374): lanes that fail, and whether both
wires of a pair are lost. -/
def State.bundleFound (s : State) (fs : List BundleFinding) (link : Nat) (dir : Bool) (b : Nat) : Nat × Bool :=
  let mine := fs.filter fun f => f.link.val == link && f.dir == dir && f.bundle == b
  (mine.foldl (fun n f => max n f.failingLanes) (getK 0 s.d2d.lanes (bundleKey link dir b)), mine.any (·.pairLost))

/-- The role map of a direction is formed (R374): bundles with more than 4 failing lanes or a lost pair are DOWN, the
others take the roles in order, the rest are spare. -/
def State.formDir (s : State) (fs : List BundleFinding) (link : Nat) (dir : Bool) : State :=
  let total := linkBundles link + linkSpares link
  let r := (List.range total).foldl (fun (p : State × List Nat) b =>
    let x := s.bundleFound fs link dir b
    let k := bundleKey link dir b
    let down := decide (4 < x.1) || x.2
    let role := if down then 0 else p.2.headD 6
    (p.1.setD2d fun d => { d with
      role := setK 0 d.role k role
      repaired := setK 0 d.repaired k (if down then 0 else x.1)
      lanes := setK 0 d.lanes k x.1
      fails := setK 0 d.fails k 0 }, if down then p.2 else p.2.drop 1)) (s, roleOrder link)
  r.1

/-- The role maps of links are formed (R374). -/
def State.formLinks (s : State) (fs : List BundleFinding) (links : List Nat) : State :=
  links.foldl (fun s l => ((s.formDir fs l false).formDir fs l true).linkSettle l) s

/-- The links of a matrix die, of a hub die, and every link (R370). -/
def matrixLinks (d : Nat) : List Nat :=
  [d, d + 4] ++ (if d = 0 ∨ d = 1 then [11] else []) ++ (if d = 0 ∨ d = 2 then [12] else [])
    ++ (if d = 1 ∨ d = 3 then [13] else []) ++ (if d = 2 ∨ d = 3 then [14] else [])
def hubLinks (n : Nat) : List Nat := (List.range 4).map (· + 4 * n) ++ [8, 9 + n]
def allLinks : List Nat := List.range 15

/-- The rate of a link in M transfers/s (R371): 3.0 times the beat rate of its slower end, a matrix die's as measured and
1,100 M beats/s, the nominal rate, of the other dies; 0 while the link is DOWN or in training. -/
def State.linkRate (s : State) (link : Nat) : Nat :=
  let die (d : Nat) : Nat := s.rd DLN_BEAT.RATE d
  let beat := if link < 8 then min 1100 (die (link % 4))
    else match link with
      | 11 => min (die 0) (die 1)
      | 12 => min (die 0) (die 2)
      | 13 => min (die 1) (die 3)
      | 14 => min (die 2) (die 3)
      | _ => 1100
  if s.rd D2D_LINK_STATUS.STATE link ≤ 1 then 0 else 3 * beat

/-- The rates are updated (R389: every microsecond). -/
def State.linkRates (s : State) : State :=
  allLinks.foldl (fun s l => s.wr D2D_LINK_STATUS.RATE (s.linkRate l) l) s

/-! ## Budgets (R377 to R379) -/

/-- The boot budget of a die in 0.25 W (R377): 40 W for a matrix die and CD, 60 W for a hub die. -/
def bootBudget (die : Nat) : Nat := if die = 4 ∨ die = 5 then 240 else 160

/-- The budget a die holds, in 0.25 W. -/
def State.dieBudget (s : State) (die : Nat) : Nat :=
  match s.d2d.held.find? (·.1 = die) with
  | some e => e.2.2.1
  | none => bootBudget die

/-- Whether epoch a is newer than b (R377). -/
def newer (a b : Nat) : Bool :=
  decide (1 ≤ (a + 65536 - b % 65536) % 65536) && decide ((a + 65536 - b % 65536) % 65536 ≤ 2 ^ 15 - 1)

/-- A die acts on the newest epoch it has received (R377). -/
def State.takeBudget (s : State) (die epoch limit slew : Nat) : State :=
  let fresh := match s.d2d.held.find? (·.1 = die) with
    | some e => newer epoch e.2.1
    | none => true
  if fresh then s.setD2d fun d => { d with held := insK d.held die (epoch, limit, slew) } else s

/-- BUDGET (R377). -/
def execBudget (die : Fin 7) (epoch : BitVec 16) (limit : BitVec 16) (slew : BitVec 16) (s : State) :
    Host.Outcome State Fault Refusal :=
  .next (s.takeBudget die epoch.toNat limit.toNat slew.toNat)

/-- What the Hawkmoth last knows a die to have acknowledged, in 0.25 W. -/
def State.ackedBudget (s : State) (die : Nat) : Nat := getK (bootBudget die) s.d2d.acked die

/-- What the Hawkmoth counts a die at (R379): the larger of its newest budget and the last it acknowledged. -/
def State.counts (s : State) (die : Nat) : Nat := max (s.rd D2D_BUDGET.LIMIT 0 die) (s.ackedBudget die)

/-- BUDGET_ACK (R377, R379): an acknowledgement of a budget that was sent; those before it no longer count. The draw it
reports is the die's own estimate (R416). -/
def execBudgetAck (die : Fin 7) (epoch : BitVec 16) (draw : BitVec 16) (s : State) :
    Host.Outcome State Fault Refusal :=
  .next <|
    let q := getK [] s.d2d.sent die
    match q.find? (·.1 = epoch.toNat) with
    | none => s
    | some e =>
      let s := (s.wr D2D_BUDGET.ACK_EPOCH epoch.toNat 0 die).wr D2D_BUDGET.DRAW draw.toNat 0 die
      s.setD2d fun d => { d with
        acked := setK (bootBudget die) d.acked die e.2
        sent := setK [] d.sent die (q.filter fun x => newer x.1 e.1)
        draws := setK [] d.draws die (getK [] d.draws die ++ [draw.toNat]) }

/-- The Hawkmoth sends a die a new budget (R377); its slew limit is a free value (DESIGN CHOICE, log entry 194). -/
def State.sendBudget (s : State) (die limit : Nat) : State :=
  let e := (s.rd D2D_BUDGET.EPOCH 0 die + 1) % 65536
  let s := (s.wr D2D_BUDGET.LIMIT limit 0 die).wr D2D_BUDGET.EPOCH e 0 die
  (s.setD2d fun d => { d with sent := setK [] d.sent die (getK [] d.sent die ++ [(e, limit)]) }).send
    (.budget die e limit (Sys2Proof.Config.budgetSlew die e))

/-- A die leaves a reset with its boot budget, and no budget in flight to it counts (R377). -/
def State.bootBudgets (s : State) (dies : List Nat) : State :=
  dies.foldl (fun s die => s.setD2d fun d =>
    { d with held := eraseK d.held die, acked := eraseK d.acked die, sent := eraseK d.sent die, draws := eraseK d.draws die }) s

end Sys2Proof.Machine
end

