-- ==== Sys2Proof/Machine/RegAccess.lean ====
section
/-! DEFINITION. Machine/RegAccess.lean: which register an address names (R486, R487), how its fields read and how a
write sets them by their access codes (R11 to R13). -/

namespace Sys2Proof.Machine

/-! ## Which register -/

/-- Every block. -/
def allBlks : List Blk :=
  [.clu, .cal, .plnSlot, .plnGlobal, .dlnDie, .dlnSlot, .mov, .lnd, .tier, .sc, .dir, .hbmGlobal, .hbmHub, .geyCmd,
    .geyTest, .host, .ring, .ringGlobal, .d2dLink, .d2dGlobal, .coc, .oblGlobal, .oblPort, .oblRoute, .chn, .pwr, .age,
    .ras, .bist, .sec, .hub, .csr]

/-- The instance and offset of an address in a block, if it lies in the span of one. -/
def Blk.at (b : Blk) (a : Nat) : Option (Nat × Nat) :=
  if a < b.base then none
  else
    let i := (a - b.base) / b.stride
    let off := (a - b.base) % b.stride
    if i < b.count ∧ off < b.span then some (i, off) else none

/-- The block, instance and offset of an address of register space, or of a CSR (R486). -/
def regAt (a : Nat) : Option (Blk × Nat × Nat) :=
  allBlks.findSome? fun b => (b.at a).map fun p => (b, p.1, p.2)

/-- The fields of a block's chapter. -/
def Blk.fields (b : Blk) : List Fld :=
  (match b with
    | .clu => fields02_0 ++ fields02_1
    | .cal => fields03_0
    | .plnSlot | .plnGlobal => fields04_0
    | .dlnDie | .dlnSlot => fields05_0 ++ fields05_1
    | .mov | .lnd => fields06_0 ++ fields06_1
    | .tier => fields07_0 ++ fields07_1
    | .csr => fields08_0
    | .dir => fields09_0 ++ fields09_1
    | .sc | .hbmGlobal | .hbmHub | .geyCmd | .geyTest => fields10_0 ++ fields10_1 ++ fields10_2
    | .host | .ring | .ringGlobal => fields11_0 ++ fields11_1
    | .d2dLink | .d2dGlobal | .coc => fields12_0 ++ fields12_1
    | .oblGlobal | .oblPort | .oblRoute | .chn => fields13_0 ++ fields13_1
    | .pwr | .age => fields14_0 ++ fields14_1
    | .ras | .bist => fields15_0 ++ fields15_1 ++ fields15_2
    | .sec => fields16_0
    | .hub => fields17_0).filter fun f => f.blk == b

/-- The index at which an array of registers stands at an offset. -/
def Fld.idxAt (f : Fld) (off : Nat) : Option Nat :=
  if f.off ≤ off ∧ off < f.off + f.num * f.step ∧ (off - f.off) % f.step = 0 then some ((off - f.off) / f.step) else none

/-- One place of a register: a field, its array index and its packed position. -/
structure Spot where
  f : Fld
  j : Nat
  r : Nat
  deriving DecidableEq, Repr

/-- Its lowest bit in the register. -/
def Spot.lo (p : Spot) : Nat := p.f.lo + p.r * p.f.pitch

/-- The places of the register at an 8-byte-aligned offset of a block. -/
def Blk.spots (b : Blk) (off : Nat) : List Spot :=
  b.fields.flatMap fun f =>
    match f.idxAt off with
    | some j => (List.range f.reps).map fun r => ⟨f, j, r⟩
    | none => []

/-! ## Fields that show what the part holds elsewhere -/

/-- Quadword n of a RAS record (R439). -/
def RasRec.quad (r : RasRec) (n : Nat) : Nat :=
  match n with
  | 0 => r.status + r.block * 2 ^ 8 + b2n r.uncorr * 2 ^ 16 + b2n r.logged * 2 ^ 17 + r.unit * 2 ^ 32
  | 1 => r.time
  | 2 => r.loc
  | _ => r.detail

/-- The selected bundle of a link (R389). -/
def State.mapBundle (s : State) (i : Nat) : Nat := bundleKey i (s.on D2D_MAP_SEL.DIR i) (s.rd D2D_MAP_SEL.BUNDLE i)

/-- The unit that AGE_SEL selects. -/
def State.ageSel (s : State) : AgeUnit := s.ageUnit (s.rd AGE_SEL.UNIT)

/-- The value a field shows where it is not one the registers hold. -/
def State.shows (s : State) (f : Fld) (i j : Nat) : Option Nat :=
  match f.blk, f.off with
  | .clu, 0x008 => if f.lo = 17 then some (b2n (s.rd CLU_GATE_PENDING.PENDING i != 0)) else none
  | .ras, 0x080 => some (match s.ras.queue with | r :: _ => r.quad j | [] => 0)
  | .ras, 0x0A8 => if f.lo = 0 then some s.ras.queue.length else none
  | .ras, 0x018 =>
    if f.lo = 40 then some (min 255 (recentTimes s (s.rd RAS_ESCALATE.WINDOW_S) s.rst.modTimes).length) else none
  | .age, 0x010 =>
    some (match f.lo with
      | 0 => s.ageSel.mons.getD (s.rd AGE_SEL.MON) 0
      | 16 => s.ageSel.margin
      | 32 => s.ageSel.trim
      | 36 => s.ageSel.state
      | _ => s.ageSel.hours)
  | .d2dLink, 0x010 =>
    some (if f.lo = 0 then getK 0 s.d2d.role (s.mapBundle i) else getK 0 s.d2d.repaired (s.mapBundle i))
  | .hbmGlobal, 0x190 => some (getK 0 s.mem.pmap (s.rd HBM_PMAP_SEL.INDEX))
  | .host, 0x040 => some (getK 0 s.host.vfSlots (s.rd HOST_VF_SEL.VF))
  | .oblGlobal, 0x388 => some (getK 0 s.obl.jobFunc (s.rd OBL_JOB_FUNC_SEL.FUNC))
  | _, _ => none

/-- A field's current value as a read returns it (R12): 0 where it is write-only. -/
def State.see (s : State) (p : Spot) (i : Nat) : Nat :=
  if p.f.acc = .wo then 0 else ((s.shows p.f i p.j).getD (s.rd p.f i p.j p.r)) % 2 ^ p.f.width

/-! ## Accesses -/

/-- The bits of a register that an access touches, and for a write what it writes there: both as 64-bit words. -/
structure RegWr where
  mask : Nat
  val : Nat
  deriving DecidableEq, Repr

/-- An access of a size at an address, with the value a write carries. -/
def RegWr.of (addr size val : Nat) : RegWr :=
  let sh := 8 * (addr % 8)
  ⟨(2 ^ (8 * size) - 1) * 2 ^ sh, val % 2 ^ (8 * size) * 2 ^ sh⟩

/-- Whether an access touches a field. -/
def RegWr.touches (w : RegWr) (f : Fld) (r : Nat := 0) : Bool := bits w.mask (f.lo + r * f.pitch) f.width != 0

/-- What a write puts into a field: its bits where it writes, else 0. -/
def RegWr.put (w : RegWr) (f : Fld) (r : Nat := 0) : Nat :=
  bits w.val (f.lo + r * f.pitch) f.width &&& bits w.mask (f.lo + r * f.pitch) f.width

/-- A field's value after a write: bits the write does not reach keep theirs. -/
def RegWr.merge (w : RegWr) (f : Fld) (old : Nat) (r : Nat := 0) : Nat :=
  (old ^^^ (old &&& bits w.mask (f.lo + r * f.pitch) f.width)) ||| w.put f r

/-- A field's value after a write. -/
def State.after (s : State) (w : RegWr) (f : Fld) (i : Nat := 0) (j : Nat := 0) (r : Nat := 0) : Nat :=
  w.merge f (s.rd f i j r) r

/-- Set one field by its access code (R12). -/
def State.setSpot (s : State) (i : Nat) (w : RegWr) (p : Spot) : State :=
  if ¬ w.touches p.f p.r then s
  else
    let old := s.rd p.f i p.j p.r
    match p.f.acc with
    | .rw => s.wr p.f (w.merge p.f old p.r) i p.j p.r
    | .w1c => s.wr p.f (old ^^^ (old &&& w.put p.f p.r)) i p.j p.r
    | .w1s => s.wr p.f (old ||| w.put p.f p.r) i p.j p.r
    | .ro | .wo | .rc => s

/-- A write of a register that only sets its fields; an interrupt it enables or clears follows (R78). -/
def State.setReg (s : State) (b : Blk) (i off : Nat) (w : RegWr) : State :=
  ((b.spots off).foldl (fun s p => s.setSpot i w p) s).followSources s b i

/-- A write whose rejection leaves the register unchanged and sets its REJECT field. -/
def State.setRegIf (s : State) (b : Blk) (i off : Nat) (w : RegWr) (reject : Fld) (status : Nat) (j : Nat := 0) : State :=
  if status = stOK then (s.setReg b i off w).wr reject stOK i j else s.wr reject status i j

/-- ZERO_WINDOW where a write would leave one of some fields 0. -/
def State.zeroOf (s : State) (w : RegWr) (fs : List Fld) (i : Nat) : Nat :=
  if fs.any fun f => s.after w f i == 0 then stZeroWindow else stOK

/-- A read-to-clear field that a read touches returns to its reset value. -/
def State.clearSpot (s : State) (i : Nat) (w : RegWr) (p : Spot) : State :=
  if p.f.acc = .rc ∧ w.touches p.f p.r then s.wr p.f (p.f.reset i p.j p.r) i p.j p.r else s

/-- The word a register shows. -/
def State.regWord (s : State) (b : Blk) (i off : Nat) : Nat :=
  (b.spots off).foldl (fun v p => v + s.see p i * 2 ^ p.lo) 0

/-- The bytes an access reads of a word. -/
def RegWr.bytesOf (addr size word : Nat) : List Byte := leBytes size (word / 2 ^ (8 * (addr % 8)))

end Sys2Proof.Machine
end

