-- ==== Sys2Proof/Machine/RingWork.lean ====
section
/-! DEFINITION. Machine/RingWork.lean: the work rings' commands (R351 to R360): doorbells, fetching, the classes of
descriptors, enabling and draining. -/

namespace Sys2Proof.Machine

def rDisabled : Nat := 0
def rEnabled : Nat := 1
def rDraining : Nat := 2
def rError : Nat := 3

/-- A ring's state. -/
def State.ringSt (s : State) (r : Nat) : Nat := s.rd RING_STATUS.STATE r

/-- The ring that a VF sees as its local index j, 0 to 63, of two that name the same index the lower (R345, R351; DEDUCED, log
entry 191). -/
def State.vfRing (s : State) (v j : Nat) : Option Nat :=
  if 64 ≤ j then none
  else (List.range 1024).find? fun r => s.rd RING_CFG.FUNC r == v + 1 && s.rd RING_CFG.VF_INDEX r == j

/-- Whether a requester may ring a ring's doorbell (R345, R347, R351): the PF and the part's own software any ring's, a VF
only that of a ring it sees; a function in D3hot none (R340). -/
def State.ringsFor (s : State) (o : Origin) (r : Nat) : Bool :=
  match o with
  | .pf => !s.inD3 0
  | .core _ _ | .hawkmoth => true
  | .vf v => s.funcHere (v + 1) && !s.inD3 (v + 1) && s.rd RING_CFG.FUNC r == v.val + 1
      && s.vfRing v (s.rd RING_CFG.VF_INDEX r) == some r
  | _ => false

/-- A doorbell access from an origin: the Cocoon die's is refused (R384); a ring that is not ENABLED ignores it
(DEDUCED, log entry 40). -/
def State.onDoorbell (s : State) (o : Origin) (r off : Nat) (f : State → State) : State :=
  match o with
  | .cocoon => s.cocRefuse (0xF00E000000 + r * 0x1000 + off)
  | _ => if s.ringsFor o r ∧ s.ringSt r = rEnabled then f s else s

/-- A TAIL is written (R352). -/
def State.dbSq (s : State) (r tail : Nat) : State :=
  if tail = s.rd RING_HEAD.HEAD r then s
  else if s.rd RING_SIZE.ENTRIES r ≤ tail then s.ringError r stBadDescriptor (s.rd RING_HEAD.HEAD r)
  else s.wr RING_HEAD.TAIL tail r

/-- A HEAD of the completion ring is written (R352). -/
def State.dbCq (s : State) (r head : Nat) : State :=
  if s.rd RING_SIZE.ENTRIES r ≤ head then s.ringError r stBadDescriptor (s.rd RING_HEAD.HEAD r)
  else s.wr RING_CQ.HEAD head r

/-- RING_DB_SQ (R352). -/
def execRingDbSq (o : Origin) (ring : Fin 1024) (tail : BitVec 16) (s : State) : Answer :=
  .next <| s.onDoorbell o ring 0 fun s => s.dbSq ring tail.toNat

/-- RING_DB_CQ (R352). -/
def execRingDbCq (o : Origin) (ring : Fin 1024) (head : BitVec 16) (s : State) : Answer :=
  .next <| s.onDoorbell o ring 8 fun s => s.dbCq ring head.toNat

/-! ## Beginning descriptors (R356) -/

/-- Header fields of a descriptor (R354). -/
def RingDesc.q (d : RingDesc) (i : Nat) : Nat := quad d.bytes i
def RingDesc.cls (d : RingDesc) : Nat := bits (d.q 0) 0 4
def RingDesc.fence (d : RingDesc) : Bool := bit (d.q 0) 4
def RingDesc.plen (d : RingDesc) : Nat := bits (d.q 0) 8 8
def RingDesc.payload (d : RingDesc) : List Byte := (d.bytes.drop 64).take d.plen

/-- Whether the bits of Q0 that R354 does not list are 0. -/
def RingDesc.headGood (d : RingDesc) : Bool := !bit (d.q 0) 7 && bits (d.q 0) 16 48 == 0

/-- The bits of Q2, Q3 and Q4 that a class has arguments in (R355). -/
def argMasks : Nat → Nat × Nat × Nat
  | 1 => (0x7, 2 ^ 64 - 1, 0x3FFFF)
  | 2 => (0x3FF, 0, 0)
  | 3 => (0xFF, 2 ^ 32 - 1, 0)
  | 5 => (0x1FFFF, 2 ^ 32 - 1, 0)
  | _ => (0, 0, 0)

/-- Whether the argument bits that R355 gives a class no meaning for are 0 (R354; DEDUCED, log entry 68). -/
def RingDesc.argsGood (d : RingDesc) : Bool :=
  let m := argMasks d.cls
  (d.q 2 &&& m.1) == d.q 2 && (d.q 3 &&& m.2.1) == d.q 3 && (d.q 4 &&& m.2.2) == d.q 4
    && d.q 5 == 0 && d.q 6 == 0 && d.q 7 == 0

/-- The descriptor of a ring whose turn it is to begin: the first that has not begun; FENCE waits for every earlier
one (R354, R356). -/
def State.ringNext (s : State) (r : Nat) : Option RingDesc :=
  match (s.ring r).inflight.find? fun d => !d.begun with
  | none => none
  | some d =>
    if d.fence && ((s.ring r).inflight.head?.map (·.slot) != some d.slot) then none else some d

/-- A descriptor is marked begun. -/
def State.beginDesc (s : State) (r slot : Nat) : State :=
  s.setRing r fun x => { x with inflight := x.inflight.map fun d => if d.slot = slot then { d with begun := true } else d }

/-- A descriptor begins and completes at once. -/
def State.finishDesc (s : State) (r slot status : Nat) (q2 : Nat := 0) : State :=
  (s.beginDesc r slot).complete r slot status q2 0

/-- Descriptors of reserved classes complete with BAD_DESCRIPTOR as their turn comes (R355). -/
def State.ringReserved (s : State) (r : Nat) : Nat → State
  | 0 => s
  | n + 1 =>
    match s.ringNext r with
    | some d => if 6 ≤ d.cls then (s.finishDesc r d.slot stBadDescriptor).ringReserved r n else s
    | none => s

/-- What follows a change of a ring: reserved classes whose turn has come. -/
def State.ringGo (s : State) (r : Nat) : State := s.ringReserved r (s.ring r).inflight.length

/-- A descriptor of a class begins when it is its turn: one that breaks a rule common to all classes completes with
BAD_DESCRIPTOR and one to a block out of service with OUT_OF_SERVICE (R355, R450). -/
def State.onDesc (s : State) (r slot cls : Nat) (plenGood : Nat → Bool) (f : State → RingDesc → State) : State :=
  match s.ringNext r with
  | some d =>
    if d.slot = slot ∧ d.cls = cls then
      (if s.on RAS_SERVICE.OUT then s.finishDesc r slot stOutOfService
      else if ¬ d.headGood ∨ ¬ d.argsGood ∨ ¬ plenGood d.plen then s.finishDesc r slot stBadDescriptor
      else f s d).ringGo r
    else s
  | none => s

/-! ## Fetching (R352, R359) -/

/-- Whether the completion ring has room for one more descriptor (R352). -/
def State.ringRoom (s : State) (r : Nat) : Bool :=
  let n := s.rd RING_SIZE.ENTRIES r
  let unread := (s.rd RING_CQ.TAIL r + n - s.rd RING_CQ.HEAD r) % n
  decide ((s.ring r).inflight.length + unread < n - 1)

/-- A fetched descriptor is taken in. -/
def State.fetched (s : State) (r : Nat) (bytes : List Byte) : State :=
  let h := s.rd RING_HEAD.HEAD r
  let s := s.setRing r fun x => { x with inflight := x.inflight ++ [⟨h, bytes, false⟩] }
  let s := s.wr RING_HEAD.HEAD (if h + 1 = s.rd RING_SIZE.ENTRIES r then 0 else h + 1) r
  (s.wr RING_STATUS.INFLIGHT (s.ring r).inflight.length r).ringGo r

/-- The head descriptor is fetched. -/
def State.fetchDesc (s : State) (r : Nat) (a : HostAnswer) : State :=
  let h := s.rd RING_HEAD.HEAD r
  let addr := s.rd RING_SQ_BASE.BASE r * 4096 + 256 * h
  if s.on RING_CFG.SPACE r then
    if s.hbmEnd < addr + 256 then s.ringError r stBadDescriptor h
    else
      let p := s.prepare (keysOf addr 256) false
      if ¬ p.2 ∨ ¬ s.creditFor (keysOf addr 256) (s.ringPart r) then p.1
      else
        let x := p.1.rangeRead addr 256 96 (s.ringPart r)
        if x.poison then x.st.ringError r stEcc h else x.st.fetched r x.data
  else if ¬ s.hostUp then s
  else
    let f := s.rd RING_CFG.FUNC r
    match a with
    | .refused => (s.hostRefuses f (s.ringPasid r) addr).ringError r stHostLost h
    | .poisoned => (s.bump HOST_BYTES_IN.BYTES 256).ringError r stEcc h
    | .data =>
      let x := s.hostRead f (s.ringPasid r) addr 256
      x.1.fetched r x.2

/-- DESCRIPTOR_FETCH (R352, R359). A fetch that the host refuses ends as one that fails with HOST_LOST (DEDUCED, log
entry 41). -/
def execDescriptorFetch (ring : Fin 1024) (a : HostAnswer) (s : State) : Answer :=
  .next <|
    if s.ringSt ring = rEnabled ∧ s.rd RING_HEAD.HEAD ring ≠ s.rd RING_HEAD.TAIL ring ∧ s.ringRoom ring then
      s.fetchDesc ring a
    else s

/-! ## The classes (R355) -/

/-- NOP. -/
def execNop (ring : Fin 1024) (slot : Fin 65536) (s : State) : Answer :=
  .next <| s.onDesc ring slot 0 (· == 0) fun s d => s.finishDesc ring d.slot stOK

/-- The slots that a function may command: the PF every one, a VF those of its mask (R347). -/
def State.mayCommand (s : State) (func k : Nat) : Bool := func == 0 || bit (getK 0 s.host.vfSlots func) k

/-- Whether a function may name a cluster's scratchpad (R347). -/
def State.mayCluster (s : State) (func c : Nat) : Bool :=
  func == 0 || (match (s.clu c).owner with | some k => s.mayCommand func k | none => false)

/-- The function of a ring. -/
def State.ringFunc (s : State) (r : Nat) : Nat := s.rd RING_CFG.FUNC r

/-- Whether an INLINE may be carried out (R175, R347, R355): CLUSTER within a scratchpad, or PHYS within the HBM present
and clear of the protected metadata. -/
def State.inlineGood (s : State) (r : Nat) (d : RingDesc) : Bool :=
  let a := d.q 3
  let none := d.plen == 0
  match bits (d.q 2) 0 3 with
  | 1 => (none || addrBitsGood 1 a && decide (bits a 0 22 + d.plen ≤ 0x300000))
      && s.mayCluster (s.ringFunc r) (bits a 22 9)
  | 2 => (none || decide (a + d.plen ≤ s.hbmEnd) && !(s.meetsMeta a d.plen)) && s.ringFunc r == 0
  | _ => false

/-- The counter of an INLINE (R176): a CLUSTER destination's own cluster's, or LCLU's. -/
def RingDesc.counter (d : RingDesc) : Option (Nat × Nat) :=
  if bit (d.q 4) 0 then
    some (if bits (d.q 2) 0 3 = 1 then bits (d.q 3) 22 9 else bits (d.q 4) 9 9, bits (d.q 4) 1 8)
  else none

/-- The units of bytes from an address on: cut at 64-byte boundaries (R186). -/
def unitsOf (a : Nat) (bytes : List Byte) : Nat → List (Nat × List Byte)
  | 0 => []
  | n + 1 =>
    if bytes.isEmpty then []
    else
      let k := 64 - a % 64
      (a, bytes.take k) :: unitsOf (a + k) (bytes.drop k) n

/-- The payload of an INLINE that need not wait lands and is counted, in a scratchpad unit by unit; false where a unit
could not land. -/
def State.landInline (s : State) (r : Nat) (d : RingDesc) : State × Bool :=
  if bits (d.q 2) 0 3 = 1 then
    (unitsOf (d.q 3) d.payload 4).foldl (fun (p : State × Bool) u =>
      let w := p.1.landSpad (bits u.1 22 9) (bits u.1 0 22) u.2
      match w.2 with
      | .ok => (w.1.counted d.counter u.2.length, p.2)
      | _ => (w.1, false)) (s, true)
  else ((s.rangeWrite 96 (s.ringPart r) (d.q 3) d.payload).counted d.counter d.plen, true)

/-- Whether an INLINE must wait: its cluster or its counter's is in RESETTING or in a test (R189), or its HBM lines are
not free or its partition has no credit. -/
def State.inlineReady (s : State) (r : Nat) (d : RingDesc) : State × Bool :=
  if s.countWaits d.counter then (s, false)
  else if bits (d.q 2) 0 3 = 1 then
    (s, !(s.cluSt (bits (d.q 3) 22 9) == cResetting || (s.clu (bits (d.q 3) 22 9)).bist))
  else
    let ks := if d.plen = 0 then [] else keysOf (d.q 3) d.plen
    let p := s.prepare ks true
    (p.1, p.2 && s.creditFor ks (s.ringPart r))

/-- INLINE: the payload lands and is counted (R176, R186). -/
def execInline (ring : Fin 1024) (slot : Fin 65536) (s : State) : Answer :=
  .next <| s.onDesc ring slot 1 (fun n => decide (n ≤ 192)) fun s d =>
    if ¬ s.inlineGood ring d then s.finishDesc ring d.slot stBadDescriptor
    else if d.plen = 0 then s.finishDesc ring d.slot stOK
    else
      let p := s.inlineReady ring d
      if ¬ p.2 then p.1
      else
        let w := p.1.landInline ring d
        w.1.finishDesc ring d.slot (if w.2 then stOK else stEcc)

/-- Whether a function may have a move carried out (R347): a VF names HOST, OBJECT and CLUSTER spaces only, CLUSTER for
clusters of slots it may command. -/
def State.mayMove (s : State) (func : Nat) (desc : List Nat) : Bool :=
  let v := Move.fresh desc (.host 0 0) func none 0
  let ok (space a : Nat) : Bool :=
    match space with
    | 1 => s.mayCluster func (bits a 22 9)
    | 3 | 5 => true
    | _ => false
  func == 0 || (ok v.sspace v.saddr && ok v.dspace v.daddr)

/-- MOVE: the tensor descriptor is queued for the mover (R182). -/
def execMoveClass (ring : Fin 1024) (slot : Fin 65536) (s : State) : Answer :=
  .next <| s.onDesc ring slot 2 (· == 64) fun s d =>
    let c := bits (d.q 2) 0 9
    let m := bits (d.q 2) 9 1
    let desc := (List.range 8).map fun i => quad d.payload i
    let f := s.ringFunc ring
    if ¬ s.mayMove f desc then s.finishDesc ring d.slot stBadDescriptor
    else
      let s := s.beginDesc ring d.slot
      (s.setMover c m fun x => { x with hostq := x.hostq ++ [⟨desc, f, ring, d.slot⟩] }).dispatch c m

/-- Whether an execution command is accepted (R150): 1 PASS_START, 2 PASS_STOP, 3 MOLT; the other codes command
nothing. -/
def State.execAccepts (s : State) (k cmd : Nat) : Bool :=
  match cmd with
  | 1 => s.execTakes k
  | 2 => decide (s.rd DLN_SLOT_EXEC.EXEC k ≤ 1)
  | 3 =>
    match (s.slot k).pred with
    | none => false
    | some q => s.rd PLN_SLOT_STATUS.STATE k == 3 && (s.slot k).molt.isNone && s.execTakes q
  | _ => true

/-- An execution command (R150). -/
def State.execCommand (s : State) (k cmd p : Nat) (cont : Bool) : State :=
  match cmd with
  | 1 => if cont then s.passStartCont k else s.passStart k p
  | 2 => s.passStop k
  | 3 => s.startMolt k p cont
  | _ => s

/-- EXEC: acts as DLN_SLOT_CMD; a refused command sets CMD_REJECT and completes with BAD_DESCRIPTOR. -/
def execExec (ring : Fin 1024) (slot : Fin 65536) (s : State) : Answer :=
  .next <| s.onDesc ring slot 3 (· == 0) fun s d =>
    let k := bits (d.q 2) 0 4
    let cmd := bits (d.q 2) 4 3
    if ¬ s.mayCommand (s.ringFunc ring) k then s.finishDesc ring d.slot stBadDescriptor (s.rd DLN_GRANT.G k)
    else
      let ok := s.execAccepts k cmd
      let s := s.execCommand k cmd (bits (d.q 3) 0 32) (bit (d.q 2) 7)
      s.finishDesc ring d.slot (if ok then stOK else stBadDescriptor) (s.rd DLN_GRANT.G k)

/-- TIER: the payload is a tier command record (R218). -/
def execTier (ring : Fin 1024) (slot : Fin 65536) (s : State) : Answer :=
  .next <| s.onDesc ring slot 4 (· == 32) fun s d =>
    let q (i : Nat) : Nat := quad d.payload i
    (s.beginDesc ring d.slot).tierAsk (TierCmd.ofWords (q 0) (q 1) (q 2) (q 3)) (s.ringFunc ring) (.ring ring d.slot)

/-- LAND: acts as LND_ADD (R190); a VF's is refused (R347; DEDUCED, log entry 42). -/
def execLand (ring : Fin 1024) (slot : Fin 65536) (s : State) : Answer :=
  .next <| s.onDesc ring slot 5 (· == 0) fun s d =>
    if s.ringFunc ring ≠ 0 then s.finishDesc ring d.slot stBadDescriptor
    else (s.lndAdd (bits (d.q 2) 0 9) (bits (d.q 2) 9 8) (bits (d.q 3) 0 32)).finishDesc ring d.slot stOK

/-! ## Enabling and draining (R351, R360) -/

/-- Whether a number is a power of two of R351's sizes. -/
def ringSizeGood (n : Nat) : Bool := decide (2 ≤ n) && decide (n ≤ 65536) && (n &&& (n - 1)) == 0

/-- EN is written 1 (R351). -/
def State.enableRing (s : State) (r : Nat) : State :=
  let n := s.rd RING_SIZE.ENTRIES r
  let bad := s.ringSt r != rDisabled || (n != 0 && !ringSizeGood n) || decide (65536 < s.rd RING_SLOTS.USED + n)
    || (s.on RING_CFG.SPACE r && s.ringFunc r != 0)
  if bad then s.wr RING_CFG.REJECT stBadDescriptor r
  else if n = 0 then s.wr RING_CFG.REJECT stZeroWindow r
  else
    let s := ((s.wr RING_CFG.REJECT stOK r).wr RING_CFG.EN 1 r).wr RING_STATUS.STATE rEnabled r
    let s := (s.wr RING_STATUS.ERR stOK r).wr RING_STATUS.ERR_INDEX 0 r
    (s.wr RING_SLOTS.USED (s.rd RING_SLOTS.USED + n)).wr RING_CQ.PHASE 1 r

/-- EN is written 0 (R360): what has not begun is discarded with a SKIPPED record. -/
def State.drainRing (s : State) (r : Nat) : State :=
  let s := (s.wr RING_CFG.REJECT stOK r).wr RING_CFG.EN 0 r
  if s.ringSt r = rEnabled ∨ s.ringSt r = rError then
    let s := s.wr RING_STATUS.STATE rDraining r
    let skip := ((s.ring r).inflight.filter fun d => !d.begun).map (·.slot)
    (skip.foldl (fun s k => (s.beginDesc r k).complete r k stOK 0 0 true) s).ringSettle r
  else s

/-- A ring's own registers: the PF, the part's software, and the VF that owns the ring (R345, R347). -/
def State.onRing (s : State) (o : Origin) (r addr : Nat) (f : State → State) : State :=
  match o with
  | .cocoon => s.cocRefuse addr
  | _ => if s.ringsFor o r then f s else s

/-- RING_ENABLE (R351). -/
def execRingEnable (o : Origin) (ring : Fin 1024) (s : State) : Answer :=
  .next <| s.onRing o ring (RING_CFG.EN.addr ring 0) fun s => s.enableRing ring

/-- RING_DRAIN (R360). -/
def execRingDrain (o : Origin) (ring : Fin 1024) (s : State) : Answer :=
  .next <| s.onRing o ring (RING_CFG.EN.addr ring 0) fun s => s.drainRing ring

/-- Whether a ring's message is due and HOLDOFF_US have passed since the first completion it covers (R358). -/
def State.holdoffOver (s : State) (r : Nat) : Bool :=
  match (s.ring r).due with
  | some t => decide (t + s.rdMax RING_IRQ.HOLDOFF_US 1000 r ≤ s.us)
  | none => false

/-- MSIX_HOLDOFF_EXPIRY (R358): one message covers every completion due by then. -/
def execMsixHoldoffExpiry (ring : Fin 1024) (s : State) : Answer :=
  .next <|
    if s.holdoffOver ring then (s.setRing ring fun x => { x with due := none }).ringMsix ring else s

/-- HOST_EVT_REARM (R358): the message of a source that is still asserted and mirrored is sent again. -/
def State.rearm (s : State) (src : Nat) : State :=
  if 1 ≤ src ∧ src ≤ 548 ∧ bit (s.rd HOST_EVT_EN.EN 0 (src / 64)) (src % 64) ∧ s.source src then
    s.msix 0 (1023 + src)
  else s

/-- HOST_EVT_REARM (R358). -/
def execHostEvtRearm (o : Origin) (source : Fin 549) (s : State) : Answer :=
  .next <| s.asReg o (HOST_EVT_REARM.REARM.addr 0 (source / 64)) fun s => s.rearm source

end Sys2Proof.Machine
end

