-- ==== Sys2Proof/Machine/HostPort.lean ====
section
/-! DEFINITION. Machine/HostPort.lean: the host link and what its loss does (R340, R341, R361 to R365), configuration
space (R344, R345), translation (R349) and MCTP over the link (R340). -/

namespace Sys2Proof.Machine

/-! ## Configuration space -/

/-- Configuration space and the CXL component registers return to their defaults, and with them the DOE mailbox, the translations
and the messages that are pending (R341, R363). -/
def State.configDefaults (s : State) : State :=
  { s with host := { s.host with cfg := [], comp := [], atc := [], doeIn := [], doeOut := [], doeBad := false }
           irq := { s.irq with msix := [] } }

/-- The configuration space of one function returns to its defaults, and its translations and pending messages are dropped
(R365). -/
def State.funcDefaults (s : State) (f : Nat) : State :=
  { s with host := { s.host with
      cfg := dropRange s.host.cfg (f * 1024) ((f + 1) * 1024)
      atc := s.host.atc.filter fun e => e.func != f }
           irq := { s.irq with msix := s.irq.msix.filter fun e => e.1 != f } }

/-! ## The end of a function's ring work and host traffic (R363, R365) -/

/-- Whether a side of a move is host memory. -/
def Side2.isHost : Side2 → Bool
  | .host _ => true
  | _ => false

/-- A ring number that no ring has: the ring of a descriptor whose ring has been reset. -/
def noRing : Nat := 1024

/-- The moves of functions lose their rings: their completion records are written no more. -/
def Mover.forget (x : Mover) (p : Nat → Bool) : Mover :=
  { cur := x.cur.map fun v => match v.src with
      | .host _ k => if p v.func then { v with src := .host noRing k } else v
      | _ => v
    hostq := x.hostq.map fun h => if p h.func then { h with ring := noRing } else h }

/-- The tier commands of functions' rings lose their rings. -/
def TierReply.forget (f : Nat → Nat) (p : Nat → Bool) : TierReply → TierReply
  | .ring r k => .ring (if p (f r) then noRing else r) k
  | x => x

/-- The host moves in flight of functions end with HOST_LOST (R183, R363, R365). -/
def State.cutHostMoves (s : State) (p : Nat → Bool) : State :=
  (s.clus.map (·.1)).foldl (fun s c => [0, 1].foldl (fun s m =>
    match (s.mover c m).cur with
    | some v =>
      if v.begun && !v.ended && p v.func && ((s.side c v false).isHost || (s.side c v true).isHost) then
        s.moveErr c m stHostLost
      else s
    | none => s) s) s

/-- The tier copies of functions end with HOST_LOST (R236, R363, R365); one that has landed and is being checked is no copy any
more. -/
def State.cutCopies (s : State) (p : Nat → Bool) : State :=
  (s.tier.objs.filter fun (e : Nat × Obj) => e.2.state == 3 || e.2.state == 5).foldl (fun s (e : Nat × Obj) =>
    if ¬ p (s.copyFunc e.1) ∨ e.2.sums.any (·.1 == 0x07) then s
    else if e.2.state = 3 then s.evictFails e.1 stHostLost
    else s.fetchFails e.1 stHostLost) s

/-- The rings of functions are reset and their begun work forgets them (R363 order 2). -/
def State.cutRings (s : State) (p : Nat → Bool) : State :=
  let f (r : Nat) : Nat := s.rd RING_CFG.FUNC r
  let rep (x : TierReply) : TierReply := x.forget f p
  let s := (s.clus.map (·.1)).foldl (fun s c => s.setClu c fun x =>
    { x with mov0 := x.mov0.forget p, mov1 := x.mov1.forget p }) s
  let s := s.setTier fun t => { t with
    objs := t.objs.map fun (e : Nat × Obj) => (e.1, { e.2 with
      sums := e.2.sums.map fun x => (x.1, rep x.2)
      waits := e.2.waits.map fun w => { w with reply := rep w.reply } })
    waiting := t.waiting.map fun w => (w.1, w.2.1, rep w.2.2) }
  (List.range 1024).foldl (fun s r =>
    if p (s.rd RING_CFG.FUNC r) then s.ringReset r else s) s

/-- Functions are reset (R365): their host moves, copies and rings end. -/
def State.funcReset (s : State) (p : Nat → Bool) : State := ((s.cutHostMoves p).cutCopies p).cutRings p

/-- FUNCTION_LEVEL_RESET (R365). -/
def execFunctionLevelReset (f : Fin 65) (s : State) : Answer :=
  .next <| if ¬ s.hostUp ∨ s.funcHere f = false then s else (s.funcReset fun g => g == f.val).funcDefaults f

/-! ## Configuration requests and ATS -/

/-- A dword of configuration space is written: the DOE mailbox, or the dword as it takes the value; a message mask that clears lets
the pending messages go, and virtual functions that are no longer enabled are gone, as by their reset (PCIe; DEDUCED, log entry
188). -/
def State.configWrite (s : State) (f reg v : Nat) : State :=
  let t := s.setCfg f reg (s.cfgWritten f reg v)
  match reg, f with
  | 0x8A, 0 | 0x8C, 0 | 0x8D, 0 => t.doeWrite reg v
  | 0x2C, _ => t.msixUnmask f
  | 0x62, 0 =>
    if bit (s.cfgAt 0 0x62) 0 && !bit (t.cfgAt 0 0x62) 0 then
      (List.range 64).foldl (fun t g => t.funcDefaults (g + 1)) (t.funcReset fun g => g != 0)
    else t
  | _, _ => t

/-- CONFIG_REQUEST (R341, R344): answered whenever the link is up, a VF's only while it is enabled. -/
def execConfigRequest (f : Fin 65) (reg : Fin 1024) (data : Option (BitVec 32)) (s : State) : Answer :=
  .next <|
    if ¬ s.hostUp then s
    else if s.funcHere f = false then
      { s with resp := ⟨if data.isSome then [] else List.replicate 4 0xFF, true, false⟩ }
    else
      match data with
      | none => { s with resp := ⟨leBytes 4 (s.configRead f reg), false, false⟩ }
      | some v => { s with resp := ⟨[], false, false⟩ }.configWrite f reg v.toNat

/-- ATS_INVALIDATION (R349): the entries that hold a page of the range are dropped; the requests of the model complete as they are
made, so none that used one is outstanding. -/
def execAtsInvalidation (f : Fin 65) (pasid : BitVec 20) (page : PageRange) (s : State) : Answer :=
  .next <|
    if ¬ s.hostUp then s
    else
      let gone (e : AtcEnt) : Bool := e.func == f.val && e.pasid == pasid.toNat
        && decide (e.page < page.first + 2 ^ page.order.val) && decide (page.first < e.page + 2 ^ e.order)
      ({ s with host := { s.host with atc := s.host.atc.filter fun e => !gone e } }).bump HOST_ATS.INVALS 1

/-! ## The loss of the host (R363, R364) -/

/-- The host is lost, with a cause of HOST_RESET.CAUSE; a host that is lost already is not lost again. -/
def State.hostLoss (s : State) (cause : Nat) : State :=
  if s.on HOST_RESET.STATE then s
  else
    let s := (s.wr HOST_RESET.STATE 1).wr HOST_RESET.CAUSE cause
    let s := ((s.bump HOST_RESET.COUNT 1).wr HOST_LINK.UP 0).raise HOST_INT_STATUS.LOST
    let s := s.dropHost
    let s := (((s.wr DIR_ERR.STATUS stHostLost).wr DIR_ERR.AGENT hostAgent).wr DIR_ERR.VALID 1).raise DIR_INT_STATUS.ERR
    let all (_ : Nat) : Bool := true
    let s := (s.cutHostMoves all).cutCopies all
    let s := (List.range 16).foldl State.passStop s
    (s.cutRings all).configDefaults

/-- PERST_ASSERT (R363). -/
def execPerstAssert (s : State) : Answer :=
  .next <| ({ s with host := { s.host with perst := true } }).hostLoss 1

/-- PERST_DEASSERT (R341, R363): the link starts to train, with configuration space at its defaults; HOST_LINK_UP is its
reaching L0. -/
def execPerstDeassert (s : State) : Answer :=
  .next <| if s.host.perst then ({ s with host := { s.host with perst := false } }).configDefaults else s

/-- HOT_RESET (R363): received over the link. -/
def execHotReset (s : State) : Answer := .next <| if s.hostUp then s.hostLoss 2 else s

/-- Whether a link that was up has gone down without a loss of the host, as in a reset of HD0 (R341). -/
def State.linkFell (s : State) : Bool :=
  !s.on HOST_RESET.STATE && !s.on HOST_LINK.UP && s.rd HOST_LINK.SPEED != 0

/-- Whether a link that fell has been down for longer than HOST_DOWN_TMO.MS (R362). -/
def State.downLong (s : State) : Bool :=
  s.linkFell && decide (s.host.downAt + 1000 * s.rdMax HOST_DOWN_TMO.MS 10000 < s.us)

/-- HOST_DOWN_TIMEOUT (R362, R363): a link that was up has been down for longer than HOST_DOWN_TMO.MS. Of a link that is up
the row stands for the whole of the failure (log entry 28). -/
def execHostDownTimeout (s : State) : Answer := .next <| if s.hostUp ∨ s.downLong then s.hostLoss 3 else s

/-- LINK_RETRAIN (R361, R362): counted, its errors reported, and nothing is lost. -/
def execLinkRetrain (errors : BitVec 16) (s : State) : Answer :=
  .next <|
    if s.hostUp then
      (((s.bump HOST_LINK_CNT.RETRAINS 1).bump HOST_LINK_CNT.ERRORS errors.toNat).linkErrors errors.toNat).raise
        HOST_INT_STATUS.RETRAIN
    else s

/-- Whether a link can train to these values (R28, R340): x16 with both connectors present, x8 with A alone. -/
def linkGood (l : LinkIn) : Bool :=
  decide (1 ≤ l.speed.val) && decide (l.speed.val ≤ 6) && l.cableA && l.width.val == (if l.cableB then 16 else 8)
    && (l.flit || l.speed.val != 6)

/-- L0p (R340): on the host's request the link that is up uses fewer of its lanes, down to x4, or more of them again. -/
def State.linkL0p (s : State) (w : Nat) : State :=
  if (w = 4 ∨ w = 8 ∨ w = 16) ∧ w ≤ s.host.trained then s.wr HOST_LINK.WIDTH w else s

/-- HOST_LINK_UP (R341, R363): the link reaches L0, which it does not while a reset holds HD0. Of a link that is up the row
stands for L0p (DESIGN CHOICE, log entry 162). -/
def execHostLinkUp (l : LinkIn) (s : State) : Answer :=
  .next <|
    if s.hostUp then s.linkL0p l.width
    else
      let s := { s with host := { s.host with cableA := l.cableA, cableB := l.cableB } }
      let held := s.rst.busy.contains (dHub, 0) || s.rst.busy.contains (dPackage, 0)
      if ¬ s.board.powered ∨ s.host.perst ∨ held ∨ ¬ linkGood l then s
      else
        let s := { s with host := { s.host with trained := l.width } }
        let s := ((s.wr HOST_LINK.SPEED l.speed).wr HOST_LINK.WIDTH l.width).wr HOST_LINK.FLIT (b2n l.flit)
        ((s.wr HOST_LINK.UP 1).wr HOST_RESET.STATE 0).raise HOST_INT_STATUS.LINK_UP

end Sys2Proof.Machine
end

