-- ==== Sys2Proof/Machine/Service.lean ====
section
/-! DEFINITION. Machine/Service.lean: OUT_OF_SERVICE (R450). -/

namespace Sys2Proof.Machine

/-- The module enters OUT_OF_SERVICE with the status of its cause (R450): every slot halts, every OBL port is DISABLED,
and RAS_SERVICE.OUT keeps slots from taking commands and completes ring descriptors with OUT_OF_SERVICE. -/
def State.outOfService (s : State) (cause : Nat) : State :=
  if s.on RAS_SERVICE.OUT then s
  else
    let s := (s.wr RAS_SERVICE.OUT 1).wr RAS_SERVICE.CAUSE cause
    let s := (List.range 16).foldl (fun s k => s.haltSlot k stOutOfService ((s.owned k).headD 0)) s
    s.portsSettle.raise RAS_INT_STATUS.OUT_OF_SERVICE

end Sys2Proof.Machine
end

