-- ==== Sys2Proof/Machine/Power.lean ====
section
/-! DEFINITION. Machine/Power.lean: measurement, the cap and its budgets, supply and hold duty, droops, heat (R415 to
R429). -/

namespace Sys2Proof.Machine

/-- Change the power control's own state. -/
def State.setPwr (s : State) (f : Pwr → Pwr) : State := { s with pwr := f s.pwr }

/-- Sum of a list. -/
def sumOf (l : List Nat) : Nat := l.foldl (· + ·) 0

/-- Mean of a list, 0 of none. -/
def meanOf (l : List Nat) : Nat := sumOf l / max 1 l.length

/-! ## The cap register (R421) -/

/-- PWR_CAP is written (R421). -/
def State.writeCap (s : State) (watts windowS : Nat) : State :=
  if watts < 1500 ∨ 4200 < watts then s.wr PWR_CAP.REJECT stBadDescriptor
  else if windowS = 0 then s.wr PWR_CAP.REJECT stZeroWindow
  else ((s.wr PWR_CAP.WATTS watts).wr PWR_CAP.WINDOW_S windowS).wr PWR_CAP.REJECT stOK

/-- PWR_CAP_WRITE (R421). -/
def execPwrCapWrite (o : Origin) (watts : BitVec 13) (windowS : BitVec 5) (s : State) : Answer :=
  .next <| s.asReg o (PWR_CAP.WATTS.addr 0 0) fun s => s.writeCap watts.toNat windowS.toNat

/-- The averaging window in seconds. -/
def State.windowS (s : State) : Nat := s.rdMax PWR_CAP.WINDOW_S 30

/-! ## Measurement (R415, R417) -/

/-- PMBUS_POLL (R26, R415): the input stage's and the regulators' readings of one millisecond; the site's reading is its die's draw (R386). -/
def execPmbusPoll (r : PmbusIn) (s : State) : Answer :=
  .next <|
    let s := s.setPwr fun p => { p with samples := (r.pin :: p.samples).take 30000, polls := p.polls ++ [r] }
    let s := s.setBoard fun b => { b with stage := ⟨r.vin, r.iin, r.pin, r.stageTemp⟩ }
    let s := ((s.wr PWR_INPUT.VIN r.vin).wr PWR_INPUT.IIN r.iin).wr PWR_INPUT.PIN r.pin
    let s := s.wr PWR_INPUT.AVG (meanOf (s.pwr.samples.take (1000 * s.windowS)))
    s.cocDraw r.cocoon

/-- The draw of a class in a reading, in W (R418). -/
def classDraw (r : PmbusIn) : Nat → Nat
  | 0 => r.links
  | 1 => r.memory
  | 2 => r.cores
  | 3 => r.fabric
  | _ => r.cocoon / 4

/-- The overhead in W (R415): input power less the sum of the rails', each in quarter watts. -/
def overhead (polls : List PmbusIn) : Nat :=
  let rails (r : PmbusIn) : Nat := 4 * (r.links + r.memory + r.cores + r.fabric) + r.cocoon
  (sumOf (polls.map fun r => 4 * r.pin) - sumOf (polls.map rails)) / (4 * max 1 polls.length)

/-! ## Estimates and readings (R416) -/

/-- A die's estimate over the interval that ends, in 0.25 W: the sum of the draws it reported, and how many; the last it
reported where the interval saw none (DESIGN CHOICE, log entry 192). -/
def State.estimate (s : State) (die : Nat) : Nat × Nat :=
  match getK [] s.d2d.draws die with
  | [] => (s.rd D2D_BUDGET.DRAW 0 die, 1)
  | l => (sumOf l, l.length)

/-- The ratio of a die's rail reading to its estimate, each the mean of the interval that ends; no change where the rail
was not read or the estimate is 0. -/
def State.rescale (s : State) (die : Nat) : State :=
  let e := s.estimate die
  if s.pwr.polls = [] ∨ e.1 = 0 then s
  else s.setPwr fun p => { p with
    scale := setK (1, 1) p.scale die (4 * sumOf (p.polls.map fun r => r.perDie.getD die 0) * e.2, e.1 * p.polls.length) }

/-- The Hawkmoth scales every die's estimate (R416). -/
def State.rescaled (s : State) : State :=
  ((List.range 7).foldl State.rescale s).setD2d fun d => { d with draws := [] }

/-- A die's scaled draw, in 0.25 W, with which budgets are compared. -/
def State.scaledDraw (s : State) (die : Nat) : Nat :=
  let k := getK (1, 1) s.pwr.scale die
  s.rd D2D_BUDGET.DRAW 0 die * k.1 / k.2

/-! ## Grants (R417 to R419) -/

/-- Whether a die reported that it was holding its budget (R418): a matrix die whose feeders hold, or a die whose
scaled draw has reached its limit (R416; DEDUCED, log entry 50). -/
def State.holding (s : State) (die : Nat) : Bool :=
  (decide (die < 4) && decide (s.rd PWR_HOLD.D 0 0 die < 64))
    || (s.rd D2D_BUDGET.ACK_EPOCH 0 die == s.rd D2D_BUDGET.EPOCH 0 die
      && s.rd D2D_BUDGET.EPOCH 0 die != 0 && decide (s.rd D2D_BUDGET.LIMIT 0 die ≤ s.scaledDraw die))

/-- The dies of a class. -/
def classDies : Nat → List Nat
  | 1 => [4, 5]
  | 2 => [6]
  | 3 => [0, 1, 2, 3]
  | _ => []

/-- A class's MAX and floor in W. -/
def State.classMax (s : State) (j : Nat) : Nat := s.rd PWR_CLASS.MAX 0 j
def State.classFloor (s : State) (j : Nat) : Nat := s.rd PWR_CLASS.FLOOR 0 j

/-- A class's demand for the next interval (R418). -/
def State.demand (s : State) (j : Nat) : Nat :=
  let m := s.classMax j
  if (classDies j).any s.holding then m
  else min m ((s.pwr.polls.map fun r => classDraw r j).foldl max 0 + m / 10)

/-- The classes in priority order. -/
def State.classOrder (s : State) : List Nat := (List.range 5).map fun r => s.rd PWR_ORDER.CLASS 0 0 r

/-- Raise the classes in order toward a target from what is left (R419). -/
def raiseTo (target : Nat → Nat) : List Nat → SMap Nat × Nat → SMap Nat × Nat
  | [], x => x
  | c :: cs, (g, left) =>
    let up := min (target c - getK 0 g c) left
    raiseTo target cs (insK g c (getK 0 g c + up), left - up)

/-- The shortfall of LINKS is taken from the next class in the order (R419). -/
def linksShort (draw : Nat) (order : List Nat) (g : SMap Nat) : SMap Nat :=
  let short := draw - getK 0 g 0
  match (order.dropWhile (· != 0)).drop 1 with
  | n :: _ => insK (insK g 0 (getK 0 g 0 + short)) n (getK 0 g n - short)
  | [] => g

/-- The pool of the next interval (R417), by the power allowed, the current limit and the overhead; the energy is that of
the last W seconds less 10 ms (DEDUCED, log entry 51). -/
def State.pool (s : State) (o : Nat) : Int :=
  let w := s.windowS
  let e := sumOf (s.pwr.samples.take (1000 * w - 10))
  let p := ((1000 * w * s.rd PWR_CAP.EFFECTIVE_W : Nat) - (e : Int)) / 10
  min p (s.rd PWR_INPUT.VIN) - o

/-- The grants of an interval (R419). -/
def State.grants (s : State) (pool : Int) : SMap Nat :=
  let order := s.classOrder
  let floors := sumOf ((List.range 5).map s.classFloor)
  let g := (List.range 5).foldl (fun g j => insK g j (s.classFloor j)) []
  let x := raiseTo s.demand order (g, (pool - floors).toNat)
  let x := raiseTo s.classMax order x
  linksShort (meanOf (s.pwr.polls.map (·.links))) order x.1

/-! ## The effective cap (R422, R429) -/

/-- Whether a condition has lasted 10 s. -/
def State.lasted (s : State) (since : Option Nat) : Bool :=
  match since with | some t => decide (t + 10000 ≤ s.clock / 100000) | none => false

/-- What coolant takes off the cap: 100 W per K of inlet above 40 °C, 500 W without a reading. -/
def State.derate (s : State) : Nat :=
  (if s.lasted s.pwr.warm40 then (s.rd PWR_COOLANT.INLET - 400) * 10 else 0)
    + (if s.on PWR_COOLANT.SENSOR_FAIL then 500 else 0)

/-- The effective cap is taken up; as it falls, the stored samples are clipped to it (R422). -/
def State.takeCap (s : State) : State :=
  let d := s.derate
  let cap := max 1500 (s.rd PWR_CAP.WATTS - d)
  let s := if cap < s.rd PWR_CAP.EFFECTIVE_W then s.setPwr fun p => { p with samples := p.samples.map (min cap) } else s
  let s := s.wr PWR_CAP.EFFECTIVE_W cap
  let s := if s.pwr.derated < d then s.raise PWR_INT_STATUS.COOLANT_WARN else s
  s.setPwr fun p => { p with derated := d }

/-! ## Thermal cuts (R428) -/

/-- One die's cut at an interval: 5 % more while it is at THROTTLE_C, 5 % less once it has been cool for 100 ms. -/
def State.cutDie (s : State) (d : Nat) : State :=
  let c := getK 0 s.pwr.cut d
  let set (s : State) (v : Nat) : State := s.setPwr fun p => { p with cut := setK 0 p.cut d v }
  if s.rd PWR_THERM.THROTTLE_C ≤ s.rd PWR_TEMP.TJ 0 0 d then
    let s := set s (min 100 (c + 5))
    if c = 0 then s.raise PWR_INT_STATUS.THROTTLE else s
  else
    match s.pwr.cool.find? (·.1 = d) with
    | some e => if e.2 + 100 ≤ s.clock / 100000 then set s (c - 5) else s
    | none => s

/-- A hub's cut of its MEMORY share: 5 % more while a stack is at 95 °C. -/
def State.cutHub (s : State) (n : Nat) : State :=
  let c := getK 0 s.pwr.hubCut n
  let hot := getK false s.pwr.stackHot n
  let s := s.setPwr fun p => { p with hubCut := setK 0 p.hubCut n (if hot then min 100 (c + 5) else 0) }
  if hot ∧ c = 0 then s.raise PWR_INT_STATUS.THROTTLE else s

/-- The cuts of an interval, counted where any holds. -/
def State.thermalCuts (s : State) : State :=
  let s := [0, 1].foldl State.cutHub ((List.range 7).foldl State.cutDie s)
  if s.pwr.cut ≠ [] ∨ s.pwr.hubCut ≠ [] then s.bump PWR_EVENTS.THROTTLE 1 else s

/-! ## Budgets (R379, R420) -/

/-- A die's draw over the last interval. -/
def State.lastDraw (s : State) (d : Nat) : Nat := sumOf (s.pwr.polls.map fun r => r.perDie.getD d 0)

/-- A die's part of a grant, in quarter watts: by its draw among its class's dies, or an equal part where none draws. -/
def State.share (s : State) (grant d : Nat) (dies : List Nat) : Nat :=
  let total := sumOf (dies.map s.lastDraw)
  if total = 0 then 4 * grant / dies.length else 4 * grant * s.lastDraw d / total

/-- The budget a die is due, in quarter watts (R420, R428). -/
def State.budgetDue (s : State) (g : SMap Nat) (d : Nat) : Nat :=
  let whole :=
    if d < 4 then s.share (getK 0 g 3) d [0, 1, 2, 3]
    else if d < 6 then
      s.share (getK 0 g 1) d [4, 5] * (100 - getK 0 s.pwr.hubCut (d - 4)) / 100 + s.share (getK 0 g 0) d [4, 5]
    else 4 * getK 0 g 2
  let cut := whole * (100 - getK 0 s.pwr.cut d) / 100
  if getK false s.pwr.hot d then min cut (bootBudget d) else cut

/-- What the Hawkmoth counts the site at (R379, R386). -/
def State.cocCounts (s : State) : Nat :=
  if s.offered then max (s.rd COC_OFFER.LIMIT) (s.rd COC_OFFER.ACC_LIMIT)
  else if s.siteUp then s.rd COC_OFFER.ACC_LIMIT
  else 0

/-- What the Hawkmoth counts in all, in quarter watts. -/
def State.countsAll (s : State) : Nat := sumOf ((List.range 7).map s.counts) + s.cocCounts

/-- A die is sent its due budget if it falls, or if the die no longer holds the newest. -/
def State.sendFalls (s : State) (g : SMap Nat) (d : Nat) : State :=
  let t := s.budgetDue g d
  let l := s.rd D2D_BUDGET.LIMIT 0 d
  if t < l ∨ (t = l ∧ s.ackedBudget d ≠ l ∧ getK [] s.d2d.sent d = []) then s.sendBudget d t else s

/-- A die whose budget rises is sent as much of it as keeps the sum counted within the cap (R379). -/
def State.sendRise (s : State) (g : SMap Nat) (d : Nat) : State :=
  let t := s.budgetDue g d
  let room := 4 * s.rd PWR_CAP.EFFECTIVE_W - s.countsAll
  let l := min t (s.counts d + room)
  if s.rd D2D_BUDGET.LIMIT 0 d < l then s.sendBudget d l else s

/-- The COCOON grant is offered when it differs by more than 2 W from the accepted limit (R420). -/
def State.offerGrant (s : State) (grant : Nat) : State :=
  let a := s.rd COC_OFFER.ACC_LIMIT
  let room := 4 * s.rd PWR_CAP.EFFECTIVE_W - s.countsAll
  let t := min (min (4 * grant) s.cocMaxW) (s.cocCounts + room)
  if s.siteUp ∧ (a + 8 < t ∨ t + 8 < a) ∧ t ≠ s.rd COC_OFFER.LIMIT then s.offer t else s

/-- The highest frequency of a core group whose cores draw no more than their share of the cores' grant: at 3.1 W a core at
3.6 GHz and in proportion below (R244, R268; DESIGN CHOICE, log entry 178), within the group's limits. -/
def State.freqWithin (s : State) (grant g : Nat) : Nat := max 12 (min (s.topFreq g) (grant * 360 / (96 * 31)))

/-- The Hawkmoth sets the core groups' frequencies within the cores' share of the cap (R244). -/
def State.setFreqs (s : State) (grant : Nat) : State :=
  (List.range 12).foldl (fun (s : State) g =>
    let f := 12 + Sys2Proof.Config.coreFreq g s.clock % (s.freqWithin grant g - 11)
    (List.range 8).foldl (fun (s : State) k => s.wr mcoreinfo.FREQ f (8 * g + k)) s) s

/-- CAP_INTERVAL (R416 to R420): every 10 ms the Hawkmoth scales the dies' estimates, computes the pool, grants the classes, and sends the budgets
that fall before those that rise. -/
def execCapInterval (s : State) : Answer :=
  .next <|
    let s := s.rescaled.takeCap.thermalCuts
    let o := if s.pwr.polls = [] then s.rd PWR_OVERHEAD.O else overhead s.pwr.polls
    let s := s.wr PWR_OVERHEAD.O o
    let pool := s.pool o
    let g := s.grants pool
    let bound := (List.range 5).any fun j => decide (getK 0 g j < s.demand j)
    let floor := decide (pool < (sumOf ((List.range 5).map s.classFloor) : Nat))
    let s := (List.range 5).foldl (fun s j =>
      (s.wr PWR_CLASS.GRANT (getK 0 g j) 0 j).wr PWR_CLASS.DRAW (meanOf (s.pwr.polls.map fun r => classDraw r j)) 0 j) s
    let s := if bound then s.raise PWR_INT_STATUS.CAP_BOUND else s
    let s := if floor then (s.bump PWR_EVENTS.FLOOR_BOUND 1).raise PWR_INT_STATUS.FLOOR_BOUND else s
    let s := (List.range 7).foldl (fun s d => s.sendFalls g d) s
    let s := (List.range 7).foldl (fun s d => s.sendRise g d) s
    ((s.offerGrant (getK 0 g 4)).setFreqs (getK 0 g 2)).setPwr fun p => { p with polls := [] }

/-! ## Supply and hold duty (R423 to R425) -/

/-- Full-activity draw of a matrix die at a supply, in W × 50, between the rows of R423. -/
def fullDraw50 (mv : Nat) : Nat :=
  let row (v0 lo hi : Nat) : Nat := 50 * lo + (hi - lo) * (mv - v0)
  if mv ≤ 600 then row 550 237 358
  else if mv ≤ 650 then row 600 358 499
  else if mv ≤ 700 then row 650 499 670
  else if mv ≤ 750 then row 700 670 846
  else row 750 846 1057

/-- The lowest supply R423 may choose for a die (R433), up to a 10 mV step. -/
def State.vminStep (s : State) (d : Nat) : Nat := cdiv (s.rd AGE_VMIN.VMIN 0 0 d) 10 * 10

/-- The supply R423 chooses: the lowest step whose full-activity draw is at least the die's budget. -/
def State.supplyTarget (s : State) (d : Nat) : Nat :=
  let steps := (List.range 26).map fun k => 550 + 10 * k
  match steps.find? fun mv => decide (s.vminStep d ≤ mv) && decide (50 * s.dieBudget d ≤ 4 * fullDraw50 mv) with
  | some mv => mv
  | none => 800

/-- SUPPLY_STEP (R423): a die's supply moves one step of 10 mV toward the one chosen. -/
def execSupplyStep (d : Fin 4) (s : State) : Answer :=
  .next <|
    let t := s.supplyTarget d
    let v := s.rd PWR_SUPPLY.MV 0 0 d
    s.wr PWR_SUPPLY.MV (if v < t then min t (v + 10) else max t (v - 10)) 0 0 d

/-- HOLD_DUTY_STEP (R423 to R425): a die changes D by one, from 1 to 64, not within 160 beats of its last change, and not
upward while the input stage limits current. -/
def execHoldDutyStep (d : Fin 4) (up : Bool) (s : State) : Answer :=
  .next <|
    let v := s.rd PWR_HOLD.D 0 0 d
    let due : Bool := match s.pwr.holdAt.find? (·.1 = d.val) with
      | some e => decide (e.2 + 160 ≤ s.beatOf d)
      | none => true
    let go := due && (if up then decide (v < 64) && !s.pwr.limiting else decide (1 < v))
    cond go ((s.wr PWR_HOLD.D (if up then v + 1 else v - 1) 0 0 d).setPwr fun p =>
      { p with holdAt := insK p.holdAt d (s.beatOf d) }) s

/-- CURRENT_LIMIT (R23, R425): the input stage signals that it limits current; an episode is counted. -/
def execCurrentLimit (s : State) : Answer :=
  .next <|
    if s.pwr.limiting then s
    else ((s.setPwr fun p => { p with limiting := true }).bump PWR_EVENTS.CURRENT_LIMIT 1).raise
      PWR_INT_STATUS.CURRENT_LIMIT

/-- CURRENT_LIMIT_RELEASE (R425): the input current has been below 95 A for 1 ms. -/
def execCurrentLimitRelease (s : State) : Answer := .next (s.setPwr fun p => { p with limiting := false })

/-! ## Droops (R426) -/

/-- The RAS unit of a rail (DESIGN CHOICE, log entry 52). -/
def railUnit : DroopRail → Nat
  | .vfab d => d
  | .vhub n => 4 + n
  | .vcg g => 7 + g

/-- DROOP (R426): counted; a matrix die's release tree admits 4 starts per 48 beats; one beyond the rail's limit is a RAS
event. A core group's clock and a hub's activations slow while the rail is listed. -/
def execDroop (r : DroopRail) (beyondLimit : Bool) (s : State) : Answer :=
  .next <|
    let s := s.bump PWR_EVENTS.DROOP 1
    let s := s.setPwr fun p => { p with droops := if p.droops.contains r then p.droops else p.droops ++ [r] }
    let s := match r with | .vfab d => s.wr DLN_ADMIT.GROUP 4 d | _ => s
    if beyondLimit then
      s.rasEvent stOK 14 (railUnit r) 0 .info (s.recWord [PWR_EVENTS.CURRENT_LIMIT, PWR_EVENTS.DROOP,
        PWR_EVENTS.THROTTLE, PWR_EVENTS.FLOOR_BOUND] 0)
    else s

/-- DROOP_RECOVERY (R426): the response's time has passed. -/
def execDroopRecovery (r : DroopRail) (s : State) : Answer :=
  .next <|
    let s := s.setPwr fun p => { p with droops := p.droops.filter (· != r) }
    match r with | .vfab d => s.wr DLN_ADMIT.GROUP 8 d | _ => s

/-! ## Heat (R427 to R429) -/

/-- Sensors of each die, in the order of PWR_TEMP (R427). -/
def dieSensors (d : Nat) : List Nat :=
  if d < 4 then (List.range 16).map (· + 16 * d)
  else if d < 6 then (List.range 8).map (· + 64 + 8 * (d - 4))
  else (List.range 12).map (· + 80)

/-- A die's Tj is read: its rising and falling points of R428. -/
def State.dieTj (s : State) (d tj : Nat) : State :=
  let s := s.wr PWR_TEMP.TJ (min 255 tj) 0 0 d
  let hot := if 105 ≤ tj then true else if tj < 100 then false else getK false s.pwr.hot d
  let s := s.setPwr fun p => { p with hot := setK false p.hot d hot }
  let cool :=
    if s.rd PWR_THERM.THROTTLE_C ≤ tj + 3 then eraseK s.pwr.cool d
    else if s.pwr.cool.any (·.1 == d) then s.pwr.cool
    else insK s.pwr.cool d (s.clock / 100000)
  s.setPwr fun p => { p with cool := cool }

/-- TJ_READ (R427): the 92 junction sensors, MD0's 16 first. -/
def execTjRead (tj : List Nat) (s : State) : Answer :=
  .next <| (List.range 7).foldl (fun s d =>
    s.dieTj d (((dieSensors d).map fun i => tj.getD i 0).foldl max 0)) s

/-- A hub's stacks: at 95 °C its MEMORY share is cut, until all are below 92 °C (R428). -/
def State.hubStacks (s : State) (n t : Nat) : State :=
  let hot := if 95 ≤ t then true else if t < 92 then false else getK false s.pwr.stackHot n
  s.setPwr fun p => { p with stackHot := setK false p.stackHot n hot }

/-- STACK_TEMPERATURE_READ (R310, R427, R428). -/
def execStackTemperatureRead (temps : List Nat) (s : State) : Answer :=
  .next <|
    let s := s.readStacks temps
    let s := s.wr PWR_TEMP.HBM (min 255 (((List.range 12).map fun i => temps.getD i 0).foldl max 0))
    [0, 1].foldl (fun s n =>
      s.hubStacks n (((List.range 6).map fun i => temps.getD (6 * n + i) 0).foldl max 0)) s

/-- When a condition began, if it holds. -/
def sinceWhen (holds : Bool) (was : Option Nat) (now : Nat) : Option Nat :=
  if holds then some (was.getD now) else none

/-- COOLANT_READ (R21, R429): inlet and outlet in 0.1 °C. -/
def execCoolantRead (inlet outlet : Nat) (s : State) : Answer :=
  .next <|
    let now := s.clock / 100000
    let s := ((s.wr PWR_COOLANT.INLET (min 4095 inlet)).wr PWR_COOLANT.OUTLET (min 4095 outlet)).wr
      PWR_COOLANT.SENSOR_FAIL 0
    let slow := decide (10 * s.rd PWR_INPUT.PIN + 2650 < 265 * (outlet - inlet))
    let s := s.setPwr fun p => { p with
      warm40 := sinceWhen (decide (400 < inlet)) p.warm40 now
      warm50 := sinceWhen (decide (500 < inlet)) p.warm50 now
      slow := sinceWhen slow p.slow now }
    let low := s.lasted s.pwr.slow
    let s := if low ∧ ¬ s.on PWR_COOLANT.FLOW_LOW then s.raise PWR_INT_STATUS.FLOW_LOW else s
    let s := s.wr PWR_COOLANT.FLOW_LOW (b2n low)
    if s.lasted s.pwr.warm50 then s.outOfService stOutOfService else s

/-- SENSOR_FAIL (R429): no coolant reading for 3 s. -/
def execSensorFail (s : State) : Answer :=
  .next <|
    let s := (s.wr PWR_COOLANT.SENSOR_FAIL 1).raise PWR_INT_STATUS.COOLANT_WARN
    s.setPwr fun p => { p with derated := s.derate }

end Sys2Proof.Machine
end

