-- ==== Sys2Proof/Machine/Slots.lean ====
section
/-! DEFINITION. Machine/Slots.lean: plan slots (R137 to R145, R148): LOAD, LOAD_STANDBY, LOAD_COMPLETE, UNLOAD,
STANDBY_TAKEOVER, MOLT_SWAP (R167 to R169) and PLAN_REAPPLY. -/

namespace Sys2Proof.Machine

/-! ## Slots and their registers -/

/-- Slot states of PLN_SLOT_STATUS.STATE (R141). -/
def pEMPTY : Nat := 0
def pLOADING : Nat := 1
def pLOADED : Nat := 2
def pSTANDBY : Nat := 3
def pFAILED : Nat := 4

/-- A slot's state. -/
def State.slotSt (s : State) (k : Nat) : Nat := s.rd PLN_SLOT_STATUS.STATE k

/-- PLN_CLUSTERS shows the clusters that belong to a slot. -/
def State.slotView (s : State) (k : Nat) : State :=
  let m := (s.owned k).foldl (fun (n : Nat) c => n ||| 2 ^ c) 0
  (List.range 8).foldl (fun s j => s.wr PLN_CLUSTERS.OWNED (bits m (64 * j) 64) k j) s

/-- A command that a slot's state does not allow (R141). -/
def State.slotRejects (s : State) (k : Nat) : State := s.wr PLN_SLOT_STATUS.CMD_REJECT 1 k

/-- The outcome of a slot's last command. -/
def State.slotOutcome (s : State) (k : Nat) (f : PlanFail) : State :=
  (((s.wr PLN_SLOT_STATUS.STATUS f.status k).wr PLN_SLOT_STATUS.CHECK f.check k).wr PLN_SLOT_STATUS.SECTION f.sect k).wr
    PLN_SLOT_STATUS.ITEM f.item k

/-- A command of a slot completes with OK. -/
def State.slotDone (s : State) (k : Nat) : State :=
  (s.slotOutcome k ⟨stOK, 0, 0, 0⟩).raise PLN_INT_STATUS.DONE 0 (2 ^ k)

/-- The placement of a slot (R118). -/
def State.placeOf (s : State) (k : Nat) : Place := ⟨s.rd PLN_PLACE.DD k, s.rd PLN_PLACE.DR k, s.rd PLN_PLACE.DC k⟩

/-! ## Object references (R137) -/

/-- The objects a plan's MIGRATE and PRELOAD records name, each once. -/
def State.planObjs (s : State) (p : PlanRead) : List Nat :=
  let hs := p.mig.map migHandle ++ (p.pres.filter fun r => PreW.src r).map PreW.handle
  (hs.filterMap s.handleEntry).eraseDups

/-- References of a loaded slot are taken: bit k of SLOT_REFS (R492). -/
def State.takeRefs (s : State) (k : Nat) (l : List Nat) : State :=
  l.foldl (fun s i => s.setObj i fun o => { o with slotRefs := setBit o.slotRefs k true }) s

/-- References of a slot are dropped. -/
def State.dropRefs (s : State) (k : Nat) : State :=
  match (s.slot k).cfg with
  | none => s
  | some p => p.objs.foldl (fun s i => s.setObj i fun o => { o with slotRefs := setBit o.slotRefs k false }) s

/-! ## Clusters of a slot -/

/-- A cluster's active configuration is cleared, with its banks in use (R141). -/
def State.clearCfg (s : State) (c : Nat) : State :=
  ((((s.setClu c fun x => { x with act := none, inPass := false, migReady := [], migSeen := [] }).wr CLU_BANK_INUSE.INUSE 0
    c).wr CLU_STATUS.INUSE_VALID 0 c)).wr CLU_SPARE.USED 0 c

/-- A cluster is released: no slot owns it. -/
def State.releaseClu (s : State) (c : Nat) : State := (s.clearCfg c).setClu c fun x => { x with owner := none }

/-- The shadow configuration that a slot wrote is cleared in every cluster. -/
def State.clearShadow (s : State) (k : Nat) : State :=
  { s with clus := (s.clus.map fun (e : Nat × Clu) =>
      match e.2.shadow with
      | some g => if g.slot = k then (e.1, { e.2 with shadow := none }) else e
      | none => e).filter fun e => decide (e.2 ≠ Clu.rest) }

/-- Everything a slot holds is released: clusters, shadow configuration, references. -/
def State.releaseSlot (s : State) (k : Nat) : State :=
  let s := (s.dropRefs k).clearShadow k
  let s := (s.owned k).foldl State.releaseClu s
  (s.setSlot k fun _ => Slot.empty).slotView k

/-- A load fails (R138 order 5b). -/
def State.loadFails (s : State) (k : Nat) (f : PlanFail) : State :=
  let s := (s.releaseSlot k).wr PLN_SLOT_STATUS.STATE pFAILED k
  (s.slotOutcome k f).raise PLN_INT_STATUS.FAIL 0 (2 ^ k)

/-- A cluster that a slot claims is brought from OFF to STOPPED, uncounted, or a pending power-off is cancelled (R72,
R138 order 2). -/
def State.bringUp (s : State) (c : Nat) : State :=
  if s.cluSt c = cOff then ((s.wr CLU_STATUS.STATE cStopped c).wr CLU_POWER.OFF_REQ 0 c).allBanksOn c else s.cancelOff c

/-! ## LOAD, orders 1 and 2 -/

/-- The image of a slot: its address and length. -/
def State.imgAddr (s : State) (k : Nat) : Nat := s.rd PLN_IMG_ADDR.ADDR k * 4096
def State.imgLen (s : State) (k : Nat) : Nat := s.rd PLN_IMG_LEN.LEN k

/-- The checks of orders 1 and 2 on an image that need no other cluster: 0x01, 0x02, 0x06, 0x0B of the region, 0x07. -/
def State.headChecks (s : State) (k : Nat) (img : List Byte) : Option PlanFail :=
  (checkHeader img (s.imgLen k)).orElse fun _ =>
  (checkStepping img).orElse fun _ =>
  (checkTable img).orElse fun _ =>
  match sectOf (imgTable img) tRegion with
  | none => failAt 0x02 0 0
  | some x => (checkRegion img x).orElse fun _ => checkPlace img (s.placeOf k) x

/-- The placed clusters of an image. -/
def State.placed (s : State) (k : Nat) (img : List Byte) : List Nat :=
  match sectOf (imgTable img) tRegion with
  | none => []
  | some x => (regionClusters img x.off).map (s.placeOf k).at

/-- Checks 0x08 and 0x09 on the clusters a load claims; `pred` the predecessor of a standby load. -/
def State.claimCheck (s : State) (k : Nat) (pred : Option Nat) (cl : List Nat) (sect : Nat) : Option PlanFail :=
  (need (match pred with | none => true | some p => p != k && s.slotSt p == pLOADED) 0x08 sect 0).orElse fun _ =>
  (firstFail (fun c =>
    let x := s.clu c
    need ((x.owner.isNone || (pred.isSome && x.owner == pred))
      && (match x.shadow with | none => true | some g => g.slot == k)) 0x08 sect 0) cl).orElse fun _ =>
  firstFail (fun c => need (s.cluSt c != cFaulted && s.cluSt c != cResetting && !s.held c) 0x09 sect 0) cl

/-- Orders 1 and 2 of a load (R138): the image is read and checked, and every placed cluster is claimed, or none. While
a line of the image is held in a cache the slot stays LOADING. -/
def State.loadClaim (s : State) (k : Nat) (standby : Bool) : State :=
  let n := s.imgLen k
  let a := s.imgAddr k
  if n = 0 ∨ 2 ^ 26 < n ∨ s.hbmEnd < a + n then s.loadFails k ⟨stPlanCheck, 0x01, 0, 0⟩
  else
    let p := s.prepare (keysOf a n) false
    if ¬ p.2 then p.1
    else
      let r := p.1.rangeRead a n 97 (s.partOf 97)
      if r.poison then r.st.loadFails k ⟨stEcc, 0, 0, 0⟩
      else
        let img := r.data
        let s := r.st
        match s.headChecks k img with
        | some f => s.loadFails k f
        | none =>
          let cl := s.placed k img
          let pred := if standby then (s.slot k).pred else none
          match s.claimCheck k pred cl (sectIdx (imgTable img) tRegion) with
          | some f => s.loadFails k f
          | none =>
            let s := cl.foldl (fun s c =>
              if (s.clu c).owner.isNone then (s.bringUp c).setClu c fun x => { x with owner := some k } else s) s
            (s.setSlot k fun x => { x with load := some ⟨standby, some img⟩ }).slotView k

/-- LOAD or LOAD_STANDBY is accepted on an EMPTY or FAILED slot; not in OUT_OF_SERVICE (R141, R450). -/
def State.startLoad (s : State) (k : Nat) (pred : Option Nat) : State :=
  if s.board.boot.stopped then s
  else if (s.slotSt k = pEMPTY ∨ s.slotSt k = pFAILED) ∧ ¬ s.on RAS_SERVICE.OUT then
    let s := (s.slotOutcome k ⟨stOK, 0, 0, 0⟩).wr PLN_SLOT_STATUS.STATE pLOADING k
    let s := s.setSlot k fun _ => { Slot.empty with load := some ⟨pred.isSome, none⟩, pred := pred }
    s.loadClaim k pred.isSome
  else s.slotRejects k

/-- LOAD (R138, R141). -/
def execLoad (o : Origin) (slot : Fin 16) (s : State) : Answer :=
  .next <| s.asReg o (PLN_SLOT_CTRL.CMD.addr slot 0) fun s => s.startLoad slot none

/-- LOAD_STANDBY (R141). -/
def execLoadStandby (o : Origin) (slot pred : Fin 16) (s : State) : Answer :=
  .next <| s.asReg o (PLN_SLOT_CTRL.CMD.addr slot 0) fun s =>
    (s.wr PLN_SLOT_CTRL.PRED pred slot).startLoad slot (some pred.val)

/-! ## Preloads (R136, R137) -/

/-- The preload records of a plan after placement. -/
def preloadsOf (img : List Byte) (p : PlanRead) : List Preload :=
  let base := match sectOf p.sects tData with | some x => x.off | none => 0
  p.pres.map fun r =>
    { cluster := PreW.cluster r, dest := PreW.dest r, len := PreW.length r
      bytes := if PreW.src r then none else some ((img.drop (base + PreW.srcOff r)).take (PreW.length r))
      handle := PreW.handle r, srcOff := PreW.srcOff r }

/-- What gathering a preload's bytes comes to: the bytes, that it must wait, or a status. -/
inductive PreRead where
  | bytes (b : List Byte)
  | wait
  | fail (status : Nat)
  deriving DecidableEq, Repr

/-- The bytes of a preload from an object: in T1 they are read; else the loader fetches the object first, and where that
fails with NO_OBJECT_SLOT it reads T2 (R137, R228, R231). While the tier manager is disabled there is no object (as for a move,
R212), and until it runs the loader waits. -/
def State.preloadObj (s : State) (p : Preload) : State × PreRead :=
  if ¬ s.on TIER_CTRL.EN then (s, .fail stBadDescriptor)
  else if ¬ s.tierRuns then (s, .wait)
  else match s.handleEntry p.handle with
  | none => (s, .fail stBadDescriptor)
  | some i =>
    let o := s.obj i
    if o.len < p.srcOff + p.len then (s, .fail stBadDescriptor)
    else if o.state = 2 ∨ o.state = 3 then
      let a := o.t1 + p.srcOff
      let q := s.prepare (keysOf a p.len) false
      if ¬ q.2 then (q.1, .wait)
      else
        let r := q.1.rangeRead a p.len 97 (s.partOf 97)
        if r.poison then (r.st, .fail stEcc) else (r.st, .bytes r.data)
    else if o.state = 4 ∧ ((s.findExtent (cdiv o.len 65536)).isNone || !s.quotaFits o.ctx (cdiv o.len 65536)) then
      if s.hostUp then
        let r := s.hostRead (s.copyFunc i) (if o.pv then o.pasid else 0) (o.t2addr + p.srcOff) p.len
        (r.1, .bytes r.2)
      else (s, .wait)
    else if o.state = 4 then
      (s.tierAsk { TierCmd.blank 0x07 o.ctx with handle := p.handle } (s.copyFunc i) .loader, .wait)
    else (s, .wait)

/-- The bytes of every preload, or a wait or failure of the first that cannot be read. -/
def State.gather (s : State) : List Preload → State × Except PreRead (List (Nat × Nat × List Byte))
  | [] => (s, .ok [])
  | p :: ps =>
    let r := match p.bytes with | some b => (s, PreRead.bytes b) | none => s.preloadObj p
    match r.2 with
    | .bytes b =>
      let q := r.1.gather ps
      match q.2 with
      | .ok l => (q.1, .ok ((p.cluster, p.dest, b) :: l))
      | .error e => (q.1, .error e)
    | e => (r.1, .error e)

/-- Preloads are written, in record order; one over a word that cannot be read leaves its bytes unwritten and is an error
(R66; DESIGN CHOICE, log entry 37). -/
def State.putPreloads (s : State) (l : List (Nat × Nat × List Byte)) : State × Bool :=
  l.foldl (fun (a : State × Bool) e =>
    let r := a.1.spadWrite e.1 e.2.1 e.2.2
    (r.st, a.2 && r.bad.isNone)) (s, true)

/-! ## LOAD, orders 3 to 5 -/

/-- The checks of order 3: the window of a GX3 plan, cluster records, their words, and every rule on records. -/
def State.bodyChecks (s : State) (k : Nat) (img : List Byte) (p : PlanRead) : Option PlanFail :=
  let x := sectOf p.sects (if p.gx3 then tGx3 else tCluster)
  (need (!p.gx3 || decide (s.rd PLN_WINDOW.BASE_GIB k * 2 ^ 30 + 192 * 2 ^ 30 ≤ s.hbmEnd)) 0x16 0 0).orElse fun _ =>
  match x with
  | none => failAt 0x02 0 0
  | some x =>
    (firstFail (checkCluRec img p.gx3 x p.region p.nstage) (numbered p.recs)).orElse fun _ =>
    (checkCluRecs x p.gx3 p.region p.nstage p.recs).orElse fun _ =>
    (if p.gx3 then firstFail (checkGx3 img x) (numbered p.recs) else none).orElse fun _ =>
    s.checkRecords img p

/-- The signature of an image (order 4): key slot, signature, SVN. -/
def State.sigCheck (s : State) (img : List Byte) : Option PlanFail :=
  let o := sigOff img
  let i := sectIdx (imgTable img) tSignature
  let slot := imgNat img o 1
  match if slot ≤ 7 then (s.trust.keys.find? (·.1 = slot)).map (·.2) else none with
  | none => sigFail 0x04 i
  | some key =>
    if bit s.trust.revoked slot then sigFail 0x04 i
    else if ¬ edVerify key (planDigest img) ((img.drop (o + 8)).take 64) then sigFail 0x03 i
    else if imgNat img 0x10 4 < s.trust.planCounter then sigFail 0x05 i
    else none

/-- A cluster takes a configuration as its active one: banks in use, spare map, counters 0, pass 0 (R138, R144). -/
def State.configure (s : State) (c : Nat) (g : CluCfg) : State :=
  let m := s.spareMap c g
  let s := s.setClu c fun x => { x with act := some { g with spareUsed := m }, inPass := false, pass := 0, begun := 0,
                                         done := 0, migReady := [], migSeen := [] }
  (((s.wr CLU_BANK_INUSE.INUSE g.banks c).wr CLU_STATUS.INUSE_VALID 1 c).wr CLU_SPARE.USED m c).zeroCounters c

/-- The registers of a slot whose image has passed: digest, version, clusters, stages, SVN and tag. -/
def State.slotInfo (s : State) (k : Nat) (img : List Byte) (p : PlanRead) : State :=
  let d := planDigest img
  let s := (List.range 8).foldl (fun s j => s.wr PLN_DIGEST.DIGEST (quad d j) k j) s
  let s := ((s.wr PLN_INFO.VERSION (imgVersion img) k).wr PLN_INFO.CLUSTERS p.region.length k).wr PLN_INFO.STAGES p.nstage k
  s.wr PLN_SVN.SVN_TAG (imgNat img 0x10 4 + imgNat img 0x18 4 * 2 ^ 32) k

/-- Grants and counts of a slot that a load or a molt fills (R172). -/
def State.freshGrant (s : State) (k : Nat) : State :=
  let s := ((s.wr DLN_GRANT.G 0 k).wr DLN_STARTED.BEGUN 0 k).wr DLN_DONE.DONE 0 k
  (((s.wr DLN_SLOT_EXEC.EXEC 0 k).wr DLN_SLOT_EXEC.CONT 0 k).wr DLN_SLOT_EXEC.HALT_STATUS 0 k).wr
    DLN_SLOT_EXEC.HALT_CLUSTER 0 k

/-- What a slot holds of its plan. -/
def State.planCfg (s : State) (k : Nat) (img : List Byte) (p : PlanRead) : PlanCfg :=
  { templates := p.moves, deadlines := p.deadlines, fum := p.fum, mig := p.mig, preloads := preloadsOf img p
    objs := s.planObjs p, clus := p.clus
    window := if p.gx3 then some (s.rd PLN_WINDOW.BASE_GIB k * 2 ^ 30) else none }

/-- Orders 3 to 5 of a load whose clusters are claimed. -/
def State.loadBody (s : State) (k : Nat) (standby : Bool) (img : List Byte) : State :=
  let p := readPlan img (s.placeOf k) k
  match s.bodyChecks k img p with
  | some f => s.loadFails k f
  | none =>
    if p.clus.any fun e => (s.clu e.1).bist then s
    else
      let cfg := s.planCfg k img p
      let g := if standby then (s, .ok []) else s.gather cfg.preloads
      match g.2 with
      | .error .wait => g.1
      | .error (.fail st) => g.1.loadFails k ⟨st, 0, sectIdx p.sects tPreload, 0⟩
      | .error (.bytes _) => g.1
      | .ok l =>
        let s := (g.1.setSlot k fun x => { x with cfg := some cfg }).takeRefs k cfg.objs
        let s := p.clus.foldl (fun s e =>
          if standby then s.setClu e.1 fun x => { x with shadow := some e.2 } else s.configure e.1 e.2) s
        let w := s.putPreloads l
        if ¬ w.2 then w.1.loadFails k ⟨stEcc, 0, sectIdx p.sects tPreload, 0⟩
        else
          match w.1.sigCheck img with
          | some f => w.1.loadFails k f
          | none =>
            let s := (w.1.setSlot k fun x => { x with load := none }).slotInfo k img p
            let s := s.wr PLN_SLOT_STATUS.STATE (if standby then pSTANDBY else pLOADED) k
            ((s.freshGrant k).slotView k).slotDone k

/-- LOAD_COMPLETE (R138 orders 3 to 5): the sections are read and checked and the configuration is written; while a line
or an object of the load must be waited for, the slot stays LOADING. -/
def execLoadComplete (slot : Fin 16) (s : State) : Answer :=
  .next <| match (s.slot slot).load with
  | none => s
  | some ⟨standby, none⟩ => s.loadClaim slot standby
  | some ⟨standby, some img⟩ => s.loadBody slot standby img

/-! ## UNLOAD (R141, R142, R448, R476) -/

/-- The STANDBY slots that name a slot as predecessor, lowest first. -/
def State.successors (s : State) (k : Nat) : List Nat :=
  (List.range 16).filter fun t => s.slotSt t == pSTANDBY && (s.slot t).pred == some k && !(s.slot t).takeover

/-- What follows the release of a cluster by UNLOAD: a FAULTED one is reset while AUTO_CLUSTER is 1, and with
SCRUB_ON_UNLOAD every other is, uncounted (R448, R476). -/
def State.afterRelease (s : State) (c : Nat) : State :=
  let s := s.autoReset c
  if s.on SEC_CTRL.SCRUB_ON_UNLOAD ∧ ¬ s.absorbs (dCluster, c) ∧ ¬ s.held c then s.resetCluster c 0 stOK else s

/-- A slot becomes EMPTY. -/
def State.emptySlot (s : State) (k : Nat) : State :=
  (((s.wr PLN_SLOT_STATUS.STATE pEMPTY k).wr DLN_SLOT_EXEC.EXEC 0 k).setSlot k fun _ => Slot.empty).slotView k

/-- Whether a cluster holds the shadow configuration of a slot. -/
def State.shadowOf (s : State) (t c : Nat) : Bool :=
  match (s.clu c).shadow with | some g => g.slot == t | none => false

/-- A STANDBY successor takes the clusters of its plan among those of the slot that is unloaded (R142). -/
def State.takeFrom (cl : List Nat) (s : State) (t : Nat) : State :=
  let s := (cl.filter (s.shadowOf t)).foldl (fun s c => (s.clearCfg c).setClu c fun x => { x with owner := some t }) s
  (s.setSlot t fun x => { x with takeover := true }).slotView t

/-- UNLOAD of a LOADED slot: its STANDBY successors take the clusters of their plans, the others are released (R142). -/
def State.unloadLoaded (s : State) (k : Nat) : State :=
  let cl := s.owned k
  let ts := s.successors k
  if ts.isEmpty then
    let s := ((s.releaseSlot k).emptySlot k).slotDone k
    cl.foldl State.afterRelease s
  else
    let isTaken (c : Nat) : Bool := ts.any fun t => s.shadowOf t c
    let taken := cl.filter isTaken
    let rest := cl.filter fun c => !isTaken c
    let s := rest.foldl State.releaseClu (s.dropRefs k)
    let s := ts.foldl (State.takeFrom taken) s
    let s := rest.foldl State.afterRelease ((s.emptySlot k).slotDone k)
    taken.foldl State.autoReset s

/-- UNLOAD (R141). -/
def State.unload (s : State) (k : Nat) : State :=
  if s.on RAS_SERVICE.OUT then s.slotRejects k
  else match s.slotSt k with
    | 2 =>
      let quiet := (s.owned k).all fun c => s.cluSt c == cStopped || s.cluSt c == cFaulted
      if quiet && s.rd DLN_SLOT_EXEC.EXEC k != 2 then s.unloadLoaded k else s.slotRejects k
    | 3 =>
      if (s.slot k).molt.isSome then s.slotRejects k
      else
        let cl := s.owned k
        cl.foldl State.afterRelease (((s.releaseSlot k).emptySlot k).slotDone k)
    | 4 => (s.emptySlot k).slotDone k
    | _ => s.slotRejects k

/-- UNLOAD (R141). -/
def execUnload (o : Origin) (slot : Fin 16) (s : State) : Answer :=
  .next <| s.asReg o (PLN_SLOT_CTRL.CMD.addr slot 0) fun s => s.unload slot

/-! ## The swap (R167 orders 4 and 5, R169) -/

/-- Every cluster of a STANDBY slot's plan takes its shadow configuration, and the preloads are written; the slot is
LOADED. -/
def State.swapIn (s : State) (t : Nat) (p : PlanCfg) (l : List (Nat × Nat × List Byte)) : State :=
  let s := p.clus.foldl (fun s e =>
    let s := s.bringUp e.1
    (s.setClu e.1 fun x => { x with owner := some t, shadow := none }).configure e.1 e.2) s
  let s := (s.putPreloads l).1
  let s := s.setSlot t fun x => { x with pred := none, molt := none, takeover := false }
  ((s.wr PLN_SLOT_STATUS.STATE pLOADED t).freshGrant t).slotView t

/-- STANDBY_TAKEOVER (R142, R169, R448): once none of its clusters is FAULTED or under reset, the successor of an
unloaded slot swaps in. -/
def execStandbyTakeover (slot : Fin 16) (s : State) : Answer :=
  .next <| match (s.slot slot).cfg with
  | none => s
  | some p =>
    let ready := p.clus.all fun e =>
      s.cluSt e.1 != cFaulted && s.cluSt e.1 != cResetting && !(s.clu e.1).bist
    if (s.slot slot).takeover ∧ ready = true then
      let g := s.gather p.preloads
      match g.2 with
      | .ok l => (g.1.swapIn slot p l).slotDone slot
      | .error _ => g.1
    else s

/-- Whether every cluster of a slot being molted out of has stopped and its moves have landed (R167 orders 2 and 3). -/
def State.moltReady (s : State) (p : Nat) : Bool :=
  (s.owned p).all fun c =>
    s.cluSt c == cStopped && !grantLeft (s.rd DLN_GRANT.G p) (s.clu c).begun && !s.finishing c && !(s.clu c).bist

/-- MOLT_SWAP (R167 orders 4 and 5): the standby slot takes the region with its first grant, and the predecessor becomes
EMPTY. -/
def execMoltSwap (slot : Fin 16) (s : State) : Answer :=
  .next <| match (s.slot slot).molt, (s.slot slot).cfg with
  | some p, some cfg =>
    let free := cfg.clus.all fun e => s.cluSt e.1 != cFaulted && s.cluSt e.1 != cResetting && !(s.clu e.1).bist
    if s.slotSt slot = pSTANDBY ∧ s.moltReady p = true ∧ free = true then
      let g := s.gather cfg.preloads
      match g.2 with
      | .error _ => g.1
      | .ok l =>
        let first := (s.slot slot).firstGrant
        let old := s.owned p
        let keep := cfg.clus.map fun (e : Nat × CluCfg) => e.1
        let s := g.1.dropRefs p
        let s := (old.filter fun c => !keep.contains c).foldl State.releaseClu s
        let s := s.swapIn slot cfg l
        let s := ((s.slotOutcome slot ⟨stOK, 0, 0, 0⟩).emptySlot p)
        ((s.wr DLN_SLOT_EXEC.EXEC 1 slot).setGrant slot first).raise DLN_INT_STATUS.MOLT_DONE slot
    else s
  | _, _ => s

/-! ## Re-application (R143) -/

/-- PLAN_REAPPLY (R143): once the clusters of a slot that a reset held are out of it, the image is read again; if it
hashes to PLN_DIGEST the plan and its preloads are applied to those clusters, else the slot fails. -/
def execPlanReapply (slot : Fin 16) (s : State) : Answer :=
  .next <|
    let k := slot.val
    let todo := (s.slot k).reapply
    if todo.isEmpty ∨ s.slotSt k ≠ pLOADED ∨ (todo.any fun c => s.cluSt c == cResetting) = true then s
    else match (s.slot k).cfg with
      | none => s
      | some cfg =>
        let q := s.prepare (keysOf (s.imgAddr k) (s.imgLen k)) false
        if ¬ q.2 then q.1
        else
          let r := q.1.rangeRead (s.imgAddr k) (s.imgLen k) 97 (s.partOf 97)
          let good := !r.poison && (List.range 8).all fun j => quad (planDigest r.data) j == s.rd PLN_DIGEST.DIGEST k j
          if ¬ good then r.st.loadFails k ⟨stPlanSignature, 0x03, 0, 0⟩
          else
            let mine := cfg.clus.filter fun (e : Nat × CluCfg) => todo.contains e.1
            if ¬ mine.all fun e => r.st.sparesServe e.1 e.2 then r.st.loadFails k ⟨stPlanCheck, 0x0A, 0, 0⟩
            else
              let g := r.st.gather (cfg.preloads.filter fun p => todo.contains p.cluster)
              match g.2 with
              | .error _ => g.1
              | .ok l =>
                let s := mine.foldl (fun s e => s.configure e.1 e.2) g.1
                let s := (s.putPreloads l).1
                (s.setSlot k fun x => { x with reapply := [] }).raise PLN_INT_STATUS.RELOAD 0 (2 ^ k)

end Sys2Proof.Machine
end

