-- ==== Sys2Proof/Machine/Resets.lean ====
section
/-! DEFINITION. Machine/Resets.lean: what each reset domain does at its start and at its exit (R304, R330, R341, R409,
R410, R434, R442 to R446, R456), and the escalation of resets (R449, R451). -/

namespace Sys2Proof.Machine

/-! ## Registers -/

/-- Fields of a block's instance return to their reset values. -/
def State.clearFlds (s : State) (i : Nat) (fs : List Fld) : State := fs.foldl (fun s f => s.wr f (f.reset i 0 0) i) s

/-- The APLIC sources follow what registers have become. -/
def State.followAll (s before : State) : State :=
  (List.range 548).foldl (fun s j =>
    let src := j + 1
    if s.source src && !before.source src then s.sourceRise src
    else if before.source src && !s.source src then s.sourceFall src
    else s) s

/-! ## The cell logic test of a reset (R444 order 4, R456) -/

/-- Cells that fail twice are retired; a failure that does not repeat is logged (R456). -/
def State.cellsFound (s : State) (f : CellFinding) : State :=
  let twice := f.failFirst.filter fun n => f.failSecond.contains n && decide (n < 656)
  let once := f.failFirst.filter fun n => !f.failSecond.contains n && decide (n < 656)
  let s := once.foldl (fun s n => s.rasEvent stOK 19 f.cluster n .note) s
  if twice.isEmpty then s else (s.retire f.cluster twice).raise BIST_INT_STATUS.RETIRED

/-! ## Repair data (R444 order 3, R454) -/

/-- Repair entries of a target take effect at its reset. -/
def State.applyRepairs (s : State) (p : Nat → Bool) : State :=
  { s with rst := { s.rst with repairs := s.rst.repairs.map fun r => if p r.unit then { r with used := true } else r } }

/-! ## Matrix dies -/

/-- A matrix die leaves its reset: clusters in STOPPED, its DLN_ die block reset, the timer at 0, its trims restored. -/
def State.matrixUp (s : State) (d : Nat) : State :=
  let s := s.applyRepairs fun u => u / 128 == d
  let s := (dieClusters d).foldl (fun s c =>
    let s := s.cluUp c true
    if s.held c then s.wr CLU_STATUS.STATE cFaulted c else s) s
  let s := s.resetBlock .dlnDie d 0x1000
  let s := { s with beats := ⟨eraseK s.beats.acc d, eraseK s.beats.admits d⟩ }
  let s := s.setAge fun a => { a with units := (dieClusters d).foldl (fun m c =>
    setK AgeUnit.fresh m c (getK AgeUnit.fresh a.hist c)) a.units }
  (s.setPwr fun p => { p with
    holdAt := eraseK p.holdAt d
    droops := p.droops.filter fun r => match r with | .vfab x => x.val != d | _ => true }).bootBudgets [d]

/-! ## Hub dies -/

/-- The ports of a hub die (R29). -/
def hubPorts (n : Nat) : List Nat := (List.range 8).map (· + 8 * n)

/-- A port of a die in reset is down at once, and what it holds is lost (R409). -/
def State.portLost (s : State) (p : Nat) : State :=
  (s.setPort p fun x => { ObPort.idle with present := x.present }).wr OBL_PORT_STATUS.STATE
    (if (s.port p).present then pDown else pEmpty) p

/-- A hub die's home recalls every line its directory records (R304). -/
def State.recallAll (s : State) (n : Nat) : State :=
  let es := s.coh.dir.filter fun (e : Nat × DirEnt) => decide (s.home e.1 = n) && (s.txn e.1).isNone
  let s := es.foldl (fun s (e : Nat × DirEnt) =>
    s.snoopAll e.1 (Txn.of none .recall) (e.2.holders.map fun a => (a, .snpInv))) s
  s.goOnAll

/-- The Cocoon site goes down with HD1: its requests are no longer taken, and a bring-up is due at the exit (R382). -/
def State.siteDown (s : State) : State :=
  let s := s.setCoc fun _ => ⟨true, false, false, false, false, [], none, 0⟩
  let s := { s with coh := { s.coh with net := s.coh.net.filter fun m => !forCocoon m } }
  (s.wr COC_STATUS.STATE cocEMPTY).cocoonClass

/-- HD0's host side goes down: the link, the rings and their completion records (R341, R368), and the host's snoops that
wait. -/
def State.hostDown (s : State) : State :=
  let snoop (r : Req) : Bool := match r.kind with | .hostSnp _ => true | _ => false
  let s := s.setCoh fun c => { c with
    lineq := (c.lineq.map fun (e : Nat × List Req) => (e.1, e.2.filter fun r => !snoop r)).filter fun e => !e.2.isEmpty }
  let s := if s.on HOST_LINK.UP then { s with host := { s.host with downAt := s.us } } else s
  (s.wr HOST_LINK.UP 0).cutRings fun _ => true

/-- A hub's stacks refresh themselves, and so keep their contents, while its controllers are halted (R310, R330). -/
def State.selfRefresh (s : State) (n : Nat) : State :=
  { s with mem := { s.mem with
    selfRef := (List.range 6).foldl (fun m i => setK false m (6 * n + i) true) s.mem.selfRef } }

/-- A hub die enters its reset. -/
def State.hubDown (s : State) (n : Nat) : State :=
  let s := (hubPorts n).foldl State.portLost s
  let s := { s with obl := { s.obl with getq := eraseK s.obl.getq n } }
  let s := (s.recallAll n).selfRefresh n
  if n = 0 then s.hostDown else s.siteDown

/-- What is left in a hub's directory at the exit: lines not answered are poisoned, data that came are kept, requests in
progress wait again, and the directory is empty. -/
def State.emptyDir (s : State) (n : Nat) : State :=
  let mine (k : Nat) : Bool := decide (s.home k = n)
  let ts := s.coh.txns.filter fun (e : Nat × Txn) => mine e.1
  let s := ts.foldl (fun s (e : Nat × Txn) =>
    let owner := (s.entry e.1).bind (·.owner)
    let late := match owner with | some a => e.2.waiting.contains a || e.2.puts.contains a | none => false
    let s := if late then s.poisonLine e.1 stEcc (owner.getD 0) else s.saveDirty e.1 e.2
    match e.2.req with
    | some r => s.setCoh fun c => { c with lineq := insK c.lineq e.1 (r :: getK [] c.lineq e.1) }
    | none => s) s
  let open_ := ts.map (·.1)
  let s := (s.coh.dir.filter fun (e : Nat × DirEnt) => mine e.1 && !open_.contains e.1).foldl
    (fun s (e : Nat × DirEnt) => match e.2.owner with
      | some a => s.poisonLine e.1 stEcc a
      | none => s) s
  s.setCoh fun c => { c with
    dir := c.dir.filter fun e => !mine e.1
    txns := c.txns.filter fun e => !mine e.1
    tokq := c.tokq.filter fun e => e.1 / 262144 != n
    tokUsed := c.tokUsed.filter fun e => e.1 / 8192 != n
    hostGrant := if n = 0 then [] else c.hostGrant
    fresh := c.fresh.filter fun e => !mine e.1 }

/-- A hub's system cache and add buffers are written back and come back empty, its trackers cleared (R330). -/
def State.flushHub (s : State) (n : Nat) : State :=
  let s := (List.range 16).foldl (fun s w => (s.cleanWay n w).dropWay n w) s
  let cs := (List.range 6).map (· + 6 * n)
  let s := cs.foldl (fun s c => (getK [] s.mem.addbuf c).foldl State.hbmStore s) s
  let hub (p : Nat) : Bool := p / 384 != n
  { s with mem := { s.mem with
    addbuf := cs.foldl eraseK s.mem.addbuf
    trackers := eraseK s.mem.trackers n
    preload := eraseK s.mem.preload n
    credit := dropRange s.mem.credit (16 * n) (16 * n + 16)
    charged := dropRange s.mem.charged (16 * n) (16 * n + 16)
    powerDown := s.mem.powerDown.filter fun e => hub e.1
    selfRef := s.mem.selfRef.filter fun e => e.1 / 6 != n
    geyTest := eraseK s.mem.geyTest n
    geyq := if n = 0 then [] else s.mem.geyq
    geyDone := if n = 0 then [] else s.mem.geyDone } }

/-- The SC_ block is reset: every way ON and unlocked, but for the disabled ways of R329, and those on their way there, whose
sequence the reset ends. -/
def State.resetSc (s : State) (n : Nat) : State :=
  let s := (List.range 16).foldl (fun s w => if s.leaving n w then s.wayDisabled n w else s) s
  let off := s.rd SC_WAY_DISABLE.DISABLED n
  let s := (s.resetBlock .sc n 0x1000).wr SC_WAY_DISABLE.DISABLED off n
  (List.range 16).foldl (fun s w => if bit off w then s.wr SC_WAY_STATE.STATE 3 n 0 w else s) s

/-- Pseudo-channels of a hub in service. -/
def State.hubService (s : State) (n : Nat) : Nat :=
  ((List.range 384).filter fun k => !s.mappedOut (384 * n + k)).length

/-- The HUB_ block is reset; PC_IN_SERVICE is from training. -/
def State.resetHubId (s : State) (n : Nat) : State :=
  (s.resetBlock .hub n 0x1000).wr HUB_ID.PC_IN_SERVICE (s.hubService n) n

/-- Training at the exit from a reset marks what lane repair cannot cover FAILED and never changes P (R314). -/
def State.retrain (s : State) (fs : List PcFinding) (n : Nat) : State :=
  (fs.filter fun f => !f.repairable && f.pc.val / 384 == n).foldl (fun s f => s.failPc f.pc) s

/-- Status fields and counters of the global OBL block (R412), which goes with HD0. -/
def oblStatusFlds : List Fld :=
  [OBL_CTRL.REJECT, OBL_DROP.LINK, OBL_DROP.NOROUTE, OBL_DROP2.LOOP, OBL_DROP2.STALE, OBL_DROP2.QUIET,
    OBL_NACK_LAST.STATUS, OBL_NACK_LAST.SRC, OBL_NACK_LAST.JOB, OBL_NACK_LAST.VALID, OBL_INT_STATUS.DROP,
    OBL_INT_STATUS.NACK, OBL_INT_STATUS.PORT]

/-- Status fields and counters of a port. -/
def portStatusFlds : List Fld :=
  [OBL_PORT_STATUS.STATE, OBL_PORT_PARTNER.ADDR, OBL_PORT_PARTNER.EPOCH, OBL_PORT_PARTNER.PORT, OBL_PORT_FRAMES.COUNT,
    OBL_PORT_RETRY.RESENT, OBL_PORT_RETRY.RECOVERIES, OBL_PORT_TX.BYTES, OBL_PORT_RX.BYTES, OBL_PORT_INT_STATUS.UP,
    OBL_PORT_INT_STATUS.DOWN, OBL_PORT_INT_STATUS.PARTNER]

/-- The reset epoch advances, the quiet period begins, and the ports train again (R409, R410). -/
def State.oblUp (s : State) (hubs : List Nat) : State :=
  let ps := hubs.flatMap hubPorts
  let s := ps.foldl (fun s p => (s.portLost p).clearFlds p portStatusFlds) s
  let s := if hubs.contains 0 then s.clearFlds 0 oblStatusFlds else s
  let s := { s with obl := { s.obl with quietAt := s.us } }
  ((s.wr OBL_STATUS.EPOCH (s.ownEpoch + 1)).wr OBL_STATUS.QUIET 1).portsSettle

/-- HD0's host port, bridge and geyser commands are reset (R338, R367, R368). -/
def State.resetHostPort (s : State) : State :=
  let s := (((s.resetBlock .host 0 0x20000).resetBlock .ringGlobal 0 0x1000).resetBlock .geyCmd 0 0x1000).configDefaults
  (List.range 1024).foldl State.ringReset s

/-- The COC_ registers but COC_CFG and COC_ENF are reset (R390). -/
def State.resetCoc (s : State) : State :=
  let keep := [COC_CFG.MODE_PREF, COC_CFG.RATE_MAX, COC_ENF.GRACE_MS, COC_ENF.DOWN_MS, COC_ENF.WIN_US, COC_ENF.REJECT]
  let vals := keep.map fun f => (f, s.rd f)
  vals.foldl (fun s p => s.wr p.1 p.2) (s.resetBlock .coc 0 0x1000)

/-- A hub die leaves its reset. -/
def State.hubUp (s : State) (n : Nat) (t : ResetIn) : State :=
  let s := (((s.emptyDir n).flushHub n).resetSc n).retrain t.hbm n
  let s := (((s.resetBlock .dir n 0x1000).resetBlock .hbmHub n 0x1000).resetBlock .geyTest n 0x1000).resetHubId n
  let s := s.setPwr fun p => { p with droops := p.droops.filter fun r => match r with | .vhub x => x.val != n | _ => true }
  let s := s.bootBudgets [4 + n]
  if n = 0 then s.resetHostPort else (s.siteDown).resetCoc

/-! ## The core die -/

/-- The core die enters its reset: store buffers are lost, every cached line is written back through the cache write-back
path, and the harts are held (R253, R271). -/
def State.coresDown (s : State) : State :=
  let s := { s with cores := { s.cores with core := [], xregs := [] } }
  s.coh.caches.foldl (fun s (e : Nat × CLine) => s.giveUp (e.1 / 128) (e.1 % 128)) s

/-- The CSRs of every hart are reset but FIRED (R272); the group's frequency stays within its highest. -/
def State.resetCsrs (s : State) (keepFired : Bool) : State :=
  (List.range 96).foldl (fun s h =>
    let fired := if keepFired then s.rd mwdog.FIRED h else 0
    ((s.resetBlock .csr h 0x10000).wr mwdog.FIRED fired h).wr mcoreinfo.FREQ (s.topFreq (h / 8)) h) s

/-- The core die leaves its reset: empty caches, APLIC, IMSICs, comparators and counters reset, harts held. -/
def State.coresUp (s : State) (keepFired : Bool) : State :=
  let s := if s.coh.caches.isEmpty then s else s.dropCores
  let s := s.applyRepairs fun u => decide (512 ≤ u)
  let s := { s with irq := ⟨[], [], s.irq.msix⟩, cores := ⟨[], [], s.cores.mtime, [], [], []⟩ }
  (s.resetCsrs keepFired).bootBudgets [6]

/-! ## The package -/

/-- What a package reset keeps of the HBM_ global block: P, POLICY, the map-out list and HBM_FAILED (R313, R314, R337). -/
def State.resetHbmGlobal (s : State) : State :=
  let p := s.rd HBM_MAP.P
  let pol := s.rd HBM_MAP.POLICY
  let outs := (List.range 12).map fun j => (j, s.rd HBM_MAPOUT.OUT 0 j, s.rd HBM_FAILED.FAILED 0 j)
  let s := ((s.resetBlock .hbmGlobal 0 0x1000).wr HBM_MAP.P p).wr HBM_MAP.POLICY pol
  let s := outs.foldl (fun s x => (s.wr HBM_MAPOUT.OUT x.2.1 0 x.1).wr HBM_FAILED.FAILED x.2.2 0 x.1) s
  { s with mem := { s.mem with pmap := [] } }

/-- The tier manager at a package reset: TIER_ registers but SESSION are reset, the tables keep every field and stand in their
region, and commands issued before do not complete (R210, R236, R239). -/
def State.resetTier (s : State) : State :=
  let id := s.rd TIER_SESSION.SESSION
  let s := if s.on TIER_CTRL.EN then s.putTables else s
  let s := (s.resetBlock .tier 0 0x1000).wr TIER_SESSION.SESSION id
  s.setTier fun t => { t with
    waiting := []
    objs := t.objs.map fun (e : Nat × Obj) => (e.1, { e.2 with
      waits := [], sums := e.2.sums.map fun x => (x.1, .loader) }) }

/-- Every directory and core cache is cleared, with nothing poisoned (R304). -/
def State.wipeCoherence (s : State) : State :=
  { s with coh := ⟨[], [], [], [], [], [], [], [], [], [], [], s.coh.tick⟩ }

/-- Every slot is emptied (R143) and its registers are reset. -/
def State.emptySlots (s : State) : State :=
  let s := (List.range 16).foldl (fun s k =>
    ((s.releaseSlot k).resetBlock .plnSlot k 0x1000).resetBlock .dlnSlot k 0x1000) s
  let bare (e : Nat × Clu) : Nat × Clu := (e.1, { e.2 with shadow := none, act := none })
  let s := { s with clus := (s.clus.map bare).filter fun e => decide (e.2 ≠ Clu.rest) }
  s.resetBlock .plnGlobal 0 0x1000

/-- The Hawkmoth's next draw from its entropy source (a free value, log entry 60). -/
def State.draw (s : State) : Nat := Config.entropy s.trust.draws % 2 ^ 256
def State.drawn (s : State) : State := { s with trust := { s.trust with draws := s.trust.draws + 1 } }

/-- The nonce of authorisations is replaced by 32 fresh random bytes (R470). -/
def State.newNonce (s : State) : State :=
  (List.range 4).foldl (fun t j => t.wr SEC_AUTH_NONCE.NONCE (bits s.draw (64 * j) 64) 0 j) s.drawn

/-- The SEC_ block is reset but for DEBUG (R471, R478), and the Hawkmoth draws a new nonce (R470). -/
def State.resetSec (s : State) : State :=
  let dbg := s.rd SEC_STATUS.DEBUG
  ((s.resetBlock .sec 0 0x1000).wr SEC_STATUS.DEBUG dbg).newNonce

/-- The PWR_ block is reset but for PWR_LAST_OFF (R435). -/
def State.resetPwr (s : State) : State :=
  let c := s.rd PWR_LAST_OFF.CAUSE
  let src := s.rd PWR_LAST_OFF.SOURCE
  ((s.resetBlock .pwr 0 0x1000).wr PWR_LAST_OFF.CAUSE c).wr PWR_LAST_OFF.SOURCE src

/-- The package enters its reset, which contains the Hawkmoth: its key store is cleared and boot runs at the exit. -/
def State.packageDown (s : State) : State :=
  let s := (((List.range 16).foldl State.portLost s).hostDown.siteDown.selfRefresh 0).selfRefresh 1
  let s := { s with cores := { s.cores with core := [], xregs := [] }, obl := { s.obl with getq := [] } }
  let s := s.resetSec
  { s with
    board := { s.board with boot := .pending, activating := none }, trust := { s.trust with seed := none }
    rst := { s.rst with due := none } }

/-- The dies of the package leave their reset. -/
def State.packageUp (s : State) (t : ResetIn) : State :=
  let s := s.wipeCoherence
  let s := (List.range 4).foldl State.matrixUp s
  let s := s.emptySlots
  let s := [0, 1].foldl (fun s n => s.hubUp n t) s
  let s := (s.wipeCoherence.coresUp false).resetHbmGlobal.resetTier
  let s := { s with cores := { s.cores with mtime := 0 }, host := { s.host with mctp := [] } }
  let s := ((s.resetBlock .d2dGlobal 0 0x1000).resetBlock .coc 0 0x1000).resetPwr
  let s := (List.range 15).foldl (fun s l => s.resetBlock .d2dLink l 0x100) s
  let s := (s.resetBlock .age 0 0x1000).resetBlock .bist 0 0x1000
  let s := s.setPwr fun p => { p with
    samples := [], polls := [], cut := [], hot := [], cool := [], hubCut := [], stackHot := [], slow := none,
    limiting := false, droops := [], holdAt := [], derated := 0, scale := [] }
  let s := { s with
    ras := { s.ras with queue := [] }
    rst := { s.rst with rot := [], hmKick := s.us, linkResets := s.rst.linkResets.filter fun x => x.1 == dPackage } }
  s.restoreHistory

/-! ## The start of any reset -/

/-- BIST targets that a reset contains are abandoned (R446): core groups and ways. -/
def State.abandonIn (s : State) (x : Nat × Nat) : State :=
  let s := if x.1 = dCore ∨ x.1 = dPackage then (List.range 12).foldl (fun s g => s.abandonTest 1 g) s else s
  if x.1 = dHub ∨ x.1 = dPackage then
    (List.range 32).foldl (fun s w => if x.1 = dPackage ∨ w / 16 = x.2 then s.abandonTest 2 w else s) s
  else s

/-- A reset of any domain begins (R444, R446). -/
def State.startReset (s : State) (x : Nat × Nat) (source cause : Nat) : State :=
  if s.absorbs x then s
  else
    let before := s
    let s := (s.abandonIn x).beginReset x source cause
    let s := match x.1 with
      | 2 => s.hubDown x.2
      | 3 => s.coresDown
      | 4 => s.packageDown
      | _ => s
    s.followAll before

/-! ## Escalation (R449) -/

/-- The bit of RAS_ESCALATE.MASK of a domain. -/
def escalateBit (domain : Nat) : Nat := domain - 1

/-- A reset that the Hawkmoth starts itself counts where MASK names its domain; the one that brings the count to LIMIT
ends in OUT_OF_SERVICE (R449). -/
def State.countedReset (s : State) (x : Nat × Nat) (source cause : Nat) : State :=
  if s.absorbs x then s
  else
    let s := if ¬ bit (s.rd RAS_ESCALATE.MASK) (escalateBit x.1) then s
      else
        let ts := recentTimes s (s.rd RAS_ESCALATE.WINDOW_S) s.rst.modTimes ++ [s.us]
        let s := { s with rst := { s.rst with modTimes := ts } }
        if s.rd RAS_ESCALATE.LIMIT ≤ ts.length then { s with rst := { s.rst with escalated := some cause } } else s
    s.startReset x source cause

/-! ## FAILED links (R375) -/

/-- The links a domain forms at its exit. -/
def formedLinks (x : Nat × Nat) : List Nat :=
  match x.1 with
  | 1 => matrixLinks x.2
  | 2 => hubLinks x.2
  | 3 => [9, 10]
  | 4 => allLinks
  | _ => []

/-- The matrix dies at the ends of a link. -/
def linkDies (link : Nat) : List Nat :=
  if link < 8 then [link % 4]
  else match link with
    | 11 => [0, 1]
    | 12 => [0, 2]
    | 13 => [1, 3]
    | 14 => [2, 3]
    | _ => []

/-- A reset that a FAILED link causes is noted, so that a second failure at its exit is known. -/
def State.noteLink (s : State) (x : Nat × Nat) : State :=
  { s with rst := { s.rst with linkResets := (s.rst.linkResets.filter (· != x)) ++ [x] } }

/-- What the Hawkmoth does about a FAILED link (R375): it resets the matrix dies at its ends, and a package reset is due
where it has none. -/
def State.linkFails (s : State) (link : Nat) : State :=
  if linkDies link = [] then
    { s.noteLink (dPackage, 0) with rst := { (s.noteLink (dPackage, 0)).rst with due := some (2, stEcc) } }
  else (linkDies link).foldl (fun s d =>
    if s.absorbs (dMatrix, d) then s else (s.noteLink (dMatrix, d)).countedReset (dMatrix, d) 2 stEcc) s

/-- The links of a list that are FAILED. -/
def State.failedLinks (s : State) (ls : List Nat) : List Nat := ls.filter fun l => s.rd D2D_LINK_STATUS.STATE l == 4

/-! ## The exit from a reset (R444 order 6) -/

/-- Whether a condition that took the module out of service still holds (R451): more than 48 pseudo-channels mapped out, or
the coolant limit. -/
def State.stillOut (s : State) : Bool := decide (s.rd HBM_MAP.P < 720) || s.lasted s.pwr.warm50

/-- After a package reset that RESTORE started, the module is in service again unless its condition still holds. -/
def State.settleService (s : State) : State :=
  if s.rst.restoring then
    let s := { s with rst := { s.rst with restoring := false, modTimes := [] } }
    let s := ((s.wr RAS_SERVICE.OUT 0).wr RAS_SERVICE.CAUSE stOK).portsSettle
    if s.stillOut then s.outOfService stOutOfService else s
  else s

/-- The escalation that the reset carried takes effect (R449). -/
def State.settleEscalation (s : State) : State :=
  match s.rst.escalated with
  | some cause =>
    if s.rst.busy.any fun b => b.1 != dCluster then s
    else { s with rst := { s.rst with escalated := none } }.outOfService cause
  | none => s

/-- The contents of a domain leave their reset. -/
def State.domainUp (s : State) (x : Nat × Nat) (t : ResetIn) : State :=
  match x.1 with
  | 0 => (s.applyRepairs fun u => u == x.2).cluUp x.2 false
  | 1 => s.matrixUp x.2
  | 2 => (s.hubUp x.2 t).oblUp [x.2]
  | 3 => s.coresUp true
  | _ => (s.packageUp t).oblUp [0, 1]

/-- Failing cells of the logic test of a matrix-die or package reset. -/
def State.testedCells (s : State) (x : Nat × Nat) (t : ResetIn) : State :=
  (t.cells.filter fun f => x.1 == dPackage || (x.1 == dMatrix && dieOf f.cluster == x.2)).foldl State.cellsFound s

/-- A reset whose die's links fail again at its exit after a reset for a link: the die stays in reset (R375). -/
def State.heldInReset (s : State) (x : Nat × Nat) : Bool :=
  x.1 == dMatrix && s.rst.linkResets.contains x && !(s.failedLinks (matrixLinks x.2)).isEmpty

/-- The links formed at an exit that are FAILED: a package that fails so again goes out of service. -/
def State.linksAtExit (s : State) (x : Nat × Nat) : State :=
  let bad := s.failedLinks (formedLinks x)
  let again := s.rst.linkResets.contains x
  let s := { s with rst := { s.rst with linkResets := s.rst.linkResets.filter (· != x) } }
  bad.foldl (fun s l =>
    if again && x.1 == dPackage && (linkDies l).isEmpty then s.outOfService stEcc else s.linkFails l) s

/-- RESET_COMPLETE (R444 order 6): the reset exits. -/
def execResetComplete (domain : Fin 5) (target : Fin 512) (t : ResetIn) (s : State) : Answer :=
  .next <|
    let x := (domain.val, target.val)
    if ¬ s.rst.busy.contains x then s
    else
      let before := s
      let s := s.formLinks t.bundles (formedLinks x)
      if s.heldInReset x then s
      else
        let s := (s.domainUp x t).testedCells x t
        let s := if x.1 = dPackage then s.formLinks t.bundles allLinks else s
        let s := (s.resetRecord x).followAll before
        ((s.goOnAll.tierGoOn.linksAtExit x).settleEscalation).settleService

end Sys2Proof.Machine
end

