-- ==== Sys2Proof/Machine/Recovery.lean ====
section
/-! DEFINITION. Machine/Recovery.lean: the commands of resets, error reporting and self-test (R438 to R460). -/

namespace Sys2Proof.Machine

/-! ## Requested resets (R443, R458) -/

/-- A reset is requested through RAS_RESET: its cause is OK. -/
def State.requestReset (s : State) (x : Nat × Nat) : State :=
  (s.wr RAS_RESET.REJECT stOK).startReset x 0 stOK

/-- CLUSTER_RESET: accepted although a slot owns the cluster (R448); a held cluster is not reset (R449). -/
def execClusterReset (o : Origin) (c : Fin 512) (s : State) : Answer :=
  .next <| s.asReg o (RAS_RESET.GO.addr 0 0) fun s =>
    if s.held c then s.wr RAS_RESET.REJECT stOK else s.requestReset (dCluster, c.val)

/-- MATRIX_DIE_RESET. -/
def execMatrixDieReset (o : Origin) (d : Fin 4) (s : State) : Answer :=
  .next <| s.asReg o (RAS_RESET.GO.addr 0 0) fun s => s.requestReset (dMatrix, d.val)

/-- HUB_DIE_RESET. -/
def execHubDieReset (o : Origin) (n : Fin 2) (s : State) : Answer :=
  .next <| s.asReg o (RAS_RESET.GO.addr 0 0) fun s => s.requestReset (dHub, n.val)

/-- CORE_DIE_RESET. -/
def execCoreDieReset (o : Origin) (s : State) : Answer :=
  .next <| s.asReg o (RAS_RESET.GO.addr 0 0) fun s => s.requestReset (dCore, 0)

/-- PACKAGE_RESET: requested, or the one that the Hawkmoth owes for a FAILED link or an uncorrectable error in the tier
metadata region (R375, R443). -/
def execPackageReset (o : Origin) (s : State) : Answer :=
  .next <| match o with
  | .hawkmoth =>
    match s.rst.due with
    | some (source, cause) => s.countedReset (dPackage, 0) source cause
    | none => s
  | _ => s.asReg o (RAS_RESET.GO.addr 0 0) fun s => s.requestReset (dPackage, 0)

/-! ## Resets the part starts itself (R443) -/

/-- Whether RAS_HM_WDOG.PERIOD_MS has passed since the kick that boot is (R440, R441, R458); the kicks of the Hawkmoth's
firmware have no command (log entry 193). -/
def State.hawkmothLate (s : State) : Bool :=
  decide (s.rst.hmKick + 1000 * max 100 (min (s.rd RAS_HM_WDOG.PERIOD_MS) 60000) ≤ s.us)

/-- HAWKMOTH_WATCHDOG (R441): a package reset by the always-on reset controller, its period after the last kick at the
earliest. -/
def execHawkmothWatchdog (s : State) : Answer :=
  .next (if s.hawkmothLate then s.countedReset (dPackage, 0) 5 stCounterTimeout else s)

/-- CLUSTER_RESET_TIMEOUT: a cluster reset that has not completed in 1 ms makes a matrix-die reset. -/
def execClusterResetTimeout (c : Fin 512) (s : State) : Answer :=
  .next <|
    if s.rst.busy.contains (dCluster, c.val) then s.countedReset (dMatrix, dieOf c) 1 stCounterTimeout else s

/-- CONTROLLER_TIMEOUT: an HBM controller or geyser engine has not answered the Hawkmoth for 10 ms. -/
def execControllerTimeout (n : Fin 2) (s : State) : Answer :=
  .next (s.countedReset (dHub, n.val) 3 stCounterTimeout)

/-! ## Errors (R438, R439, R451) -/

/-- CONFIG_SCRUB (R438): every 10 s the Hawkmoth reads the clusters' configuration: a corrected word is rewritten and
counted as a RAS event, an uncorrectable one faults the cluster; so does a parity error of a vector register, which has no
row of its own (log entry 196). -/
def execConfigScrub (corrected : List (Fin 512)) (uncorrectable : List (Fin 512)) (s : State) : Answer :=
  .next <|
    let s := corrected.foldl (fun (s : State) c => s.rasEvent stOK 0 c.val 0 .corrected) s
    uncorrectable.foldl (fun (s : State) c => s.memoryFault c.val) s

/-- POP (R458): the oldest record of the queue is removed. -/
def execPop (o : Origin) (s : State) : Answer :=
  .next <| s.asReg o (RAS_EVT_POP.POP.addr 0 0) fun s =>
    { s with ras := { s.ras with queue := s.ras.queue.drop 1 } }

/-- UE_ACK (R40, R458): logged uncorrectable errors are acknowledged. -/
def execUeAck (o : Origin) (s : State) : Answer :=
  .next <| s.asReg o (RAS_UE_ACK.ACK.addr 0 0) fun s => { s with ras := { s.ras with ueOpen := false } }

/-- Whether an access comes from the PF or from a core in M-mode (R478). -/
def trusted : Origin → Bool
  | .pf => true
  | .core _ m => m
  | _ => false

/-- Service is restored by a package reset (R451). -/
def State.restoreService (s : State) : State :=
  if s.on RAS_SERVICE.OUT then
    ({ s with rst := { s.rst with restoring := true } }).startReset (dPackage, 0) 0 stOK
  else s

/-- RESTORE: acted on only from the PF or a core in M-mode. -/
def execRestore (o : Origin) (s : State) : Answer :=
  .next <| s.asReg o (RAS_SERVICE.RESTORE.addr 0 0) fun s => if trusted o then s.restoreService else s

/-- A held cluster is released: its bit and its count clear, and it is reset by R448 (R451). -/
def State.releaseHeld (s : State) (c : Nat) : State :=
  if s.held c then
    let s := s.wr RAS_CLU_HELD.HELD (setBit (s.rd RAS_CLU_HELD.HELD 0 (c / 64)) (c % 64) false) 0 (c / 64)
    ({ s with rst := { s.rst with cluTimes := eraseK s.rst.cluTimes c } }).autoReset c
  else s

/-- HELD_RELEASE. -/
def execHeldRelease (o : Origin) (c : Fin 512) (s : State) : Answer :=
  .next <| s.asReg o (RAS_CLU_HELD.HELD.addr 0 (c / 64)) fun s => s.releaseHeld c

/-! ## Self-test (R452 to R456) -/

/-- Whether a slot lets a logic test run on its clusters: its EXEC is IDLE. -/
def State.slotIdle (s : State) (k : Nat) : Bool := s.rd DLN_SLOT_EXEC.EXEC k == 0

/-- Whether a cluster may take a test; one with a memory test only while no slot owns it. -/
def State.cluMayTest (s : State) (c : Nat) (memory : Bool) : Bool :=
  !(s.clu c).bist && (match (s.clu c).owner with
    | none => s.cluSt c == cStopped || s.cluSt c == cOff
    | some k => !memory && s.cluSt c == cStopped && s.slotIdle k)

/-- Whether every core of a group is OFF. -/
def State.groupOff (s : State) (g : Nat) : Bool := (List.range 8).all fun k => (s.core (8 * g + k)).power == 3

/-- Whether the table of R452 allows a test: 1 logic, 2 memory, 3 both. -/
def State.mayTest (s : State) (kind target test : Nat) : Bool :=
  !s.on BIST_CMD.BUSY && decide (1 ≤ test) && (match kind with
    | 0 => decide (target < 512) && s.cluMayTest target (2 ≤ test)
    | 1 => decide (target < 12) && s.groupOff target
    | 2 => test == 2 && decide (target < 32) && decide (2 ≤ s.wayState (target / 16) (target % 16))
    | _ => false)

/-- A cluster under test: it is woken, uncounted, and its landings wait. -/
def State.takeForTest (s : State) (c : Nat) : State := (s.bringUp c).setClu c fun x => { x with bist := true }

/-- BIST_CMD.GO (R452). -/
def State.startTest (s : State) (kind target test : Nat) : State :=
  if s.mayTest kind target test then
    let s := ((s.wr BIST_CMD.KIND kind).wr BIST_CMD.TARGET target).wr BIST_CMD.TEST test
    let s := ((s.wr BIST_CMD.BUSY 1).wr BIST_CMD.REJECT stOK).wr BIST_RESULT.ABANDONED 0
    if kind = 0 then s.takeForTest target else s
  else s.wr BIST_CMD.REJECT stBadDescriptor

/-- LOGIC_TEST. -/
def execLogicTest (o : Origin) (kind : Fin 4) (target : Fin 1024) (s : State) : Answer :=
  .next <| s.asReg o (BIST_CMD.GO.addr 0 0) fun s => s.startTest kind target 1

/-- MEMORY_TEST. -/
def execMemoryTest (o : Origin) (kind : Fin 4) (target : Fin 1024) (s : State) : Answer :=
  .next <| s.asReg o (BIST_CMD.GO.addr 0 0) fun s => s.startTest kind target 2

/-- LOGIC_AND_MEMORY_TEST. -/
def execLogicAndMemoryTest (o : Origin) (kind : Fin 4) (target : Fin 1024) (s : State) : Answer :=
  .next <| s.asReg o (BIST_CMD.GO.addr 0 0) fun s => s.startTest kind target 3

/-- The cells of a list as the eleven words of BIST_FAILMAP. -/
def State.failMap (s : State) (cells : List Nat) : State :=
  let m := cells.foldl (fun (n : Nat) k => n ||| 2 ^ k) 0
  (List.range 11).foldl (fun s j => s.wr BIST_FAILMAP.CELLS (bits m (64 * j) 64) 0 j) s

/-- A logic test ends: signatures, the calderas +0, and the failing cells (R452, R453, R456). Whether it passed. -/
def State.logicEnds (s : State) (kind target : Nat) (f : LogicFinding) : State × Bool :=
  let want := Config.bistExpect kind target % 2 ^ 64
  let s := (s.wr BIST_SIG.SIG f.sig.toNat).wr BIST_EXPECT.EXPECT want
  let pass := decide (f.sig.toNat = want)
  if kind = 0 then
    let cells := (f.failFirst.filter fun n => decide (n < 656)).eraseDups
    let s := ((s.restCells target).failMap cells).wr BIST_RESULT.CELLS_FAILED cells.length
    (s.cellsFound ⟨Fin.ofNat 512 target, cells, f.failSecond⟩, pass && cells.isEmpty)
  else (s.failMap [], pass)

/-- The number a target has among the repair entries: a cluster, or 512 + a core group. -/
def repairUnit (kind target : Nat) : Nat := if kind = 0 then target else 512 + target

/-- Repair entries are written for the failing rows, each once (R454): how many, and whether some bank or L2 has no spare
row left. -/
def State.repairRows (s : State) (unit spares : Nat) (rows : List (Nat × Nat)) : State × Nat × Bool :=
  rows.foldl (fun p x =>
    let mine := p.1.rst.repairs.filter fun r => r.unit == unit && r.bank == x.1
    if mine.any fun r => r.row == x.2 && !r.used then p
    else if spares ≤ mine.length then (p.1, p.2.1, true)
    else ({ p.1 with rst := { p.1.rst with repairs := p.1.rst.repairs ++ [⟨unit, x.1, x.2, false⟩] } }, p.2.1 + 1, p.2.2))
    (s, 0, false)

/-- What a target whose memory exceeds its spare rows loses (R454). -/
def State.unrepairable (s : State) (kind target : Nat) : State :=
  if kind = 0 then s.retire target cellNumbers
  else { s with rst := { s.rst with groupsOff := s.rst.groupsOff ++ [target] } }

/-- A memory test ends: every bank of a cluster zero, the first failure reported, repair entries written, a failing way
disabled (R452 to R454). Whether it passed. -/
def State.memoryEnds (s : State) (kind target : Nat) (f : MemFinding) : State × Bool :=
  let s := if kind = 0 then (s.zeroSpad target).restCells target else s
  let s := match f.rows with
    | x :: _ =>
      ((s.wr BIST_MEMFAIL.BANK (if kind = 2 then target % 16 else x.1)).wr BIST_MEMFAIL.ROW x.2.1).wr BIST_MEMFAIL.WORD
        x.2.2
    | [] => s
  let s := s.wr BIST_MEMFAIL.VALID (b2n !f.rows.isEmpty)
  if f.rows.isEmpty then (s, true)
  else if kind = 2 then
    (if s.wayState (target / 16) (target % 16) = 3 then s else s.disableWay (target / 16) (target % 16), false)
  else
    let r := s.repairRows (repairUnit kind target) (if kind = 0 then 8 else 16) (f.rows.map fun x => (x.1, x.2.1))
    let s := (r.1.wr BIST_RESULT.ROWS_REPAIRED r.2.1).wr BIST_RESULT.UNREPAIRABLE (b2n r.2.2)
    (if r.2.2 then s.unrepairable kind target else s, false)

/-- The tests of a target end, and whether they passed. -/
def State.testsEnd (s : State) (kind target : Nat) (logic : Option LogicFinding) (mem : Option MemFinding) :
    State × Bool :=
  let a := match logic with | some f => s.logicEnds kind target f | none => (s, true)
  let b := match mem with | some f => a.1.memoryEnds kind target f | none => (a.1, true)
  (b.1, a.2 && b.2)

/-- Whole seconds since module power-on. -/
def State.seconds (s : State) : Nat := s.us / 1000000

/-- A cluster has been tested. -/
def State.cluTested (s : State) (c : Nat) : State :=
  let s := { s with rst := { s.rst with
    tested := insK s.rst.tested c (s.seconds + 1), overdue := s.rst.overdue.filter (· != c) } }
  (s.setClu c fun x => { x with bist := false }).wr BIST_ROT.OVERDUE s.rst.overdue.length

/-- A test, commanded or in rotation, that did not pass raises FAIL. -/
def State.failedTest (s : State) (pass : Bool) : State := if pass then s else s.raise BIST_INT_STATUS.FAIL

/-- The commanded test completes. -/
def State.commandedDone (s : State) (logic : Option LogicFinding) (mem : Option MemFinding) : State :=
  let kind := s.rd BIST_CMD.KIND
  let target := s.rd BIST_CMD.TARGET
  let test := s.rd BIST_CMD.TEST
  if logic.isSome ≠ (test = 1 ∨ test = 3) ∨ mem.isSome ≠ decide (2 ≤ test) then s
  else
    let s := ((s.wr BIST_RESULT.CELLS_FAILED 0).wr BIST_RESULT.ROWS_REPAIRED 0).wr BIST_RESULT.UNREPAIRABLE 0
    let r := s.testsEnd kind target logic mem
    let s := if kind = 0 then r.1.cluTested target else r.1
    let s := ((s.wr BIST_CMD.BUSY 0).wr BIST_RESULT.PASS (b2n r.2)).wr BIST_RESULT.DONE 1
    (s.raise BIST_INT_STATUS.DONE).failedTest r.2

/-- The oldest rotation test completes (R455). -/
def State.rotationDone (s : State) (c : Nat) (logicOnly : Bool) (logic : Option LogicFinding) (mem : Option MemFinding) :
    State :=
  if logic.isNone ∨ mem.isSome = logicOnly then s
  else
    let s := { s with rst := { s.rst with rot := s.rst.rot.drop 1 } }
    let r := s.testsEnd 0 c logic mem
    let s := r.1.cluTested c
    let s := ((s.wr BIST_ROT_LAST.CLUSTER c).wr BIST_ROT_LAST.PASS (b2n r.2)).wr BIST_ROT_LAST.LOGIC_ONLY (b2n logicOnly)
    (s.wr BIST_ROT_LAST.TIME_S s.seconds).failedTest r.2

/-- BIST_DONE: the commanded test completes while one runs, else the oldest rotation test, with what the tests found. -/
def execBistDone (logic : Option LogicFinding) (mem : Option MemFinding) (s : State) : Answer :=
  .next <|
    if s.on BIST_CMD.BUSY then s.commandedDone logic mem
    else match s.rst.rot with
      | (c, logicOnly) :: _ => s.rotationDone c logicOnly logic mem
      | [] => s

/-- Whether a matrix die's FABRIC grant leaves at least 10 W unused, by its budget and its scaled draw (R416, R455). -/
def State.powerSpare (s : State) (d : Nat) : Bool := decide (s.scaledDraw d + 40 ≤ s.dieBudget d)

/-- BIST_ROTATION (R455): the next cluster of a matrix die, in ascending index from NEXT, is tested: both tests where no
slot owns it, the logic test where its slot is IDLE. -/
def execBistRotation (d : Fin 4) (s : State) : Answer :=
  .next <|
    if ¬ s.on BIST_ROT.EN ∨ ¬ s.powerSpare d ∨ s.rst.rot.any fun r => dieOf r.1 == d.val then s
    else
      let from_ := s.rd BIST_ROT.NEXT
      let cs := dieClusters d
      let order := (cs.filter fun c => decide (from_ ≤ c)) ++ cs.filter fun c => decide (c < from_)
      match order.find? fun c => s.cluMayTest c false with
      | none => s
      | some c =>
        let only := (s.clu c).owner.isSome
        let s := (s.takeForTest c).wr BIST_ROT.NEXT ((c + 1) % 512)
        { s with rst := { s.rst with rot := s.rst.rot ++ [(c, only)] } }

/-- BIST_OVERDUE (R455): a cluster has not been tested within PERIOD_H hours. -/
def execBistOverdue (c : Fin 512) (s : State) : Answer :=
  .next <|
    let last := getK 0 s.rst.tested c
    if ¬ s.on BIST_ROT.EN ∨ s.seconds < last + 3600 * s.rd BIST_ROT.PERIOD_H ∨ s.rst.overdue.contains c.val then s
    else
      let s := { s with rst := { s.rst with overdue := s.rst.overdue ++ [c.val] } }
      (s.wr BIST_ROT.OVERDUE s.rst.overdue.length).raise BIST_INT_STATUS.OVERDUE

end Sys2Proof.Machine
end

