-- ==== Sys2Proof/Machine/Module.lean ====
section
/-! DEFINITION. Machine/Module.lean: the module's power, connectors, boot, firmware activation and management chain (R19 to
R42, R406 to R408, R461 to R466). -/

namespace Sys2Proof.Machine

/-! ## Power-off (R22, R24, R25, R428) -/

/-- Register fields that outlast a module power-off: those read from the flash, and what the terminals show. -/
def offFlds : List Fld := [HBM_MAP.POLICY, CHN_LINK.UPSTREAM, CHN_LINK.TAIL]

/-- The module with its regulators off (R24): everything is lost but the flash, its replay-protected area and its logs, the
host's memory, and what the outside holds at the terminals. That the SERVICE fast blink for a logged error does not outlast
the power-off, as the log does, is the model's choice (DESIGN CHOICE, log entry 156). -/
def State.withoutPower (s : State) : State :=
  let s0 := State.reset
  let cages := (s.obl.ports.map fun (e : Nat × ObPort) => (e.1, { ObPort.idle with present := e.2.present })).filter
    fun e => decide (e.2 ≠ ObPort.idle)
  let dark := { s.board with
    powered := false, boot := .pending, identify := false, chainErrAt := none, activating := none }
  let t : State := { s0 with
    pending := s.pending, hostMem := s.hostMem, flash := s.flash, ras := { s0.ras with log := s.ras.log }
    mem := { s0.mem with wayHist := s.mem.wayHist, mapNext := s.mem.mapNext }
    rst := { s0.rst with repairs := s.rst.repairs, retired := s.rst.retired, groupsOff := s.rst.groupsOff }
    host := { s0.host with perst := s.host.perst, cableA := s.host.cableA, cableB := s.host.cableB }
    obl := { s0.obl with ports := cages }
    trust := { s.trust with seed := none, fwDigest := s0.trust.fwDigest, fwKey := 0 }
    d2d := { s0.d2d with lanes := s.d2d.lanes }
    age := { s0.age with hist := s.age.hist, vminHist := s.age.vminHist, guardHist := s.age.guardHist }
    board := dark
    out := s.out, resp := s.resp }
  let t := (List.range 12).foldl (fun t j => t.wr HBM_MAPOUT.OUT (s.rd HBM_MAPOUT.OUT 0 j) 0 j) t
  offFlds.foldl (fun t f => t.wr f (s.rd f)) t

/-- A module power-off with its cause and source: the event log records it and PWR_LAST_OFF shows it (R428, R443). -/
def State.powerOff (s : State) (cause source : Nat) : State :=
  if ¬ s.board.powered then s
  else
    let r : RasRec := ⟨stOK, 18, false, true, 0, s.us, 0, cause + source * 16⟩
    let s := { s with ras := { s.ras with log := (s.ras.log ++ [r]).drop (s.ras.log.length + 1 - evlogCap) } }
    ((s.withoutPower).wr PWR_LAST_OFF.CAUSE cause).wr PWR_LAST_OFF.SOURCE source

/-- UNDERVOLTAGE (R22): the input stays below 42 V for 1 ms. -/
def execUndervoltage (s : State) : Answer := .next ((s.powerOff 1 0).setBoard fun b => { b with vin := false })

/-- OVERVOLTAGE (R22, R25): the input rises above 66 V; the input stage trips. -/
def execOvervoltage (s : State) : Answer :=
  .next ((s.powerOff 2 0).setBoard fun b => { b with vin := false, tripped := true })

/-- ENABLE_LOW (R24, R25). -/
def execEnableLow (s : State) : Answer := .next ((s.powerOff 0 0).setBoard fun b => { b with enable := false })

/-- The cause and source that PWR_LAST_OFF gives a THERMTRIP. -/
def tripCode : TripSource → Nat × Nat
  | .die d => (3, d.val)
  | .stack m => (4, 7 + m.val)

/-- THERMTRIP (R428): the input stage powers the module off by hardware. How a trip is cleared the spec does not say: here it
stands, with the input off, until POWER_ON (DESIGN CHOICE, log entry 157). -/
def execThermtrip (src : TripSource) (s : State) : Answer :=
  .next <|
    if s.board.powered then
      (s.powerOff (tripCode src).1 (tripCode src).2).setBoard fun b => { b with vin := false, tripped := true }
    else s

/-- What the rack's PMBus port reads (R26): the input stage's own measurements, whether or not the regulators run. They are
as of the last PMBUS_POLL (log entry 158). -/
def State.pmbusTelemetry (s : State) : InStage := s.board.stage

/-- PMBUS_WRITE (R26): acknowledged and ignored. -/
def execPmbusWrite (_reg : Byte) (_data : List Byte) (s : State) : Answer := .next s

/-! ## Power-on (R22, R313, R374) -/

/-- The map-out list that the Hawkmoth stored at the operator's command takes effect (R313). -/
def State.mapAsTold (s : State) : State :=
  let t := s.mem.mapNext.foldl (fun (s : State) (e : Nat × Nat) => s.wr HBM_MAPOUT.OUT e.2 0 e.1) s
  { t with mem := { t.mem with mapNext := [] } }

/-- HBM training at power-on (R313): what repair does not cover, or under MAPOUT every failing pseudo-channel, enters the
map-out list; P is what remains. -/
def State.trainHbm (s : State) (fs : List PcFinding) : State :=
  let s := s.mapAsTold
  let sparing := s.on HBM_MAP.POLICY
  let out := fs.filter fun f => !(sparing && f.repairable)
  let s := out.foldl (fun (s : State) f =>
    s.wr HBM_MAPOUT.OUT (setBit (s.rd HBM_MAPOUT.OUT 0 (f.pc / 64)) (f.pc % 64) true) 0 (f.pc / 64)) s
  s.wr HBM_MAP.P (768 - ((List.range 768).filter s.mappedOut).length)

/-- The session, the reset epoch and the first nonce are drawn (R239, R412, R470). -/
def State.powerDraws (s : State) : State :=
  let s := (s.wr TIER_SESSION.SESSION s.draw).drawn
  ((s.wr OBL_STATUS.EPOCH s.draw).drawn).newNonce

/-- What the flash holds of worn parts acts again: trims, V_MIN and guards, retired cells, disabled ways, repairs (R35,
R329, R434, R454). -/
def State.fromFlash (s : State) : State :=
  let s := s.restoreHistory
  let s := (List.range 512).foldl (fun (s : State) c => if cellNumbers.any (s.retiredCell c) then s.retireView c else s) s
  let s := s.mem.wayHist.foldl (fun (s : State) (e : Nat × Bool) =>
    (s.wr SC_WAY_STATE.STATE 3 (e.1 / 16) 0 (e.1 % 16)).wr SC_WAY_DISABLE.DISABLED
      (setBit (s.rd SC_WAY_DISABLE.DISABLED (e.1 / 16)) (e.1 % 16) true) (e.1 / 16)) s
  (List.range 96).foldl (fun s h => s.wr mcoreinfo.FREQ (s.topFreq (h / 8)) h) (s.applyRepairs fun _ => true)

/-- The regulators start and the power-on sequence runs, up to the boot. -/
def State.powerUp (s : State) (t : ResetIn) : State :=
  let s := s.setBoard fun b => { b with powered := true, tripped := false, boot := .pending }
  let s := ((s.powerDraws).trainHbm t.hbm).fromFlash
  let s := (s.resetHubId 0).resetHubId 1
  let s := (s.testedCells (dPackage, 0) t).formLinks t.bundles allLinks
  let s := (s.failedLinks allLinks).foldl State.linkFails s
  let s := (s.setCoc fun c => { c with due := true }).portsSettle
  if s.rd HBM_MAP.P < 720 then s.outOfService stOutOfService else s

/-- POWER_ON (R22): the input rises through 44 V with ENABLE high. -/
def execPowerOn (t : ResetIn) (s : State) : Answer :=
  .next <|
    let s := s.setBoard fun b => { b with vin := true }
    if s.board.enable ∧ ¬ s.board.powered then s.powerUp t else s

/-- ENABLE_HIGH (R25): ENABLE rises with the input in range. -/
def execEnableHigh (t : ResetIn) (s : State) : Answer :=
  .next <|
    let s := s.setBoard fun b => { b with enable := true }
    if s.board.vin ∧ ¬ s.board.powered then s.powerUp t else s

/-! ## Cages and the chain's tail (R29, R30, R32) -/

/-- A cage's two ports hold a device that can run four lanes, or none that can. -/
def State.cage (s : State) (c : Nat) (good : Bool) : State :=
  [2 * c, 2 * c + 1].foldl (fun s p =>
    let s := s.setPort p fun x => { x with present := good }
    if s.board.powered then s.portSettle p else s) s

/-- CAGE_INSERT: a device that cannot run four lanes at 212.5 Gb/s leaves the ports EMPTY. -/
def execCageInsert (cage : Fin 8) (supported : Bool) (s : State) : Answer := .next (s.cage cage supported)

/-- CAGE_REMOVE: both ports go down at once. -/
def execCageRemove (cage : Fin 8) (s : State) : Answer := .next (s.cage cage false)

/-- CH_PRES_CHANGE (R32): CH_PRES# high at CHAIN_OUT makes the module the tail. -/
def execChPresChange (low : Bool) (s : State) : Answer := .next (s.wr CHN_LINK.TAIL (b2n !low))

/-! ## Indicators and PMB_ALERT# (R25, R39, R40) -/

/-- What an indicator shows. -/
inductive Lamp where
  | off | steady | slow | fast
  deriving DecidableEq, Repr

/-- POWER: out of service, and stopped in its boot (R465), it shows neither of the table's states and is off (log entry 61). -/
def State.powerLamp (s : State) : Lamp :=
  if ¬ s.board.powered then .off
  else if s.pwr.limiting then .fast
  else if s.board.boot = .pending ∨ s.rst.busy ≠ [] then .slow
  else if s.on RAS_SERVICE.OUT ∨ s.board.boot.stopped then .off
  else .steady

/-- SERVICE: steady for OUT_OF_SERVICE takes precedence. -/
def State.serviceLamp (s : State) : Lamp :=
  if ¬ s.board.powered then .off
  else if s.on RAS_SERVICE.OUT ∨ s.board.boot.stopped then .steady
  else if s.ras.ueOpen then .fast
  else if s.board.activating.isSome then .slow
  else .off

/-- IDENTIFY: it blinks slowly while the chain or the host requests it. -/
def State.identifyLamp (s : State) : Lamp := if s.board.powered && s.board.identify then .slow else .off

/-- CHAIN. -/
def State.chainLamp (s : State) : Lamp :=
  if ¬ s.board.powered then .off
  else if s.board.chainErrAt.any fun t => decide (s.us < t + 1000000) then .fast
  else if ¬ s.on CHN_LINK.UPSTREAM then .off
  else if s.rd CHN_ADDR.ADDR = 0 then .slow
  else .steady

/-- A port's indicator; RECOVERY is retraining (R393). -/
def State.portLamp (s : State) (p : Nat) : Lamp :=
  let x := s.port p
  let sent := (lastSecond s.us x.sentAt).length
  let again := (lastSecond s.us x.resentAt).length
  if ¬ s.board.powered then .off
  else if sent < again * 1000000 then .fast
  else if s.portSt p = pTraining ∨ s.portSt p = pRecovery then .slow
  else if s.portSt p = pUp then .steady
  else .off

/-- PMB_ALERT# asserted: the input stage limits current or has tripped. -/
def State.pmbAlert (s : State) : Bool := s.pwr.limiting || s.board.tripped

/-! ## Flash regions and firmware images (R35, R37, R463) -/

def imageBase (b : Bool) : Nat := if b then 0x04400000 else 0x00400000
def stagingBase : Nat := 0x08400000
def imageSize : Nat := 0x04000000

/-- What a firmware image that verifies says of itself: its SVN, the ROM key that signed it, its digest. -/
structure FwImage where
  svn : Nat
  key : Nat
  digest : List Byte
  deriving DecidableEq, Repr

/-- A public key of the boot ROM. -/
def romKeyBytes (k : Nat) : List Byte := leBytes 32 (Config.romKey k)

/-- Whether a firmware signature block is laid out as R116 gives and names a ROM key. -/
def fwSigShape (b : List Byte) : Bool :=
  b.length == 128 && decide ((b.getD 0 0).toNat ≤ 1) && ((b.drop 1).take 7).all (· == 0) && (b.drop 72).all (· == 0)

/-- The image at a flash address, if its signature verifies under a ROM key that is not retired and its SVN is not below
FW_COUNTER (R463 order 4). R37 checks a staged image's signature and counter; that a retired key fails it there too is the
model's choice (DESIGN CHOICE, log entry 159). -/
def State.fwImage (s : State) (base : Nat) : Option FwImage :=
  let head := leNat (memRead s.flash base 64)
  let len := min (Config.fwLength head) imageSize
  let svn := Config.fwSvn head % 2 ^ 32
  if len < 192 then none
  else
    let body := memRead s.flash base (len - 128)
    let sig := memRead s.flash (base + len - 128) 128
    let key := (sig.getD 0 0).toNat
    let digest := sha512 body
    if fwSigShape sig && !(key == 0 && s.trust.romRetired) && edVerify (romKeyBytes key) digest ((sig.drop 8).take 64)
        && decide (s.trust.fwCounter ≤ svn) then
      some ⟨svn, key, digest⟩
    else none

/-! ## Boot (R463 to R466) -/

/-- Change what the replay-protected area and the Hawkmoth hold of trust. -/
def State.setTrust (s : State) (f : Trust → Trust) : State := { s with trust := f s.trust }

/-- Eight bytes of a list as a quadword. -/
def quadOf (l : List Byte) (j : Nat) : Nat := leNat ((l.drop (8 * j)).take 8)

/-- The SEC_ registers that show the replay-protected area. -/
def State.secView (s : State) : State :=
  let t := s.trust
  let s := (s.wr SEC_COUNTERS.FW_COUNTER t.fwCounter).wr SEC_COUNTERS.PLAN_COUNTER t.planCounter
  let installed := t.keys.foldl (fun n (e : Nat × List Byte) => n ||| 2 ^ e.1) 0
  let s := (s.wr SEC_KEYS.INSTALLED installed).wr SEC_KEYS.REVOKED t.revoked
  (s.wr SEC_KEYS.ROM0_RETIRED (b2n t.romRetired)).wr SEC_STATUS.OWNER (b2n t.owner.isSome)

/-- Whether the ageing history holds a record. -/
def State.hasRecord (s : State) : HistRec → Bool
  | .unit u => s.age.hist.any fun (e : Nat × AgeUnit) => e.1 == u
  | .cells c => decide (c < 512) && cellNumbers.any (s.retiredCell c)
  | .vmin d => s.age.vminHist.any fun (e : Nat × Nat) => e.1 == d
  | .guard g => s.age.guardHist.any fun (e : Nat × Nat) => e.1 == g
  | .lanes k => s.d2d.lanes.any fun (e : Nat × Nat) => e.1 == k
  | .way k => s.mem.wayHist.any fun (e : Nat × Bool) => e.1 == k

/-- A record of the ageing history is discarded: what it held acts no more (log entry 160). -/
def State.dropRecord (s : State) : HistRec → State
  | .unit u => (s.setAge fun a => { a with hist := eraseK a.hist u }).restoreHistory
  | .cells c =>
    ({ s with rst := { s.rst with
      retired := dropRange s.rst.retired (c * 1024) ((c + 1) * 1024) } }).retireView c
  | .vmin d => (s.setAge fun a => { a with vminHist := eraseK a.vminHist d }).restoreHistory
  | .guard g => (s.setAge fun a => { a with guardHist := eraseK a.guardHist g }).restoreHistory
  | .lanes k => { s with d2d := { s.d2d with lanes := eraseK s.d2d.lanes k } }
  | .way k => s.reenable (k / 16) (k % 16)

/-- The unit number of the RAS record of a discarded record. -/
def recordUnit : HistRec → Nat
  | .unit u => u
  | .cells c => c
  | .vmin d => d
  | .guard g => 512 + g
  | .lanes k => k
  | .way k => k

/-- Records of the flash whose signatures fail on read are discarded, and that is logged (R36). -/
def State.discard (s : State) (b : BootIn) : State :=
  let s := (b.badHistory.filter s.hasRecord).foldl (fun (s : State) x =>
    (s.dropRecord x).rasEvent stOK 15 (recordUnit x) 0 .note) s
  let keep := (s.ras.log.zipIdx).filter fun x => !b.badLog.contains x.2
  let lost := s.ras.log.length - keep.length
  let s := { s with ras := { s.ras with log := keep.map (·.1) } }
  (List.range lost).foldl (fun (s : State) _ => s.rasEvent stOK 18 0 0 .note) s

/-- The Hawkmoth writes each hart's reset vector and releases it (R242, R463 order 6); the groups whose memory no spare
covers stay OFF (R454). -/
def State.releaseHarts (s : State) : State :=
  (List.range 96).foldl (fun s h =>
    s.setCore h fun c => { c with
      power := if s.rst.groupsOff.contains (h / 8) then 3 else 0, vector := Config.resetVector h % 2 ^ 64 }) s

/-- The firmware starts (R463 order 6): its slot, SVN, digest and key. -/
def State.startImage (s : State) (slotB fellBack : Bool) (i : FwImage) : State :=
  let s := s.setTrust fun t => { t with fwDigest := i.digest, fwKey := i.key }
  let s := ((s.wr SEC_STATUS.BOOT_SLOT (b2n slotB)).wr SEC_STATUS.FALLBACK (b2n fellBack)).wr SEC_STATUS.FW_SVN i.svn
  let s := if fellBack then (s.raise SEC_INT_STATUS.FALLBACK).rasEvent stOK 20 0 0 .note else s
  (s.setBoard fun b => { b with boot := .running }).releaseHarts

/-- Orders 4 and 5 of R463: the selected image, else the other, else the ROM. -/
def State.selectImage (s : State) : State :=
  let b := s.trust.selectB
  match s.fwImage (imageBase b) with
  | some i => s.startImage b false i
  | none =>
    match s.fwImage (imageBase !b) with
    | some i => s.startImage (!b) true i
    | none => s.setBoard fun m => { m with boot := .romOnly }

/-- Order 3 of R463: the area is authenticated, repair data take effect, and what it holds is shown. -/
def State.openArea (s : State) (b : BootIn) : State :=
  let s := (((s.discard b).applyRepairs fun _ => true)).secView
  let e := s.trust.endorse
  (List.range 16).foldl (fun s j => s.wr SEC_ENDORSE.Q (quadOf e j) j) s

/-- BOOT (R463), after a package reset or module power-on. -/
def execBoot (b : BootIn) (s : State) : Answer :=
  .next <|
    if ¬ s.board.powered ∨ s.board.boot ≠ .pending ∨ s.rst.busy.contains (dPackage, 0) then s
    else match b.seed with
      | none => ((s.wr SEC_STATUS.ID_VALID 0).wr SEC_STATUS.ID_STATUS stEcc).setBoard fun m => { m with boot := .noSeed }
      | some seed =>
        let s := s.setTrust fun t => { t with seed := some seed.toNat }
        let s := (s.wr SEC_STATUS.ID_VALID 1).wr SEC_STATUS.ID_STATUS stOK
        if b.areaAuthentic then (s.openArea b).selectImage else s.setBoard fun m => { m with boot := .badArea }

/-! ## The management chain (R406 to R408) -/

/-- A chain frame arrives: a bad CRC is counted, and the frame dropped (R406). A frame shows that CHAIN_IN sees an upstream
device. A module without power sees nothing (R32). -/
def State.chainIn (s : State) (h : ChainHdr) (f : State → State) : State :=
  if ¬ s.board.powered then s
  else
    let s := s.wr CHN_LINK.UPSTREAM 1
    if ¬ h.crcOk then
      let now := s.us
      (s.bump CHN_LINK.ERRORS 1).setBoard fun b => { b with chainErrAt := some now }
    else f s

/-- Whether a frame names this module, or every module where its command allows that. -/
def State.chainMine (s : State) (h : ChainHdr) (all : Bool) : Bool :=
  (h.dest.toNat == 0 && all) || (h.dest.toNat != 0 && h.dest.toNat == s.rd CHN_ADDR.ADDR)

/-- A good frame is repeated downstream (R406), but not by the tail (R32); the frames that come up from CHAIN_OUT have no row
(log entry 161). -/
def State.chainRepeat (s : State) (h : ChainHdr) (cmd : Nat) (payload : List Byte) : State :=
  if s.on CHN_LINK.TAIL then s else s.send (.chain h.dest.toNat h.src.toNat cmd h.tag.toNat payload)

/-- A frame is repeated; one for this module is counted, broadcasts included, and acted on where the command allows its DEST
and the Hawkmoth serves it: the firmware serves every command, the ROM only STAGE, ACTIVATE and MCTP (R463). -/
def State.chainFor (s : State) (h : ChainHdr) (cmd : Nat) (payload : List Byte) (all rom : Bool)
    (f : State → State) : State :=
  s.chainIn h fun s =>
    let s := s.chainRepeat h cmd payload
    if ¬ s.chainMine h true then s
    else
      let s := s.bump CHN_FRAMES.COUNT 1
      if s.chainMine h all && (s.board.boot == .running || (rom && s.board.boot == .romOnly)) then f s else s

/-- The module answers a frame, unless it was sent to every module. -/
def State.chainAnswer (s : State) (h : ChainHdr) (cmd : Nat) (payload : List Byte) : State :=
  if h.dest.toNat = 0 then s else s.send (.chain h.src.toNat (s.rd CHN_ADDR.ADDR) cmd h.tag.toNat payload)

/-- An answer that is a status. -/
def State.chainStatus (s : State) (h : ChainHdr) (cmd st : Nat) : State := s.chainAnswer h cmd [BitVec.ofNat 8 st]

/-- ASSIGN goes on to the next module (R407). -/
def State.assignNext (s : State) (h : ChainHdr) (n : Nat) : State :=
  if s.on CHN_LINK.TAIL then s else s.send (.chain 0 (s.rd CHN_ADDR.ADDR) 1 h.tag.toNat (leBytes 2 n))

/-- The module takes a chain address, which is its address on the Obneurn Link (R407). -/
def State.takeAddr (s : State) (n : Nat) : State :=
  let s := (s.wr CHN_ADDR.ADDR n).wr CHN_ADDR.STATUS (if 8192 < n then stRouteFull else stOK)
  ((s.wr OBL_STATUS.ADDR n).raise CHN_INT_STATUS.ASSIGNED).portsSettle

/-- ASSIGN (R407), by position on the chain. -/
def execAssign (h : ChainHdr) (n : BitVec 16) (s : State) : Answer :=
  .next <| s.chainIn h fun s =>
    let a := s.rd CHN_ADDR.ADDR
    let n := n.toNat
    let s := s.bump CHN_FRAMES.COUNT 1
    if a = 0 then (if 1 ≤ n ∧ n ≤ 65534 then (s.takeAddr n).assignNext h (n + 1) else s)
    else if a = n then s.assignNext h (a + 1)
    else ((s.wr CHN_ADDR.MISMATCH 1).raise CHN_INT_STATUS.MISMATCH).assignNext h (a + 1)

/-- What a TELEMETRY answer tells (R408): input power, coolant inlet and outlet, the highest Tj, the service state and the
firmware version. -/
def State.telemetry (s : State) : List Nat :=
  let tj := (List.range 7).foldl (fun n d => max n (s.rd PWR_TEMP.TJ 0 0 d)) 0
  [s.rd PWR_INPUT.PIN, s.rd PWR_COOLANT.INLET, s.rd PWR_COOLANT.OUTLET, tj, s.rd RAS_SERVICE.OUT,
    s.rd RAS_SERVICE.CAUSE, s.rd SEC_STATUS.FW_SVN]

/-- TELEMETRY: 128 bytes. -/
def execTelemetry (h : ChainHdr) (s : State) : Answer :=
  .next <| s.chainFor h 2 [] false false fun s =>
    let t := s.telemetry
    s.chainAnswer h 2 ((List.range 128).map fun i => BitVec.ofNat 8 (Config.telemetryByte t i))

/-- IDENTIFY; its payload, which R408 does not lay out, is repeated as one byte (log entry 161). -/
def execIdentify (h : ChainHdr) (on : Bool) (s : State) : Answer :=
  .next <| s.chainFor h 3 [BitVec.ofNat 8 (b2n on)] true false fun s => (s.setBoard fun b => { b with identify := on }).chainStatus h 3 stOK

/-- The domain that a chain RESET names. -/
def chainDomain (which : Byte) : Option (Nat × Nat) :=
  match which.toNat with
  | 1 => some (dPackage, 0)
  | 2 => some (dHub, 0)
  | 3 => some (dHub, 1)
  | _ => none

/-- RESET: the interrupt and the status come before the reset. -/
def execReset (h : ChainHdr) (which : Byte) (s : State) : Answer :=
  .next <| s.chainFor h 4 [which] false false fun s =>
    let s := s.raise CHN_INT_STATUS.RESET_CMD
    match chainDomain which with
    | none => s.chainStatus h 4 stBadDescriptor
    | some x => (s.chainStatus h 4 stOK).startReset x 4 stOK

/-- Bytes of a firmware image enter the staging region (R35). -/
def State.stageBytes (s : State) (off : Nat) (data : List Byte) : State :=
  { s with flash := memWrite s.flash (stagingBase + off) data }

/-- STAGE: the payload beyond its first 4 bytes is written into the staging region at the offset they give. -/
def execStage (h : ChainHdr) (payload : List Byte) (s : State) : Answer :=
  .next <| s.chainFor h 5 payload true true fun s =>
    let off := leNat (payload.take 4)
    let data := payload.drop 4
    if payload.length < 4 ∨ imageSize < off + data.length then s.chainStatus h 5 stBadDescriptor
    else (s.stageBytes off data).chainStatus h 5 stOK

/-- The staged image replaces what an image region holds (R37 order 2); `wrong` are the bytes that the flash then holds
otherwise, by offset. -/
def State.copyImage (s : State) (b : Bool) (wrong : List (Nat × Byte)) : State :=
  let base := imageBase b
  let staged := (s.flash.filter fun e => stagingBase ≤ e.1 ∧ e.1 < stagingBase + imageSize).map
    fun (e : Nat × Byte) => (e.1 - stagingBase + base, e.2)
  let low := s.flash.filter fun e => e.1 < base
  let high := s.flash.filter fun e => base + imageSize ≤ e.1
  let s := { s with flash := low ++ staged ++ high }
  (wrong.filter fun e => decide (e.1 < imageSize)).foldl (fun (s : State) e =>
    { s with flash := memSet s.flash (base + e.1) e.2 }) s

/-- ACTIVATE (R37, R408): order 1, and order 2 where the staged image is good. Orders 3 and 4 follow when the copy is done,
which is when the queue is next empty (log entry 140). -/
def execActivate (h : ChainHdr) (wrong : List (Nat × Byte)) (s : State) : Answer :=
  .next <| s.chainFor h 6 [] true true fun s =>
    match s.fwImage stagingBase with
    | none => s.chainStatus h 6 stPlanSignature
    | some _ => (s.copyImage (!s.trust.selectB) wrong).setBoard fun b => { b with activating := some h }

/-- Orders 3 and 4 of R37: the copied slot is checked, the selector names it, and the ACTIVATE is answered. -/
def State.activateEnd (s : State) : State :=
  match s.board.activating with
  | none => s
  | some h =>
    let b := !s.trust.selectB
    let s := s.setBoard fun m => { m with activating := none }
    match s.fwImage (imageBase b) with
    | none => s.chainStatus h 6 stEcc
    | some _ => (s.setTrust fun t => { t with selectB := b }).chainStatus h 6 stOK

/-- The Hawkmoth's answer to an MCTP packet: bytes the spec does not give (log entry 59). -/
def mctpAnswer (packet : List Byte) : List Byte :=
  let p := packet.map BitVec.toNat
  (List.range (Config.mctpLength p % 241)).map fun i => BitVec.ofNat 8 (Config.mctpByte p i)

/-- The flash once a piece of firmware that an MCTP message carries has entered the staging region (R35). -/
def State.firmwarePiece (s : State) (msg : List Byte) : List (Nat × Byte) :=
  match Config.mctpFirmware (msg.map BitVec.toNat) with
  | some (off, bytes) =>
    if off + bytes.length ≤ imageSize then memWrite s.flash (stagingBase + off) (bytes.map (BitVec.ofNat 8)) else s.flash
  | none => s.flash

/-- The Hawkmoth takes an MCTP message: it keeps it, stages the firmware in it, and IDENTIFY follows it (R39). What a message
carries is a free value (log entry 155). -/
def State.mctpTaken (s : State) (msg : List Byte) : State :=
  { s with
    host := { s.host with mctp := s.host.mctp ++ [msg] }
    flash := s.firmwarePiece msg
    board := { s.board with identify := (Config.mctpIdentify (msg.map BitVec.toNat)).getD s.board.identify } }

/-- MCTP over the chain: the packet reaches the Hawkmoth, which answers it. -/
def execMctp (h : ChainHdr) (packet : List Byte) (s : State) : Answer :=
  .next <| s.chainFor h 7 packet false true fun s => (s.mctpTaken packet).chainAnswer h 7 (mctpAnswer packet)

/-- MCTP_MESSAGE (R340): over the host link. -/
def execMctpMessage (msg : List Byte) (s : State) : Answer := .next <| if s.hostUp then s.mctpTaken msg else s

end Sys2Proof.Machine
end

