-- ==== Sys2Proof/Machine/Security.lean ====
section
/-! DEFINITION. Machine/Security.lean: owner authorisations, attestation, firmware commits and wipes (R467 to R479). -/

namespace Sys2Proof.Machine

/-- A write to the SEC_ block: acted on from the PF or a core in M-mode, else ignored and recorded (R478). -/
def State.secWrite (s : State) (o : Origin) (addr : Nat) (f : State → State) : State :=
  match o with
  | .core _ false | .hawkmoth => s.rasEvent stBadDescriptor 20 0 addr .uncorr
  | _ => s.asReg o addr f

/-! ## Owner authorisations (R469, R470) -/

/-- The record in SEC_AUTH0 to SEC_AUTH17. -/
def State.authRecord (s : State) : List Byte := (List.range 18).flatMap fun j => leBytes 8 (s.rd SEC_AUTH.Q j)

/-- The nonce of SEC_AUTH_NONCE. -/
def State.authNonce (s : State) : List Byte := (List.range 4).flatMap fun j => leBytes 8 (s.rd SEC_AUTH_NONCE.NONCE 0 j)

/-- Fields of a record. -/
def authOp (r : List Byte) : Nat := (r.getD 0 0).toNat
def authSlot (r : List Byte) : Nat := (r.getD 1 0).toNat
def authArg (r : List Byte) : List Byte := (r.drop 0x30).take 32

/-- Whether a record is well formed and names this module: the first check of R470. -/
def State.authShape (s : State) (r : List Byte) : Bool :=
  decide (1 ≤ authOp r) && decide (authOp r ≤ 5) && decide (authSlot r ≤ 7) && ((r.drop 2).take 6).all (· == 0)
    && leNat ((r.drop 8).take 8) == s.trust.serial % 2 ^ 64

/-- Whether a record's signature verifies under the owner key; a first owner key needs none. -/
def State.authSigned (s : State) (r : List Byte) : Bool :=
  match s.trust.owner with
  | none => authOp r == 5
  | some key => edVerify key (sha512 (r.take 0x50)) ((r.drop 0x50).take 64)

/-- The status with which an authorisation completes (R470). -/
def State.authStatus (s : State) (r : List Byte) : Nat :=
  if ¬ s.authShape r then stBadDescriptor
  else if (r.drop 0x10).take 32 ≠ s.authNonce then stPlanSignature
  else if ¬ s.authSigned r then stPlanSignature
  else if authOp r = 3 ∧ leNat ((authArg r).take 4) ≤ s.trust.planCounter then stBadDescriptor
  else stOK

/-- The scopes that a debug unlock names. -/
def authScope (r : List Byte) : Nat := ((authArg r).headD 0).toNat % 8

/-- Debug scopes are unlocked until the next power-off (R471). -/
def State.unlock (s : State) (scope : Nat) : State :=
  let old := s.rd SEC_STATUS.DEBUG
  if old ||| scope = old then s else (s.wr SEC_STATUS.DEBUG (old ||| scope)).raise SEC_INT_STATUS.DEBUG_UNLOCK

/-- What an accepted record does (R462, R470). -/
def State.authEffect (s : State) (r : List Byte) : State :=
  let slot := authSlot r
  match authOp r with
  | 1 => (s.setTrust fun t => { t with
      keys := insK t.keys slot (authArg r), revoked := setBit t.revoked slot false }).secView
  | 2 => (s.setTrust fun t => { t with revoked := setBit t.revoked slot true }).secView
  | 3 => (s.setTrust fun t => { t with planCounter := leNat ((authArg r).take 4) }).secView
  | 4 => s.unlock (authScope r)
  | _ => (s.setTrust fun t => { t with owner := some (authArg r) }).secView

/-- An authorisation is checked and acted on, and the nonce replaced whatever comes of it (R470); the status. -/
def State.authorise (s : State) (r : List Byte) : State × Nat :=
  let st := s.authStatus r
  let s := if st = stOK then s.authEffect r else s
  ((s.newNonce).raise SEC_INT_STATUS.AUTH_DONE, st)

/-- SEC_AUTH_GO: the record in the registers. -/
def State.authGo (s : State) : State :=
  let p := s.authorise s.authRecord
  p.1.wr SEC_AUTH_GO.STATUS p.2

/-- The oldest MCTP message of a length, and the others. -/
def State.mctpOf (s : State) (n : Nat) : Option (List Byte × State) :=
  match s.host.mctp.find? fun m => m.length == n with
  | none => none
  | some m => some (m, { s with host := { s.host with mctp := s.host.mctp.erase m } })

/-- The oldest record that came over MCTP, which is answered with its status. -/
def State.authMctp (s : State) (op : Nat) : State :=
  match s.mctpOf 144 with
  | none => s
  | some (r, t) =>
    if authOp r ≠ op then s
    else
      let p := t.authorise r
      p.1.send (.mctp [BitVec.ofNat 8 p.2])

/-- An authorisation of an OP: submitted through SEC_AUTH_GO, or (the Hawkmoth) carried by the oldest MCTP record. The
firmware serves it. -/
def State.authCmd (s : State) (o : Origin) (op : Nat) : State :=
  if s.board.boot ≠ .running then s
  else match o with
    | .hawkmoth => s.authMctp op
    | _ => s.secWrite o (SEC_AUTH_GO.GO.addr 0 0) fun s => if authOp s.authRecord = op then s.authGo else s

/-- INSTALL_PLAN_KEY (OP 1). -/
def execInstallPlanKey (o : Origin) (s : State) : Answer := .next (s.authCmd o 1)

/-- REVOKE_PLAN_KEY (OP 2). -/
def execRevokePlanKey (o : Origin) (s : State) : Answer := .next (s.authCmd o 2)

/-- RAISE_PLAN_COUNTER (OP 3). -/
def execRaisePlanCounter (o : Origin) (s : State) : Answer := .next (s.authCmd o 3)

/-- DEBUG_UNLOCK (OP 4). -/
def execDebugUnlock (o : Origin) (s : State) : Answer := .next (s.authCmd o 4)

/-- SET_OWNER_KEY (OP 5). -/
def execSetOwnerKey (o : Origin) (s : State) : Answer := .next (s.authCmd o 5)

/-! ## Attestation (R473, R474) -/

/-- The digest over the plans of the sixteen slots. -/
def State.plansDigest (s : State) : List Byte :=
  sha512 ((List.range 16).flatMap fun k =>
    let st := s.slotSt k
    let shown := st == pLOADED || st == pSTANDBY
    leBytes 8 st ++ (if shown then (List.range 8).flatMap fun j => leBytes 8 (s.rd PLN_DIGEST.DIGEST k j)
      else List.replicate 64 0))

/-- The identity key's secret, derived from the seed under the label "id" (R464; the derivation is a free value, log entry
12). -/
def identitySeed (seed : Nat) : List Byte := leBytes 32 (Config.derive seed 1)

/-- FLAGS of a report. -/
def State.reportFlags (s : State) : Nat :=
  b2n (s.on SEC_STATUS.DEBUG) + 2 * b2n (s.on SEC_STATUS.FALLBACK) + 4 * b2n (s.on RAS_SERVICE.OUT)
    + 8 * b2n s.trust.owner.isSome

/-- The signed bytes of a report, 0x000 to 0x0FF. -/
def State.reportBody (s : State) (nonce key : List Byte) : List Byte :=
  leBytes 4 0x47545341 ++ leBytes 2 1 ++ [0xB0, BitVec.ofNat 8 s.reportFlags] ++ leBytes 8 s.trust.serial
    ++ leBytes 4 (s.rd SEC_STATUS.FW_SVN) ++ leBytes 4 s.trust.fwCounter ++ leBytes 4 s.trust.planCounter
    ++ leBytes 2 s.trust.cocoonCode ++ leBytes 2 (s.rd HBM_MAP.P) ++ nonce ++ s.trust.fwDigest ++ s.plansDigest
    ++ s.trust.owner.getD (List.replicate 32 0) ++ key

/-- A report of 320 bytes for a challenge. -/
def State.report (s : State) (nonce : List Byte) : List Byte :=
  let secret := identitySeed (s.trust.seed.getD 0)
  let body := s.reportBody nonce (edPublic secret)
  body ++ edSign secret (sha512 body)

/-- The challenge in SEC_NONCE0 to SEC_NONCE3. -/
def State.challenge (s : State) : List Byte := (List.range 4).flatMap fun j => leBytes 8 (s.rd SEC_NONCE.NONCE 0 j)

/-- The report in the registers, and its status. -/
def State.putReport (s : State) (r : List Byte) (st : Nat) : State :=
  let s := (List.range 40).foldl (fun s j => s.wr SEC_REPORT.Q (quadOf r j) j) s
  (s.wr SEC_ATTEST.STATUS st).raise SEC_INT_STATUS.ATTEST_DONE

/-- SEC_ATTEST.GO: without an identity key the report is all zero (R473). -/
def State.attestGo (s : State) : State :=
  if ¬ s.on SEC_STATUS.ID_VALID then s.putReport (List.replicate 320 0) stEcc
  else if s.board.boot = .running then s.putReport (s.report s.challenge) stOK
  else s

/-- The oldest challenge of 32 bytes that came over MCTP, answered with a report. -/
def State.attestMctp (s : State) : State :=
  match s.mctpOf 32 with
  | none => s
  | some (n, t) => if s.board.boot = .running then t.send (.mctp (s.report n)) else s

/-- ATTEST (R473). -/
def execAttest (o : Origin) (s : State) : Answer :=
  .next <| match o with
  | .hawkmoth => s.attestMctp
  | _ => s.secWrite o (SEC_ATTEST.GO.addr 0 0) State.attestGo

/-! ## Firmware counter (R467) -/

/-- COMMIT_FW: refused after a fallback; else FW_COUNTER becomes the running image's SVN, and ROM key 0 is retired by an
image that ROM key 1 signed (R462). -/
def State.commitFw (s : State) : State :=
  if s.on SEC_STATUS.FALLBACK then s.wr SEC_CTRL.REJECT stBadDescriptor
  else
    let svn := s.rd SEC_STATUS.FW_SVN
    ((s.setTrust fun t => { t with
      fwCounter := max t.fwCounter svn, romRetired := t.romRetired || t.fwKey == 1 }).secView).wr SEC_CTRL.REJECT stOK

/-- COMMIT_FW: only the PF's write acts. -/
def execCommitFw (o : Origin) (s : State) : Answer :=
  .next <| s.secWrite o (SEC_CTRL.COMMIT_FW.addr 0 0) fun s =>
    if o = .pf ∧ s.board.boot = .running then s.commitFw else s

/-! ## Wipe (R477) -/

/-- SEC_CTRL.WIPE: accepted while every slot is EMPTY and the tier manager is disabled. -/
def State.wipe (s : State) : State :=
  if (List.range 16).all (fun k => s.slotSt k == pEMPTY) ∧ ¬ s.on TIER_CTRL.EN then
    (s.wr SEC_STATUS.WIPE_BUSY 1).wr SEC_CTRL.REJECT stOK
  else s.wr SEC_CTRL.REJECT stBadDescriptor

/-- WIPE. -/
def execWipe (o : Origin) (s : State) : Answer :=
  .next <| s.secWrite o (SEC_CTRL.WIPE.addr 0 0) fun s => if s.board.boot = .running then s.wipe else s

/-- The geyser engines' zeros reach every byte of HBM but those of FAILED pseudo-channels; copies are invalidated. -/
def State.wipeHbm (s : State) : State :=
  let s := (s.busyKeys 0 s.hbmEnd).foldl (fun (s : State) k =>
    s.engineWrite k (s.geyStream (keyAddr k)) 0 0 (List.replicate 64 0)) s
  let kept (line : Nat) : Bool := decide (line * 64 < s.hbmEnd) && s.pcFailed (s.pcOfLine line)
  let s := { s with
    hbm := s.hbm.filter fun e => kept (e.1 / 64)
    hbmPoison := s.hbmPoison.filter fun e => kept e.1
    mem := { s.mem with err := s.mem.err.filter fun e => kept e.1 } }
  let s := s.setTier fun t => { t with objs := [], ctxs := [], tail := [], exts := [], cursor := 0 }
  [0, 1].foldl (fun s n => s.bump HBM_PART_BYTES.BYTES (s.hubService n * 2 ^ 30) n 0) s

/-- A cluster is reset in place: one that is held stays FAULTED. -/
def State.wipeCluster (s : State) (c : Nat) : State :=
  let s := (s.cluDown c).cluUp c false
  if s.held c then s.wr CLU_STATUS.STATE cFaulted c else s

/-- WIPE_DONE: it waits while a line of HBM is busy at its home. -/
def execWipeDone (s : State) : Answer :=
  .next <|
    if ¬ s.on SEC_STATUS.WIPE_BUSY then s
    else
      let p := s.prepare (s.busyKeys 0 s.hbmEnd) true
      if ¬ p.2 then p.1
      else
        let s := (List.range 512).foldl State.wipeCluster p.1.wipeHbm
        (s.wr SEC_STATUS.WIPE_BUSY 0).raise SEC_INT_STATUS.WIPE_DONE

end Sys2Proof.Machine
end

