-- ==== Sys2Proof/Machine/Window.lean ====
section
/-! DEFINITION. Machine/Window.lean: the scratchpad windows (R9, R65 to R67, R346, R361). -/

namespace Sys2Proof.Machine

/-- Base of the windows (R65). -/
def winBase : Nat := 0xE000000000

/-- Whether an address lies in the range of the windows (R7). -/
def inWindows (addr : Nat) : Bool := decide (winBase ≤ addr) && decide (addr < winBase + 0x80000000)

/-- Cluster and offset of a window address. -/
def winClu (addr : Nat) : Nat := (addr - winBase) / 0x400000
def winOff (addr : Nat) : Nat := (addr - winBase) % 0x400000

/-- Sizes of a window access (R66). -/
def winSize (addr size : Nat) : Bool := [1, 2, 4, 8, 16, 32, 64].contains size && addr % size == 0

/-- An access of a size or alignment that is forbidden (R11, R66, R490). -/
def State.badSize (s : State) (o : Origin) (addr size : Nat) (write : Bool) : State :=
  (s.rasEvent stBadDescriptor 17 0 addr (if write then .uncorr else .info)).answerOnes o size write

/-- A window access to a cluster that is not stopped (R9, R490). -/
def State.windowShut (s : State) (addr size : Nat) (write : Bool) : State :=
  (s.rasEvent stBadDescriptor 0 (winClu addr) addr (if write then .uncorr else .info)).answerWith
    (if write then [] else List.replicate size 0xFF)

/-- A read through a window: an uncorrectable word makes the answer poisoned, and a RAS record names it (R63). -/
def State.windowRead (s : State) (addr size : Nat) : State :=
  let q := s.spadRead (winClu addr) (winOff addr) size
  match q.bad with
  | none => q.st.answerWith q.data
  | some o => (q.st.rasEvent stEcc 0 (winClu addr) (spadLoc o) .uncorr).answerWith [] false true

/-- A write through a window: one that must merge into an uncorrectable word is dropped and recorded (R66). -/
def State.windowWrite (s : State) (addr : Nat) (bytes : List Byte) : State :=
  let q := s.spadWrite (winClu addr) (winOff addr) bytes
  match q.bad with
  | none => q.st.answerWith []
  | some o => (q.st.rasEvent stEcc 0 (winClu addr) (spadLoc o) .uncorr).answerWith []

/-- A window access (R66). -/
def State.window (s : State) (o : Origin) (addr size : Nat) (data : Option (List Byte)) : State :=
  if 0x300000 ≤ winOff addr then s.unmapped o addr size data.isSome
  else if ¬ winSize addr size then s.badSize o addr size data.isSome
  else if ¬ s.stoppedForWindow (winClu addr) then s.windowShut addr size data.isSome
  else match data with
    | none => s.windowRead addr size
    | some d => s.windowWrite addr (d.take size)

/-- WINDOW_ACCESS (R9, R65 to R67): the PF's and the cores' accesses; the Cocoon die's is refused (R384), and no other
requester reaches a window (R347). -/
def execWindowAccess (o : Origin) (addr size : Nat) (data : Option (List Byte)) (s : State) : Answer :=
  .next <| if inWindows addr then s.asReg o addr fun s => s.window o addr size data else s

/-- The length of the largest naturally aligned run of enabled bytes at an address (R346): one of 64, 32, …, 1. -/
def runOf (addr : Nat) (enables : List Bool) : Nat :=
  match [64, 32, 16, 8, 4, 2].find? fun n =>
      addr % n == 0 && decide (n ≤ enables.length) && (enables.take n).all id with
  | some n => n
  | none => 1

/-- The window accesses of a TLP, in ascending address order, as (address, size). -/
def tlpRuns (addr : Nat) (enables : List Bool) : Nat → List (Nat × Nat)
  | 0 => []
  | fuel + 1 =>
    match enables with
    | [] => []
    | false :: rest => tlpRuns (addr + 1) rest fuel
    | true :: _ =>
      let n := runOf addr enables
      (addr, n) :: tlpRuns (addr + n) (enables.drop n) fuel

/-- A poisoned write of the host is dropped (R361, R490). -/
def State.windowPoisoned (s : State) (addr : Nat) : State := s.rasEvent stEcc 0 (winClu addr) addr .uncorr

/-- WINDOW_TLP (R346): a memory TLP of the host as a sequence of window accesses; the answer holds the enabled bytes. A
poisoned write is dropped (R361). -/
def execWindowTlp (addr : Nat) (enables : List Bool) (data : Option (List Byte)) (poisoned : Bool) (s : State) : Answer :=
  .next <|
    if ¬ inWindows addr ∨ s.orderedOpen 96 none then s
    else if s.inD3 0 then s.answerOnes .pf enables.length data.isSome
    else if poisoned ∧ data.isSome then (s.windowPoisoned addr).answerWith []
    else
      (tlpRuns addr enables enables.length).foldl (fun (s : State) r =>
        let had := s.resp
        let bytes := data.map fun d => (d.drop (r.1 - addr)).take r.2
        let t := s.window .pf r.1 r.2 bytes
        { t with resp := ⟨had.data ++ t.resp.data, had.ur || t.resp.ur, had.poison || t.resp.poison⟩ })
        (s.answerWith [])

end Sys2Proof.Machine
end

