-- ==== Sys2Proof/Machine/Registers.lean ====
section
/-! DEFINITION. Machine/Registers.lean: what a write of each register does beyond setting its fields, and the register
accesses of every requester (R10 to R14, R344 to R347, R478, R486, R487). -/

namespace Sys2Proof.Machine

/-! ## Clusters, plans, slots, movers (R77, R111, R149, R171 to R173, R190, R205 to R207) -/

/-- The bank power fields a write touches. -/
def State.writeBankPwr (s : State) (c : Nat) (w : RegWr) (f : Fld) (first : Nat) : State :=
  (List.range 24).foldl (fun s r => if w.touches f r then s.bankRequest c (first + r) (w.merge f (s.rd f c 0 r) r) else s) s

/-- CLU_POWER is written: 1 asks for OFF, 0 cancels it (R72). -/
def State.writeCluPower (s : State) (c : Nat) (w : RegWr) : State :=
  if ¬ w.touches CLU_POWER.OFF_REQ then s
  else if w.put CLU_POWER.OFF_REQ = 1 then s.reqPowerOff c
  else s.cancelOff c

/-- CLU_ registers. -/
def State.writeClu (s : State) (c off : Nat) (w : RegWr) : State :=
  match off with
  | 0x010 => s.writeCluPower c w
  | 0x018 => if w.put CLU_FAULT.CLEAR = 1 then s.clearFault c else s
  | 0x020 => s.writeBankPwr c w CLU_BANK_PWR_WM.PWR 0
  | 0x028 => s.writeBankPwr c w CLU_BANK_PWR_AP.PWR 24
  | 0x050 => s.setRegIf .clu c off w CLU_SCRUB.REJECT (s.zeroOf w [CLU_SCRUB.PERIOD_S] c)
  | _ => s.setReg .clu c off w

/-- CAL_ registers: a write of CAL_PEEK_SEL takes a snapshot (R111). -/
def State.writeCal (s : State) (c off : Nat) (w : RegWr) : State :=
  match off with
  | 0x038 =>
    let part (f : Fld) : Nat := s.after w f c * 2 ^ f.lo
    s.peek c (part CAL_PEEK_SEL.CELL_ROW + part CAL_PEEK_SEL.CELL_COL + part CAL_PEEK_SEL.SET + part CAL_PEEK_SEL.CALDERA)
  | _ => s.setReg .cal c off w

/-- A slot command of PLN_SLOT_CTRL: 1 LOAD, 2 LOAD_STANDBY, 3 UNLOAD. -/
def State.slotCommand (s : State) (k cmd : Nat) : State :=
  match cmd with
  | 1 => s.startLoad k none
  | 2 => s.startLoad k (some (s.rd PLN_SLOT_CTRL.PRED k))
  | 3 => s.unload k
  | _ => s

/-- PLN_ slot registers. -/
def State.writePlnSlot (s : State) (k off : Nat) (w : RegWr) : State :=
  match off with
  | 0x000 => (s.setReg .plnSlot k off w).slotCommand k (w.put PLN_SLOT_CTRL.CMD)
  | _ => s.setReg .plnSlot k off w

/-- DLN_ die registers. -/
def State.writeDlnDie (s : State) (d off : Nat) (w : RegWr) : State :=
  match off with
  | 0x010 => s.setRegIf .dlnDie d off w DLN_WDOG.REJECT (s.zeroOf w [DLN_WDOG.PERIOD_US] d)
  | _ => s.setReg .dlnDie d off w

/-- DLN_ slot registers: DLN_SLOT_CMD commands (R150). -/
def State.writeDlnSlot (s : State) (k off : Nat) (w : RegWr) : State :=
  match off with
  | 0x000 => s.execCommand k (w.put DLN_SLOT_CMD.CMD) (w.put DLN_SLOT_CMD.PASSES) (w.put DLN_SLOT_CMD.CONT == 1)
  | _ => s.setReg .dlnSlot k off w

/-- MOV_ registers. -/
def State.writeMov (s : State) (c off : Nat) (w : RegWr) : State :=
  match off with
  | 0x070 => s.setRegIf .mov c off w MOV_WDOG.REJECT (s.zeroOf w [MOV_WDOG.PERIOD_US] c)
  | _ => s.setReg .mov c off w

/-- LND_ registers. -/
def State.writeLnd (s : State) (c off : Nat) (w : RegWr) : State :=
  match off with
  | 0x800 => s.lndAdd c (w.put LND_ADD.CNT) (w.put LND_ADD.AMOUNT)
  | 0x808 => s.setRegIf .lnd c off w LND_TIMEOUT.REJECT (s.zeroOf w [LND_TIMEOUT.US] c)
  | 0x810 => s.armWatch c (s.after w LND_WATCH.CNT c) (s.after w LND_WATCH.TARGET c)
  | 0x830 => s.clearCounters c (w.put LND_CLEAR.CNT) (w.put LND_CLEAR.ALL == 1)
  | _ => s.setReg .lnd c off w

/-! ## Tiers, the directory, the system cache, HBM, geysers (R240, R305, R337, R338) -/

/-- TIER_CTRL is written (R212). -/
def State.writeTierCtrl (s : State) (w : RegWr) : State :=
  let mode := s.after w TIER_CTRL.MODE
  let share := s.after w TIER_CTRL.ERASE_SHARE
  if s.after w TIER_CTRL.EN = 1 then s.tierOn (mode == 1) share else s.tierWriteOff mode share

/-- TIER_ registers. -/
def State.writeTier (s : State) (off : Nat) (w : RegWr) : State :=
  match off with
  | 0x000 => s.writeTierCtrl w
  | 0x008 | 0x010 | 0x018 => if s.on TIER_CTRL.EN then s else s.setReg .tier 0 off w
  | 0x040 => if w.put TIER_CMD_GO.GO = 1 then s.tierGo else s
  | _ => s.setReg .tier 0 off w

/-- DIR_ registers: a write of DIR_LOOKUP_ADDR takes a snapshot. -/
def State.writeDir (s : State) (n off : Nat) (w : RegWr) : State :=
  match off with
  | 0x058 => s.setRegIf .dir n off w DIR_HOST_TMO.REJECT (s.zeroOf w [DIR_HOST_TMO.US] n)
  | 0x078 => s.lookup n (s.after w DIR_LOOKUP_ADDR.HOSTMEM n == 1) (s.after w DIR_LOOKUP_ADDR.LINE n)
  | _ => s.setReg .dir n off w

/-- SC_WAY_PWR is written: each way whose bit changes is asked OFF or ON; a write that asks a locked way OFF is rejected
whole (R324, R326). -/
def State.writeWayPwr (s : State) (n : Nat) (w : RegWr) : State :=
  let old := s.rd SC_WAY_PWR.OFF_REQ n
  let new := s.after w SC_WAY_PWR.OFF_REQ n
  if (new ^^^ (new &&& old)) &&& s.rd SC_LOCK.LOCKED n ≠ 0 then s.wr SC_WAY_PWR.REJECT stBadDescriptor n
  else
    (List.range 16).foldl (fun s k =>
      if bit new k && !bit old k then s.wayOff n k else if bit old k && !bit new k then s.wayOn n k else s)
      (s.wr SC_WAY_PWR.REJECT stOK n)

/-- SC_ registers. -/
def State.writeSc (s : State) (o : Origin) (n off : Nat) (w : RegWr) : State :=
  match off with
  | 0x018 => s.writeWayPwr n w
  | 0x020 => s.lockWays n (s.after w SC_LOCK.LOCKED n)
  | 0x038 =>
    if w.put SC_PRELOAD_CTRL.GO = 1 then s.startPreload n (w.put SC_PRELOAD_CTRL.WAYS) (s.partOfOrigin o) else s
  | 0x048 => s.setRegIf .sc n off w SC_PF.REJECT (s.zeroOf w [SC_PF.DIST] n)
  | 0x080 => (List.range 16).foldl (fun s k => if bit (w.put SC_WAY_DISABLE.DISABLED) k then s.reenable n k else s) s
  | _ => s.setReg .sc n off w

/-- The status of a write of HBM_PARTp (R318); of several conditions the lowest code (R485). -/
def State.partStatus (s : State) (p : Nat) (w : RegWr) : Nat :=
  let lo := s.after w HBM_PART.MIN 0 p
  let hi := s.after w HBM_PART.MAX 0 p
  let others := (List.range 16).foldl (fun n q => if q = p then n else n + s.rd HBM_PART.MIN 0 q) 0
  if hi < lo ∨ 256 < others + lo then stBadDescriptor
  else if hi = 0 ∨ s.after w HBM_PART.BURST_KIB 0 p = 0 then stZeroWindow
  else stOK

/-- HBM_PMAP_DATA sets the selected entry of the partition map, 0 to 673 (R316). -/
def State.writePmap (s : State) (w : RegWr) : State :=
  let k := s.rd HBM_PMAP_SEL.INDEX
  if 673 < k then s
  else { s with mem := { s.mem with pmap := setK 0 s.mem.pmap k (w.merge HBM_PMAP_DATA.PART (getK 0 s.mem.pmap k)) } }

/-- The Hawkmoth stores a word of the map-out list for the next power-on, at the operator's command (R313): the Hawkmoth's write of
HBM_MAPOUTj, read-only for all others, stands for that command (DESIGN CHOICE, log entry 186). -/
def State.mapStore (s : State) (j : Nat) (w : RegWr) : State :=
  let old := getK (s.rd HBM_MAPOUT.OUT 0 j) s.mem.mapNext j
  { s with mem := { s.mem with mapNext := insK s.mem.mapNext j (w.merge HBM_MAPOUT.OUT old) } }

/-- HBM_ global registers. -/
def State.writeHbmGlobal (s : State) (o : Origin) (off : Nat) (w : RegWr) : State :=
  if o = .hawkmoth ∧ 0x010 ≤ off ∧ off < 0x070 then s.mapStore ((off - 0x010) / 8) w
  else if 0x100 ≤ off ∧ off < 0x180 then
    s.setRegIf .hbmGlobal 0 off w HBM_PART.REJECT (s.partStatus ((off - 0x100) / 8) w) ((off - 0x100) / 8)
  else
    match off with
    | 0x180 => s.setRegIf .hbmGlobal 0 off w HBM_REFILL.REJECT (s.zeroOf w [HBM_REFILL.US] 0)
    | 0x190 => s.writePmap w
    | 0x198 => s.setRegIf .hbmGlobal 0 off w HBM_SCRUB.REJECT (s.zeroOf w [HBM_SCRUB.PERIOD_H] 0)
    | _ => s.setReg .hbmGlobal 0 off w

/-- GEY_ command registers. -/
def State.writeGeyCmd (s : State) (off : Nat) (w : RegWr) : State :=
  match off with
  | 0x020 => if w.put GEY_GO.GO = 1 then s.geyGo else s
  | 0x038 => s.setRegIf .geyCmd 0 off w GEY_CTRL.REJECT (s.zeroOf w [GEY_CTRL.SHARE] 0)
  | _ => s.setReg .geyCmd 0 off w

/-- GEY_ test registers. -/
def State.writeGeyTest (s : State) (n off : Nat) (w : RegWr) : State :=
  let s := s.setReg .geyTest n off w
  if off = 0 ∧ w.put GEY_TEST_CTRL.GO = 1 then
    s.geyTestGo n (s.rd GEY_TEST_CTRL.PC n) (s.rd GEY_TEST_CTRL.MODE n) (s.rd GEY_TEST_CTRL.PATTERN n)
  else s

/-! ## The host port and its rings (R351, R367, R368) -/

/-- Bits of HOST_EVT_ENj that name a source, 1 to 548. -/
def evtBits (j : Nat) : Nat := (List.range 64).foldl (fun n b => if 1 ≤ 64 * j + b ∧ 64 * j + b ≤ 548 then n + 2 ^ b else n) 0

/-- HOST_VF_SLOTS sets the slots of the selected VF, 1 to 64. -/
def State.writeVfSlots (s : State) (w : RegWr) : State :=
  let v := s.rd HOST_VF_SEL.VF
  if v = 0 ∨ 64 < v then s
  else { s with host := { s.host with
    vfSlots := setK 0 s.host.vfSlots v (w.merge HOST_VF_SLOTS.SLOTS (getK 0 s.host.vfSlots v)) } }

/-- The component registers an access of 4 or 8 bytes writes. -/
def State.writeComps (s : State) (off : Nat) (w : RegWr) : State :=
  let s := if bits w.mask 0 32 = 0 then s else s.writeComp off (bits w.val 0 32)
  if bits w.mask 32 32 = 0 then s else s.writeComp (off + 4) (bits w.val 32 32)

/-- HOST_ registers. -/
def State.writeHost (s : State) (off : Nat) (w : RegWr) : State :=
  if 0x10000 ≤ off then s.writeComps (off - 0x10000) w
  else if 0x100 ≤ off ∧ off < 0x148 then
    s.setReg .host 0 off ⟨w.mask, w.val &&& evtBits ((off - 0x100) / 8)⟩
  else if 0x180 ≤ off ∧ off < 0x1C8 then
    (List.range 64).foldl (fun s b => if bit w.val b then s.rearm ((off - 0x180) / 8 * 64 + b) else s) s
  else
    match off with
    | 0x010 => s.setRegIf .host 0 off w HOST_DOWN_TMO.REJECT (s.zeroOf w [HOST_DOWN_TMO.MS] 0)
    | 0x040 => s.writeVfSlots w
    | _ => s.setReg .host 0 off w

/-- RING_CFG's settings; FUNC and VF_INDEX only for the PF (R351, R368). -/
def ringSettings (o : Origin) : List Fld :=
  [RING_CFG.SPACE, RING_CFG.PV, RING_CFG.PASID] ++ (if o = .pf then [RING_CFG.FUNC, RING_CFG.VF_INDEX] else [])

/-- RING_CFG is written: EN 0 drains a ring that is not DISABLED; settings change, and EN 1 enables, only a DISABLED
one (R351, R360). A rejected write leaves the register unchanged. -/
def State.writeRingCfg (s : State) (o : Origin) (r : Nat) (w : RegWr) : State :=
  let fs := ringSettings o
  let en := s.after w RING_CFG.EN r == 1
  if s.ringSt r ≠ rDisabled then
    if en ∨ fs.any (fun f => s.after w f r != s.rd f r) then s.wr RING_CFG.REJECT stBadDescriptor r
    else s.drainRing r
  else
    let t := fs.foldl (fun s f => s.wr f (s.after w f r) r) s
    if en then
      let u := t.enableRing r
      if u.rd RING_CFG.REJECT r = stOK then u else s.wr RING_CFG.REJECT (u.rd RING_CFG.REJECT r) r
    else t.wr RING_CFG.REJECT stOK r

/-- The status of a write of a ring's base or size (R351). -/
def State.ringStatus (s : State) (r off : Nat) (w : RegWr) : Nat :=
  if s.ringSt r ≠ rDisabled then stBadDescriptor
  else if off = 0x18 then
    let n := s.after w RING_SIZE.ENTRIES r
    if n = 0 then stZeroWindow else if ringSizeGood n then stOK else stBadDescriptor
  else stOK

/-- RING_ registers of a ring. -/
def State.writeRing (s : State) (o : Origin) (r off : Nat) (w : RegWr) : State :=
  match off with
  | 0x00 => s.writeRingCfg o r w
  | 0x08 | 0x10 | 0x18 => s.setRegIf .ring r off w RING_CFG.REJECT (s.ringStatus r off w)
  | _ => s.setReg .ring r off w

/-! ## The Cocoon site and the Obneurn Link (R390, R412, R413) -/

/-- COC_CTRL is written: a fence, or a bring-up that is then due (R382, R387). -/
def State.writeCocCtrl (s : State) (w : RegWr) : State :=
  let s := if w.put COC_CTRL.FENCE = 1 then s.fence stOK 0 else s
  if w.put COC_CTRL.BRINGUP = 1 ∧ s.cocSt ≠ cocUP ∧ ¬ s.coc.fencing then s.setCoc fun x => { x with due := true } else s

/-- COC_ registers. -/
def State.writeCoc (s : State) (off : Nat) (w : RegWr) : State :=
  match off with
  | 0x050 => s.writeCocCtrl w
  | 0x068 => s.setRegIf .coc 0 off w COC_ENF.REJECT (s.zeroOf w [COC_ENF.GRACE_MS, COC_ENF.DOWN_MS, COC_ENF.WIN_US] 0)
  | _ => s.setReg .coc 0 off w

/-- The status of a write of OBL_JOB_ACCEPTn: no two valid entries hold one job, and none holds job 0 (R412). -/
def State.acceptStatus (s : State) (n : Nat) (w : RegWr) : Nat :=
  let job := s.after w OBL_JOB_ACCEPT.JOB 0 n
  let twice := (List.range 64).any fun m =>
    m != n && s.on OBL_JOB_ACCEPT.VALID 0 m && s.rd OBL_JOB_ACCEPT.JOB 0 m == job
  if s.after w OBL_JOB_ACCEPT.VALID 0 n = 1 ∧ (job = 0 ∨ twice) then stBadDescriptor else stOK

/-- OBL_JOB_FUNC sets the job of the selected function, 0 to 64 (R401). -/
def State.writeJobFunc (s : State) (w : RegWr) : State :=
  let f := s.rd OBL_JOB_FUNC_SEL.FUNC
  if 64 < f then s
  else { s with obl := { s.obl with
    jobFunc := setK 0 s.obl.jobFunc f (w.merge OBL_JOB_FUNC.JOB (getK 0 s.obl.jobFunc f)) } }

/-- OBL_ global registers. -/
def State.writeObl (s : State) (off : Nat) (w : RegWr) : State :=
  if 0x100 ≤ off ∧ off < 0x300 then
    s.setRegIf .oblGlobal 0 off w OBL_JOB_ACCEPT.REJECT (s.acceptStatus ((off - 0x100) / 8) w) ((off - 0x100) / 8)
  else
    match off with
    | 0x000 => s.setRegIf .oblGlobal 0 off w OBL_CTRL.REJECT
        (s.zeroOf w [OBL_CTRL.HOPS_INIT, OBL_CTRL.RECOV_MS, OBL_CTRL.QUIET_MS] 0)
    | 0x388 => s.writeJobFunc w
    | _ => s.setReg .oblGlobal 0 off w

/-- OBL_ port registers: EN acts at once (R393). -/
def State.writePort (s : State) (p off : Nat) (w : RegWr) : State :=
  let s := s.setReg .oblPort p off w
  if off = 0 then s.portSettle p else s

/-! ## Power and ageing (R421, R436) -/

/-- Whether five class codes are a permutation of 0 to 4. -/
def isPermutation (l : List Nat) : Bool := (List.range 5).all fun k => l.contains k

/-- The status of a write of PWR_ORDER. -/
def State.orderStatus (s : State) (w : RegWr) : Nat :=
  if isPermutation ((List.range 5).map fun r => s.after w PWR_ORDER.CLASS 0 0 r) then stOK else stBadDescriptor

/-- The status of a write of PWR_CLASSj: the floors sum to at most 1,200 W. -/
def State.floorStatus (s : State) (j : Nat) (w : RegWr) : Nat :=
  let others := (List.range 5).foldl (fun n k => if k = j then n else n + s.rd PWR_CLASS.FLOOR 0 k) 0
  if 1200 < others + s.after w PWR_CLASS.FLOOR 0 j then stBadDescriptor else stOK

/-- The status of a write of a field that must lie in a range. -/
def State.rangeStatus (s : State) (w : RegWr) (f : Fld) (lo hi : Nat) : Nat :=
  if lo ≤ s.after w f ∧ s.after w f ≤ hi then stOK else stBadDescriptor

/-- PWR_ registers. -/
def State.writePwr (s : State) (off : Nat) (w : RegWr) : State :=
  if 0x010 ≤ off ∧ off < 0x038 then
    s.setRegIf .pwr 0 off w PWR_CLASS.REJECT (s.floorStatus ((off - 0x010) / 8) w) ((off - 0x010) / 8)
  else
    match off with
    | 0x000 => s.writeCap (s.after w PWR_CAP.WATTS) (s.after w PWR_CAP.WINDOW_S)
    | 0x008 => s.setRegIf .pwr 0 off w PWR_ORDER.REJECT (s.orderStatus w)
    | 0x068 => s.setRegIf .pwr 0 off w PWR_THERM.REJECT (s.rangeStatus w PWR_THERM.THROTTLE_C 80 100)
    | _ => s.setReg .pwr 0 off w

/-- The status of a write of AGE_CTRL. -/
def State.ageStatus (s : State) (w : RegWr) : Nat :=
  let m := s.rangeStatus w AGE_CTRL.MARGIN_MIN 4 20
  if m = stOK then s.zeroOf w [AGE_CTRL.PERIOD_MIN] 0 else m

/-- AGE_ registers. -/
def State.writeAge (s : State) (off : Nat) (w : RegWr) : State :=
  match off with
  | 0x000 => s.setRegIf .age 0 off w AGE_CTRL.REJECT (s.ageStatus w)
  | _ => s.setReg .age 0 off w

/-! ## Resets, errors and tests (R458, R459) -/

/-- RAS_RESET.GO (R443): a domain from 5 on has no effect. -/
def State.askReset (s : State) (domain target : Nat) : State :=
  match domain with
  | 0 =>
    if 512 ≤ target then s.wr RAS_RESET.REJECT stBadDescriptor
    else if s.held target then s.wr RAS_RESET.REJECT stOK
    else s.requestReset (dCluster, target)
  | 1 => if 4 ≤ target then s.wr RAS_RESET.REJECT stBadDescriptor else s.requestReset (dMatrix, target)
  | 2 => if 2 ≤ target then s.wr RAS_RESET.REJECT stBadDescriptor else s.requestReset (dHub, target)
  | 3 => s.requestReset (dCore, 0)
  | 4 => s.requestReset (dPackage, 0)
  | _ => s

/-- RAS_CTRL is written: the released FAULTED clusters are reset once AUTO_CLUSTER is 1 (R448). -/
def State.writeRasCtrl (s : State) (w : RegWr) : State :=
  let t := s.setReg .ras 0 0x070 w
  if t.on RAS_CTRL.AUTO_CLUSTER ∧ ¬ s.on RAS_CTRL.AUTO_CLUSTER then (List.range 512).foldl State.autoReset t else t

/-- Clusters that a write of RAS_CLU_HELDj releases. -/
def State.writeHeld (s : State) (j : Nat) (w : RegWr) : State :=
  (List.range 64).foldl (fun s b => if bit w.val b then s.releaseHeld (64 * j + b) else s) s

/-- The oldest RAS record is removed (R458). -/
def State.popEvent (s : State) : State := { s with ras := { s.ras with queue := s.ras.queue.drop 1 } }

/-- Logged uncorrectable errors are acknowledged (R40, R458). -/
def State.ackErrors (s : State) : State := { s with ras := { s.ras with ueOpen := false } }

/-- RAS_ registers. -/
def State.writeRas (s : State) (o : Origin) (off : Nat) (w : RegWr) : State :=
  if 0x028 ≤ off ∧ off < 0x068 then s.writeHeld ((off - 0x028) / 8) w
  else
    match off with
    | 0x008 => if w.put RAS_RESET.GO = 1 then s.askReset (w.put RAS_RESET.DOMAIN) (w.put RAS_RESET.TARGET) else s
    | 0x018 => s.setRegIf .ras 0 off w RAS_ESCALATE.REJECT (s.zeroOf w [RAS_ESCALATE.LIMIT, RAS_ESCALATE.WINDOW_S] 0)
    | 0x020 => s.setRegIf .ras 0 off w RAS_CLU_ESCALATE.REJECT
        (s.zeroOf w [RAS_CLU_ESCALATE.LIMIT, RAS_CLU_ESCALATE.WINDOW_S] 0)
    | 0x068 => if w.put RAS_SERVICE.RESTORE = 1 ∧ trusted o then s.restoreService else s
    | 0x070 => s.writeRasCtrl w
    | 0x078 => s.setRegIf .ras 0 off w RAS_HM_WDOG.REJECT (s.zeroOf w [RAS_HM_WDOG.PERIOD_MS] 0)
    | 0x0A0 => if w.put RAS_EVT_POP.POP = 1 then s.popEvent else s
    | 0x0B0 => if w.put RAS_UE_ACK.ACK = 1 then s.ackErrors else s
    | _ => s.setReg .ras 0 off w

/-- BIST_ registers. A refused start changes REJECT alone, and while a test runs its KIND, TARGET and TEST stand (log entry
196). -/
def State.writeBist (s : State) (off : Nat) (w : RegWr) : State :=
  match off with
  | 0x000 =>
    let t := s.setReg .bist 0 off w
    if w.put BIST_CMD.GO = 1 then s.startTest (t.rd BIST_CMD.KIND) (t.rd BIST_CMD.TARGET) (t.rd BIST_CMD.TEST)
    else if s.on BIST_CMD.BUSY then s else t
  | 0x080 => s.setRegIf .bist 0 off w BIST_ROT.REJECT (s.zeroOf w [BIST_ROT.PERIOD_H] 0)
  | _ => s.setReg .bist 0 off w

/-! ## Trust (R478) -/

/-- SEC_CTRL is written: COMMIT_FW acts from the PF alone (R467); the firmware serves it and the wipe. -/
def State.writeSecCtrl (s : State) (o : Origin) (w : RegWr) : State :=
  let s := s.setReg .sec 0 0x010 w
  let run := s.board.boot == .running
  let s := if run && w.put SEC_CTRL.COMMIT_FW == 1 && decide (o = .pf) then s.commitFw else s
  if run && w.put SEC_CTRL.WIPE == 1 then s.wipe else s

/-- SEC_ registers, from a requester that may write them. -/
def State.writeSec (s : State) (o : Origin) (off : Nat) (w : RegWr) : State :=
  match off with
  | 0x010 => s.writeSecCtrl o w
  | 0x0B0 => if w.put SEC_AUTH_GO.GO = 1 ∧ s.board.boot = .running then s.authGo else s
  | 0x0D8 => if w.put SEC_ATTEST.GO = 1 then s.attestGo else s
  | _ => s.setReg .sec 0 off w

/-! ## A hart's CSRs (R242, R272, R273) -/

/-- The watchdog's count restarts (R270). -/
def State.kickDog (s : State) (h : Nat) : State := s.setCore h fun c => { c with dog := 0, expired := false }

/-- matomic.FLUSH frees every predictor entry (R257). -/
def State.flushPred (s : State) (h : Nat) : State := s.setCore h fun c => { c with pred := [] }

/-- mwdog is written: a period of 0 is rejected whole (R272). -/
def State.writeDog (s : State) (h : Nat) (w : RegWr) : State :=
  let st := s.zeroOf w [mwdog.PERIOD_MS] h
  let t := s.setRegIf .csr h 0x3E10 w mwdog.REJECT st
  if st = stOK ∧ w.put mwdog.KICK = 1 then t.kickDog h else t

/-- A hart's CSR at a byte offset of its space is written: the Plovton CSRs and the others. -/
def State.writeHart (s : State) (h off : Nat) (w : RegWr) : State :=
  match off with
  | 0x3E00 => if w.put mcorepwr.DEEP = 3 then s.setReg .csr h off ⟨w.mask - bits w.mask 0 2, w.val⟩ else s.setReg .csr h off w
  | 0x3E08 => if w.put matomic.FLUSH = 1 then (s.setReg .csr h off w).flushPred h else s.setReg .csr h off w
  | 0x3E10 => s.writeDog h w
  | 0x3E18 | 0x7E00 => s
  | _ => s.writeCsr h (off / 8) w.val

/-! ## Every register -/

/-- A write of a register of a block takes effect. -/
def State.writeBlock (s : State) (o : Origin) (b : Blk) (i off : Nat) (w : RegWr) : State :=
  match b with
  | .clu => s.writeClu i off w
  | .cal => s.writeCal i off w
  | .plnSlot => s.writePlnSlot i off w
  | .dlnDie => s.writeDlnDie i off w
  | .dlnSlot => s.writeDlnSlot i off w
  | .mov => s.writeMov i off w
  | .lnd => s.writeLnd i off w
  | .tier => s.writeTier off w
  | .dir => s.writeDir i off w
  | .sc => s.writeSc o i off w
  | .hbmGlobal => s.writeHbmGlobal o off w
  | .geyCmd => s.writeGeyCmd off w
  | .geyTest => s.writeGeyTest i off w
  | .host => s.writeHost off w
  | .ring => s.writeRing o i off w
  | .coc => s.writeCoc off w
  | .oblGlobal => s.writeObl off w
  | .oblPort => s.writePort i off w
  | .pwr => s.writePwr off w
  | .age => s.writeAge off w
  | .ras => s.writeRas o off w
  | .bist => s.writeBist off w
  | .sec => s.writeSec o off w
  | .csr => s.writeHart i off w
  | .plnGlobal | .hbmHub | .ringGlobal | .d2dLink | .d2dGlobal | .oblRoute | .chn | .hub => s.setReg b i off w

/-- What a read of a register does after it returns: read-to-clear fields clear, and GEY_DONE gives up its completion
(R12, R333). -/
def State.afterRead (s : State) (b : Blk) (i off : Nat) (w : RegWr) : State :=
  if b = .geyCmd ∧ off = 0x028 then (if w.touches GEY_DONE.VALID then s.geyPop else s)
  else if b = .csr ∧ (b.spots off).isEmpty then s.csrReadLeaves (off / 8)
  else (b.spots off).foldl (fun s p => s.clearSpot i w p) s

/-- The dwords of the CXL component registers. -/
def State.compWord (s : State) (off : Nat) : Nat := s.comp off + s.comp (off + 4) * 2 ^ 32

/-- The word a register shows, the component registers and the CSRs included. -/
def State.wordAt (s : State) (b : Blk) (i off : Nat) : Nat :=
  if b = .host ∧ 0x10000 ≤ off then s.compWord (off - 0x10000)
  else if b = .csr ∧ (b.spots off).isEmpty then (s.readCsr i (off / 8)).getD 0
  else s.regWord b i off

/-! ## What an address of register space names -/

/-- What stands at an address of register space: a register, a doorbell page, an interrupt block, the Cocoon die's
window, or nothing. -/
inductive Named where
  | reg (b : Blk) (i off : Nat)
  | doorbell (r off : Nat)
  | irq (r : IrqReg)
  | cocoon
  | nothing
  deriving DecidableEq, Repr

/-- What an address names (R486). -/
def named (a : Nat) : Named :=
  if 0xF00E000000 ≤ a ∧ a < 0xF00E000000 + 1024 * 0x1000 then .doorbell ((a - 0xF00E000000) / 0x1000) (a % 0x1000)
  else if cocWindow ≤ a ∧ a < cocWindow + 0x10000000 then .cocoon
  else
    match irqAt a with
    | some r => .irq r
    | none =>
      match regAt a with
      | some (b, i, off) => .reg b i off
      | none => .nothing

/-- Whether an access of a size at an address is one its register takes: 4 or 8 bytes, aligned (R11), or the register's own
width in the interrupt blocks (R265). -/
def Named.takes (n : Named) (addr size : Nat) : Bool :=
  match n with
  | .irq r => size == r.width && addr % size == 0
  | _ => (size == 4 || size == 8) && addr % size == 0

/-- A doorbell page is written: the low 16 bits of one of its two registers (R352). -/
def State.writeDoorbell (s : State) (o : Origin) (r off v : Nat) : State :=
  match off with
  | 0 => s.onDoorbell o r 0 fun s => s.dbSq r (v % 65536)
  | 8 => s.onDoorbell o r 8 fun s => s.dbCq r (v % 65536)
  | _ => s

/-- A write that its requester may make reaches what it names. The Cocoon die's window has a command of its own. -/
def State.writeNamed (s : State) (o : Origin) (n : Named) (addr size val : Nat) : State :=
  match n with
  | .reg b i off =>
    let w := RegWr.of addr size val
    if b = .sec then s.secWrite o addr fun s => s.writeBlock o b i (off / 8 * 8) w
    else s.writeBlock o b i (off / 8 * 8) w
  | .doorbell r off => s.writeDoorbell o r off val
  | .irq r => s.writeIrq r (val % 2 ^ (8 * size))
  | .cocoon | .nothing => s

/-- A read that its requester may make: the bytes it returns. -/
def State.readNamed (s : State) (n : Named) (addr size : Nat) : List Byte :=
  match n with
  | .reg b i off => RegWr.bytesOf addr size (s.wordAt b i (off / 8 * 8))
  | .irq r => leBytes size (s.readIrq r)
  | .doorbell _ _ | .cocoon | .nothing => List.replicate size 0

/-- What the read leaves. -/
def State.readLeaves (s : State) (n : Named) (addr size : Nat) : State :=
  match n with
  | .reg b i off => s.afterRead b i (off / 8 * 8) (RegWr.of addr size 0)
  | _ => s

/-- What a VF's address names (R345): page j of its BARs, at the address that the block or the doorbell page of ring j has for the
PF, is its local ring j's (log entry 191); nothing else lies in them. -/
def State.vfNamed (s : State) (v : Nat) (n : Named) : Named :=
  match n with
  | .reg .ring j off => match s.vfRing v j with | some r => .reg .ring r off | none => .nothing
  | .doorbell j off => match s.vfRing v j with | some r => .doorbell r off | none => .nothing
  | _ => .nothing

/-- What an address names for a requester. -/
def State.namedBy (s : State) (o : Origin) (addr : Nat) : Named :=
  match o with
  | .vf v => s.vfNamed v (named addr)
  | _ => named addr

/-- Whether a requester's accesses are claimed: not those of a function that is absent or in D3hot (R340, R344). -/
def State.claims (s : State) (o : Origin) : Bool :=
  match o with
  | .pf => !s.inD3 0
  | .vf v => s.funcHere (v + 1) && !s.inD3 (v + 1)
  | _ => true

/-- Whether an interrupt page is an IMSIC's, which the Cocoon die may write (R266, R384). -/
def Named.isImsic : Named → Bool
  | .irq (.imsic _ _) => true
  | _ => false

/-- A hart's CSRs: its own, as its mode may reach them, or an illegal-instruction exception (R241, R272); no other requester
names them. -/
def State.onCsr (s : State) (o : Origin) (i n : Nat) (write : Bool) (f : State → State) : State :=
  match o with
  | .core h m => if h.val ≠ i then s else if s.csrOpen h n m write then f s else s.trap h 2 0
  | _ => s

/-- An access of register space by a requester: `f` where it may make it. -/
def State.onReg (s : State) (o : Origin) (n : Named) (addr size : Nat) (write : Bool) (f : State → State) : State :=
  match o with
  | .cocoon => if n.isImsic ∧ write ∧ n.takes addr size then f s else (s.cocRefuse addr).answerWith [] true
  | .vf _ =>
    if !s.claims o then s.answerOnes o size write
    else if n = .nothing then s.answerWith (if write then [] else List.replicate size 0)
    else if n.takes addr size then f s
    else s.badSize o addr size write
  | .pf | .core _ _ | .hawkmoth =>
    if !s.claims o then s.answerOnes o size write
    else if n = .nothing then s.unmapped o addr size write
    else if ¬ n.takes addr size then s.badSize o addr size write
    else f s
  | _ => s

/-- A register is written by a requester. -/
def State.writeReg (s : State) (o : Origin) (addr size val : Nat) : State :=
  let n := s.namedBy o addr
  match n with
  | .reg .csr i off => if size = 8 ∧ addr % 8 = 0 then s.onCsr o i (off / 8) true fun s => s.writeNamed o n addr size val else s
  | .cocoon => s
  | _ => s.onReg o n addr size true fun s => (s.writeNamed o n addr size val).answerWith []

/-- A register is read by a requester. -/
def State.readReg (s : State) (o : Origin) (addr size : Nat) : State :=
  let n := s.namedBy o addr
  let go (s : State) : State := (s.readLeaves n addr size).answerWith (s.readNamed n addr size)
  match n with
  | .reg .csr i off => if size = 8 ∧ addr % 8 = 0 then s.onCsr o i (off / 8) false go else s
  | .cocoon => s
  | _ => s.onReg o n addr size false go

/-- Whether an address lies in register space, or among the CSRs. -/
def inRegSpace (a : Nat) : Bool := decide (0xF000000000 ≤ a) && decide (a < 0xF100000000)
  || decide (0x1000000000000 ≤ a)

/-- REGISTER_WRITE (R11 to R13). -/
def execRegisterWrite (o : Origin) (addr size val : Nat) (s : State) : Answer :=
  .next <| if inRegSpace addr ∧ ¬ s.orderedOpen (originStream o) none then s.writeReg o addr size val else s

/-- REGISTER_READ_CLEAR, held like a write while earlier requests of the ordered class are open (R283): the read of a register, whose read-to-clear fields then clear (R12). -/
def execRegisterReadClear (o : Origin) (addr size : Nat) (s : State) : Answer :=
  .next <| if inRegSpace addr ∧ ¬ s.orderedOpen (originStream o) none then s.readReg o addr size else s

/-- REGISTER_ACCESS_BAD_SIZE: an access of register space of a size or alignment that is forbidden (R11). -/
def execRegisterAccessBadSize (o : Origin) (addr size : Nat) (write : Bool) (s : State) : Answer :=
  .next <|
    let n := s.namedBy o addr
    if ¬ inRegSpace addr ∨ n = .nothing ∨ n = .cocoon ∨ n.takes addr size ∨ 0x1000000000000 ≤ addr then s
    else s.onReg o n addr size write fun s => s

/-- Whether nothing lies at an address of the map (R7, R8, R65, R385, R486). -/
def State.unmappedAt (s : State) (addr : Nat) : Bool :=
  if addr < s.hbmEnd then false
  else if inWindows addr then decide (0x300000 ≤ winOff addr)
  else if cocWindow ≤ addr ∧ addr < cocWindow + 0x10000000 then !s.inWindow addr
  else if inRegSpace addr then decide (named addr = .nothing) && decide (addr < 0x1000000000000)
  else true

/-- UNMAPPED_ACCESS (R10): a read returns all ones, a write is dropped, and a RAS event records either. The access is of
8 bytes. -/
def execUnmappedAccess (o : Origin) (addr : Nat) (write : Bool) (s : State) : Answer :=
  .next <| if s.unmappedAt addr then s.unmapped o addr 8 write else s

end Sys2Proof.Machine
end

