-- ==== Sys2Proof/Machine/Cores.lean ====
section
/-! DEFINITION. Machine/Cores.lean: the commands of the harts (R241 to R273): loads and stores, the store buffer, atomics,
cache maintenance, sleep, interrupts, the watchdog and the debug halt. -/

namespace Sys2Proof.Machine

/-! ## When a hart executes -/

/-- Whether an access of a hart waits for a line. -/
def State.missing (s : State) (h : Nat) : Bool :=
  (s.linesOf h).any fun e => match e.2.miss with | some (.store _ _) => false | some _ => true | none => false

/-- Whether a hart is free to execute its next instruction: it is in RUN, not halted, on its way to no sleep, and no
access of it is in progress. -/
def State.hartIdle (s : State) (h : Nat) : Bool :=
  let c := s.core h
  c.power == 0 && c.going.isNone && c.debug == 0 && c.pend.isNone && !s.missing h

/-- Whether it may also go past a FENCE that waited for its store buffer. -/
def State.hartFree (s : State) (h : Nat) : Bool := s.hartIdle h && !(s.core h).fenced

/-- An instruction of a hart: it executes when the hart is free, else it has to be given again (log entry 63). -/
def State.onHart (s : State) (h : Nat) (f : State → State) : State := if s.hartFree h then f s else s

/-- A hart's accesses are made in M-mode. -/
def hartOrigin (h : Fin 96) : Origin := .core h true

/-! ## Where a physical address lies (R7, R246) -/

/-- The kinds of range. -/
inductive Range where
  | main
  | window
  | cocoon
  | register
  | unmapped
  deriving DecidableEq, Repr

/-- The range of an access. -/
def State.rangeOf (s : State) (addr n : Nat) : Range :=
  if addr + n ≤ s.hbmEnd then .main
  else if inWindows addr then .window
  else if named addr = .cocoon then .cocoon
  else if inRegSpace addr ∧ named addr ≠ .nothing then .register
  else .unmapped

/-- Physical addresses have 40 bits (R242). -/
def tooHigh (addr : Nat) : Bool := decide (2 ^ 40 ≤ addr)

/-- Whether an access raises an access fault whatever lies at its address: the address is too high, or PMP denies it. -/
def State.barred (s : State) (h addr n : Nat) (write : Bool) : Bool := tooHigh addr || !s.pmpLets h addr n write

/-! ## Loads (R252, R255) -/

/-- An I/O load's answer is written to its register, or its poison consumed. -/
def State.ioLoaded (s : State) (h rd addr n : Nat) (signed : Bool) : State :=
  if s.resp.poison then s.consumePoison h 5 addr else s.setXreg h rd (loadValue n signed s.resp.data)

/-- Whether the store buffer holds uncached or I/O stores. -/
def Core.ioStores (c : Core) : Bool := c.buf.any fun e => e.io.isSome

/-- Whether the store buffer lacks a byte that an access needs of a line. -/
def lacks (buf : List SbEnt) (addr n k : Nat) : Bool :=
  (List.range n).any fun i => hbmKey (addr + i) == k && (bufByte buf (addr + i)).isNone

/-- A load through a mapping with PBMT NC or IO: assembled of the bytes that the buffer holds and of the lines that have the
others, each read at its home (R252); one through IO waits while strongly ordered stores do. -/
def State.loadUncached (s : State) (h rd addr n : Nat) (signed io : Bool) : State :=
  let buf := (s.core h).buf
  let got := (List.range n).filterMap fun i => (bufByte buf (addr + i)).map fun b => (i, b)
  if io ∧ (s.core h).ioStores then s
  else
    match (keysOf addr n).filter (lacks buf addr n) with
    | [] => s.setXreg h rd (loadValue n signed (inOrder n got))
    | k :: more =>
      (s.setCore h fun c => { c with pend := some ⟨.load rd addr n signed, k :: more, got⟩ }).post
        (.req k ⟨.rdcur, none, h, none, false⟩)

/-- A load of an I/O range: aligned, and after every uncached store before it. -/
def State.loadIo (s : State) (h : Fin 96) (rd addr n : Nat) (signed : Bool) : State :=
  if addr % n ≠ 0 then s.trap h 4 addr
  else if (s.core h).ioStores then s
  else
    match s.rangeOf addr n with
    | .window => (s.window (hartOrigin h) addr n none).ioLoaded h rd addr n signed
    | .register => (s.readReg (hartOrigin h) addr n).ioLoaded h rd addr n signed
    | .cocoon =>
      if s.inWindow addr then s.setCore h fun c => { c with pend := some ⟨.load rd addr n signed, [], []⟩ }
      else (s.unmapped (hartOrigin h) addr n false).ioLoaded h rd addr n signed
    | _ => (s.unmapped (hartOrigin h) addr n false).ioLoaded h rd addr n signed

/-- CORE_LOAD (R246, R252, R255). -/
def execCoreLoad (h : Fin 96) (rd : Fin 32) (addr : BitVec 64) (size : Fin 4) (signed : Bool) (pbmt : Pbmt) (s : State) :
    Answer :=
  .next <| s.onHart h fun s =>
    let a := addr.toNat
    let n := 2 ^ size.val
    if s.barred h a n false then s.trap h 5 a
    else
      match s.rangeOf a n, pbmt with
      | .main, .none => s.tryLoad h rd a n signed (.load rd a n signed)
      | .main, .nc => s.loadUncached h rd a n signed false
      | .main, .io => s.loadUncached h rd a n signed true
      | _, _ => s.loadIo h rd a n signed

/-! ## Stores (R250, R253) -/

/-- The parts of a store by line: the line and its bytes by offset. -/
def storeParts (addr : Nat) (bytes : List Byte) : List (Nat × List (Nat × Byte)) :=
  let at_ := bytes.zipIdx.map fun (p : Byte × Nat) => (addr + p.2, p.1)
  let part (line : Nat) : List (Nat × Byte) :=
    (at_.filter fun p => p.1 / 64 == line).map fun (p : Nat × Byte) => (p.1 % 64, p.2)
  if addr / 64 = (addr + bytes.length - 1) / 64 then [(addr / 64, part (addr / 64))]
  else [(addr / 64, part (addr / 64)), (addr / 64 + 1, part (addr / 64 + 1))]

/-- A part of a store merges into the youngest entry, when that is of its line and kind and has not begun to drain. -/
def mergesInto (e : SbEnt) (line : Nat) (nc : Bool) : Bool := e.io.isNone && e.line == line && e.nc == nc && !e.begun

/-- A part of a store retires into the buffer (R250). -/
def State.bufferStore (s : State) (h line : Nat) (bytes : List (Nat × Byte)) (nc : Bool) : State :=
  match (s.core h).buf.getLast? with
  | some e =>
    if mergesInto e line nc then
      let keep := e.bytes.filter fun p => !bytes.any fun q => q.1 == p.1
      (s.hpmEvent h 4).setCore h fun c => { c with buf := c.buf.dropLast ++ [{ e with bytes := bytes ++ keep }] }
    else s.setCore h fun c => { c with buf := c.buf ++ [⟨line, bytes, none, nc, false, false⟩] }
  | none => s.setCore h fun c => { c with buf := [⟨line, bytes, none, nc, false, false⟩] }

/-- Entries that a store of these parts takes. -/
def Core.storeNeeds (c : Core) (parts : List (Nat × List (Nat × Byte))) (nc : Bool) : Nat :=
  match c.buf.getLast?, parts with
  | some e, p :: rest => (if mergesInto e p.1 nc then 0 else 1) + rest.length
  | none, ps => ps.length
  | _, [] => 0

/-- A store of main memory retires; it waits while the buffer has no room (R252). -/
def State.storeMain (s : State) (h addr : Nat) (bytes : List Byte) (nc : Bool) : State :=
  let parts := storeParts addr bytes
  if 64 < (s.core h).buf.length + (s.core h).storeNeeds parts nc then s
  else parts.foldl (fun s p => s.bufferStore h p.1 p.2 nc) s

/-- CORE_STORE (R246, R250). -/
def execCoreStore (h : Fin 96) (rs : Fin 32) (addr : BitVec 64) (size : Fin 4) (pbmt : Pbmt) (s : State) : Answer :=
  .next <| s.onHart h fun s =>
    let a := addr.toNat
    let n := 2 ^ size.val
    let bytes := leBytes n (s.xreg h rs)
    if s.barred h a n true then s.trap h 7 a
    else
      match s.rangeOf a n, pbmt with
      | .main, .none => s.storeMain h a bytes false
      | .main, .nc => s.storeMain h a bytes true
      | .main, .io => s.storeIo h a bytes
      | _, _ => if a % n ≠ 0 then s.trap h 6 a else s.storeIo h a bytes

/-! ## The buffer drains (R251, R254) -/

/-- A store that failed after it retired: mbuserr records it, or MORE that one was lost, and local interrupt 24 is
pending (R254, R272). -/
def State.storeFailed (s : State) (h addr status : Nat) : State :=
  let s := if s.on mbuserr.VALID h then s.wr mbuserr.MORE 1 h
    else ((s.wr mbuserr.ADDR (addr % 2 ^ 40) h).wr mbuserr.STATUS status h).wr mbuserr.VALID 1 h
  s.setMip h 24

/-- A store to uncached HBM at its home: the lines it could be written to now, and whether it was written. One that
leaves a line poisoned has failed. -/
def State.storeHome (s : State) (h addr : Nat) (ks : List Nat) (f : State → Nat → State) : State × Bool :=
  let part := s.partOf h
  let p := s.prepare ks true
  if ¬ p.2 ∨ ¬ s.creditFor ks part then (p.1, false)
  else
    let t := f p.1 part
    (if ks.any fun k => getK false t.hbmPoison (keyAddr k) then t.storeFailed h addr stEcc else t, true)

/-- A strongly ordered store is performed: the state, and whether it was. -/
def State.performIo (s : State) (h : Fin 96) (addr : Nat) (bytes : List Byte) : State × Bool :=
  let n := bytes.length
  let o := hartOrigin h
  if s.orderedOpen h none then (s, false)
  else
  match s.rangeOf addr n with
  | .main => s.storeHome h addr (keysOf addr n) fun s part => s.rangeWrite h part addr bytes
  | .window =>
    let lost := decide (winOff addr < 0x300000) && s.stoppedForWindow (winClu addr)
      && (s.spadWrite (winClu addr) (winOff addr) bytes).bad.isSome
    let t := s.window o addr n (some bytes)
    (if lost then t.storeFailed h addr stEcc
      else if 0x300000 ≤ winOff addr then t.storeFailed h addr stBadDescriptor else t, true)
  | .register => (s.writeReg o addr n (leNat bytes), true)
  | .cocoon =>
    (if s.inWindow addr then s.send (.cocoonWrite (addr - cocWindow) bytes)
      else (s.unmapped o addr n true).storeFailed h addr stBadDescriptor, true)
  | .unmapped => ((s.unmapped o addr n true).storeFailed h addr stBadDescriptor, true)

/-- The lines of the first 16 entries are asked for writable (R251). -/
def State.askWritable (s : State) (h : Nat) : State :=
  ((s.core h).buf.take 16).foldl (fun (s : State) e =>
    if e.cached then s.needWrite (lineKey false e.line) h (some (.store (e.line * 64) [])) else s) s

/-- The head entry begins to drain: no store merges into it any more. -/
def State.beginHead (s : State) (h : Nat) : State :=
  s.setCore h fun c => match c.buf with
    | e :: rest => { c with buf := { e with begun := true } :: rest }
    | [] => c

/-- STORE_BUFFER_DRAIN (R251): the head entry is written once its line is writable, or is performed at its place when it
is an uncached or I/O store. -/
def execStoreBufferDrain (h : Fin 96) (s : State) : Answer :=
  .next <|
    match (s.core h).buf with
    | [] => s
    | e :: _ =>
      let s := (s.askWritable h).beginHead h
      match e.io with
      | some (a, bytes) =>
        let p := s.performIo h a bytes
        if p.2 then p.1.popStore h else p.1
      | none =>
        if e.nc then
          let k := lineKey false e.line
          let p := if s.orderedOpen h none then (s, false) else s.storeHome h (e.line * 64) [k] fun s part => s.engineMerge k h part (e.bytes.length == 64) e.onto
          if p.2 then p.1.popStore h else p.1
        else s.drainCached h

/-- UNCACHED_STORE_FAIL (R254). -/
def execUncachedStoreFail (h : Fin 96) (addr : BitVec 40) (status : Fin 17) (s : State) : Answer :=
  .next (s.storeFailed h addr.toNat status)

/-! ## Atomics (R246, R256 to R258) -/

/-- A value of an atomic's operand: a register, or a pair of them for 16 bytes (the pair of x0 reads as 0). -/
def State.operand (s : State) (h r n : Nat) : Nat :=
  if n = 16 then (if r = 0 then 0 else s.xreg h r + s.xreg h (r + 1) * 2 ^ 64) else s.xreg h r % 2 ^ (8 * n)

/-- Whether an AMO is always near: one of a byte or halfword, and AMOCAS.Q (R256). -/
def alwaysNear (n : Nat) : Bool := n == 16 || decide (n < 4)

/-- Whether an AMO on a cacheable line is performed far: by matomic, or by the predictor. -/
def State.goesFar (s : State) (h k n : Nat) : Bool :=
  if alwaysNear n then false
  else
    match s.rd matomic.MODE h with
    | 1 => false
    | 2 => true
    | _ => decide (2 ≤ (s.core h).counter k)

/-- Whether another core holds a line. -/
def State.othersHold (s : State) (k h : Nat) : Bool :=
  match s.entry k with
  | some e => e.holders.any fun a => decide (a < 96) && a != h
  | none => false

/-- An AMO performed near: one that finds that another core held the line raises its counter. -/
def State.amoNear (s : State) (h k : Nat) (a : Access) : State :=
  let rises := !(s.line k h).st.writable && s.othersHold k h
  (if rises then s.setCore h fun c => c.predRise k else s).tryAccess h a

/-- An AMO performed at the home: as the core's own, or on an uncached mapping by the memory-side adders. -/
def State.amoFar (s : State) (h k : Nat) (agent : Option Nat) (op : AmoOp) (addr size rs cmp : Nat) (a : Access) : State :=
  let s := (s.hpmEvent h 2).setCore h fun c => { (c.touchPred k) with pend := some ⟨a, [k], []⟩ }
  s.post (.req k ⟨.atomf op (addr % 64) size rs cmp, agent, h, none, false⟩)

/-- Encodings of an AMO that are reserved: 16 bytes but for AMOCAS.Q, and its odd register pairs. -/
def amoReserved (op : AmoOp) (size rd rs : Nat) : Bool :=
  decide (4 < size) || (size == 4 && (op != .cas || rd % 2 == 1 || rs % 2 == 1))

/-- AMO (R246, R256 to R258): it waits until the store buffer is empty. -/
def execAmo (h : Fin 96) (op : AmoOp) (rd rs : Fin 32) (addr : BitVec 64) (size : Fin 5) (pbmt : Pbmt) (s : State) :
    Answer :=
  .next <| s.onHart h fun s =>
    let a := addr.toNat
    let n := 2 ^ size.val
    if amoReserved op size rd rs then s.trap h 2 0
    else if a % n ≠ 0 then s.trap h 6 a
    else if s.barred h a n true ∨ s.rangeOf a n ≠ .main then s.trap h 7 a
    else if ¬ (s.core h).buf.isEmpty then s
    else
      let x := s.operand h rs n
      let cmp := s.operand h rd n
      let acc := Access.amo op rd a n x cmp
      let k := hbmKey a
      if pbmt ≠ .none then s.amoFar h k none op a size x cmp acc
      else if s.goesFar h k n then s.amoFar h k (some h.val) op a size x cmp acc
      else s.amoNear h k acc

/-- LR (R246, R256, R258): words and doublewords alone. -/
def execLr (h : Fin 96) (rd : Fin 32) (addr : BitVec 64) (size : Fin 4) (pbmt : Pbmt) (s : State) : Answer :=
  .next <| s.onHart h fun s =>
    let a := addr.toNat
    let n := 2 ^ size.val
    if n < 4 then s.trap h 2 0
    else if a % n ≠ 0 then s.trap h 4 a
    else if s.barred h a n false ∨ s.rangeOf a n ≠ .main ∨ pbmt ≠ .none then s.trap h 5 a
    else if ¬ (s.core h).buf.isEmpty then s
    else s.tryAccess h (.lr rd a n)

/-- SC (R246, R256): without a reservation of its line, as on an uncached mapping, it fails and writes 1. -/
def execSc (h : Fin 96) (rd rs : Fin 32) (addr : BitVec 64) (size : Fin 4) (pbmt : Pbmt) (s : State) : Answer :=
  .next <| s.onHart h fun s =>
    let a := addr.toNat
    let n := 2 ^ size.val
    if n < 4 then s.trap h 2 0
    else if a % n ≠ 0 then s.trap h 6 a
    else if s.barred h a n true ∨ s.rangeOf a n ≠ .main then s.trap h 7 a
    else if ¬ (s.core h).buf.isEmpty then s
    else if pbmt ≠ .none then (s.setXreg h rd 1).setCore h fun c => { c with resv := none }
    else s.tryAccess h (.sc rd a n (s.xreg h rs))

/-- FENCE (R247): one that orders earlier writes before later reads holds the hart until its store buffer is empty; the
others order nothing more. -/
def execFence (h : Fin 96) (predW succR : Bool) (s : State) : Answer :=
  .next <| s.onHart h fun s =>
    if predW && succR && !(s.core h).buf.isEmpty then s.setCore h fun c => { c with fenced := true } else s

/-! ## Cache blocks (R242, R245, R255) -/

/-- CBO.ZERO (R255): a store of 64 zero bytes that clears the line's poison. -/
def execCboZero (h : Fin 96) (addr : BitVec 64) (s : State) : Answer :=
  .next <| s.onHart h fun s =>
    let a := addr.toNat / 64 * 64
    if s.barred h a 64 true ∨ s.rangeOf a 64 ≠ .main then s.trap h 7 addr.toNat
    else if 64 ≤ (s.core h).buf.length then s
    else
      let zeros := (List.range 64).map fun i => (i, (0 : Byte))
      s.setCore h fun c => { c with buf := c.buf ++ [⟨a / 64, zeros, none, false, true, false⟩] }

/-- The other cores that a line's entry names. -/
def State.otherCores (s : State) (k h : Nat) : List Nat :=
  match s.entry k with
  | some e => e.holders.filter fun a => decide (a < 96) && a != h
  | none => []

/-- Their copies are invalidated; dirty data are written at the home, or dropped (Zicbom, R245). -/
def State.othersGiveUp (s : State) (k h : Nat) (discard : Bool) : State :=
  match s.entry k with
  | none => s
  | some e =>
    let l := s.otherCores k h
    let r := l.foldl (fun (p : State × Option (List Byte × Bool)) a =>
      let q := p.1.snoopNow k a .snpInv
      (q.1, match q.2 with | some (d, true, x) => some (d, x) | _ => p.2)) (s, none)
    let s := match r.2 with
      | some (d, x) => if discard then r.1 else r.1.homeStore k h d x
      | none => r.1
    let own := match e.owner with | some x => !l.contains x | none => false
    s.leaveEntry k { e with
      owner := if own then e.owner else none, ownedO := own && e.ownedO
      sharers := e.sharers.filter fun a => !l.contains a
      group := e.group.bind fun g =>
        let g := g &&& (2 ^ 12 + if (s.line k h).st = .i then 0 else 2 ^ (h / 8))
        some g }

/-- A block leaves the caches of every core (Zicbom, R245); it waits while the store buffer holds stores to it or the line
is in transition. -/
def State.cboOn (s : State) (h addr : Nat) (discard : Bool) : State :=
  let a := addr / 64 * 64
  if s.barred h a 64 true && s.barred h a 64 false then s.trap h 7 addr
  else if s.rangeOf a 64 ≠ .main then s
  else if (s.core h).buf.any fun e => e.cached && e.line == addr / 64 then s
  else
    let k := hbmKey addr
    let others := !(s.otherCores k h).isEmpty
    if others && !s.lineFree k then s
    else
      let s := if others then s.othersGiveUp k h discard else s
      let s := if (s.core h).resv = some k then s.setCore h fun c => { c with resv := none } else s
      s.giveUp k h discard

/-- CBO.INVAL (R245): in M-mode, or with CBIE 3, it invalidates; with CBIE 1 it flushes; else it raises an
illegal-instruction exception, as Zicbom has it for 0 (PRESUMED; the reserved 2 as 0, log entry 64). -/
def execCboInval (h : Fin 96) (addr : BitVec 64) (mmode : Bool) (cbie : Fin 4) (s : State) : Answer :=
  .next <| s.onHart h fun s =>
    if mmode ∨ cbie.val = 3 then s.cboOn h addr.toNat true
    else if cbie.val = 1 then s.cboOn h addr.toNat false
    else s.trap h 2 0

/-- CBO.CLEAN (R245): the block is written back; it leaves the caches with it, as Zicbom allows (log entry 65). -/
def execCboClean (h : Fin 96) (addr : BitVec 64) (s : State) : Answer :=
  .next <| s.onHart h fun s => s.cboOn h addr.toNat false

/-- CBO.FLUSH (R245): the block is written back and invalidated. -/
def execCboFlush (h : Fin 96) (addr : BitVec 64) (s : State) : Answer :=
  .next <| s.onHart h fun s => s.cboOn h addr.toNat false

/-! ## Sleep and wake (R268, R269) -/

/-- Whether a hart has an enabled interrupt pending. -/
def State.interruptDue (s : State) (h : Nat) : Bool := s.mipOf h &&& (s.core h).mie != 0

/-- WFI: with no enabled interrupt pending, DEEP 0 enters WAIT, and 1 and 2 begin the sequence of R269. -/
def execWfi (h : Fin 96) (s : State) : Answer :=
  .next <| s.onHart h fun s =>
    if s.interruptDue h then s
    else
      match s.rd mcorepwr.DEEP h with
      | 0 => s.setCore h fun c => { c with power := 1 }
      | d => (s.setCore h fun c => { c with going := some d, wakeDue := false }).settleSleep h

/-- Whether a reset holds the harts. -/
def State.hartsReset (s : State) : Bool := s.rst.busy.contains (dCore, 0) || s.rst.busy.contains (dPackage, 0)

/-- A held hart is released by the Hawkmoth's firmware, which writes its reset vector (R242). -/
def State.releaseHart (s : State) (h : Nat) : State :=
  if s.board.boot = .running ∧ ¬ s.hartsReset ∧ ¬ s.rst.groupsOff.contains (h / 8) then
    s.setCore h fun c => { c with power := 0, vector := Sys2Proof.Config.resetVector h % 2 ^ 64 }
  else s

/-- Whether a source starts a core in OFF: an interrupt in its M-level file while WAKE_IMSIC is 1, or the Hawkmoth; a
group that has no working L2 stays OFF (R268, R454). -/
def State.wakesOff (s : State) (h : Nat) (src : WakeSource) : Bool :=
  !s.rst.groupsOff.contains (h / 8)
    && (match src with
      | .mImsic => s.on mcorepwr.WAKE_IMSIC h && s.eip (h * 16) != 0
      | .hawkmoth => true
      | .interrupt => false)

/-- CORE_WAKE (R268): a core leaves WAIT or RETAIN for an enabled interrupt that is pending, and OFF as `wakesOff` has it; one
that comes while the core is on its way to sleep lets it reach the state first (R269). -/
def execCoreWake (h : Fin 96) (src : WakeSource) (s : State) : Answer :=
  .next <|
    let c := s.core h
    match c.going, c.power with
    | some 2, _ => if s.wakesOff h src then s.setCore h fun c => { c with wakeDue := true } else s
    | some _, _ => if s.interruptDue h then s.setCore h fun c => { c with wakeDue := true } else s
    | none, 1 | none, 2 => if s.interruptDue h then s.exitSleep h else s
    | none, 3 => if s.wakesOff h src then s.exitSleep h else s
    | none, 4 => if src = .hawkmoth then s.releaseHart h else s
    | none, _ => s

/-! ## Interrupts, the watchdog, the debugger (R253, R257, R270) -/

/-- INTERRUPT: the hart takes an interrupt or an RNMI; its buffered stores drain as before (R253), and a FENCE that
waited is not executed. -/
def execInterrupt (h : Fin 96) (rnmi : Bool) (cause : BitVec 64) (s : State) : Answer :=
  .next <|
    if ¬ s.hartIdle h then s
    else if rnmi then s.setCore h fun c => { c with mncause := cause.toNat, fenced := false }
    else s.takeInterrupt h cause.toNat

/-- The watchdog's period in ticks of mtime. -/
def State.dogPeriod (s : State) (h : Nat) : Nat := s.rdMax mwdog.PERIOD_MS 60000 h * 100000

/-- CORE_WATCHDOG (R270): PERIOD_MS has passed without a KICK. The first expiry takes an RNMI and sets FIRED; the second
resets the core die, and the RAS record names the hart. -/
def execCoreWatchdog (h : Fin 96) (s : State) : Answer :=
  .next <|
    let c := s.core h
    if ¬ (s.on mwdog.EN h ∧ c.power = 0 ∧ s.dogPeriod h ≤ c.dog) then s
    else if ¬ c.expired then
      (s.wr mwdog.FIRED 1 h).setCore h fun c =>
        { c with mncause := 0x8000000000000100, dog := 0, expired := true, fenced := false }
    else
      ((s.setCore h fun c => { c with dog := 0 }).rasEvent stCounterTimeout 16 h 0 .uncorr).countedReset (dCore, 0) 1
        stCounterTimeout

/-- KICK: a write of mwdog.KICK (R270), by the hart in M-mode. -/
def execKick (h : Fin 96) (s : State) : Answer := .next <| s.onHart h fun s => s.kickDog h

/-- FLUSH: a write of matomic.FLUSH (R257), by the hart in M-mode. -/
def execFlush (h : Fin 96) (s : State) : Answer := .next <| s.onHart h fun s => s.flushPred h

/-- DEBUG_HALT (R253, R471): through the debug port, which scope bit 1 opens; the halt is reported once the store buffer
has drained. -/
def execDebugHalt (h : Fin 96) (s : State) : Answer :=
  .next <|
    if bit (s.rd SEC_STATUS.DEBUG) 1 ∧ s.hartIdle h then
      (s.setCore h fun c => { c with debug := 1, fenced := false }).settleCore h
    else s

end Sys2Proof.Machine
end

