-- ==== Sys2Proof/Machine/Transfer.lean ====
section
/-! DEFINITION. Machine/Transfer.lean: one transfer on a bundle of a die-to-die link (R371, R372, R375). -/

namespace Sys2Proof.Machine

/-- A bundle goes DOWN at run time: what it carried goes by the others of its role, and a link that this leaves FAILED is
acted on. -/
def State.bundleDown (s : State) (link : Nat) (dir : Bool) (b : Nat) : State :=
  let k := bundleKey link dir b
  let s := s.setD2d fun d => { d with role := setK 0 d.role k 0, fails := setK 0 d.fails k 0 }
  let s := ((s.bump D2D_ERR.DOWN 1 link).raise D2D_INT_STATUS.BUNDLE_DOWN)
  let was := s.rd D2D_LINK_STATUS.STATE link
  let s := s.linkSettle link
  if s.rd D2D_LINK_STATUS.STATE link = 4 ∧ was ≠ 4 then s.linkFails link else s

/-- D2D_TRANSFER (R372): a bundle that has a role carries 16 bytes; `found` is what the receiver's check finds: 0 nothing,
1 a correctable error, 2 an uncorrectable one, which is sent again and at the eighth in a row takes the bundle DOWN. -/
def execD2dTransfer (link : Fin 15) (dir : Bool) (bundle : Fin 100) (found : Fin 3) (s : State) : Answer :=
  .next <|
    let r := s.role link dir bundle
    if r = 0 ∨ r = 6 then s
    else
      let k := bundleKey link dir bundle
      if found.val = 2 then
        let s := s.bump D2D_ERR.REPLAY 1 link
        let n := getK 0 s.d2d.fails k + 1
        if 8 ≤ n then s.bundleDown link dir bundle else s.setD2d fun d => { d with fails := setK 0 d.fails k n }
      else
        let s := if found.val = 1 then s.bump D2D_ERR.CORR 1 link else s
        let s := s.setD2d fun d => { d with fails := setK 0 d.fails k 0 }
        if dir then s.bump D2D_BYTES_BA.BYTES 16 link else s.bump D2D_BYTES_AB.BYTES 16 link

end Sys2Proof.Machine
end

