-- ==== Sys2Proof/Machine/Vector.lean ====
section
/-! DEFINITION. Machine/Vector.lean: the vector unit's instructions (R74, R130): each command runs the instruction that
the cluster's vector program stands at, when it is that operation. -/

namespace Sys2Proof.Machine

/-- A vector register: 64 lanes (R74). -/
def Clu.vreg (x : Clu) (r : Nat) : List Nat := (List.range 64).map fun l => getK 0 x.vregs (r * 64 + l)

/-- Write lanes of a vector register from a lane on. -/
def putLanes (m : SMap Nat) (r : Nat) : Nat → List Nat → SMap Nat
  | _, [] => m
  | l, v :: vs => putLanes (setK 0 m (r * 64 + l) (v % 2 ^ 32)) r (l + 1) vs

/-- Write a vector register. -/
def Clu.setVreg (x : Clu) (r : Nat) (l : List Nat) : Clu := { x with vregs := putLanes x.vregs r 0 l }

/-- The instruction the vector unit of a running cluster stands at, when its operation is `op`. -/
def State.vecAt (s : State) (c op : Nat) : Option Nat :=
  let x := s.clu c
  if s.running c ∧ x.vact then
    match x.act with
    | none => none
    | some g =>
      match g.vec[x.vpc]? with
      | some w => if VecW.op w = op then some w else none
      | none => none
  else none

/-- An earlier STT's bytes are written and its claim ends (R161). -/
def State.flushStt (s : State) (c : Nat) : State :=
  match (s.clu c).vst with
  | none => s
  | some v =>
    let r := s.spadWrite c (pmBase + v.tile * 512 + v.off) v.bytes
    match r.bad with
    | some o => r.st.eccFault c ⟨0, 0, o, 3⟩
    | none => r.st.setClu c fun x => { x.release .vector with vst := none }

/-- Run an instruction of the vector program: an earlier STT is written first, and where that faults the cluster nothing
more runs; then the effect, then the next instruction (R130, R166). -/
def State.vecRun (s : State) (c op : Nat) (f : State → Nat → State) : State :=
  match s.vecAt c op with
  | none => s
  | some _ =>
    let t := s.flushStt c
    match t.vecAt c op with
    | none => t
    | some w => f (t.progress c) w

/-- The vector unit goes on to the next instruction. -/
def State.vecNext (s : State) (c : Nat) : State := s.setClu c fun x => { x with vpc := x.vpc + 1 }

/-- An instruction that writes VD from registers. -/
def State.vecLanes (s : State) (c : Nat) (w : Nat) (f : Clu → List Nat) : State :=
  (s.setClu c fun x => x.setVreg (VecW.vd w) (f x)).vecNext c

/-- A conversion to FP32: the lanes it writes, with overflows and NaNs counted (R99 to R101). -/
def State.vecConverts (s : State) (c : Nat) (w : Nat) (outs : List Rounded) : State :=
  (s.countOuts c outs).vecLanes c w fun _ => outs.map (·.pat)

/-- A lane-wise operation of one, two or three registers. -/
def lanes1 (f : Nat → Nat) (x : Clu) (w : Nat) : List Nat := (x.vreg (VecW.va w)).map f
def lanes2 (f : Nat → Nat → Nat) (x : Clu) (w : Nat) : List Nat :=
  (List.range 64).map fun l => f ((x.vreg (VecW.va w)).getD l 0) ((x.vreg (VecW.vb w)).getD l 0)
def lanes3 (f : Nat → Nat → Nat → Nat) (x : Clu) (w : Nat) : List Nat :=
  (List.range 64).map fun l =>
    f ((x.vreg (VecW.va w)).getD l 0) ((x.vreg (VecW.vb w)).getD l 0) ((x.vreg (VecW.vc w)).getD l 0)

/-- A reduction: the result in lane 0, the other lanes +0. -/
def lane0 (v : Nat) : List Nat := v :: List.replicate 63 0

/-- The scratchpad address of an access: A[VA] + IMM (R130). -/
def vecAddr (x : Clu) (w : Nat) : Nat := getK 0 x.areg (VecW.va w % 8) + VecW.imm w

/-- The vector unit's access leaves the scratchpad, or a store is aimed at WM: BAD_DESCRIPTOR (R130). -/
def State.vecBad (s : State) (c : Nat) : State := s.faultClu c stBadDescriptor ⟨0, 0, 0, 3⟩

/-- VEC_END: the program ends. -/
def execVecEnd (c : Fin 512) (s : State) : Answer :=
  .next <| s.vecRun c 0x00 fun s _ => s.setClu c fun x => { x with vact := false }

/-- LD: VD := 256 bytes at A[VA] + IMM. -/
def execLd (c : Fin 512) (s : State) : Answer :=
  .next <| s.vecRun c 0x01 fun s w =>
    let a := vecAddr (s.clu c) w
    if spadEnd < a + 256 then s.vecBad c
    else
      let r := s.spadRead c a 256
      match r.bad with
      | some o => r.st.eccFault c ⟨0, 0, o, 3⟩
      | none => r.st.vecLanes c w fun _ => unpackLanes 32 64 (leNat r.data)

/-- ST: 256 bytes at A[VA] + IMM := VD, in AM or PM only. -/
def execSt (c : Fin 512) (s : State) : Answer :=
  .next <| s.vecRun c 0x02 fun s w =>
    let a := vecAddr (s.clu c) w
    if spadEnd < a + 256 ∨ a < 0x180000 then s.vecBad c
    else
      let r := s.spadWrite c a (leBytes 256 (packLanes 32 ((s.clu c).vreg (VecW.vd w))))
      match r.bad with
      | some o => r.st.eccFault c ⟨0, 0, o, 3⟩
      | none => r.st.vecNext c

/-- LDLP: VD := 64 long partials, in their 32-byte slots, each rounded to FP32 under RND and OVF (R101). -/
def execLdlp (c : Fin 512) (s : State) : Answer :=
  .next <| s.vecRun c 0x03 fun s w =>
    let a := vecAddr (s.clu c) w
    if spadEnd < a + 2048 then s.vecBad c
    else
      let r := s.spadRead c a 2048
      match r.bad with
      | some o => r.st.eccFault c ⟨0, 0, o, 3⟩
      | none =>
        r.st.vecConverts c w <| (List.range 64).map fun l =>
          (Cal.ofImage (leNat ((r.data.drop (32 * l)).take 24))).output 9 (VecW.rnd w) (VecW.ovf w) 0

/-- The PM tiles that an STT's 256 bytes lie in (R129): the tile named, and the next one where they reach into it. -/
def sttTiles (t off : Nat) : List Nat := if 256 < off then [t, t + 1] else [t]

/-- STT: VD is to be written to the PM tile in lane 0 of VB from byte IMM[8:0] on; its tiles are claimed at issue, and one
that a cell holds faults the cluster with TILE_CLAIM (R129, R161, R162). -/
def execStt (c : Fin 512) (s : State) : Answer :=
  .next <| s.vecRun c 0x04 fun s w =>
    let x := s.clu c
    let t := (x.vreg (VecW.vb w)).getD 0 0
    let off := VecW.imm w % 512
    if spadEnd < pmBase + t * 512 + off + 256 then s.vecBad c
    else
      match x.tryClaim .vector (sttTiles t off) with
      | .refused t => s.faultClu c stTileClaim ⟨0, 0, pmBase + t * 512, 3⟩
      | _ =>
        (s.setClu c fun x => { x.claim .vector (sttTiles t off) with
          vst := some ⟨t, off, leBytes 256 (packLanes 32 (x.vreg (VecW.vd w)))⟩ }).vecNext c

/-- ADD: VA + VB, correctly rounded. -/
def execAdd (c : Fin 512) (s : State) : Answer :=
  .next <| s.vecRun c 0x08 fun s w => s.vecLanes c w fun x => lanes2 f32add x w

/-- MUL: VA × VB, correctly rounded. -/
def execMul (c : Fin 512) (s : State) : Answer :=
  .next <| s.vecRun c 0x09 fun s w => s.vecLanes c w fun x => lanes2 f32mul x w

/-- FMA: VA × VB + VC, rounded once. -/
def execFma (c : Fin 512) (s : State) : Answer :=
  .next <| s.vecRun c 0x0A fun s w => s.vecLanes c w fun x => lanes3 f32fma x w

/-- MIN, lane by lane. -/
def execMin (c : Fin 512) (s : State) : Answer :=
  .next <| s.vecRun c 0x0B fun s w => s.vecLanes c w fun x => lanes2 f32min x w

/-- MAX, lane by lane. -/
def execMax (c : Fin 512) (s : State) : Answer :=
  .next <| s.vecRun c 0x0C fun s w => s.vecLanes c w fun x => lanes2 f32max x w

/-- CMP, with the predicate in FMT. -/
def execCmp (c : Fin 512) (s : State) : Answer :=
  .next <| s.vecRun c 0x0D fun s w => s.vecLanes c w fun x => lanes2 (f32cmp (VecW.fmt w)) x w

/-- SEL: VC ≠ 0 ? VA : VB. -/
def execSel (c : Fin 512) (s : State) : Answer :=
  .next <| s.vecRun c 0x0E fun s w => s.vecLanes c w fun x => lanes3 f32sel x w

/-- ABS. -/
def execAbs (c : Fin 512) (s : State) : Answer :=
  .next <| s.vecRun c 0x0F fun s w => s.vecLanes c w fun x => lanes1 f32abs x w

/-- Whether a CVTI is marked MX: bit 0 of IMM (PRESUMED, log entry 16). -/
def cvtiMx (w : Nat) : Bool := bit (VecW.imm w) 0

/-- CVTI: 64 packed elements of format FMT in VA to FP32, with MX scale bytes from lanes 0 and 1 of VB (R101). -/
def execCvti (c : Fin 512) (s : State) : Answer :=
  .next <| s.vecRun c 0x10 fun s w =>
    let f := VecW.fmt w
    let x := s.clu c
    if 10 ≤ f then s.vecLanes c w fun x => lanes2 (fun a b => Config.vecOpen (0x10 + 256 * f) a b % 2 ^ 32) x w
    else
      let el := unpackLanes (fmtBits f) 64 (packLanes 32 (x.vreg (VecW.va w)))
      s.vecConverts c w <| (List.range 64).map fun l =>
        cvtIn f (cvtiMx w) ((x.vreg (VecW.vb w)).getD (l / 32) 0 % 256) (VecW.rnd w) (VecW.ovf w) (el.getD l 0)

/-- Lanes of VD beyond the packed elements of a conversion, which the spec does not state. -/
def packedLanes (op width : Nat) (el : List Nat) : List Nat :=
  let bitsUsed := 64 * width
  (List.range 64).map fun l =>
    if 32 * l < bitsUsed then bits (packLanes width el) (32 * l) 32
    else Config.vecOpen (op + 256) l (packLanes width el) % 2 ^ 32

/-- CVTO: FP32 to 64 packed elements of format FMT under RND and OVF, with R98 to R100 (R101). -/
def execCvto (c : Fin 512) (s : State) : Answer :=
  .next <| s.vecRun c 0x11 fun s w =>
    let f := VecW.fmt w
    if 10 ≤ f then s.vecLanes c w fun x => lanes1 (fun a => Config.vecOpen (0x11 + 256 * f) a 0 % 2 ^ 32) x w
    else
      let outs := ((s.clu c).vreg (VecW.va w)).map fun v => (f32 v).toFmt f (VecW.rnd w) (VecW.ovf w)
      (s.countOuts c outs).vecLanes c w fun _ => packedLanes 0x11 (fmtBits f) (outs.map (·.pat))

/-- What CVTMX writes: the lanes of VD, and the scale bytes of lanes 0 and 1 of VB. With a FMT that is no MX format they
are free values (log entry 11). -/
def cvtMxOut (fmt rnd : Nat) (v : List Nat) : List Nat × List Nat :=
  if mxFmt fmt then
    let lo := cvtMx fmt rnd (v.take 32)
    let hi := cvtMx fmt rnd (v.drop 32)
    (packedLanes 0x12 (fmtBits fmt) (lo.2 ++ hi.2), [lo.1, hi.1])
  else
    ((List.range 64).map fun l => Config.vecOpen (0x12 + 256 * fmt) l (packLanes 32 v) % 2 ^ 32,
      [64, 65].map fun l => Config.vecOpen (0x12 + 256 * fmt) l (packLanes 32 v) % 256)

/-- CVTMX: FP32 to two blocks of 32 elements of MX format FMT in VD, their scale bytes in lanes 0 and 1 of VB (R101);
where VB is VD the scale bytes stand there (DESIGN CHOICE, log entry 170). -/
def execCvtmx (c : Fin 512) (s : State) : Answer :=
  .next <| s.vecRun c 0x12 fun s w =>
    let out := cvtMxOut (VecW.fmt w) (VecW.rnd w) ((s.clu c).vreg (VecW.va w))
    (s.setClu c fun x =>
      let x := x.setVreg (VecW.vd w) out.1
      { x with vregs := putLanes x.vregs (VecW.vb w) 0 out.2 }).vecNext c

/-- RCP: reciprocal within 1 ulp. -/
def execRcp (c : Fin 512) (s : State) : Answer :=
  .next <| s.vecRun c 0x18 fun s w => s.vecLanes c w fun x => lanes1 f32rcp x w

/-- RSQ: reciprocal square root within 1 ulp. -/
def execRsq (c : Fin 512) (s : State) : Answer :=
  .next <| s.vecRun c 0x19 fun s w => s.vecLanes c w fun x => lanes1 f32rsq x w

/-- EXP2: base-2 exponential within 2 ulp. -/
def execExp2 (c : Fin 512) (s : State) : Answer :=
  .next <| s.vecRun c 0x1A fun s w => s.vecLanes c w fun x => lanes1 f32exp2 x w

/-- LOG2: base-2 logarithm within 2 ulp. -/
def execLog2 (c : Fin 512) (s : State) : Answer :=
  .next <| s.vecRun c 0x1B fun s w => s.vecLanes c w fun x => lanes1 f32log2 x w

/-- RSUM: the pairwise-tree sum of VA's lanes in lane 0 of VD. -/
def execRsum (c : Fin 512) (s : State) : Answer :=
  .next <| s.vecRun c 0x20 fun s w => s.vecLanes c w fun x => lane0 (treeOf f32add 6 (x.vreg (VecW.va w)))

/-- RMAX: the maximum of VA's lanes in lane 0 of VD. -/
def execRmax (c : Fin 512) (s : State) : Answer :=
  .next <| s.vecRun c 0x21 fun s w => s.vecLanes c w fun x => lane0 (treeOf f32max 6 (x.vreg (VecW.va w)))

/-- RMIN: the minimum of VA's lanes in lane 0 of VD. -/
def execRmin (c : Fin 512) (s : State) : Answer :=
  .next <| s.vecRun c 0x22 fun s w => s.vecLanes c w fun x => lane0 (treeOf f32min 6 (x.vreg (VecW.va w)))

/-- SCAN: the prefix sums of VA's lanes. -/
def execScan (c : Fin 512) (s : State) : Answer :=
  .next <| s.vecRun c 0x23 fun s w => s.vecLanes c w fun x =>
    (List.range 64).map fun l => prefixSum (x.vreg (VecW.va w)) (l + 1)

/-- What TOPK writes: the k largest lanes of a register in falling order, and their indices (R74). With a NaN lane the
order is not stated, and both are free values (log entry 11). -/
def topkOut (k : Nat) (v : List Nat) : List Nat × List Nat :=
  if v.any fun l => (f32 l).isNan then
    ((List.range k).map fun i => Config.vecOpen 0x24 i (packLanes 32 v) % 2 ^ 32,
      (List.range k).map fun i => Config.vecOpen 0x124 i (packLanes 32 v) % 64)
  else (((ranked v).take k).map (·.1), ((ranked v).take k).map (·.2))

/-- TOPK: the k = IMM[2:0] + 1 largest lanes of VA to lanes 0 to k − 1 of VD, their indices to VC; where VC is VD the
indices stand there (DESIGN CHOICE, log entry 170). -/
def execTopk (c : Fin 512) (s : State) : Answer :=
  .next <| s.vecRun c 0x24 fun s w =>
    let out := topkOut (VecW.imm w % 8 + 1) ((s.clu c).vreg (VecW.va w))
    (s.setClu c fun x =>
      { x with vregs := putLanes (putLanes x.vregs (VecW.vd w) 0 out.1) (VecW.vc w) 0 out.2 }).vecNext c

/-- SETA: A[VD] := IMM. -/
def execSeta (c : Fin 512) (s : State) : Answer :=
  .next <| s.vecRun c 0x30 fun s w =>
    (s.setClu c fun x => { x with areg := setK 0 x.areg (VecW.vd w % 8) (VecW.imm w) }).vecNext c

/-- ADDA: A[VD] += IMM, signed, in 22 bits. -/
def execAdda (c : Fin 512) (s : State) : Answer :=
  .next <| s.vecRun c 0x31 fun s w =>
    let v := (getK 0 (s.clu c).areg (VecW.vd w % 8) + VecW.imm w) % 2 ^ 22
    (s.setClu c fun x => { x with areg := setK 0 x.areg (VecW.vd w % 8) v }).vecNext c

/-- SETL: L[VD] := IMM. -/
def execSetl (c : Fin 512) (s : State) : Answer :=
  .next <| s.vecRun c 0x32 fun s w =>
    (s.setClu c fun x => { x with lreg := setK 0 x.lreg (VecW.vd w % 8) (VecW.imm w) }).vecNext c

/-- LOOP: a nonzero L[VD] is decremented and the program continues at instruction IMM; else at the next. -/
def execLoop (c : Fin 512) (s : State) : Answer :=
  .next <| s.vecRun c 0x33 fun s w =>
    let l := getK 0 (s.clu c).lreg (VecW.vd w % 8)
    if l = 0 then s.vecNext c
    else s.setClu c fun x => { x with lreg := setK 0 x.lreg (VecW.vd w % 8) (l - 1), vpc := VecW.imm w }

end Sys2Proof.Machine
end

