-- ==== Sys2Proof/Machine/Dispatch.lean ====
section
/-! DEFINITION. Machine/Dispatch.lean: exec, one arm for each command. -/

namespace Sys2Proof.Machine

def exec (i : Instr) (s : State) : Host.Outcome State Fault Refusal :=
  match i with
  -- The module: power, connectors, boot, firmware (R19 to R42, R463)
  | .powerOn t => Sys2Proof.Machine.execPowerOn t s
  | .undervoltage => Sys2Proof.Machine.execUndervoltage s
  | .overvoltage => Sys2Proof.Machine.execOvervoltage s
  | .enableLow => Sys2Proof.Machine.execEnableLow s
  | .currentLimit => Sys2Proof.Machine.execCurrentLimit s
  | .currentLimitRelease => Sys2Proof.Machine.execCurrentLimitRelease s
  | .pmbusWrite reg data => Sys2Proof.Machine.execPmbusWrite reg data s
  | .thermtrip src => Sys2Proof.Machine.execThermtrip src s
  | .cageInsert cage supported => Sys2Proof.Machine.execCageInsert cage supported s
  | .cageRemove cage => Sys2Proof.Machine.execCageRemove cage s
  | .chPresChange low => Sys2Proof.Machine.execChPresChange low s
  | .boot b => Sys2Proof.Machine.execBoot b s
  | .activate h wrong => Sys2Proof.Machine.execActivate h wrong s
  | .stage h payload => Sys2Proof.Machine.execStage h payload s
  -- Registers and windows (R7 to R13, R65 to R67, R346)
  | .registerWrite o addr size val => Sys2Proof.Machine.execRegisterWrite o addr size val s
  | .registerReadClear o addr size => Sys2Proof.Machine.execRegisterReadClear o addr size s
  | .unmappedAccess o addr write => Sys2Proof.Machine.execUnmappedAccess o addr write s
  | .registerAccessBadSize o addr size write => Sys2Proof.Machine.execRegisterAccessBadSize o addr size write s
  | .windowAccess o addr size data => Sys2Proof.Machine.execWindowAccess o addr size data s
  | .windowTlp addr enables data poisoned => Sys2Proof.Machine.execWindowTlp addr enables data poisoned s
  -- Cells, banks and cluster power (R43 to R78, R97 to R112)
  | .feederBlockIssue c side index => Sys2Proof.Machine.execFeederBlockIssue c side index s
  | .cubeExecute c row x => Sys2Proof.Machine.execCubeExecute c row x s
  | .patchComplete c row col => Sys2Proof.Machine.execPatchComplete c row col s
  | .drainHandshake c row col => Sys2Proof.Machine.execDrainHandshake c row col s
  | .drainWrite c col => Sys2Proof.Machine.execDrainWrite c col s
  | .bankAccess c bank arrive upset => Sys2Proof.Machine.execBankAccess c bank arrive upset s
  | .bankWake c bank => Sys2Proof.Machine.execBankWake c bank s
  | .correctedRowWriteback c bank row => Sys2Proof.Machine.execCorrectedRowWriteback c bank row s
  | .scrubRead c bank row upset => Sys2Proof.Machine.execScrubRead c bank row upset s
  | .scrubPassEnd c => Sys2Proof.Machine.execScrubPassEnd c s
  | .bankPowerRequest c bank state => Sys2Proof.Machine.execBankPowerRequest c bank state s
  | .gateClose c bank => Sys2Proof.Machine.execGateClose c bank s
  | .clusterPowerOff c => Sys2Proof.Machine.execClusterPowerOff c s
  | .clusterWake c => Sys2Proof.Machine.execClusterWake c s
  | .cluFaultClear c => Sys2Proof.Machine.execCluFaultClear c s
  | .calPeek c val => Sys2Proof.Machine.execCalPeek c val s
  -- Cell operations (R123)
  | .mac c row col => Sys2Proof.Machine.execMac c row col s
  | .red c row col => Sys2Proof.Machine.execRed c row col s
  | .fwd c row col => Sys2Proof.Machine.execFwd c row col s
  | .cellEnd c row col => Sys2Proof.Machine.execCellEnd c row col s
  -- Steps (R128) and passes (R151 to R166)
  | .endPass c => Sys2Proof.Machine.execEndPass c s
  | .wait c => Sys2Proof.Machine.execWait c s
  | .run c => Sys2Proof.Machine.execRun c s
  | .runAdmit d => Sys2Proof.Machine.execRunAdmit d s
  | .runComplete c => Sys2Proof.Machine.execRunComplete c s
  | .vec c => Sys2Proof.Machine.execVec c s
  | .move c => Sys2Proof.Machine.execMove c s
  | .sync c => Sys2Proof.Machine.execSync c s
  | .waitdl c => Sys2Proof.Machine.execWaitdl c s
  | .jump c => Sys2Proof.Machine.execJump c s
  | .passBegin c => Sys2Proof.Machine.execPassBegin c s
  | .deadlineExpiry c => Sys2Proof.Machine.execDeadlineExpiry c s
  | .beatStallWatchdog c => Sys2Proof.Machine.execBeatStallWatchdog c s
  -- Vector instructions (R130): the cluster whose vector unit stands at that instruction
  | .vecEnd c => Sys2Proof.Machine.execVecEnd c s
  | .ld c => Sys2Proof.Machine.execLd c s
  | .st c => Sys2Proof.Machine.execSt c s
  | .ldlp c => Sys2Proof.Machine.execLdlp c s
  | .stt c => Sys2Proof.Machine.execStt c s
  | .add c => Sys2Proof.Machine.execAdd c s
  | .mul c => Sys2Proof.Machine.execMul c s
  | .fma c => Sys2Proof.Machine.execFma c s
  | .min c => Sys2Proof.Machine.execMin c s
  | .max c => Sys2Proof.Machine.execMax c s
  | .cmp c => Sys2Proof.Machine.execCmp c s
  | .sel c => Sys2Proof.Machine.execSel c s
  | .abs c => Sys2Proof.Machine.execAbs c s
  | .cvti c => Sys2Proof.Machine.execCvti c s
  | .cvto c => Sys2Proof.Machine.execCvto c s
  | .cvtmx c => Sys2Proof.Machine.execCvtmx c s
  | .rcp c => Sys2Proof.Machine.execRcp c s
  | .rsq c => Sys2Proof.Machine.execRsq c s
  | .exp2 c => Sys2Proof.Machine.execExp2 c s
  | .log2 c => Sys2Proof.Machine.execLog2 c s
  | .rsum c => Sys2Proof.Machine.execRsum c s
  | .rmax c => Sys2Proof.Machine.execRmax c s
  | .rmin c => Sys2Proof.Machine.execRmin c s
  | .scan c => Sys2Proof.Machine.execScan c s
  | .topk c => Sys2Proof.Machine.execTopk c s
  | .seta c => Sys2Proof.Machine.execSeta c s
  | .adda c => Sys2Proof.Machine.execAdda c s
  | .setl c => Sys2Proof.Machine.execSetl c s
  | .loop c => Sys2Proof.Machine.execLoop c s
  -- Plan slots (R138 to R145) and grants (R150, R167)
  | .load o slot => Sys2Proof.Machine.execLoad o slot s
  | .loadStandby o slot pred => Sys2Proof.Machine.execLoadStandby o slot pred s
  | .unload o slot => Sys2Proof.Machine.execUnload o slot s
  | .standbyTakeover slot => Sys2Proof.Machine.execStandbyTakeover slot s
  | .planReapply slot => Sys2Proof.Machine.execPlanReapply slot s
  | .passStart o slot passes => Sys2Proof.Machine.execPassStart o slot passes s
  | .passStartContinuous o slot => Sys2Proof.Machine.execPassStartContinuous o slot s
  | .passStop o slot => Sys2Proof.Machine.execPassStop o slot s
  | .molt o slot passes cont => Sys2Proof.Machine.execMolt o slot passes cont s
  | .moltSwap slot => Sys2Proof.Machine.execMoltSwap slot s
  -- Tensor moves and landing counters (R174 to R207)
  | .copy c m => Sys2Proof.Machine.execCopy c m s
  | .gather c m => Sys2Proof.Machine.execGather c m s
  | .scatter c m => Sys2Proof.Machine.execScatter c m s
  | .scatterAdd c m => Sys2Proof.Machine.execScatterAdd c m s
  | .get c m => Sys2Proof.Machine.execGet c m s
  | .objectResolve c m => Sys2Proof.Machine.execObjectResolve c m s
  | .landing c m unit l => Sys2Proof.Machine.execLanding c m unit l s
  | .moveComplete c m => Sys2Proof.Machine.execMoveComplete c m s
  | .moverWatchdog c m target => Sys2Proof.Machine.execMoverWatchdog c m target s
  | .lndAdd o c cnt amount => Sys2Proof.Machine.execLndAdd o c cnt amount s
  | .lndWatch o c cnt target => Sys2Proof.Machine.execLndWatch o c cnt target s
  | .lndClear o c cnt all => Sys2Proof.Machine.execLndClear o c cnt all s
  | .counterWaitTimeout c => Sys2Proof.Machine.execCounterWaitTimeout c s
  -- The tier manager (R208 to R240)
  | .tierEnableFresh o share => Sys2Proof.Machine.execTierEnableFresh o share s
  | .tierEnableRecover o share => Sys2Proof.Machine.execTierEnableRecover o share s
  | .tierDisable o => Sys2Proof.Machine.execTierDisable o s
  | .tierReady => Sys2Proof.Machine.execTierReady s
  | .ctxCreate f ctx part quota => Sys2Proof.Machine.execCtxCreate f ctx part quota s
  | .ctxDestroy f ctx => Sys2Proof.Machine.execCtxDestroy f ctx s
  | .allocOpen f ctx length => Sys2Proof.Machine.execAllocOpen f ctx length s
  | .seal f ctx handle length crc => Sys2Proof.Machine.execSeal f ctx handle length crc s
  | .adopt f ctx addr length pasid pv => Sys2Proof.Machine.execAdopt f ctx addr length pasid pv s
  | .evict f ctx handle addr pasid pv => Sys2Proof.Machine.execEvict f ctx handle addr pasid pv s
  | .fetch f ctx handle pin verify => Sys2Proof.Machine.execFetch f ctx handle pin verify s
  | .unpin f ctx handle => Sys2Proof.Machine.execUnpin f ctx handle s
  | .free f ctx handle => Sys2Proof.Machine.execFree f ctx handle s
  | .releaseT2 f ctx handle => Sys2Proof.Machine.execReleaseT2 f ctx handle s
  | .verify f ctx handle => Sys2Proof.Machine.execVerify f ctx handle s
  | .query f ctx handle addr => Sys2Proof.Machine.execQuery f ctx handle addr s
  | .evictionCopyLands entry => Sys2Proof.Machine.execEvictionCopyLands entry s
  | .fetchCopyLands entry => Sys2Proof.Machine.execFetchCopyLands entry s
  | .copyFails entry why => Sys2Proof.Machine.execCopyFails entry why s
  | .eraseComplete unit => Sys2Proof.Machine.execEraseComplete unit s
  | .checksumComplete entry => Sys2Proof.Machine.execChecksumComplete entry s
  -- The core complex (R241 to R273)
  | .coreLoad h rd addr size signed pbmt => Sys2Proof.Machine.execCoreLoad h rd addr size signed pbmt s
  | .coreStore h rs addr size pbmt => Sys2Proof.Machine.execCoreStore h rs addr size pbmt s
  | .storeBufferDrain h => Sys2Proof.Machine.execStoreBufferDrain h s
  | .uncachedStoreFail h addr status => Sys2Proof.Machine.execUncachedStoreFail h addr status s
  | .amo h op rd rs addr size pbmt => Sys2Proof.Machine.execAmo h op rd rs addr size pbmt s
  | .lr h rd addr size pbmt => Sys2Proof.Machine.execLr h rd addr size pbmt s
  | .sc h rd rs addr size pbmt => Sys2Proof.Machine.execSc h rd rs addr size pbmt s
  | .fence h predW succR => Sys2Proof.Machine.execFence h predW succR s
  | .cboZero h addr => Sys2Proof.Machine.execCboZero h addr s
  | .cboInval h addr mmode cbie => Sys2Proof.Machine.execCboInval h addr mmode cbie s
  | .cboClean h addr => Sys2Proof.Machine.execCboClean h addr s
  | .cboFlush h addr => Sys2Proof.Machine.execCboFlush h addr s
  | .wfi h => Sys2Proof.Machine.execWfi h s
  | .coreWake h src => Sys2Proof.Machine.execCoreWake h src s
  | .interrupt h rnmi cause => Sys2Proof.Machine.execInterrupt h rnmi cause s
  | .imsicWrite o h file identity => Sys2Proof.Machine.execImsicWrite o h file identity s
  | .timerCompare h k => Sys2Proof.Machine.execTimerCompare h k s
  | .coreWatchdog h => Sys2Proof.Machine.execCoreWatchdog h s
  | .kick h => Sys2Proof.Machine.execKick h s
  | .flush h => Sys2Proof.Machine.execFlush h s
  -- The coherence protocol (R274 to R306)
  | .rds l r token dirErr scErr => Sys2Proof.Machine.execRds l r token dirErr scErr s
  | .rdx l r token dirErr => Sys2Proof.Machine.execRdx l r token dirErr s
  | .upg l r token => Sys2Proof.Machine.execUpg l r token s
  | .puts l agent => Sys2Proof.Machine.execPuts l agent s
  | .pute l agent => Sys2Proof.Machine.execPute l agent s
  | .putm l agent data poison => Sys2Proof.Machine.execPutm l agent data poison s
  | .rdcur l r => Sys2Proof.Machine.execRdcur l r s
  | .wrfull l r data poison => Sys2Proof.Machine.execWrfull l r data poison s
  | .wrpart l r mask data => Sys2Proof.Machine.execWrpart l r mask data s
  | .atomf l r op off size operand compare => Sys2Proof.Machine.execAtomf l r op off size operand compare s
  | .addm l r off efmt elements => Sys2Proof.Machine.execAddm l r off efmt elements s
  | .snps l agent => Sys2Proof.Machine.execSnps l agent s
  | .snpx l agent => Sys2Proof.Machine.execSnpx l agent s
  | .snpinv l agent => Sys2Proof.Machine.execSnpinv l agent s
  | .snpcur l agent => Sys2Proof.Machine.execSnpcur l agent s
  | .rsp l agent st wb => Sys2Proof.Machine.execRsp l agent st wb s
  | .rspd l agent st data dirty poison => Sys2Proof.Machine.execRspd l agent st data dirty poison s
  | .memoryData l upset => Sys2Proof.Machine.execMemoryData l upset s
  | .gnts l agent data poison => Sys2Proof.Machine.execGnts l agent data poison s
  | .gnte l agent data poison => Sys2Proof.Machine.execGnte l agent data poison s
  | .gntm l agent data poison => Sys2Proof.Machine.execGntm l agent data poison s
  | .gntma l agent => Sys2Proof.Machine.execGntma l agent s
  | .cmpd l r data poison => Sys2Proof.Machine.execCmpd l r data poison s
  | .cmpput l agent => Sys2Proof.Machine.execCmpput l agent s
  | .retry l agent token => Sys2Proof.Machine.execRetry l agent token s
  | .memrd addr m => Sys2Proof.Machine.execMemrd addr m s
  | .memrddata addr m => Sys2Proof.Machine.execMemrddata addr m s
  | .meminv addr m => Sys2Proof.Machine.execMeminv addr m s
  | .meminvnt addr m => Sys2Proof.Machine.execMeminvnt addr m s
  | .memwr addr m data poison => Sys2Proof.Machine.execMemwr addr m data poison s
  | .memwrptl addr mask data poison => Sys2Proof.Machine.execMemwrptl addr mask data poison s
  | .memspecrd addr => Sys2Proof.Machine.execMemspecrd addr s
  | .birsp l st => Sys2Proof.Machine.execBirsp l st s
  | .birspTimeout l => Sys2Proof.Machine.execBirspTimeout l s
  | .hostSnpdata addr => Sys2Proof.Machine.execHostSnpdata addr s
  | .hostSnpinv addr => Sys2Proof.Machine.execHostSnpinv addr s
  | .hostSnpcur addr => Sys2Proof.Machine.execHostSnpcur addr s
  | .hostCacheResponse l granted data poison => Sys2Proof.Machine.execHostCacheResponse l granted data poison s
  | .dirLookup o n hostMem line => Sys2Proof.Machine.execDirLookup o n hostMem line s
  | .coreWritebackTimeout => Sys2Proof.Machine.execCoreWritebackTimeout s
  | .recallTimeout n => Sys2Proof.Machine.execRecallTimeout n s
  -- HBM, the system cache and the geyser engines (R307 to R339)
  | .hbmScrubRead n line upset => Sys2Proof.Machine.execHbmScrubRead n line upset s
  | .refresh pc => Sys2Proof.Machine.execRefresh pc s
  | .stackTemperatureRead temps => Sys2Proof.Machine.execStackTemperatureRead temps s
  | .pseudoChannelPowerDown pc => Sys2Proof.Machine.execPseudoChannelPowerDown pc s
  | .pseudoChannelFailed pc => Sys2Proof.Machine.execPseudoChannelFailed pc s
  | .hbmPolicyWrite o policy => Sys2Proof.Machine.execHbmPolicyWrite o policy s
  | .partitionRefill n => Sys2Proof.Machine.execPartitionRefill n s
  | .scPreload o n ways => Sys2Proof.Machine.execScPreload o n ways s
  | .preloadDone n => Sys2Proof.Machine.execPreloadDone n s
  | .scLock o n ways => Sys2Proof.Machine.execScLock o n ways s
  | .wayOffReq o n way => Sys2Proof.Machine.execWayOffReq o n way s
  | .wayOnReq o n way => Sys2Proof.Machine.execWayOnReq o n way s
  | .wayGateClose n way => Sys2Proof.Machine.execWayGateClose n way s
  | .wayReenable o n way => Sys2Proof.Machine.execWayReenable o n way s
  | .fill o => Sys2Proof.Machine.execFill o s
  | .crc o => Sys2Proof.Machine.execCrc o s
  | .geyserComplete => Sys2Proof.Machine.execGeyserComplete s
  | .geyDone o => Sys2Proof.Machine.execGeyDone o s
  | .readCheck o n pc => Sys2Proof.Machine.execReadCheck o n pc s
  | .writeCheck o n pc pattern => Sys2Proof.Machine.execWriteCheck o n pc pattern s
  | .geyTestDone n errors row bank col => Sys2Proof.Machine.execGeyTestDone n errors row bank col s
  -- The host port (R340 to R369)
  | .perstAssert => Sys2Proof.Machine.execPerstAssert s
  | .perstDeassert => Sys2Proof.Machine.execPerstDeassert s
  | .hotReset => Sys2Proof.Machine.execHotReset s
  | .hostDownTimeout => Sys2Proof.Machine.execHostDownTimeout s
  | .linkRetrain errors => Sys2Proof.Machine.execLinkRetrain errors s
  | .configRequest f reg data => Sys2Proof.Machine.execConfigRequest f reg data s
  | .functionLevelReset f => Sys2Proof.Machine.execFunctionLevelReset f s
  | .atsInvalidation f pasid page => Sys2Proof.Machine.execAtsInvalidation f pasid page s
  | .mctpMessage msg => Sys2Proof.Machine.execMctpMessage msg s
  | .ringDbSq o ring tail => Sys2Proof.Machine.execRingDbSq o ring tail s
  | .ringDbCq o ring head => Sys2Proof.Machine.execRingDbCq o ring head s
  | .descriptorFetch ring a => Sys2Proof.Machine.execDescriptorFetch ring a s
  | .nop ring slot => Sys2Proof.Machine.execNop ring slot s
  | .inline ring slot => Sys2Proof.Machine.execInline ring slot s
  | .moveClass ring slot => Sys2Proof.Machine.execMoveClass ring slot s
  | .exec ring slot => Sys2Proof.Machine.execExec ring slot s
  | .tier ring slot => Sys2Proof.Machine.execTier ring slot s
  | .land ring slot => Sys2Proof.Machine.execLand ring slot s
  | .ringEnable o ring => Sys2Proof.Machine.execRingEnable o ring s
  | .ringDrain o ring => Sys2Proof.Machine.execRingDrain o ring s
  | .msixHoldoffExpiry ring => Sys2Proof.Machine.execMsixHoldoffExpiry ring s
  | .hostEvtRearm o source => Sys2Proof.Machine.execHostEvtRearm o source s
  -- Die-to-die links and the Cocoon site (R370 to R391)
  | .d2dTransfer link dir bundle found => Sys2Proof.Machine.execD2dTransfer link dir bundle found s
  | .budget die epoch limit slew => Sys2Proof.Machine.execBudget die epoch limit slew s
  | .budgetAck die epoch draw => Sys2Proof.Machine.execBudgetAck die epoch draw s
  | .bringup o discovery => Sys2Proof.Machine.execBringup o discovery s
  | .siteRailRemoval => Sys2Proof.Machine.execSiteRailRemoval s
  | .accept epoch => Sys2Proof.Machine.execAccept epoch s
  | .request limit => Sys2Proof.Machine.execRequest limit s
  | .offerTimeout => Sys2Proof.Machine.execOfferTimeout s
  | .graceExpiry => Sys2Proof.Machine.execGraceExpiry s
  | .cocoonLinkDownTimeout => Sys2Proof.Machine.execCocoonLinkDownTimeout s
  | .cocoonWindowAccess o addr size data answer => Sys2Proof.Machine.execCocoonWindowAccess o addr size data answer s
  | .windowAnswerTimeout o addr write => Sys2Proof.Machine.execWindowAnswerTimeout o addr write s
  | .cocoonPut cluster addr data lcnt lclu => Sys2Proof.Machine.execCocoonPut cluster addr data lcnt lclu s
  | .cocoonGet cluster addr len => Sys2Proof.Machine.execCocoonGet cluster addr len s
  -- The Obneurn Link and the management chain (R392 to R414)
  | .hdr k h => Sys2Proof.Machine.execHdr k h s
  | .data k payload => Sys2Proof.Machine.execData k payload s
  | .getFrame k h desc => Sys2Proof.Machine.execGetFrame k h desc s
  | .replyEngineStart n => Sys2Proof.Machine.execReplyEngineStart n s
  | .ack k a => Sys2Proof.Machine.execAck k a s
  | .nack k a => Sys2Proof.Machine.execNack k a s
  | .ctl port crcOk b => Sys2Proof.Machine.execCtl port crcOk b s
  | .ident port crcOk addr epoch partnerPort => Sys2Proof.Machine.execIdent port crcOk addr epoch partnerPort s
  | .frameSend port cls vc => Sys2Proof.Machine.execFrameSend port cls vc s
  | .ctlPeriod port => Sys2Proof.Machine.execCtlPeriod port s
  | .replayTimeout port => Sys2Proof.Machine.execReplayTimeout port s
  | .recoveryTimeout port => Sys2Proof.Machine.execRecoveryTimeout port s
  | .trainingRetry port => Sys2Proof.Machine.execTrainingRetry port s
  | .quietEnd => Sys2Proof.Machine.execQuietEnd s
  | .assign h n => Sys2Proof.Machine.execAssign h n s
  | .telemetry h => Sys2Proof.Machine.execTelemetry h s
  | .identify h on => Sys2Proof.Machine.execIdentify h on s
  | .reset h which => Sys2Proof.Machine.execReset h which s
  | .mctp h packet => Sys2Proof.Machine.execMctp h packet s
  -- Power, heat and ageing (R415 to R437)
  | .pmbusPoll r => Sys2Proof.Machine.execPmbusPoll r s
  | .capInterval => Sys2Proof.Machine.execCapInterval s
  | .pwrCapWrite o watts windowS => Sys2Proof.Machine.execPwrCapWrite o watts windowS s
  | .supplyStep d => Sys2Proof.Machine.execSupplyStep d s
  | .holdDutyStep d up => Sys2Proof.Machine.execHoldDutyStep d up s
  | .droop r beyondLimit => Sys2Proof.Machine.execDroop r beyondLimit s
  | .droopRecovery r => Sys2Proof.Machine.execDroopRecovery r s
  | .tjRead tj => Sys2Proof.Machine.execTjRead tj s
  | .coolantRead inlet outlet => Sys2Proof.Machine.execCoolantRead inlet outlet s
  | .sensorFail => Sys2Proof.Machine.execSensorFail s
  | .ageingMeasurement rs => Sys2Proof.Machine.execAgeingMeasurement rs s
  | .ageingHistoryWrite => Sys2Proof.Machine.execAgeingHistoryWrite s
  -- Resets, error reporting and self-test (R438 to R460)
  | .clusterReset o c => Sys2Proof.Machine.execClusterReset o c s
  | .matrixDieReset o d => Sys2Proof.Machine.execMatrixDieReset o d s
  | .hubDieReset o n => Sys2Proof.Machine.execHubDieReset o n s
  | .coreDieReset o => Sys2Proof.Machine.execCoreDieReset o s
  | .packageReset o => Sys2Proof.Machine.execPackageReset o s
  | .resetComplete domain target t => Sys2Proof.Machine.execResetComplete domain target t s
  | .hawkmothWatchdog => Sys2Proof.Machine.execHawkmothWatchdog s
  | .clusterResetTimeout c => Sys2Proof.Machine.execClusterResetTimeout c s
  | .controllerTimeout n => Sys2Proof.Machine.execControllerTimeout n s
  | .configScrub corrected uncorrectable => Sys2Proof.Machine.execConfigScrub corrected uncorrectable s
  | .pop o => Sys2Proof.Machine.execPop o s
  | .ueAck o => Sys2Proof.Machine.execUeAck o s
  | .restore o => Sys2Proof.Machine.execRestore o s
  | .heldRelease o c => Sys2Proof.Machine.execHeldRelease o c s
  | .logicTest o kind target => Sys2Proof.Machine.execLogicTest o kind target s
  | .memoryTest o kind target => Sys2Proof.Machine.execMemoryTest o kind target s
  | .logicAndMemoryTest o kind target => Sys2Proof.Machine.execLogicAndMemoryTest o kind target s
  | .bistDone logic mem => Sys2Proof.Machine.execBistDone logic mem s
  | .bistRotation d => Sys2Proof.Machine.execBistRotation d s
  | .bistOverdue c => Sys2Proof.Machine.execBistOverdue c s
  -- Trust, identity and attestation (R461 to R479)
  | .installPlanKey o => Sys2Proof.Machine.execInstallPlanKey o s
  | .revokePlanKey o => Sys2Proof.Machine.execRevokePlanKey o s
  | .raisePlanCounter o => Sys2Proof.Machine.execRaisePlanCounter o s
  | .debugUnlock o => Sys2Proof.Machine.execDebugUnlock o s
  | .setOwnerKey o => Sys2Proof.Machine.execSetOwnerKey o s
  | .attest o => Sys2Proof.Machine.execAttest o s
  | .commitFw o => Sys2Proof.Machine.execCommitFw o s
  | .wipe o => Sys2Proof.Machine.execWipe o s
  | .wipeDone => Sys2Proof.Machine.execWipeDone s
  -- Events the table gives last
  | .loadComplete slot => Sys2Proof.Machine.execLoadComplete slot s
  | .enableHigh t => Sys2Proof.Machine.execEnableHigh t s
  | .lossOfSignal port => Sys2Proof.Machine.execLossOfSignal port s
  | .debugHalt h => Sys2Proof.Machine.execDebugHalt h s
  | .hostLinkUp l => Sys2Proof.Machine.execHostLinkUp l s
  | .biconflict l => Sys2Proof.Machine.execBiconflict l s
  | .cocoonLinkDown => Sys2Proof.Machine.execCocoonLinkDown s
  | .cocoonLinkRetrain => Sys2Proof.Machine.execCocoonLinkRetrain s

end Sys2Proof.Machine
end

