-- ==== Sys2Proof/Machine/Tick.lean ====
section
/-! DEFINITION. Machine/Tick.lean: what passes when no command waits: one step of 10 ns of the part's time bases. -/

namespace Sys2Proof.Machine

/-- The deadline timers of the four matrix dies advance by 10 ns (R156). -/
def State.tickTimers (s : State) : State :=
  (List.range 4).foldl (fun s d => s.wr DLN_TIMER.NS (s.rd DLN_TIMER.NS d + 10) d) s

/-! ## The beat monitors (R155, R495) -/

/-- The rows of R155: supply in mV and the rates in M beats/s at 25, 70 and 100 °C. -/
def beatTable : List (Nat × Nat × Nat × Nat) :=
  [(550, 680, 630, 600), (600, 860, 800, 750), (650, 990, 950, 890), (700, 1140, 1100, 1040),
   (750, 1250, 1210, 1150), (800, 1400, 1330, 1270)]

/-- A row's rate at a junction temperature from 25 to 100 °C, in 1/90 M beats/s, linear between its columns. -/
def rowRate90 (r : Nat × Nat × Nat × Nat) (tj : Nat) : Nat :=
  let t := min 100 (max 25 tj)
  if t ≤ 70 then 90 * r.2.1 - 2 * (r.2.1 - r.2.2.1) * (t - 25)
  else 90 * r.2.2.1 - 3 * (r.2.2.1 - r.2.2.2) * (t - 70)

/-- The typical rate of R155 at a supply and temperature, in 1/4500 M beats/s, linear between the table's points
(DESIGN CHOICE, log entry 45). -/
def typicalRate4500 (mv tj : Nat) : Nat :=
  let v := min 800 (max 550 mv)
  let i := min 4 ((v - 550) / 50)
  let lo := rowRate90 (beatTable.getD i (0, 0, 0, 0)) tj
  let hi := rowRate90 (beatTable.getD (i + 1) (0, 0, 0, 0)) tj
  50 * lo + (hi - lo) * (v - (550 + 50 * i))

/-- A die's beat rate in M beats/s: from 8 % below to 5 % above the typical one (R155; the place in that range is a free
value, log entry 45). -/
def State.beatRateNow (s : State) (d : Nat) : Nat :=
  let mv := s.rd PWR_SUPPLY.MV 0 0 d
  let tj := s.rd PWR_TEMP.TJ 0 0 d
  typicalRate4500 mv tj * (9200 + Sys2Proof.Config.beatRate d mv tj s.us % 1301) / 45000000

/-- Each microsecond DLN_BEAT takes the die's rate. -/
def State.beatMeasure (s : State) (d : Nat) : State :=
  let r := s.beatRateNow d
  let s := (s.wr DLN_BEAT.RATE r d).wr DLN_BEAT.MIN (min r (s.rd DLN_BEAT.MIN d)) d
  s.wr DLN_BEAT.MAX (max r (s.rd DLN_BEAT.MAX d)) d

/-- Whether a cell waits on an empty queue after the first cube of its RUN (CLU_FEED_STALL): a MAC or RED whose patch is not
waiting for its set, or a FWD, with a block still to take. -/
def feedWaits (g : CluCfg) (x : Cell) : Bool :=
  let w := g.ops.getD x.op 0
  let wants := if OpW.opc w = 3 then decide (x.k < opAllBlocks w)
    else (x.opened || !x.curSet.busy) && decide (x.k < opBlocks w)
  decide (x.phase = .inOp) && decide (0 < x.cubes) && wants && (x.aq.isEmpty || (OpW.opc w != 2 && x.bq.isEmpty))

/-- Whether a cell waits for a caldera set to drain: it stands before a patch of a MAC or RED whose set is busy. -/
def drainWaits (g : CluCfg) (x : Cell) : Bool :=
  decide (x.phase = .inOp) && OpW.opc (g.ops.getD x.op 0) != 3 && !x.opened && x.curSet.busy

/-- `n` beat ticks of a cluster that is RUNNING or STOPPING. -/
def State.cluBeats (s : State) (n c : Nat) : State :=
  if s.cluSt c = cRunning ∨ s.cluSt c = cStopping then
    let s := s.bump CLU_BEATS.BEATS n c
    match s.runCfg c with
    | none => s
    | some (g, _) =>
      let xs := (s.cells.filter fun e => ofClu c e.1).map fun (e : Nat × Cell) => e.2
      let s := if xs.any (feedWaits g) then s.bump CLU_FEED_STALL.BEATS n c else s
      if xs.any (drainWaits g) then s.bump CLU_DRAIN_STALL.BEATS n c else s
  else s

/-- A cluster's beats of a die's: each step of its trim takes 1.2 % (R431; "about" is taken as exactly, DESIGN CHOICE, log
entry 195). -/
def State.cluBeat (s : State) (c n : Nat) : Nat := n * (1000 - 12 * (s.ageUnit c).trim) / 1000

/-- 10 ns of a die's beat monitor. -/
def State.tickBeats (s : State) (d : Nat) : State :=
  let was := getK 0 s.beats.acc d
  let now := was + s.rd DLN_BEAT.RATE d
  let s := { s with beats := { s.beats with acc := setK 0 s.beats.acc d now } }
  let n := now / 100 - was / 100
  if n = 0 then s
  else (List.range 128).foldl (fun s k =>
    s.cluBeats (s.cluBeat (128 * d + k) (now / 100) - s.cluBeat (128 * d + k) (was / 100)) (128 * d + k)) s

/-! ## The cores' counters (R244, R267, R273, R426) -/

/-- Cycles of a core group in 10 ns: half of them while its rail droops (R426). -/
def State.groupCycles (s : State) (g : Nat) : Nat :=
  let f := s.rd mcoreinfo.FREQ (8 * g)
  if s.pwr.droops.any fun r => match r with | .vcg x => x.val == g | _ => false then f / 2 else f

/-- A core in RUN counts a tick of its watchdog while that is enabled (R270). -/
def State.tickDog (s : State) (h : Nat) : State :=
  if s.on mwdog.EN h then
    let x := getK Core.held s.cores.core h
    { s with cores := { s.cores with core := setK Core.held s.cores.core h { x with dog := x.dog + 1 } } }
  else s

/-- A core in RUN or WAIT counts its cycles, those with the store buffer full and those in WAIT. -/
def State.tickCore (s : State) (h : Nat) : State :=
  let x := getK Core.held s.cores.core h
  let n := s.groupCycles (h / 8)
  if x.power ≤ 1 then
    let s := (if x.power = 0 then s.tickDog h else s).hpmAdd h 0 n
    let s := if 64 ≤ x.buf.length then s.hpmEvent h 3 n else s
    if x.power = 1 then s.hpmEvent h 9 n else s
  else s

/-- The hubs read ahead for the movers' copies from HBM (R194; DESIGN CHOICE, log entry 174). -/
def State.tickMovers (s : State) : State :=
  (s.clus.map (·.1)).foldl (fun s c => (s.readAhead c 0).readAhead c 1) s

/-- An empty queue: 10 ns pass (DESIGN CHOICE, log entry 17), and a firmware activation ends (log entry 140); without power
nothing does. A completion record that waited for a line is written once the line is free, and a bring-up of the Cocoon site goes on. -/
def State.idle (s : State) : State :=
  if ¬ s.board.powered then s
  else
  let s := { s.activateEnd with clock := s.clock + 1 }.tickTimers
  let s := { s with cores := { s.cores with mtime := (s.cores.mtime + 1) % 2 ^ 64 } }
  let s := if s.clock % 100 = 0 then ((List.range 4).foldl State.beatMeasure s).linkRates else s
  let s := (List.range 4).foldl State.tickBeats s
  let s := (s.cores.core.map (·.1)).foldl State.tickCore s
  s.tickMovers.flushAll.siteSettle

end Sys2Proof.Machine
end

