-- ==== Sys2Proof/Safety.lean ====
section
/-! DEFINITION. Safety.lean: what a safe step and a safe run are, and the words the statements use: what a step left
unchanged, and the invariant of the memories. -/

namespace Sys2Proof.Machine

/-- The step from a state goes on: it neither faults nor refuses. -/
def goesOn (s : State) : Prop := ∃ t, step s = .next t

/-- A run of `n` steps goes on to its end. -/
def runsFor : Nat → State → Prop
  | 0, _ => True
  | n + 1, s => ∃ t, step s = .next t ∧ runsFor n t

/-- The register fields outside a list of keys (Fld.key) hold what they held. -/
def State.sameRegs (s t : State) (ks : List Nat) : Prop := ∀ d k, k ∉ ks → getK d t.regs k = getK d s.regs k

/-- The clusters other than one hold what they held. -/
def State.sameClus (s t : State) (c : Nat) : Prop := ∀ d, d ≠ c → t.clu d = s.clu d

/-- The cells other than one hold what they held. -/
def State.sameCells (s t : State) (k : Nat) : Prop := ∀ j, j ≠ k → getK Cell.rest t.cells j = getK Cell.rest s.cells j

/-- HBM, scratchpads, host memory and flash hold what they held. -/
def State.sameStore (s t : State) : Prop :=
  t.hbm = s.hbm ∧ t.spad = s.spad ∧ t.hostMem = s.hostMem ∧ t.flash = s.flash

/-- The byte memories are in their canonical form. -/
def State.stored (s : State) : Prop :=
  Memory.wf s.hbm = true ∧ Memory.wf s.spad = true ∧ Memory.wf s.hostMem = true ∧ Memory.wf s.flash = true

/-- Only register fields changed, and what their interrupts send: interrupt files and messages. -/
def State.quiet (s t : State) : Prop := t = { s with regs := t.regs, irq := t.irq, out := t.out }

/-- Only register fields, the RAS queue and log, and what their interrupts send changed. -/
def State.quietRas (s t : State) : Prop := t = { s with regs := t.regs, ras := t.ras, irq := t.irq, out := t.out }

/-- Cells other than those of a list of cell numbers hold what they held. -/
def State.sameCellsBut (s t : State) (ks : List Nat) : Prop :=
  ∀ j, j ∉ ks → getK Cell.rest t.cells j = getK Cell.rest s.cells j

/-- A cluster went on from its step to step `next` (R128, R133, R166): its
wait is over, its progress is stamped, and the migration entries that issue after the step it left are ready. -/
def State.wentOn (s t : State) (c next : Nat) : Prop :=
  let x := s.clu c
  let es := ((s.migsOf c).filter fun e => migAfter e.2 == x.pc && !x.migSeen.contains e.1).map (·.1)
  t.clu c = { x with pc := next, waitFrom := none, late := false, migReady := x.migReady ++ es,
                     migSeen := x.migSeen ++ es, lastProgress := s.timer c }
    ∧ s.sameClus t c

/-- A counter that saturates advanced by n, or stood where n is 0. -/
def State.counted1 (s t : State) (f : Fld) (n i : Nat) : Prop :=
  t.rd f i = if n = 0 then s.rd f i else satAdd (s.rd f i) n f.width

/-- A requester whose accesses reach the registers and windows as they are (R344, R345): the physical function unless it is in
D3hot (R340), the Hawkmoth or a core; and no earlier request of the ordered class that it sent is still open (R283). -/
def State.direct (s : State) (o : Origin) : Prop :=
  ((o = .pf ∧ s.inD3 0 = false) ∨ o = .hawkmoth ∨ ∃ h m, o = .core h m) ∧ s.orderedOpen (originStream o) none = false

/-- No earlier store of the core that sends a command waits in its buffer. -/
def State.storesDone (s : State) (o : Origin) : Prop := ∀ h m, o = .core h m → (s.core h).buf = []

/-- A command of a core whose buffer holds earlier stores and has room goes behind them, as the store of a register's
word; nothing else changes (R190, R195, R250). -/
def State.goesBehind (s : State) (o : Origin) (i : Instr) (addr word : Nat) : Prop :=
  ∀ h m, o = .core h m → (s.core h).buf ≠ [] → (s.core h).buf.length < 64 → ∃ t, exec i s = .next t
    ∧ (t.core h).buf = (s.core h).buf ++ [⟨addr / 64, [], some (addr, leBytes 8 word), false, false, false⟩]
    ∧ t = { s with cores := t.cores }

/-- A home serves a line, idles at it, has room, and nothing waits for a way of its set (R280, R281, R287, R297). -/
def State.homeIdle (s : State) (k : Nat) : Prop :=
  s.homeUp k = true ∧ s.hasHome k = true ∧ s.hubFull (s.home k) = false ∧ s.txn k = none ∧ s.queued k = []
    ∧ s.tokens (s.home k) (dirSet (keyAddr k)) = []

/-- A tier command of a function was answered (R218, R220, R239): the result of one given through TIER_CMD stands in
TIER_RESULT, with BUSY 0; the record of any other was sent last, and TIER_RESULT and BUSY are as they were. -/
def State.tierSaid (s t : State) (f q0 t1 : Nat) : Prop :=
  (s.rowReply f = .regs →
    t.rd TIER_RESULT0.Q = q0 % 2 ^ 64 ∧ t.rd TIER_RESULT1.Q = t1 % 2 ^ 64 ∧ t.rd TIER_CMD_GO.BUSY = 0)
    ∧ (s.rowReply f ≠ .regs → t.out.getLast? = some (.tierResult f q0 t1) ∧ t.rd TIER_RESULT0.Q = s.rd TIER_RESULT0.Q
      ∧ t.rd TIER_RESULT1.Q = s.rd TIER_RESULT1.Q ∧ t.rd TIER_CMD_GO.BUSY = s.rd TIER_CMD_GO.BUSY)

/-- A tier command of a function failed (R218, R220): TIER_ERR records it, its result says so, and no table changed. -/
def State.tierFailed (s t : State) (f cmd status detail handle : Nat) : Prop :=
  t.rd TIER_ERR.STATUS = status ∧ t.rd TIER_ERR.CMD = cmd ∧ t.rd TIER_ERR.DETAIL = detail ∧ t.rd TIER_ERR.HANDLE = handle
    ∧ t.rd TIER_ERR.VALID = 1 ∧ t.on TIER_INT_STATUS.ERR = true
    ∧ s.tierSaid t f (status + detail * 2 ^ 12 + handle * 2 ^ 32) 0 ∧ s.quiet t

/-- A lane of a vector register. -/
def Clu.lane (x : Clu) (r l : Nat) : Nat := getK 0 x.vregs (r * 64 + l)

/-- A cluster's vector unit went on to the next instruction: of the cluster only the lanes, the place in the program and the
progress stamp may differ, and nothing outside the cluster does. -/
def State.vecPassed (s t : State) (c : Nat) : Prop :=
  t.clu c = { s.clu c with vregs := (t.clu c).vregs, vpc := (s.clu c).vpc + 1, lastProgress := (t.clu c).lastProgress }
    ∧ s.sameClus t c
    ∧ t = { s with clus := t.clus }

/-- An instruction of a cluster's vector program wrote lane l of VD with `f l` and went on to the next instruction;
nothing else of the part changed but the cluster's progress stamp. -/
def State.vecWrote (s t : State) (c w : Nat) (f : Nat → Nat) : Prop :=
  (∀ l, l < 64 → (t.clu c).lane (VecW.vd w) l = f l % 2 ^ 32)
    ∧ (∀ r l, r ≠ VecW.vd w → l < 64 → (t.clu c).lane r l = (s.clu c).lane r l)
    ∧ s.vecPassed t c

/-- The commands of the vector unit of a cluster, each with its operation code (R130). -/
def vecForms (c : Fin 512) : List (Nat × Instr) :=
  [(0x00, .vecEnd c), (0x01, .ld c), (0x02, .st c), (0x03, .ldlp c), (0x04, .stt c), (0x08, .add c), (0x09, .mul c),
    (0x0A, .fma c), (0x0B, .min c), (0x0C, .max c), (0x0D, .cmp c), (0x0E, .sel c), (0x0F, .abs c), (0x10, .cvti c),
    (0x11, .cvto c), (0x12, .cvtmx c), (0x18, .rcp c), (0x19, .rsq c), (0x1A, .exp2 c), (0x1B, .log2 c), (0x20, .rsum c),
    (0x21, .rmax c), (0x22, .rmin c), (0x23, .scan c), (0x24, .topk c), (0x30, .seta c), (0x31, .adda c),
    (0x32, .setl c), (0x33, .loop c)]

end Sys2Proof.Machine
end

