-- ==== Sys2Proof/Certificates/Slice0/Obligations.lean ====
section
/-! DEFINITION. Obligations.lean: the statements about the model. A statement that covers several commands says for each of
them, under hypotheses on the state and the operands alone, the next state exec answers. Where a clause rests on a choice of
the model, its docstring names the log entry. -/

open Sys2Proof Sys2Proof.Machine

/-- A step takes the command at the front of the queue and answers what exec answers on the state with the queue's rest. -/
def Obligations.StepRunsFront : Prop :=
  ∀ (s : State) (c : Instr) (rest : List Instr), s.pending = c :: rest →
    step s = exec c { s with pending := rest }

/-- With an empty queue a step lets 10 ns pass (the model's choice, log entry 17): a powered part's clock and mtime advance by one
and its memories stand where no completion record waits to be written and no move is under way, which the hubs may read ahead for
(R194); a part without power is unchanged. -/
def Obligations.IdleTicks : Prop :=
  ∀ s : State, s.pending = [] →
    (s.board.powered = true → ∃ t, step s = .next t ∧ t.clock = s.clock + 1 ∧ t.cores.mtime = (s.cores.mtime + 1) % 2 ^ 64
      ∧ (s.host.compq = [] → (∀ c, (s.clu c).mov0.cur = none ∧ (s.clu c).mov1.cur = none) → s.sameStore t)) ∧
    (s.board.powered = false → step s = .next s)

/-- After reset every register field reads its reset value, no memory lists a byte, and no command waits. -/
def Obligations.ResetRegisters : Prop :=
  (∀ (f : Fld) (i j r : Nat), State.reset.rd f i j r = f.reset i j r)
    ∧ State.reset.hbm = [] ∧ State.reset.spad = [] ∧ State.reset.hostMem = [] ∧ State.reset.flash = [] ∧ State.reset.pending = [] ∧ State.reset.clock = 0

/-- The invariant of StoredKept holds after reset. -/
def Obligations.ResetStored : Prop := State.reset.stored

/-- Whatever command is at the front of the queue, and when the queue is empty, a step keeps the four byte memories in
canonical form: rising addresses, no entry equal to a blank byte. -/
def Obligations.StoredKept : Prop :=
  ∀ s t : State, s.stored → step s = .next t → t.stored

/-- No command of the table adds to, drops from or reorders the queue of waiting commands: commands run in the order given, each
once. -/
def Obligations.QueueKept : Prop :=
  ∀ (c : Instr) (s t : State), exec c s = .next t → t.pending = s.pending

/-- Every command completes from every state: the part never faults and refuses no command. -/
def Obligations.EveryCommandGoesOn : Prop :=
  ∀ (c : Instr) (s : State), ∃ t, exec c s = .next t

/-- Each lane-wise operation of the vector unit writes lane l of VD from lane l of VA, VB and VC, and goes on to the next
instruction; nothing else changes. (No earlier STT is still to be written: see VectorMemory.) -/
def Obligations.VectorElementwise : Prop :=
  ∀ (c : Fin 512) (s : State) (w : Nat), (s.clu c).vst = none →
    let a (l : Nat) : Nat := (s.clu c).lane (VecW.va w) l
    let b (l : Nat) : Nat := (s.clu c).lane (VecW.vb w) l
    let d (l : Nat) : Nat := (s.clu c).lane (VecW.vc w) l
    (s.vecAt c 0x08 = some w → ∃ t, exec (.add c) s = .next t ∧ s.vecWrote t c w fun l => f32add (a l) (b l)) ∧
    (s.vecAt c 0x09 = some w → ∃ t, exec (.mul c) s = .next t ∧ s.vecWrote t c w fun l => f32mul (a l) (b l)) ∧
    (s.vecAt c 0x0A = some w → ∃ t, exec (.fma c) s = .next t ∧ s.vecWrote t c w fun l => f32fma (a l) (b l) (d l)) ∧
    (s.vecAt c 0x0B = some w → ∃ t, exec (.min c) s = .next t ∧ s.vecWrote t c w fun l => f32min (a l) (b l)) ∧
    (s.vecAt c 0x0C = some w → ∃ t, exec (.max c) s = .next t ∧ s.vecWrote t c w fun l => f32max (a l) (b l)) ∧
    (s.vecAt c 0x0D = some w →
      ∃ t, exec (.cmp c) s = .next t ∧ s.vecWrote t c w fun l => f32cmp (VecW.fmt w) (a l) (b l)) ∧
    (s.vecAt c 0x0E = some w → ∃ t, exec (.sel c) s = .next t ∧ s.vecWrote t c w fun l => f32sel (a l) (b l) (d l)) ∧
    (s.vecAt c 0x0F = some w → ∃ t, exec (.abs c) s = .next t ∧ s.vecWrote t c w fun l => f32abs (a l)) ∧
    (s.vecAt c 0x18 = some w → ∃ t, exec (.rcp c) s = .next t ∧ s.vecWrote t c w fun l => f32rcp (a l)) ∧
    (s.vecAt c 0x19 = some w → ∃ t, exec (.rsq c) s = .next t ∧ s.vecWrote t c w fun l => f32rsq (a l)) ∧
    (s.vecAt c 0x1A = some w → ∃ t, exec (.exp2 c) s = .next t ∧ s.vecWrote t c w fun l => f32exp2 (a l)) ∧
    (s.vecAt c 0x1B = some w → ∃ t, exec (.log2 c) s = .next t ∧ s.vecWrote t c w fun l => f32log2 (a l))

/-- RSUM, RMAX and RMIN put the tree result in lane 0 of VD and +0 in the other lanes; SCAN puts the prefix sums; CVTI reads 64
packed elements of a format of ten codes and CVTO packs 64 elements of one, both counting their overflows and NaNs (R99,
R100; with another FMT what VD holds is a free value, log entry 11; that CVTI's NaNs count is log entry 170's reading, and the MX mark of a CVTI is log entry 16's). -/
def Obligations.VectorAcrossLanes : Prop :=
  ∀ (c : Fin 512) (s : State) (w : Nat), (s.clu c).vst = none →
    let va := (s.clu c).vreg (VecW.va w)
    let cvti (l : Nat) : Rounded :=
      cvtIn (VecW.fmt w) (cvtiMx w) ((s.clu c).lane (VecW.vb w) (l / 32) % 256) (VecW.rnd w) (VecW.ovf w)
        (bits (packLanes 32 va) (l * fmtBits (VecW.fmt w)) (fmtBits (VecW.fmt w)))
    (s.vecAt c 0x20 = some w →
      ∃ t, exec (.rsum c) s = .next t ∧ s.vecWrote t c w fun l => if l = 0 then treeOf f32add 6 va else 0) ∧
    (s.vecAt c 0x21 = some w →
      ∃ t, exec (.rmax c) s = .next t ∧ s.vecWrote t c w fun l => if l = 0 then treeOf f32max 6 va else 0) ∧
    (s.vecAt c 0x22 = some w →
      ∃ t, exec (.rmin c) s = .next t ∧ s.vecWrote t c w fun l => if l = 0 then treeOf f32min 6 va else 0) ∧
    (s.vecAt c 0x23 = some w →
      ∃ t, exec (.scan c) s = .next t ∧ s.vecWrote t c w fun l => prefixSum va (l + 1)) ∧
    (s.vecAt c 0x10 = some w → VecW.fmt w < 10 →
      ∃ t, exec (.cvti c) s = .next t ∧ (s.countOuts c ((List.range 64).map cvti)).vecWrote t c w fun l =>
        (cvti l).pat) ∧
    (s.vecAt c 0x11 = some w → VecW.fmt w < 10 →
      let outs := va.map fun v => (f32 v).toFmt (VecW.fmt w) (VecW.rnd w) (VecW.ovf w)
      ∃ t, exec (.cvto c) s = .next t ∧ (s.countOuts c outs).vecWrote t c w fun l =>
        (packedLanes 0x11 (fmtBits (VecW.fmt w)) (outs.map (·.pat))).getD l 0) ∧
    (∀ f ∈ [(0x10, Instr.cvti c), (0x11, .cvto c)], s.vecAt c f.1 = some w → 10 ≤ VecW.fmt w →
      ∃ t g, exec f.2 s = .next t ∧ s.vecWrote t c w g)

/-- SETA, ADDA and SETL write A[VD] or L[VD] and go on; LOOP counts L[VD] down and jumps to IMM while it is not zero; VEC_END
ends the program. Every other register of the eight, the lanes and everything outside the cluster stand. -/
def Obligations.VectorControl : Prop :=
  ∀ (c : Fin 512) (s : State) (w : Nat), (s.clu c).vst = none →
    let x := s.clu c
    let n := VecW.vd w % 8
    let now (i : Instr) (y : Clu) : Prop := ∃ t, exec i s = .next t
      ∧ t.clu c = { y with lastProgress := (t.clu c).lastProgress } ∧ s.sameClus t c ∧ t = { s with clus := t.clus }
    (s.vecAt c 0x30 = some w → now (.seta c) { x with areg := setK 0 x.areg n (VecW.imm w), vpc := x.vpc + 1 }) ∧
    (s.vecAt c 0x31 = some w →
      now (.adda c) { x with areg := setK 0 x.areg n ((getK 0 x.areg n + VecW.imm w) % 2 ^ 22), vpc := x.vpc + 1 }) ∧
    (s.vecAt c 0x32 = some w → now (.setl c) { x with lreg := setK 0 x.lreg n (VecW.imm w), vpc := x.vpc + 1 }) ∧
    (s.vecAt c 0x33 = some w → getK 0 x.lreg n ≠ 0 →
      now (.loop c) { x with lreg := setK 0 x.lreg n (getK 0 x.lreg n - 1), vpc := VecW.imm w }) ∧
    (s.vecAt c 0x33 = some w → getK 0 x.lreg n = 0 → now (.loop c) { x with vpc := x.vpc + 1 }) ∧
    (s.vecAt c 0x00 = some w → now (.vecEnd c) { x with vact := false })

/-- LD, LDLP, ST, STT, TOPK and CVTMX: what each writes, and every way it stops the cluster. `p` is the state with the cluster's
progress stamped; what an access to the scratchpad itself leaves (banks woken, corrected words) is `spadRead` and
`spadWrite`. The last two clauses say that an earlier STT is written first, by whatever vector command comes next (log entry
92's reading), and what that leaves. Where CVTMX's VB or TOPK's VC is VD, that the second result stands is log entry 170's choice. -/
def Obligations.VectorMemory : Prop :=
  (∀ (c : Fin 512) (s : State) (w : Nat), (s.clu c).vst = none →
    let x := s.clu c
    let p := s.progress c
    let a := vecAddr x w
    let va := x.vreg (VecW.va w)
    let vd := x.vreg (VecW.vd w)
    let ld := p.spadRead c a 256
    let lp := p.spadRead c a 2048
    let outs := (List.range 64).map fun l =>
      (Cal.ofImage (leNat ((lp.data.drop (32 * l)).take 24))).output 9 (VecW.rnd w) (VecW.ovf w) 0
    let st := p.spadWrite c a (leBytes 256 (packLanes 32 vd))
    let tile := x.lane (VecW.vb w) 0
    let off := VecW.imm w % 512
    let k := VecW.imm w % 8 + 1
    (s.vecAt c 0x01 = some w → a + 256 ≤ spadEnd →
      (ld.bad = none → ∃ t, exec (.ld c) s = .next t
        ∧ ld.st.vecWrote t c w fun l => bits (leNat ld.data) (l * 32) 32) ∧
      (∀ o, ld.bad = some o → exec (.ld c) s = .next (ld.st.eccFault c ⟨0, 0, o, 3⟩))) ∧
    (s.vecAt c 0x01 = some w → spadEnd < a + 256 → exec (.ld c) s = .next (p.faultClu c stBadDescriptor ⟨0, 0, 0, 3⟩)) ∧
    (s.vecAt c 0x02 = some w → a + 256 ≤ spadEnd → 0x180000 ≤ a →
      (st.bad = none → ∃ t, exec (.st c) s = .next t ∧ st.st.vecPassed t c ∧ (t.clu c).vregs = x.vregs
        ∧ (Memory.wf s.spad = true → ∀ l, l < 64 →
            memRead t.spad (spadKey c (a + 4 * l)) 4 = leBytes 4 (x.lane (VecW.vd w) l % 2 ^ 32))) ∧
      (∀ o, st.bad = some o → exec (.st c) s = .next (st.st.eccFault c ⟨0, 0, o, 3⟩))) ∧
    (s.vecAt c 0x02 = some w → spadEnd < a + 256 ∨ a < 0x180000 →
      exec (.st c) s = .next (p.faultClu c stBadDescriptor ⟨0, 0, 0, 3⟩)) ∧
    (s.vecAt c 0x03 = some w → a + 2048 ≤ spadEnd →
      (lp.bad = none → ∃ t, exec (.ldlp c) s = .next t
        ∧ (lp.st.countOuts c outs).vecWrote t c w fun l => (outs.map (·.pat)).getD l 0) ∧
      (∀ o, lp.bad = some o → exec (.ldlp c) s = .next (lp.st.eccFault c ⟨0, 0, o, 3⟩))) ∧
    (s.vecAt c 0x03 = some w → spadEnd < a + 2048 →
      exec (.ldlp c) s = .next (p.faultClu c stBadDescriptor ⟨0, 0, 0, 3⟩)) ∧
    (s.vecAt c 0x04 = some w → pmBase + tile * 512 + off + 256 ≤ spadEnd →
      let ts := if 256 < off then [tile, tile + 1] else [tile]
      ((∀ t' ∈ ts, x.holder t' = none ∨ x.holder t' = some .vector) → ∃ t, exec (.stt c) s = .next t
        ∧ (∀ t' ∈ ts, (t.clu c).holder t' = some .vector)
        ∧ (∀ t', t' ∉ ts → (t.clu c).holder t' = x.holder t')
        ∧ t.clu c = { x with claims := (t.clu c).claims, vpc := x.vpc + 1, lastProgress := (t.clu c).lastProgress
                             vst := some ⟨tile, off, leBytes 256 (packLanes 32 vd)⟩ }
        ∧ s.sameClus t c ∧ t = { s with clus := t.clus }) ∧
      (∀ i row col b, ts[i]? = some (tile + i) → x.holder (tile + i) = some (.cell row col b) →
        (i = 1 → x.holder tile = none ∨ x.holder tile = some .vector) →
        exec (.stt c) s = .next (p.faultClu c stTileClaim ⟨0, 0, pmBase + (tile + i) * 512, 3⟩))) ∧
    (s.vecAt c 0x04 = some w → spadEnd < pmBase + tile * 512 + off + 256 →
      exec (.stt c) s = .next (p.faultClu c stBadDescriptor ⟨0, 0, 0, 3⟩)) ∧
    (s.vecAt c 0x24 = some w → ∃ t, exec (.topk c) s = .next t ∧ s.vecPassed t c
      ∧ (∀ l, l < k → VecW.vc w ≠ VecW.vd w →
          (t.clu c).lane (VecW.vd w) l = ((topkOut k va).1.getD l 0) % 2 ^ 32)
      ∧ (∀ l, l < k → (t.clu c).lane (VecW.vc w) l = ((topkOut k va).2.getD l 0) % 2 ^ 32)
      ∧ (∀ r l, l < 64 → (r ≠ VecW.vd w ∧ r ≠ VecW.vc w) ∨ k ≤ l → (t.clu c).lane r l = x.lane r l)) ∧
    (s.vecAt c 0x12 = some w → ∃ t, exec (.cvtmx c) s = .next t ∧ s.vecPassed t c
      ∧ (∀ l, l < 64 → VecW.vb w ≠ VecW.vd w ∨ 2 ≤ l →
          (t.clu c).lane (VecW.vd w) l = ((cvtMxOut (VecW.fmt w) (VecW.rnd w) va).1.getD l 0) % 2 ^ 32)
      ∧ (∀ l, l < 2 → (t.clu c).lane (VecW.vb w) l = ((cvtMxOut (VecW.fmt w) (VecW.rnd w) va).2.getD l 0) % 2 ^ 32)
      ∧ (∀ r l, l < 64 → r ≠ VecW.vd w → r ≠ VecW.vb w ∨ 2 ≤ l → (t.clu c).lane r l = x.lane r l))) ∧
  (∀ (c : Fin 512) (s : State), ∀ f ∈ vecForms c,
    (∀ w, s.vecAt c f.1 = some w → exec f.2 s = exec f.2 (s.flushStt c)) ∧
    (s.vecAt c f.1 = none → exec f.2 s = .next s)) ∧
  (∀ (c : Fin 512) (s : State) (v : VecStore), (s.clu c).vst = some v →
    let st := s.spadWrite c (pmBase + v.tile * 512 + v.off) v.bytes
    (st.bad = none →
      ((s.flushStt c).clu c).vst = none ∧ (∀ t, ((s.flushStt c).clu c).holder t ≠ some .vector)
        ∧ (s.flushStt c).spad = st.st.spad ∧ st.st.sameClus (s.flushStt c) c
        ∧ s.flushStt c = { st.st with clus := (s.flushStt c).clus }) ∧
    (∀ o, st.bad = some o → s.flushStt c = st.st.eccFault c ⟨0, 0, o, 3⟩))

/-- A cell that stands at an operation of a RUN in progress: END ends its sequence, an operation with nothing to do is passed
over, FWD starts forwarding, MAC and RED open their first patch, or stand before it while their caldera set drains. -/
def Obligations.CellSequence : Prop :=
  ∀ (c : Fin 512) (row : Fin 20) (col : Fin 32) (s : State) (g : CluCfg) (w : Nat), s.opAt c row col = some (g, w) →
    let x := s.cell c row col
    let fresh (y : Cell) : Cell := { y with phase := .inOp, patch := 0, k := 0, opened := false }
    let first_ (y : Cell) : Cell :=
      let z := fresh y
      let z := z.putSet y.cur (freshSet w)
      { z with opened := true, pre := [] }
    let did (i : Instr) (y : Cell) : Prop := ∃ t, exec i s = .next t ∧ t.cell c row col = y
      ∧ s.sameCells t (cellKey c row col) ∧ (∀ d, t.clu d = s.clu d) ∧ t = { s with cells := t.cells, clus := t.clus }
    (OpW.opc w = 0 → did (.cellEnd c row col) { x with phase := .ended }) ∧
    (OpW.opc w = 3 → opAllBlocks w = 0 → did (.fwd c row col) { x with op := x.op + 1 }) ∧
    (OpW.opc w = 3 → opAllBlocks w ≠ 0 → did (.fwd c row col) { x with phase := .inOp, k := 0, opened := false }) ∧
    (OpW.opc w = 1 → OpW.patches w = 0 → did (.mac c row col) { x with op := x.op + 1 }) ∧
    (OpW.opc w = 2 → OpW.patches w = 0 → did (.red c row col) { x with op := x.op + 1 }) ∧
    (OpW.opc w = 1 → OpW.patches w ≠ 0 → x.curSet.busy = true → did (.mac c row col) (fresh x)) ∧
    (OpW.opc w = 2 → OpW.patches w ≠ 0 → x.curSet.busy = true → did (.red c row col) (fresh x)) ∧
    (OpW.opc w = 1 → OpW.patches w ≠ 0 → x.curSet.busy = false → OpW.pre w = 0 →
      did (.mac c row col) (first_ x)) ∧
    (OpW.opc w = 2 → OpW.patches w ≠ 0 → x.curSet.busy = false → OpW.pre w = 0 →
      did (.red c row col) (first_ x)) ∧
    (OpW.opc w = 1 → OpW.patches w ≠ 0 →
      exec (.mac c row col) s = .next ((s.setCell c row col fresh).openPatch c row col g)) ∧
    (OpW.opc w = 2 → OpW.patches w ≠ 0 →
      exec (.red c row col) s = .next ((s.setCell c row col fresh).openPatch c row col g))

/-- CUBE_EXECUTE with room at the neighbours: the caldera set takes the cube or the partial, the blocks taken move one cell east
and one south, unchanged, and no other cell, register or memory changes. A parity error in the cell faults the cluster, and
CLU_FAULT names the cell (its SOURCE: log entry 196). -/
def Obligations.CellCubes : Prop :=
  ∀ (c : Fin 512) (row : Fin 20) (col : Fin 32) (s : State) (g : CluCfg) (r : RunSt) (a : Block) (as : List Block),
    s.runCfg c = some (g, r) → row.val < g.rows → col.val < g.cols → (s.cell c row col).aq = a :: as →
    s.roomEast c row col g = true →
    let x := s.cell c row col
    let w := g.ops.getD x.op 0
    let sum := (x.curSet.cals.getD (x.k % 16) Cal.zero).addPartial (Cal.ofImage (leNat (a.bytes.take 24)))
    let added (y : Cell) : Cell := y.putSet x.cur { x.curSet with cals := x.curSet.cals.set (x.k % 16) sum }
    let forward := CellW.forward (g.cells.getD (row * 32 + col) 1)
    let did (y : Cell) (south : Option Block) : Prop := ∃ t, exec (.cubeExecute c row ⟨col, false⟩) s = .next t
      ∧ t.cell c row col = y
      ∧ (col + 1 < g.cols → (t.cell c row (col + 1)).aq = (s.cell c row (col + 1)).aq ++ [a])
      ∧ (∀ b, south = some b → row + 1 < g.rows → (t.cell c (row + 1) col).bq = (s.cell c (row + 1) col).bq ++ [b])
      ∧ s.sameCellsBut t [cellKey c row col, cellKey c row (col + 1), cellKey c (row + 1) col]
      ∧ s.sameClus t c ∧ t = { s with cells := t.cells, clus := t.clus }
    (forward = false → x.opened = false → (s.openPatch c row col g).runCfg c = some (g, r) →
      exec (.cubeExecute c row ⟨col, false⟩) s = exec (.cubeExecute c row ⟨col, false⟩) (s.openPatch c row col g)) ∧
    (forward = false → x.phase = .inOp → x.opened = true →
      (OpW.opc w = 1 ∧ (x.bq = [] ∨ opBlocks w ≤ x.k ∨ s.roomSouth c row col g = false))
        ∨ (OpW.opc w = 2 ∧ opBlocks w ≤ x.k) → exec (.cubeExecute c row ⟨col, false⟩) s = .next s) ∧
    (forward = true → x.bq = [] ∨ s.roomSouth c row col g = false → did { x with aq := as } none) ∧
    (s.rd CLU_FAULT.STATUS c = 0 → ∃ t, exec (.cubeExecute c row ⟨col, true⟩) s = .next t ∧ t.cluSt c = cFaulted
      ∧ t.rd CLU_STATUS.LAST_STATUS c = stEcc ∧ t.rd CLU_FAULT.STATUS c = stEcc ∧ t.rd CLU_FAULT.CELL_ROW c = row
      ∧ t.rd CLU_FAULT.CELL_COL c = col ∧ t.rd CLU_FAULT.SOURCE c = 0) ∧
    (∀ b bs, x.bq = b :: bs → s.roomSouth c row col g = true → forward = true → did { x with aq := as, bq := bs } (some b)) ∧
    (∀ b bs, x.bq = b :: bs → s.roomSouth c row col g = true → forward = false → x.phase = .inOp → x.opened = true →
      OpW.opc w = 1 → x.k < opBlocks w →
      did { x.putSet x.cur (x.curSet.cube w a b x.pre) with
        aq := as, bq := bs, k := x.k + 1, pre := [], cubes := x.cubes + 1 } (some b)) ∧
    (forward = false → x.phase = .inOp → x.opened = true → OpW.opc w = 2 → x.k < opBlocks w →
      did (added { x with aq := as, k := x.k + 1, cubes := x.cubes + 1 }) none) ∧
    (∀ b bs, x.bq = b :: bs → s.roomSouth c row col g = true → forward = false → x.phase = .inOp → OpW.opc w = 3 →
      did (if x.k + 1 = opAllBlocks w
        then { x with aq := as, bq := bs, k := 0, cubes := x.cubes + 1, phase := .atOp, op := x.op + 1 }
        else { x with aq := as, bq := bs, k := x.k + 1, cubes := x.cubes + 1 }) (some b))

/-- PATCH_COMPLETE packs the outputs, switches the caldera set, goes on to the next patch, and counts the patch's outcomes in the
CAL_ counters; no other cell and no memory changes. -/
def Obligations.CellPatch : Prop :=
  ∀ (c : Fin 512) (row : Fin 20) (col : Fin 32) (s : State) (g : CluCfg) (r : RunSt),
    s.runCfg c = some (g, r) → (s.cell c row col).phase = .inOp → (s.cell c row col).opened = true →
    (s.cell c row col).k = opBlocks (g.ops.getD (s.cell c row col).op 0) →
    let x := s.cell c row col
    let w := g.ops.getD x.op 0
    let set := x.curSet.finish x.pre
    let hs := packPatch w (g.cells.getD (row * 32 + col) 0) x.patch row col x.cur set
    let last := decide (x.patch + 1 = OpW.patches w)
    let cals := (outputsOf w).map fun p => set.cals.getD (opCal w p.1 p.2) Cal.zero
    let outs := if OpW.ofmt w = 10 then [] else cals.map fun y => y.output (OpW.ofmt w) (OpW.rnd w) (OpW.ovf w) (OpW.osh w)
    ∃ t, exec (.patchComplete c row col) s = .next t
      ∧ t.cell c row col = { x.putSet x.cur { set with out := hs.length, busy := true } with
          own := x.own ++ hs, cur := !x.cur, opened := false, k := 0, pre := []
          patch := if last then 0 else x.patch + 1
          op := if last then x.op + 1 else x.op
          phase := if last then .atOp else .inOp }
      ∧ s.counted1 t CAL_STICKY_PATCHES.COUNT (b2n (cals.any fun y => y.sticky != 0)) c
      ∧ s.counted1 t CAL_CAPACITY.COUNT (b2n (cals.any (·.cap))) c
      ∧ s.counted1 t CAL_OVERFLOW.COUNT (b2n (cals.any (·.ovf))) c
      ∧ s.counted1 t CAL_NAN_OUT.COUNT (outs.filter (·.nan)).length c
      ∧ s.counted1 t CAL_SAT_OUT.COUNT (outs.filter (·.sat)).length c
      ∧ s.sameCells t (cellKey c row col)
      ∧ t = { s with cells := t.cells, regs := t.regs, irq := t.irq, out := t.out }

/-- FEEDER_BLOCK_ISSUE: an enabled feeder with a block left and room, whose banks serve it, reads that block and appends it to the queue of its row's or
column's first cell. -/
def Obligations.Feeding : Prop :=
  ∀ (c : Fin 512) (side : Side) (index : Fin 32) (s : State) (g : CluCfg) (r : RunSt) (w0 w : Nat),
    s.runCfg c = some (g, r) → (side = .a → index.val < 20) →
    let no := feederNo side index
    let f := (g.feed.getD r.fset []).getD no 0
    let b := getK 0 r.issued no
    let first := match side with | .a => s.cell c index 0 | .b => s.cell c 0 index
    let rows := match side with | .a => opARows w | .b => opBRows w
    let width := match side with | .a => opABytes w | .b => opBBytes w
    let banks := banksOf ((List.range rows).map fun j => (FeedW.rowAddr f b j).toNat)
    let u := s.tookBanks c .feeder banks
    let d := u.readRows c (fun j => (FeedW.rowAddr f b j).toNat) width (List.range rows)
    let e := if FeedW.scales f then d.st.spadRead c (FeedW.scaleAddr f (cubeK (OpW.afmt w)) b) 4 else ⟨d.st, [], none⟩
    let blk : Block := ⟨d.data, if FeedW.scales f then some e.data else none⟩
    firstActive g.cells (feederCells g side index) = some w0 →
    blockOp (seqOps g.ops 64 (CellW.seq w0 + r.seqOff)) b = some w →
    let queue := match side with | .a => first.aq | .b => first.bq
    let may := FeedW.en f = true ∧ b < FeedW.c0 f * FeedW.c1 f ∧ queue.length < s.feederAhead c r ∧ s.dutyLets c no = true
      ∧ banks.all (s.bankFree c .feeder) = true
    (¬ may → exec (.feederBlockIssue c side index) s = .next s) ∧
    (∀ o, may → d.bad = some o → exec (.feederBlockIssue c side index) s = .next (d.st.eccFault c ⟨0, 0, o, 1⟩)) ∧
    (∀ o, may → d.bad = none → e.bad = some o →
      exec (.feederBlockIssue c side index) s = .next (e.st.eccFault c ⟨0, 0, o, 1⟩)) ∧
    (may → d.bad = none → e.bad = none →
    ∃ t, exec (.feederBlockIssue c side index) s = .next t
      ∧ (match side with
        | .a => (t.cell c index 0).aq = (e.st.cell c index 0).aq ++ [blk]
        | .b => (t.cell c 0 index).bq = (e.st.cell c 0 index).bq ++ [blk])
      ∧ (t.clu c).run = (e.st.clu c).run.map (fun q => { q with issued := insK q.issued no (b + 1) })
      ∧ (t.clu c).fed = setK [] (e.st.clu c).fed no (e.st.fedNow c no)
      ∧ t = { e.st with cells := t.cells, clus := t.clus })

/-- DRAIN_HANDSHAKE passes one handshake one step south, a cell's own under the claim of its tiles; DRAIN_WRITE writes the
oldest handshake of a column's port. -/
def Obligations.Draining : Prop :=
  ∀ (c : Fin 512) (row : Fin 20) (col : Fin 32) (s : State),
    let mine (h : Handshake) : Claimant := .cell h.row h.col h.set1
    let claims (h : Handshake) : List (Nat × Claimant) :=
      if h.row = row.val then ((s.clu c).claim (mine h) h.tiles).claims else (s.clu c).claims
    (∀ h x, (s.cell c row col).drainNext = some (h, x) → row + 1 < s.rowsOf c →
      (h.row = row.val → (s.clu c).tryClaim (mine h) h.tiles = .free) →
      ∃ t, exec (.drainHandshake c row col) s = .next t ∧ t.cell c row col = x
        ∧ (t.cell c (row + 1) col) = { s.cell c (row + 1) col with north := (s.cell c (row + 1) col).north ++ [h] }
        ∧ s.sameCellsBut t [cellKey c row col, cellKey c (row + 1) col] ∧ s.sameClus t c
        ∧ t.clu c = { s.clu c with claims := claims h } ∧ t = { s with cells := t.cells, clus := t.clus }) ∧
    (∀ h x, (s.cell c row col).drainNext = some (h, x) → s.rowsOf c ≤ row + 1 →
      (h.row = row.val → (s.clu c).tryClaim (mine h) h.tiles = .free) →
      ∃ t, exec (.drainHandshake c row col) s = .next t ∧ t.cell c row col = x
        ∧ t.clu c = { s.clu c with claims := claims h, portq := insK (s.clu c).portq col (getK [] (s.clu c).portq col ++ [h]) }
        ∧ s.sameCells t (cellKey c row col) ∧ s.sameClus t c ∧ t = { s with cells := t.cells, clus := t.clus }) ∧
    (∀ h x tile, (s.cell c row col).drainNext = some (h, x) → h.row = row.val →
      (s.clu c).tryClaim (mine h) h.tiles = .refused tile →
      exec (.drainHandshake c row col) s = .next (s.refusePatch c h tile)) ∧
    ((s.cell c row col).drainNext = none ∨ (∃ h x, (s.cell c row col).drainNext = some (h, x) ∧ h.row = row.val
        ∧ (s.clu c).tryClaim (mine h) h.tiles = .waits) → exec (.drainHandshake c row col) s = .next s) ∧
    (getK [] (s.clu c).portq col = [] → exec (.drainWrite c col) s = .next s) ∧
    (∀ h rest, getK [] (s.clu c).portq col = h :: rest →
      ((s.clu c).tryClaim (mine h) h.tiles = .waits ∨ ((s.clu c).tryClaim (mine h) h.tiles = .free
        ∧ (banksOf (h.puts.map (·.1))).all (s.bankFree c .drain) = false) → exec (.drainWrite c col) s = .next s) ∧
      (∀ tile, (s.clu c).tryClaim (mine h) h.tiles = .refused tile →
        exec (.drainWrite c col) s = .next (s.refusePatch c h tile))) ∧
    (∀ h rest, getK [] (s.clu c).portq col = h :: rest →
      let who := Claimant.cell h.row h.col h.set1
      let banks := banksOf (h.puts.map (·.1))
      let u := (s.tookBanks c .drain banks).setClu c fun x => { x.claim who h.tiles with
        portq := if rest.isEmpty then eraseK x.portq col else insK x.portq col rest }
      let q := u.putMasked c (putRuns h.puts)
      let set := (q.st.cell c h.row h.col).setOf h.set1
      (s.clu c).tryClaim who h.tiles = .free → banks.all (s.bankFree c .drain) = true →
      (∀ o, q.bad = some o → exec (.drainWrite c col) s = .next (q.st.eccFault c ⟨h.row, h.col, o, 2⟩)) ∧
      (q.bad = none →
      ∃ t, exec (.drainWrite c col) s = .next t ∧ t.spad = q.st.spad
        ∧ (t.cell c h.row h.col).setOf h.set1 = { set with out := set.out - 1, busy := decide (1 < set.out) }
        ∧ (set.out ≤ 1 → ∀ p ∈ (t.clu c).claims, p.2 ≠ who)
        ∧ (1 < set.out → (t.clu c).claims = (q.st.clu c).claims)
        ∧ q.st.sameCells t (cellKey c h.row h.col)
        ∧ t = { q.st with cells := t.cells, clus := t.clus, regs := t.regs }))

/-- BANK_ACCESS serves the request of the lowest rank: a read leaves the row's bytes for its reader, a write stores them, a
scrub request scrubs its row. A window request that arrives while the cluster is not stopped is refused, so the queue here is
what is left of the arrivals. -/
def Stated.BankService : Prop :=
  ∀ (c : Fin 512) (bank : Fin 48) (arrive : List BankReq) (s : State) (r : BankReq) (rest : List BankReq),
    (∀ q ∈ arrive, q.user = .window → s.stoppedForWindow c = true) →
    (s.clu c).pickReq bank (getK [] (s.clu c).bankq bank ++ arrive) = some (r, rest) →
    (r.user = .window → s.stoppedForWindow c = true) →
    let off := bank.val * 65536 + r.row * 64
    let u := s.setClu c fun x => { x.served bank r.user with
      bankq := setK [] x.bankq bank (rest.map fun x => { x with waited := x.waited + 1 }) }
    (r.user ≠ .scrub → r.data = none → (u.spadRead c off 64).bad = none →
      ∃ t, exec (.bankAccess c bank arrive []) s = .next t
        ∧ (t.clu c).rowOut = some (r.user, r.row.val, (u.spadRead c off 64).data, false)
        ∧ t = { (u.spadRead c off 64).st with clus := t.clus }) ∧
    (r.user ≠ .scrub → ∀ bytes, r.data = some bytes →
      (u.spadWrite c (off + r.word * 8) (bytes.take (64 - r.word * 8))).bad = none →
      exec (.bankAccess c bank arrive []) s = .next (u.spadWrite c (off + r.word * 8) (bytes.take (64 - r.word * 8))).st) ∧
    (r.user = .scrub → exec (.bankAccess c bank arrive []) s = .next (u.scrubRow c bank r.row)) ∧
    (∀ o, r.user = .feeder ∨ r.user = .drain ∨ r.user = .vector → r.data = none → (u.spadRead c off 64).bad = some o →
      exec (.bankAccess c bank arrive []) s = .next ((u.spadRead c off 64).st.eccFault c ⟨0, 0, o, faultSource r.user⟩)) ∧
    (∀ o m, r.user = .mover m → r.data = none → (u.spadRead c off 64).bad = some o →
      exec (.bankAccess c bank arrive []) s = .next ((u.spadRead c off 64).st.badWord c o (.mover m))) ∧
    (∀ o, r.user = .window → r.data = none → (u.spadRead c off 64).bad = some o →
      ∃ t, exec (.bankAccess c bank arrive []) s = .next t ∧ (t.clu c).rowOut = some (.window, r.row.val, [], true)
        ∧ t = { (u.spadRead c off 64).st.badWord c o .window with clus := t.clus }) ∧
    (∀ o bytes, r.user ≠ .scrub → r.data = some bytes →
      (u.spadWrite c (off + r.word * 8) (bytes.take (64 - r.word * 8))).bad = some o →
      exec (.bankAccess c bank arrive []) s
        = .next ((u.spadWrite c (off + r.word * 8) (bytes.take (64 - r.word * 8))).st.badWord c o r.user)) ∧
    (∀ q, q.user = .window → s.stoppedForWindow c = false →
      exec (.bankAccess c bank (arrive ++ [q]) []) s = exec (.bankAccess c bank arrive []) (s.refuseWindow c bank q)) ∧
    (∀ v vs, exec (.bankAccess c bank arrive (v :: vs)) s
      = exec (.bankAccess c bank arrive vs) (s.upset c bank v.1 v.2.1 v.2.2))

/-- The write-back of a corrected row leaves each of its corrected words valid with the data the read delivered; a scrub read
marks the row and does the same, while the scrub is enabled and the bank ON; a scrub period that ends with every row read sets PASS_DONE. -/
def Stated.BankRepair : Prop :=
  ∀ (c : Fin 512) (bank : Fin 48) (row : Fin 1024) (s : State),
    let off := bank.val * 65536 + row.val * 64
    ((s.clu c).fixq.contains (bank.val, row.val) = true → s.cluSt c ≠ cOff → s.gated c bank = false →
      ∃ t, exec (.correctedRowWriteback c bank row) s = .next t ∧ (t.clu c).fixq.contains (bank.val, row.val) = false
        ∧ (∀ k, k < 8 → (s.word c (off + 8 * k)).corrected.isSome = true →
            t.word c (off + 8 * k) = ⟨(s.word c (off + 8 * k)).data, none, false⟩)
        ∧ (∀ k, k < 8 → (s.word c (off + 8 * k)).corrected = none → t.word c (off + 8 * k) = s.word c (off + 8 * k))
        ∧ t = { s with clus := t.clus, spad := t.spad, spadErr := t.spadErr }) ∧
    (s.on CLU_SCRUB.EN c = true → s.gated c bank = false → s.cluSt c ≠ cOff → s.cluSt c ≠ cResetting →
      (∀ k, k < 8 → (s.word c (off + 8 * k)).bad = false ∧ (s.word c (off + 8 * k)).corrected = none) →
      ∃ t, exec (.scrubRead c bank row []) s = .next t
        ∧ getK false (t.clu c).scrubbed (bank.val * 1024 + row.val) = true ∧ t = { s with clus := t.clus }) ∧
    (s.on CLU_SCRUB.EN c = true → s.gated c bank = false → s.cluSt c ≠ cOff → s.cluSt c ≠ cResetting →
      ∃ t, exec (.scrubRead c bank row []) s = .next t
        ∧ getK false (t.clu c).scrubbed (bank.val * 1024 + row.val) = true
        ∧ (∀ k, k < 8 → (s.word c (off + 8 * k)).corrected.isSome = true →
            t.word c (off + 8 * k) = ⟨(s.word c (off + 8 * k)).data, none, false⟩)
        ∧ (∀ k, k < 8 → (s.word c (off + 8 * k)).corrected = none → t.word c (off + 8 * k) = s.word c (off + 8 * k))) ∧
    (s.on CLU_SCRUB.EN c = false ∨ s.gated c bank = true ∨ s.cluSt c = cOff ∨ s.cluSt c = cResetting →
      exec (.scrubRead c bank row []) s = .next s) ∧
    (∀ u us, exec (.scrubRead c bank row (u :: us)) s = exec (.scrubRead c bank row us) (s.upset c bank row u.1 u.2)) ∧
    ((s.clu c).fixq.contains (bank.val, row.val) = false → exec (.correctedRowWriteback c bank row) s = .next s) ∧
    (s.on CLU_SCRUB.EN c = false → exec (.scrubPassEnd c) s = .next s) ∧
    (s.on CLU_SCRUB.EN c = true → s.scrubComplete c = false →
      ∃ t, exec (.scrubPassEnd c) s = .next t ∧ (t.clu c).scrubbed = [] ∧ s.sameClus t c ∧ t = { s with clus := t.clus }) ∧
    (s.on CLU_SCRUB.EN c = true → s.scrubComplete c = true →
      ∃ t, exec (.scrubPassEnd c) s = .next t ∧ t.rd CLU_SCRUB.PASS_DONE c = 1 ∧ (t.clu c).scrubbed = []
        ∧ s.sameRegs t [CLU_SCRUB.PASS_DONE.key c 0 0] ∧ t = { s with regs := t.regs, clus := t.clus })

/-- BANK_POWER_REQUEST, GATE_CLOSE, BANK_WAKE, CLUSTER_POWER_OFF and CLUSTER_WAKE, where they do what they ask and where they
change nothing: the reserved state, a bank in use by a running cluster, a gate with accesses left, a cluster that is not
STOPPED. A bank already gated changes state at once (log entry 165), and an access to an OFF cluster counts as the bank's
wake too (log entry 7). -/
def Stated.BankPower : Prop :=
  ∀ (c : Fin 512) (bank : Fin 48) (s : State),
    (∃ t, exec (.bankPowerRequest c bank 0) s = .next t ∧ t.bankPwr c bank = 0 ∧ t.gatePending c bank = false
      ∧ t = { s with regs := t.regs }) ∧
    (∀ v : Fin 4, v = 1 ∨ v = 2 → s.cluSt c = cStopped → s.gated c bank = false →
      ∃ t, exec (.bankPowerRequest c bank v) s = .next t ∧ t.bankPwr c bank = v.val ∧ t.gatePending c bank = true
        ∧ t = { s with regs := t.regs }) ∧
    (s.gatePending c bank = true → getK [] (s.clu c).bankq bank = [] → s.goingOff c = false →
      ∃ t, exec (.gateClose c bank) s = .next t ∧ t.gatePending c bank = false ∧ t.on CLU_INT_STATUS.GATE_DONE c = true
        ∧ t.spad = (if s.bankPwr c bank = 2
            then memErase s.spad (spadKey c (bank.val * 65536)) (spadKey c ((bank.val + 1) * 65536)) else s.spad)
        ∧ bit (t.clu c).offInPass bank = true
        ∧ t = { s with regs := t.regs, irq := t.irq, out := t.out, spad := t.spad, spadErr := t.spadErr, clus := t.clus }) ∧
    (s.gated c bank = true → s.goingOff c = false →
      ∃ t, exec (.bankWake c bank) s = .next t ∧ t.bankPwr c bank = 0 ∧ s.counted1 t CLU_WAKE_COUNT.BANK_WAKES 1 c
        ∧ t.on CLU_INT_STATUS.BANK_WAKE c = true ∧ s.quietRas t) ∧
    (∀ v : Fin 4, v = 3 ∨ (1 ≤ v.val ∧ v.val ≤ 2 ∧ (s.cluSt c = cRunning ∨ s.cluSt c = cStopping)
        ∧ bit (s.rd CLU_BANK_INUSE.INUSE c) bank = true) → exec (.bankPowerRequest c bank v) s = .next s) ∧
    (∀ v : Fin 4, v = 1 ∨ v = 2 → s.cluSt c = cOff →
      ∃ t, exec (.bankPowerRequest c bank v) s = .next t ∧ t.bankPwr c bank = v.val ∧ t = { s with regs := t.regs }) ∧
    (∀ v : Fin 4, v = 1 ∨ v = 2 → s.cluSt c = cStopped → s.gated c bank = true →
      ∃ t, exec (.bankPowerRequest c bank v) s = .next t ∧ t.bankPwr c bank = v.val ∧ t.gated c bank = true
        ∧ t.spad = (if v = 2
            then memErase s.spad (spadKey c (bank.val * 65536)) (spadKey c ((bank.val + 1) * 65536)) else s.spad)
        ∧ t = { s with regs := t.regs, spad := t.spad, spadErr := t.spadErr }) ∧
    (s.gatePending c bank = false ∨ getK [] (s.clu c).bankq bank ≠ [] → exec (.gateClose c bank) s = .next s) ∧
    (s.gatePending c bank = true → getK [] (s.clu c).bankq bank = [] → s.goingOff c = true → s.bankPwr c bank ≠ 0 →
      ∃ t, exec (.gateClose c bank) s = .next t ∧ t.gatePending c bank = false ∧ t.on CLU_INT_STATUS.GATE_DONE c = true
        ∧ ((∀ b, b < 48 → b ≠ bank.val → s.gated c b = true) → t.cluSt c = cOff)
        ∧ ((∃ b, b < 48 ∧ b ≠ bank.val ∧ s.gated c b = false) → t.cluSt c = cStopped)) ∧
    (s.gated c bank = false → s.cluSt c ≠ cOff → exec (.bankWake c bank) s = .next s) ∧
    (s.cluSt c = cOff ∨ (s.gated c bank = true ∧ s.goingOff c = true) →
      ∃ t, exec (.bankWake c bank) s = .next t ∧ t.cluSt c = cStopped ∧ t.on CLU_POWER.OFF_REQ c = false
        ∧ (∀ b, b < 48 → t.bankPwr c b = 0 ∧ t.gatePending c b = false)
        ∧ s.counted1 t CLU_WAKE_COUNT.BANK_WAKES 1 c ∧ t.on CLU_INT_STATUS.BANK_WAKE c = true
        ∧ (s.cluSt c = cOff → s.counted1 t CLU_WAKE_COUNT.CLUSTER_WAKES 1 c ∧ t.on CLU_INT_STATUS.CLUSTER_WAKE c = true)
        ∧ s.quietRas t) ∧
    (s.cluSt c ≠ cStopped ∨ s.on CLU_POWER.OFF_REQ c = true → exec (.clusterPowerOff c) s = .next s) ∧
    (s.cluSt c ≠ cOff → exec (.clusterWake c) s = .next s) ∧
    (s.cluSt c = cStopped → s.on CLU_POWER.OFF_REQ c = false → s.gated c bank = false →
      ∃ t, exec (.clusterPowerOff c) s = .next t ∧ t.on CLU_POWER.OFF_REQ c = true ∧ t.cluSt c = cStopped
        ∧ (∀ b, b < 48 → t.bankPwr c b = 2 ∧ (s.gated c b = false → t.gatePending c b = true))
        ∧ t = { s with regs := t.regs, spad := t.spad, spadErr := t.spadErr }) ∧
    (s.cluSt c = cOff →
      ∃ t, exec (.clusterWake c) s = .next t ∧ t.cluSt c = cStopped ∧ t.on CLU_POWER.OFF_REQ c = false
        ∧ (∀ b, b < 48 → t.bankPwr c b = 0 ∧ t.gatePending c b = false)
        ∧ s.counted1 t CLU_WAKE_COUNT.CLUSTER_WAKES 1 c ∧ t.on CLU_INT_STATUS.CLUSTER_WAKE c = true ∧ s.quiet t)

/-- Scratchpad banks: service, repair and power states: its parts together. -/
def Obligations.Banks : Prop :=
  Stated.BankService ∧ Stated.BankRepair ∧ Stated.BankPower

/-- CLU_FAULT_CLEAR and CAL_PEEK: the registers they write, and that nothing else changes. -/
def Obligations.FaultAndSnapshot : Prop :=
  ∀ (c : Fin 512) (s : State),
    (∃ t, exec (.cluFaultClear c) s = .next t
      ∧ (∀ f ∈ [CLU_FAULT.STATUS, CLU_FAULT.CELL_ROW, CLU_FAULT.CELL_COL, CLU_FAULT.BANK, CLU_FAULT.BANK_ROW, CLU_FAULT.WORD,
          CLU_FAULT.SOURCE], t.rd f c = 0)
      ∧ s.sameRegs t ([CLU_FAULT.STATUS, CLU_FAULT.CELL_ROW, CLU_FAULT.CELL_COL, CLU_FAULT.BANK, CLU_FAULT.BANK_ROW,
          CLU_FAULT.WORD, CLU_FAULT.SOURCE].map fun f => f.key c 0 0)
      ∧ t = { s with regs := t.regs }) ∧
    (∀ val : Nat,
      let good := decide (s.cluSt c = cStopped ∨ s.cluSt c = cFaulted) && decide (bits val 0 5 ≤ 19)
      let img := (((s.cell c (bits val 0 5) (bits val 5 5)).setOf (bit val 10)).cals.getD (bits val 11 4) Cal.zero).image 0
      ∃ t, exec (.calPeek c val) s = .next t
        ∧ t.rd CAL_PEEK_SEL.STATUS c = (if good then stOK else stBadDescriptor)
        ∧ t.rd CAL_PEEK_DATA0.DATA c = (if good then bits img 0 64 else 2 ^ 64 - 1)
        ∧ t.rd CAL_PEEK_DATA1.DATA c = (if good then bits img 64 64 else 2 ^ 64 - 1)
        ∧ t.rd CAL_PEEK_DATA2.DATA c = (if good then bits img 128 64 else 2 ^ 64 - 1)
        ∧ t = { s with regs := t.regs })

/-- WAIT and WAITDL satisfied and held, COUNTER_WAIT_TIMEOUT, and DEADLINE_EXPIRY with and without KIND WAIT. -/
def Obligations.StepWaits : Prop :=
  ∀ (c : Fin 512) (s : State) (w : Nat),
    let x := s.clu c
    let k := s.slotOf c
    (s.stepAt c 1 = some w →
      let n := StepW.cnt w
      let tg := waitTarget w x.pass
      let none_ := StepW.target w = 0 ∧ StepW.perpass w = 0
      (none_ ∨ reached (s.cnt c n) tg = true → ∃ t, exec (.wait c) s = .next t ∧ s.wentOn t c (x.pc + 1)
        ∧ t.rd LND_WAITING.ACTIVE c = 0 ∧ t = { s with regs := t.regs, clus := t.clus }) ∧
      (¬ none_ → reached (s.cnt c n) tg = false → ∃ t, exec (.wait c) s = .next t ∧ (t.clu c).pc = x.pc
        ∧ t.rd LND_WAITING.CNT c = n ∧ t.rd LND_WAITING.ACTIVE c = 1 ∧ t.rd LND_WAITING.TARGET c = tg
        ∧ s.sameClus t c ∧ t = { s with regs := t.regs, clus := t.clus }) ∧
      (∀ from_, x.waitFrom = some from_ → s.lndExt c n = true → ¬ none_ → reached (s.cnt c n) tg = false →
        max from_ (getK 0 x.cntAdv n) + s.rdMax LND_TIMEOUT.US 60000000 c * 1000 ≤ s.timer c →
        ∃ t, exec (.counterWaitTimeout c) s = .next t ∧ t.cluSt c = cFaulted
          ∧ t.rd CLU_STATUS.LAST_STATUS c = stPeerTimeout ∧ t.rd LND_TIMEOUT_LAST.CNT c = n
          ∧ t.rd LND_TIMEOUT_LAST.VALID c = 1 ∧ t.rd LND_TIMEOUT_LAST.TARGET c = tg
          ∧ t.on LND_INT_STATUS.TIMEOUT c = true ∧ ((∀ d, (s.clu d).vst = none) → s.sameStore t)) ∧
      (x.waitFrom = none ∨ s.lndExt c n = false ∨ reached (s.cnt c n) tg = true →
        exec (.counterWaitTimeout c) s = .next s) ∧
      (∀ from_, x.waitFrom = some from_ → s.timer c < max from_ (getK 0 x.cntAdv n) + s.rdMax LND_TIMEOUT.US 60000000 c * 1000 →
        exec (.counterWaitTimeout c) s = .next s)) ∧
    (∀ d, s.stepAt c 6 = some w → s.dlEntry c w = some d →
      (reached (s.cnt c (migCnt d.mig)) d.target = true → ∃ t, exec (.waitdl c) s = .next t ∧ s.wentOn t c (x.pc + 1)
        ∧ t.rd LND_WAITING.ACTIVE c = 0
        ∧ (x.late = true → t.rd DLN_LATE_MAX.NS k = max (s.rd DLN_LATE_MAX.NS k) (min (s.lateness c d) (2 ^ 32 - 1)) % 2 ^ 32)
        ∧ t = { s with regs := t.regs, clus := t.clus }) ∧
      (reached (s.cnt c (migCnt d.mig)) d.target = false → ∃ t, exec (.waitdl c) s = .next t ∧ (t.clu c).pc = x.pc
        ∧ t.rd LND_WAITING.CNT c = migCnt d.mig ∧ t.rd LND_WAITING.ACTIVE c = 1 ∧ t.rd LND_WAITING.TARGET c = d.target
        ∧ s.sameClus t c ∧ t = { s with regs := t.regs, clus := t.clus }) ∧
      (reached (s.cnt c (migCnt d.mig)) d.target = false → x.passStart + d.ns ≤ s.timer c → FumW.kind d.fum ≠ 3 →
        ∃ t, exec (.deadlineExpiry c) s = .next t ∧ s.wentOn t c (FumW.altStep d.fum)
          ∧ s.counted1 t DLN_FALLBACK.COUNT 1 k ∧ t.on DLN_INT_STATUS.FALLBACK k = true
          ∧ t.rd DLN_MISS_LAST.ENTRY k = StepW.entry w ∧ t.rd DLN_MISS_LAST.VALID k = 1
          ∧ t = { s with regs := t.regs, clus := t.clus, irq := t.irq, out := t.out }) ∧
      (reached (s.cnt c (migCnt d.mig)) d.target = false → x.passStart + d.ns ≤ s.timer c → FumW.kind d.fum = 3 →
        x.late = false → ∃ t, exec (.deadlineExpiry c) s = .next t ∧ (t.clu c).late = true ∧ (t.clu c).pc = x.pc
          ∧ s.counted1 t DLN_LATE.COUNT 1 k ∧ t.on DLN_INT_STATUS.LATE k = true ∧ t.rd DLN_MISS_LAST.KIND k = 3
          ∧ s.sameClus t c ∧ t = { s with regs := t.regs, clus := t.clus, irq := t.irq, out := t.out }) ∧
      (reached (s.cnt c (migCnt d.mig)) d.target = true ∨ s.timer c < x.passStart + d.ns ∨ (FumW.kind d.fum = 3 ∧ x.late = true) →
        exec (.deadlineExpiry c) s = .next s)) ∧
    (s.stepAt c 1 = none → exec (.wait c) s = .next s ∧ exec (.counterWaitTimeout c) s = .next s) ∧
    (s.stepAt c 6 = none → exec (.waitdl c) s = .next s ∧ exec (.deadlineExpiry c) s = .next s)

/-- RUN, RUN_ADMIT, RUN_COMPLETE, VEC, MOVE, SYNC and JUMP, and what they wait for: an earlier RUN or VEC, a busy mover, a unit
that SYNC names, the release tree's group. -/
def Obligations.StepUnits : Prop :=
  ∀ (c : Fin 512) (s : State) (w : Nat),
    let x := s.clu c
    (s.stepAt c 2 = some w → x.run = none → ∃ t, exec (.run c) s = .next t
      ∧ t.clu c = { x with run := some ⟨StepW.fset w, StepW.seqOff w, false, s.beatOf (dieOf c), [], s.beatOf (dieOf c), x.place⟩ }
      ∧ s.sameClus t c ∧ t = { s with clus := t.clus }) ∧
    (s.stepAt c 3 = some w → x.vact = false → ∃ t, exec (.vec c) s = .next t
      ∧ (t.clu c).vact = true ∧ (t.clu c).vpc = StepW.vpc w ∧ (t.clu c).pc = x.pc + 1 ∧ (t.clu c).vregs = x.vregs
      ∧ s.sameClus t c ∧ t = { s with clus := t.clus }) ∧
    (s.stepAt c 2 = none ∨ x.run.isSome = true → exec (.run c) s = .next s) ∧
    (s.stepAt c 3 = none ∨ x.vact = true → exec (.vec c) s = .next s) ∧
    (s.stepAt c 4 = none ∨ (s.stepAt c 4 = some w ∧ (s.mover c (StepW.mover w)).cur.isSome = true) →
      exec (.move c) s = .next s) ∧
    (s.stepAt c 5 = none ∨ (s.stepAt c 5 = some w ∧ s.syncMet c (StepW.mask w) = false) → exec (.sync c) s = .next s) ∧
    (s.stepAt c 7 = none → exec (.jump c) s = .next s) ∧
    (∀ v, s.stepAt c 4 = some w → s.stepMove c (StepW.mover w) = some v → (s.mover c (StepW.mover w)).cur = none →
      exec (.move c) s = .next ((s.takeMove c (StepW.mover w) v).stepDone c (x.pc + 1))) ∧
    (s.stepAt c 5 = some w → s.syncMet c (StepW.mask w) = true → ∃ t, exec (.sync c) s = .next t
      ∧ s.wentOn t c (x.pc + 1) ∧ t = { s with clus := t.clus }) ∧
    (s.stepAt c 7 = some w → ∃ t, exec (.jump c) s = .next t ∧ s.wentOn t c (StepW.jump w) ∧ t = { s with clus := t.clus }) ∧
    (∀ g r, s.runCfg c = some (g, r) → s.runOver c g = true → ∃ t, exec (.runComplete c) s = .next t
      ∧ (t.clu c).run = none ∧ t.cells = abandonAll c s.cells ∧ s.sameClus t c
      ∧ t = { s with clus := t.clus, cells := t.cells }) ∧
    (∀ g r, s.runCfg c = some (g, r) → s.runOver c g = false → exec (.runComplete c) s = .next s) ∧
    (s.runCfg c = none → exec (.runComplete c) s = .next s) ∧
    (∀ d : Fin 4, firstAsked (s.waitingRuns d) = none ∨ s.rd DLN_ADMIT.GROUP d ≤ (s.recentAdmits d).length →
      exec (.runAdmit d) s = .next s) ∧
    (∀ (d : Fin 4) (e asked : Nat) (g : CluCfg) (r : RunSt), firstAsked (s.waitingRuns d) = some (e, asked) →
      (s.clu e).act = some g → (s.clu e).run = some r → (s.recentAdmits d).length < s.rd DLN_ADMIT.GROUP d →
      ∃ t, exec (.runAdmit d) s = .next t ∧ (t.clu e).run = some { r with admitted := true, start := s.beatOf d }
        ∧ (t.clu e).pc = (s.clu e).pc + 1
        ∧ (∀ row col, row < g.rows → col < g.cols → col < 32 → g.rows ≤ 20 → g.cols ≤ 32 →
            CellW.forward (g.cells.getD (row * 32 + col) 1) = false →
            (t.cell e row col).phase = .atOp ∧ (t.cell e row col).op = CellW.seq (g.cells.getD (row * 32 + col) 1) + r.seqOff
              ∧ (t.cell e row col).aq = [] ∧ (t.cell e row col).bq = [])
        ∧ getK [] t.beats.admits d = s.beatOf d :: s.recentAdmits d ∧ s.sameClus t e
        ∧ t = { s with regs := t.regs, clus := t.clus, cells := t.cells, beats := { s.beats with admits := t.beats.admits } })

/-- PASS_BEGIN, END_PASS and BEAT_STALL_WATCHDOG. -/
def Obligations.Passes : Prop :=
  ∀ (c : Fin 512) (s : State),
    let x := s.clu c
    (s.cluSt c = cStopped → s.mayPass c = true →
      exec (.passBegin c) s = .next ((s.cancelOff c).beginPass c)) ∧
    (s.cluSt c = cStopped → s.mayPass c = true → s.migsOf c = [] → x.mov0.cur.isSome = true → x.mov1.cur.isSome = true →
      s.goingOff c = false →
      ∃ t, exec (.passBegin c) s = .next t ∧ (t.clu c).inPass = true ∧ (t.clu c).pass = x.begun
        ∧ (t.clu c).begun = x.begun + 1 ∧ (t.clu c).pc = 0 ∧ (t.clu c).passStart = s.timer c
        ∧ t.cluSt c = passState x.begun (s.grantOf c) ∧ s.sameStore t) ∧
    (∀ w, s.stepAt c 0 = some w →
      let u := (s.makeReady c fun _ => true).dispatchBoth c
      let v := (u.setClu c fun x => { x with done := x.done + 1, inPass := false }).progress c
      (u.syncMet c 15 = false → exec (.endPass c) s = .next u) ∧ (u.syncMet c 15 = true →
      (grantLeft (v.grantOf c) (v.clu c).begun = true → exec (.endPass c) s = .next (v.beginPass c)) ∧
      (grantLeft (v.grantOf c) (v.clu c).begun = false → ∃ t, exec (.endPass c) s = .next t ∧ t.cluSt c = cStopped
        ∧ (t.clu c).done = (u.clu c).done + 1 ∧ (t.clu c).inPass = false ∧ u.sameStore t))) ∧
    (∀ w, s.curStep c = some w → s.running c = true → s.on DLN_WDOG.EN (dieOf c) = true →
      (StepW.opc w ≠ 1 ∨ s.lndExt c (StepW.cnt w) = false) →
      x.lastProgress + s.rdMax DLN_WDOG.PERIOD_US 60000000 (dieOf c) * 1000 ≤ s.timer c →
      ∃ t, exec (.beatStallWatchdog c) s = .next t ∧ t.cluSt c = cFaulted
        ∧ t.rd CLU_STATUS.LAST_STATUS c = stCounterTimeout ∧ t.rd DLN_STALL.STEP (s.slotOf c) = x.pc % 2 ^ DLN_STALL.STEP.width
        ∧ t.rd DLN_STALL.STEP_OPC (s.slotOf c) = StepW.opc w ∧ t.rd DLN_STALL.VALID (s.slotOf c) = 1
        ∧ ((∀ d, (s.clu d).vst = none) → s.sameStore t)) ∧
    (s.running c = false ∨ s.on DLN_WDOG.EN (dieOf c) = false
      ∨ s.timer c < x.lastProgress + s.rdMax DLN_WDOG.PERIOD_US 60000000 (dieOf c) * 1000
      ∨ (∃ w, s.curStep c = some w ∧ StepW.opc w = 1 ∧ s.lndExt c (StepW.cnt w) = true) →
      exec (.beatStallWatchdog c) s = .next s) ∧
    (s.cluSt c ≠ cStopped ∨ s.mayPass c = false → exec (.passBegin c) s = .next s) ∧
    (s.stepAt c 0 = none → exec (.endPass c) s = .next s)

/-- A powered module that loses its power or is switched off: PWR_LAST_OFF names the cause and its source, everything volatile is
lost, the flash and the logs stay. -/
def Obligations.PowerLoss : Prop :=
  (∀ s : State, s.board.powered = true →
    let off (i : Instr) (cause source : Nat) (b : Mod → Bool) : Prop := ∃ t, exec i s = .next t
      ∧ t.board.powered = false ∧ b t.board = true ∧ t.rd PWR_LAST_OFF.CAUSE = cause ∧ t.rd PWR_LAST_OFF.SOURCE = source
      ∧ t.ras.log.getLast? = some ⟨stOK, 18, false, true, 0, s.us, 0, cause + source * 16⟩
      ∧ t.hbm = [] ∧ t.spad = [] ∧ t.cells = [] ∧ t.clus = [] ∧ t.slots = [] ∧ t.ras.queue = []
      ∧ t.flash = s.flash ∧ t.hostMem = s.hostMem ∧ t.pending = s.pending
    off .undervoltage 1 0 (fun m => !m.vin) ∧
    off .overvoltage 2 0 (fun m => !m.vin && m.tripped) ∧
    off .enableLow 0 0 (fun m => !m.enable) ∧
    (∀ d : Fin 7, off (.thermtrip (.die d)) 3 d (fun m => !m.vin && m.tripped)) ∧
    (∀ k : Fin 12, off (.thermtrip (.stack k)) 4 (7 + k) (fun m => !m.vin && m.tripped))) ∧
  (∀ s : State, s.board.powered = false →
    exec .undervoltage s = .next (s.setBoard fun b => { b with vin := false }) ∧
    exec .overvoltage s = .next (s.setBoard fun b => { b with vin := false, tripped := true }) ∧
    exec .enableLow s = .next (s.setBoard fun b => { b with enable := false }) ∧
    ∀ x, exec (.thermtrip x) s = .next s)

/-- POWER_ON and ENABLE_HIGH start a module that has both; with one missing only the terminal is noted. A cage's two ports take
up the device; CHN_LINK.TAIL follows CH_PRES#; writes on PMBus are ignored. -/
def Stated.PowerOnAndConnectors : Prop :=
  ∀ (s : State) (r : ResetIn),
    let vin := s.setBoard fun b => { b with vin := true }
    let en := s.setBoard fun b => { b with enable := true }
    (s.board.powered = false → s.board.enable = true → exec (.powerOn r) s = .next (vin.powerUp r)) ∧
    (s.board.powered = true ∨ s.board.enable = false → exec (.powerOn r) s = .next vin) ∧
    (s.board.powered = false → s.board.vin = true → exec (.enableHigh r) s = .next (en.powerUp r)) ∧
    (s.board.powered = true ∨ s.board.vin = false → exec (.enableHigh r) s = .next en) ∧
    (∀ (cage : Fin 8) (good : Bool), s.board.powered = false →
      ∃ t, exec (.cageInsert cage good) s = .next t
        ∧ (t.port (2 * cage)).present = good ∧ (t.port (2 * cage + 1)).present = good
        ∧ (∀ p, p ≠ 2 * cage.val → p ≠ 2 * cage.val + 1 → t.port p = s.port p) ∧ t = { s with obl := t.obl }) ∧
    (∀ cage : Fin 8, s.board.powered = false →
      ∃ t, exec (.cageRemove cage) s = .next t
        ∧ (t.port (2 * cage)).present = false ∧ (t.port (2 * cage + 1)).present = false
        ∧ (∀ p, p ≠ 2 * cage.val → p ≠ 2 * cage.val + 1 → t.port p = s.port p) ∧ t = { s with obl := t.obl }) ∧
    (∀ low : Bool, ∃ t, exec (.chPresChange low) s = .next t ∧ t.rd CHN_LINK.TAIL = b2n !low
      ∧ s.sameRegs t [CHN_LINK.TAIL.key 0 0 0] ∧ t = { s with regs := t.regs }) ∧
    (∀ reg data, exec (.pmbusWrite reg data) s = .next s)

/-- CAGE_REMOVE and CAGE_INSERT of a powered module: both ports of the cage are EMPTY and hold no frame, or, EMPTY before, train
where they may (R393) and are DISABLED where they may not. -/
def Stated.CagePorts : Prop :=
  ∀ (s : State) (cage : Fin 8), s.board.powered = true →
    let gone (i : Instr) : Prop := ∃ t, exec i s = .next t ∧ t.portSt (2 * cage) = pEmpty ∧ t.portSt (2 * cage + 1) = pEmpty
      ∧ s.sameStore t ∧ t.clus = s.clus ∧ t.slots = s.slots ∧ t.board = s.board
    gone (.cageRemove cage) ∧ gone (.cageInsert cage false) ∧
    ∃ t, exec (.cageInsert cage true) s = .next t
      ∧ (∀ p, p = 2 * cage.val ∨ p = 2 * cage.val + 1 → (t.port p).present = true ∧
        (s.portSt p = pEmpty → t.portSt p = if s.portMay p then pTraining else pDisabled))
      ∧ s.sameStore t ∧ t.clus = s.clus ∧ t.slots = s.slots ∧ t.board = s.board

/-- Power-on, cages and their ports, the chain's tail and PMBus writes: its parts together. -/
def Obligations.Connectors : Prop :=
  Stated.PowerOnAndConnectors ∧ Stated.CagePorts

/-- BOOT of a powered part whose boot is due: no seed, no authentic area, the selected image, the other image, or the ROM only. -/
def Obligations.Booting : Prop :=
  (∀ (s : State) (b : BootIn), s.board.powered = false ∨ s.board.boot ≠ .pending ∨ s.rst.busy.contains (dPackage, 0) = true →
    exec (.boot b) s = .next s) ∧
  ∀ (s : State) (b : BootIn), s.board.powered = true → s.board.boot = .pending → s.rst.busy.contains (dPackage, 0) = false →
    (b.seed = none → ∃ t, exec (.boot b) s = .next t ∧ t.board.boot = .noSeed ∧ t.rd SEC_STATUS.ID_VALID = 0
      ∧ t.rd SEC_STATUS.ID_STATUS = stEcc ∧ t = { s with regs := t.regs, board := t.board }) ∧
    (∀ seed, b.seed = some seed → b.areaAuthentic = false → ∃ t, exec (.boot b) s = .next t ∧ t.board.boot = .badArea
      ∧ t.rd SEC_STATUS.ID_VALID = 1 ∧ t.rd SEC_STATUS.ID_STATUS = stOK ∧ t.trust.seed = some seed.toNat
      ∧ t = { s with regs := t.regs, board := t.board, trust := t.trust }) ∧
    (∀ seed, b.seed = some seed → b.areaAuthentic = true →
      let u := (((s.setTrust fun t => { t with seed := some seed.toNat }).wr SEC_STATUS.ID_VALID 1).wr
        SEC_STATUS.ID_STATUS stOK).openArea b
      let sel := u.trust.selectB
      (∀ i, u.fwImage (imageBase sel) = some i → ∃ t, exec (.boot b) s = .next t ∧ t.board.boot = .running
        ∧ t.rd SEC_STATUS.BOOT_SLOT = b2n sel ∧ t.rd SEC_STATUS.FALLBACK = 0 ∧ t.rd SEC_STATUS.FW_SVN = i.svn % 2 ^ 32
        ∧ t.trust.fwDigest = i.digest ∧ t.flash = s.flash) ∧
      (∀ i, u.fwImage (imageBase sel) = none → u.fwImage (imageBase !sel) = some i →
        ∃ t, exec (.boot b) s = .next t ∧ t.board.boot = .running ∧ t.rd SEC_STATUS.BOOT_SLOT = b2n !sel
          ∧ t.rd SEC_STATUS.FALLBACK = 1 ∧ t.on SEC_INT_STATUS.FALLBACK = true ∧ t.trust.fwDigest = i.digest
          ∧ t.flash = s.flash) ∧
      (u.fwImage (imageBase sel) = none → u.fwImage (imageBase !sel) = none →
        ∃ t, exec (.boot b) s = .next t ∧ t.board.boot = .romOnly ∧ t.flash = s.flash))

/-- ASSIGN to a module without an address (0 and 65,535 are none, R480), to one that has the address already, and to one that has another; and a bad CRC. -/
def Obligations.ChainAddress : Prop :=
  ∀ (s : State) (h : ChainHdr) (n : BitVec 16), s.board.powered = true →
    let a := s.rd CHN_ADDR.ADDR
    let next (t : State) (src k : Nat) : Prop := s.on CHN_LINK.TAIL = false →
      t.out.getLast? = some (.chain 0 src 1 h.tag.toNat (leBytes 2 k))
    (h.crcOk = true → a = 0 → 1 ≤ n.toNat → n.toNat ≤ 65534 → ∃ t, exec (.assign h n) s = .next t
      ∧ t.rd CHN_ADDR.ADDR = n.toNat ∧ t.rd CHN_ADDR.STATUS = (if 8192 < n.toNat then stRouteFull else stOK)
      ∧ t.rd OBL_STATUS.ADDR = n.toNat ∧ t.on CHN_INT_STATUS.ASSIGNED = true ∧ next t n.toNat (n.toNat + 1)
      ∧ s.sameStore t) ∧
    (h.crcOk = true → a = 0 → n.toNat = 0 ∨ n.toNat = 65535 → ∃ t, exec (.assign h n) s = .next t
      ∧ t.rd CHN_ADDR.ADDR = 0 ∧ t.out = s.out ∧ t = { s with regs := t.regs }) ∧
    (h.crcOk = true → a ≠ 0 → a = n.toNat → ∃ t, exec (.assign h n) s = .next t ∧ t.rd CHN_ADDR.ADDR = a
      ∧ next t a (a + 1) ∧ t = { s with regs := t.regs, out := t.out }) ∧
    (h.crcOk = true → a ≠ 0 → a ≠ n.toNat → ∃ t, exec (.assign h n) s = .next t ∧ t.rd CHN_ADDR.ADDR = a
      ∧ t.rd CHN_ADDR.MISMATCH = 1 ∧ t.on CHN_INT_STATUS.MISMATCH = true ∧ next t a (a + 1) ∧ s.quiet t) ∧
    (h.crcOk = false → ∃ t, exec (.assign h n) s = .next t ∧ s.counted1 t CHN_LINK.ERRORS 1 0
      ∧ t.rd CHN_LINK.UPSTREAM = 1 ∧ t.out = s.out ∧ t = { s with regs := t.regs, board := t.board })

/-- TELEMETRY, IDENTIFY, STAGE, ACTIVATE, MCTP and RESET, to this module, to every module and to others, with the firmware running or
in the ROM. The bytes of a telemetry or MCTP answer, and what an MCTP message asks, are free values (log entries 58, 59 and 155); an
activation ends when the queue is next empty (log entry 140). -/
def Obligations.ChainCommands : Prop :=
  ∀ (s : State) (h : ChainHdr), s.board.powered = true →
    let mine := h.dest.toNat ≠ 0 ∧ h.dest.toNat = s.rd CHN_ADDR.ADDR
    let all := h.dest.toNat = 0 ∨ mine
    let run := s.board.boot = .running
    let rom := run ∨ s.board.boot = .romOnly
    let good := h.crcOk = true
    let repeated (cmd : Nat) (p : List Byte) : List Out :=
      s.out ++ (if s.on CHN_LINK.TAIL then [] else [.chain h.dest.toNat h.src.toNat cmd h.tag.toNat p])
    let told (t : State) (cmd : Nat) (q p : List Byte) : Prop :=
      t.out = repeated cmd q ++ (if h.dest.toNat = 0 then [] else [.chain h.src.toNat (s.rd CHN_ADDR.ADDR) cmd h.tag.toNat p])
        ∧ s.counted1 t CHN_FRAMES.COUNT 1 0
    let status (n : Nat) : List Byte := [BitVec.ofNat 8 n]
    (good → mine → run → ∃ t, exec (.telemetry h) s = .next t
      ∧ told t 2 [] ((List.range 128).map fun i => BitVec.ofNat 8 (Config.telemetryByte s.telemetry i))
      ∧ t = { s with regs := t.regs, out := t.out }) ∧
    (good → all → run → ∀ on : Bool, ∃ t, exec (.identify h on) s = .next t ∧ t.board = { s.board with identify := on }
      ∧ told t 3 [BitVec.ofNat 8 (b2n on)] (status stOK) ∧ t = { s with regs := t.regs, out := t.out, board := t.board }) ∧
    (good → all → rom → ∀ payload, 4 ≤ payload.length → leNat (payload.take 4) + (payload.drop 4).length ≤ imageSize →
      ∃ t, exec (.stage h payload) s = .next t
        ∧ t.flash = memWrite s.flash (stagingBase + leNat (payload.take 4)) (payload.drop 4) ∧ told t 5 payload (status stOK)
        ∧ t = { s with regs := t.regs, out := t.out, flash := t.flash }) ∧
    (good → all → rom → ∀ payload, payload.length < 4 ∨ imageSize < leNat (payload.take 4) + (payload.drop 4).length →
      ∃ t, exec (.stage h payload) s = .next t ∧ told t 5 payload (status stBadDescriptor)
        ∧ t = { s with regs := t.regs, out := t.out }) ∧
    (good → all → rom → ∀ wrong, s.fwImage stagingBase = none →
      ∃ t, exec (.activate h wrong) s = .next t ∧ told t 6 [] (status stPlanSignature)
        ∧ t = { s with regs := t.regs, out := t.out }) ∧
    (good → all → rom → ∀ wrong, (s.fwImage stagingBase).isSome = true →
      let v := s.copyImage (!s.trust.selectB) wrong
      ∃ t, exec (.activate h wrong) s = .next t ∧ t.flash = v.flash ∧ t.out = repeated 6 []
        ∧ t.board = { s.board with activating := some h } ∧ s.counted1 t CHN_FRAMES.COUNT 1 0
        ∧ t = { s with regs := t.regs, out := t.out, flash := t.flash, board := t.board }) ∧
    (s.pending = [] → s.board.activating = some h →
      let whole := (s.fwImage (imageBase !s.trust.selectB)).isSome
      ∃ t, step s = .next t ∧ t.trust = { s.trust with selectB := if whole then !s.trust.selectB else s.trust.selectB }
        ∧ t.board = { s.board with activating := none } ∧ t.flash = s.flash
        ∧ (h.dest.toNat ≠ 0 →
          (.chain h.src.toNat (s.rd CHN_ADDR.ADDR) 6 h.tag.toNat (status (if whole then stOK else stEcc))) ∈ t.out)) ∧
    (good → mine → rom → ∀ packet, ∃ t, exec (.mctp h packet) s = .next t ∧ t.host.mctp = s.host.mctp ++ [packet]
      ∧ told t 7 packet (mctpAnswer packet)
      ∧ t = { s with regs := t.regs, out := t.out, host := t.host, flash := t.flash, board := t.board }
      ∧ t.board = { s.board with identify := (Config.mctpIdentify (packet.map BitVec.toNat)).getD s.board.identify }
      ∧ (Config.mctpFirmware (packet.map BitVec.toNat) = none → t.flash = s.flash)
      ∧ (∀ off bytes, Config.mctpFirmware (packet.map BitVec.toNat) = some (off, bytes) → off + bytes.length ≤ imageSize →
        t.flash = memWrite s.flash (stagingBase + off) (bytes.map (BitVec.ofNat 8)))) ∧
    (good → mine → run → ∀ which, chainDomain which = none → ∃ t, exec (.reset h which) s = .next t
      ∧ t.on CHN_INT_STATUS.RESET_CMD = true ∧ s.quiet t) ∧
    (good → mine → run → ∀ which x, chainDomain which = some x →
      let u := (((s.wr CHN_LINK.UPSTREAM 1).chainRepeat h 4 [which]).bump CHN_FRAMES.COUNT 1).raise CHN_INT_STATUS.RESET_CMD
      exec (.reset h which) s = .next ((u.chainStatus h 4 stOK).startReset x 4 stOK)) ∧
    (∀ on payload wrong packet which, ∀ f ∈ [(Instr.telemetry h, 2, [], decide mine && decide run),
        (.identify h on, 3, [BitVec.ofNat 8 (b2n on)], decide all && decide run), (.reset h which, 4, [which], decide mine && decide run),
        (.stage h payload, 5, payload, decide all && decide rom), (.activate h wrong, 6, [], decide all && decide rom),
        (.mctp h packet, 7, packet, decide mine && decide rom)],
      (good → f.2.2.2 = false → ∃ t, exec f.1 s = .next t ∧ t.out = repeated f.2.1 f.2.2.1
        ∧ s.counted1 t CHN_FRAMES.COUNT (if all then 1 else 0) 0 ∧ t = { s with regs := t.regs, out := t.out }) ∧
      (¬ good → ∃ t, exec f.1 s = .next t ∧ s.counted1 t CHN_LINK.ERRORS 1 0 ∧ t.out = s.out
        ∧ t = { s with regs := t.regs, board := t.board }))

/-- The one operation through which plain register writes act: one field by its access code. -/
def Stated.RegisterFields : Prop :=
  ∀ (s : State) (i : Nat) (w : RegWr) (p : Spot), s.rd p.f i p.j p.r < 2 ^ p.f.width →
    let old := s.rd p.f i p.j p.r
    let t := s.setSpot i w p
    (p.f.acc = .rw → w.touches p.f p.r = true → bits w.mask (p.f.lo + p.r * p.f.pitch) p.f.width = 2 ^ p.f.width - 1 →
      t.rd p.f i p.j p.r = w.put p.f p.r) ∧
    (p.f.acc = .w1c → w.touches p.f p.r = true →
      ∀ k, bit (t.rd p.f i p.j p.r) k = (bit old k && !bit (w.put p.f p.r) k)) ∧
    (p.f.acc = .w1s → w.touches p.f p.r = true →
      ∀ k, bit (t.rd p.f i p.j p.r) k = (bit old k || bit (w.put p.f p.r) k)) ∧
    (p.f.acc = .ro ∨ p.f.acc = .wo ∨ p.f.acc = .rc ∨ w.touches p.f p.r = false → t = s) ∧
    s.sameRegs t [p.f.key i p.j p.r] ∧ t = { s with regs := t.regs }

/-- REGISTER_WRITE, REGISTER_READ_CLEAR and REGISTER_ACCESS_BAD_SIZE of a block's register, by every requester. (The pages of a VF:
log entry 191.) -/
def Stated.RegisterAccess : Prop :=
  ∀ (s : State) (addr size : Nat) (b : Blk) (i off : Nat), inRegSpace addr = true → named addr = .reg b i off →
    let good := (size = 4 ∨ size = 8) ∧ addr % size = 0
    let at_ := off / 8 * 8
    (∀ o : Origin, s.direct o → b ≠ .csr →
      (good → b ≠ .sec ∨ trusted o = true → ∀ val, exec (.registerWrite o addr size val) s =
        .next ((s.writeBlock o b i at_ (RegWr.of addr size val)).answerWith [])) ∧
      (good → b = .sec → trusted o = false → ∀ val, exec (.registerWrite o addr size val) s =
        .next ((s.rasEvent stBadDescriptor 20 0 addr .uncorr).answerWith [])) ∧
      (good → ∃ t, exec (.registerReadClear o addr size) s = .next t
        ∧ t.resp = ⟨RegWr.bytesOf addr size (s.wordAt b i at_), false, false⟩
        ∧ { t with resp := s.resp } = s.afterRead b i at_ (RegWr.of addr size 0)) ∧
      (¬ good → addr < 0x1000000000000 → ∀ write : Bool, ∃ t, exec (.registerAccessBadSize o addr size write) s = .next t
        ∧ t.resp = ⟨if write then [] else List.replicate size 0xFF, hostSide o, false⟩
        ∧ { t with resp := s.resp }
          = s.rasEvent stBadDescriptor 17 0 addr (if write then .uncorr else .info))) ∧
    (∀ (h : Fin 96) (m : Bool), b = .csr → i = h.val → size = 8 → addr % 8 = 0 → s.direct (.core h m) →
      (s.csrOpen h (off / 8) m true = true → ∀ val, exec (.registerWrite (.core h m) addr 8 val) s =
        .next (s.writeHart h at_ (RegWr.of addr 8 val))) ∧
      (s.csrOpen h (off / 8) m true = false → ∀ val, exec (.registerWrite (.core h m) addr 8 val) s = .next (s.trap h 2 0)) ∧
      (s.csrOpen h (off / 8) m false = true → ∃ t, exec (.registerReadClear (.core h m) addr 8) s = .next t
        ∧ t.resp = ⟨RegWr.bytesOf addr 8 (s.wordAt .csr h at_), false, false⟩
        ∧ { t with resp := s.resp } = s.afterRead .csr h at_ (RegWr.of addr 8 0)) ∧
      (s.csrOpen h (off / 8) m false = false → exec (.registerReadClear (.core h m) addr 8) s = .next (s.trap h 2 0))) ∧
    (∀ v : Fin 64, good → b ≠ .csr → s.claims (.vf v) = true → s.orderedOpen 96 none = false → ∀ val,
      (∀ r, b = .ring → s.vfRing v i = some r →
        exec (.registerWrite (.vf v) addr size val) s =
          .next ((s.writeBlock (.vf v) .ring r at_ (RegWr.of addr size val)).answerWith []) ∧
        ∃ t, exec (.registerReadClear (.vf v) addr size) s = .next t
          ∧ t.resp = ⟨RegWr.bytesOf addr size (s.wordAt .ring r at_), false, false⟩) ∧
      (b ≠ .ring ∨ s.vfRing v i = none →
        exec (.registerWrite (.vf v) addr size val) s = .next (s.answerWith []) ∧
        exec (.registerReadClear (.vf v) addr size) s = .next (s.answerWith (List.replicate size 0)))) ∧
    (b ≠ .csr → s.orderedOpen 96 none = false →
      (∀ val, exec (.registerWrite .cocoon addr size val) s = .next ((s.cocRefuse addr).answerWith [] true)) ∧
      exec (.registerReadClear .cocoon addr size) s = .next ((s.cocRefuse addr).answerWith [] true))

/-- Who may give the commands that act on registers, windows and rings (R175, R344, R345; the ordered class: log entry 63). -/
def Stated.OtherRequesters : Prop :=
  ∀ (s : State) (k p : Fin 16) (c : Fin 512) (n : Fin 2) (w : Fin 16) (r : Fin 1024) (b : Bool) (v16 : BitVec 16) (v32 : BitVec 32),
    let row (i : Origin → Instr) (addr : Nat) (may : Origin → Prop) : Prop :=
      (∀ o, o ≠ .pf → o ≠ .hawkmoth → o ≠ .cocoon → (∀ h m, o ≠ .core h m) → exec (i o) s = .next s) ∧
      (s.inD3 0 = true → exec (i .pf) s = .next s) ∧
      exec (i .cocoon) s = .next (s.cocRefuse addr) ∧
      (∀ o, may o → o = .pf ∨ o = .hawkmoth ∨ (∃ h m, o = .core h m) → s.orderedOpen (originStream o) none = true → exec (i o) s = .next s)
    let all (_ : Origin) : Prop := True
    let part (o : Origin) : Prop := o ≠ .hawkmoth
    let sec (o : Origin) : Prop := trusted o = true
    let ring (i : Origin → Instr) (addr : Nat) : Prop := exec (i .cocoon) s = .next (s.cocRefuse addr) ∧
      ∀ o, o ≠ .cocoon → s.ringsFor o r = false → exec (i o) s = .next s
    (row (.load · k) (PLN_SLOT_CTRL.CMD.addr k 0) all ∧ row (.loadStandby · k p) (PLN_SLOT_CTRL.CMD.addr k 0) all ∧
      row (.unload · k) (PLN_SLOT_CTRL.CMD.addr k 0) all ∧
      row (.passStart · k v32) (DLN_SLOT_CMD.CMD.addr k 0) s.storesDone ∧
      row (.passStartContinuous · k) (DLN_SLOT_CMD.CMD.addr k 0) s.storesDone ∧
      row (.passStop · k) (DLN_SLOT_CMD.CMD.addr k 0) s.storesDone ∧ row (.molt · k v32 b) (DLN_SLOT_CMD.CMD.addr k 0) s.storesDone) ∧
    (∀ (x : Fin 256) (t : BitVec 48), row (.lndAdd · c x v32) (LND_ADD.CNT.addr c 0) s.storesDone ∧
      row (.lndWatch · c x t) (LND_WATCH.CNT.addr c 0) s.storesDone ∧ row (.lndClear · c x b) (LND_CLEAR.CNT.addr c 0) s.storesDone) ∧
    (row (.tierEnableFresh · k) (TIER_CTRL.EN.addr 0 0) all ∧ row (.tierEnableRecover · k) (TIER_CTRL.EN.addr 0 0) all ∧
      row .tierDisable (TIER_CTRL.EN.addr 0 0) all) ∧
    (∀ l, row (.dirLookup · n b l) (DIR_LOOKUP_ADDR.LINE.addr n 0) all) ∧
    (row (.hbmPolicyWrite · b) (HBM_MAP.POLICY.addr 0 0) all ∧ row (.scPreload · n v16) (SC_PRELOAD_CTRL.GO.addr n 0) all ∧
      row (.scLock · n v16) (SC_LOCK.LOCKED.addr n 0) all ∧ row (.wayOffReq · n w) (SC_WAY_PWR.OFF_REQ.addr n 0) all ∧
      row (.wayOnReq · n w) (SC_WAY_PWR.OFF_REQ.addr n 0) all ∧ row (.wayReenable · n w) (SC_WAY_DISABLE.DISABLED.addr n 0) all) ∧
    (row .fill (GEY_GO.GO.addr 0 0) all ∧ row .crc (GEY_GO.GO.addr 0 0) all ∧ row .geyDone (GEY_DONE.STATUS.addr 0 0) all ∧
      row (.readCheck · n r) (GEY_TEST_CTRL.GO.addr n 0) all ∧ ∀ x, row (.writeCheck · n r x) (GEY_TEST_CTRL.GO.addr n 0) all) ∧
    (∀ x : Fin 549, row (.hostEvtRearm · x) (HOST_EVT_REARM.REARM.addr 0 (x / 64)) all) ∧
    (∀ d, row (.bringup · d) (COC_CTRL.BRINGUP.addr 0 0) part) ∧
    (∀ addr size d a, row (.cocoonWindowAccess · addr size d a) addr all ∧
      (inWindows addr = true → row (.windowAccess · addr size d) addr all)) ∧
    (∀ x y, row (.pwrCapWrite · x y) (PWR_CAP.WATTS.addr 0 0) all) ∧
    (row (.clusterReset · c) (RAS_RESET.GO.addr 0 0) all ∧ (∀ d, row (.matrixDieReset · d) (RAS_RESET.GO.addr 0 0) all) ∧
      row (.hubDieReset · n) (RAS_RESET.GO.addr 0 0) all ∧ row .coreDieReset (RAS_RESET.GO.addr 0 0) all ∧
      row .packageReset (RAS_RESET.GO.addr 0 0) part ∧ row .pop (RAS_EVT_POP.POP.addr 0 0) all ∧
      row .ueAck (RAS_UE_ACK.ACK.addr 0 0) all ∧ row .restore (RAS_SERVICE.RESTORE.addr 0 0) all ∧
      row (.heldRelease · c) (RAS_CLU_HELD.HELD.addr 0 (c / 64)) all) ∧
    (∀ kind : Fin 4, row (.logicTest · kind r) (BIST_CMD.GO.addr 0 0) all ∧ row (.memoryTest · kind r) (BIST_CMD.GO.addr 0 0) all ∧
      row (.logicAndMemoryTest · kind r) (BIST_CMD.GO.addr 0 0) all) ∧
    (s.board.boot = .running → row .installPlanKey (SEC_AUTH_GO.GO.addr 0 0) sec ∧ row .revokePlanKey (SEC_AUTH_GO.GO.addr 0 0) sec ∧
      row .raisePlanCounter (SEC_AUTH_GO.GO.addr 0 0) sec ∧ row .debugUnlock (SEC_AUTH_GO.GO.addr 0 0) sec ∧
      row .setOwnerKey (SEC_AUTH_GO.GO.addr 0 0) sec) ∧
    (row .attest (SEC_ATTEST.GO.addr 0 0) sec ∧ row .commitFw (SEC_CTRL.COMMIT_FW.addr 0 0) sec ∧
      row .wipe (SEC_CTRL.WIPE.addr 0 0) sec) ∧
    (∀ x : BitVec 16, ring (.ringDbSq · r x) (0xF00E000000 + r * 0x1000) ∧ ring (.ringDbCq · r x) (0xF00E000000 + r * 0x1000 + 8) ∧
      ring (.ringEnable · r) (RING_CFG.EN.addr r 0) ∧ ring (.ringDrain · r) (RING_CFG.EN.addr r 0))

/-- Register reads and writes, and who may make them: its parts together. -/
def Obligations.Registers : Prop :=
  Stated.RegisterFields ∧ Stated.RegisterAccess ∧ Stated.OtherRequesters

/-- R10: a read answers all ones, a write is dropped; a RAS record with BAD_DESCRIPTOR, BLOCK 17 and UNCORR 1 for a write (R490)
holds the address; the answer is an unsupported request exactly for a host's access. Memory, clusters and slots stand. -/
def Obligations.UnmappedAccesses : Prop :=
  ∀ (s : State) (o : Origin) (addr : Nat) (write : Bool), s.unmappedAt addr = true →
    ∃ t, exec (.unmappedAccess o addr write) s = .next t
      ∧ t.resp = ⟨if write then [] else List.replicate 8 0xFF, hostSide o, false⟩
      ∧ t.ras = (s.rasEvent stBadDescriptor 17 0 addr (if write then .uncorr else .info)).ras
      ∧ (s.ras.queue.length < 1024 → (t.ras.queue.getLast?).map
          (fun r => (r.status, r.block, r.uncorr, r.loc)) = some (stBadDescriptor, 17, write, addr))
      ∧ t.on RAS_INT_STATUS.EVENT = true
      ∧ t = { s with regs := t.regs, ras := t.ras, irq := t.irq, out := t.out, resp := t.resp }

/-- WINDOW_ACCESS to a stopped cluster, to one that runs, of a bad size, at an uncorrectable word, and beyond the scratchpad; WINDOW_TLP
poisoned, or reading or writing one naturally aligned run of enabled bytes. -/
def Obligations.WindowAccesses : Prop :=
  ∀ (s : State) (o : Origin) (addr size : Nat), s.direct o → inWindows addr = true →
    let c := winClu addr
    let off := winOff addr
    (winSize addr size = true → off < 0x300000 → s.stoppedForWindow c = true → (s.spadRead c off size).bad = none →
      exec (.windowAccess o addr size none) s =
        .next ((s.spadRead c off size).st.answerWith (s.spadRead c off size).data)) ∧
    (winSize addr size = true → off < 0x300000 → s.stoppedForWindow c = true → ∀ d : List Byte,
      (s.spadWrite c off (d.take size)).bad = none →
      exec (.windowAccess o addr size (some d)) s = .next ((s.spadWrite c off (d.take size)).st.answerWith [])) ∧
    (winSize addr size = true → off < 0x300000 → s.stoppedForWindow c = false → ∀ d : Option (List Byte),
      ∃ t, exec (.windowAccess o addr size d) s = .next t
        ∧ t.resp = ⟨if d.isSome then [] else List.replicate size 0xFF, false, false⟩
        ∧ { t with resp := s.resp }
          = s.rasEvent stBadDescriptor 0 c addr (if d.isSome then .uncorr else .info)) ∧
    (winSize addr size = false → off < 0x300000 → ∀ d : Option (List Byte),
      exec (.windowAccess o addr size d) s = .next
        ((s.rasEvent stBadDescriptor 17 0 addr (if d.isSome then .uncorr else .info)).answerOnes o size d.isSome)) ∧
    (winSize addr size = true → off < 0x300000 → s.stoppedForWindow c = true → ∀ e,
      ((s.spadRead c off size).bad = some e → exec (.windowAccess o addr size none) s =
        .next (((s.spadRead c off size).st.rasEvent stEcc 0 c (spadLoc e) .uncorr).answerWith [] false true)) ∧
      (∀ d : List Byte, (s.spadWrite c off (d.take size)).bad = some e → exec (.windowAccess o addr size (some d)) s =
        .next (((s.spadWrite c off (d.take size)).st.rasEvent stEcc 0 c (spadLoc e) .uncorr).answerWith []))) ∧
    (0x300000 ≤ off → ∀ d : Option (List Byte),
      exec (.windowAccess o addr size d) s = .next (s.unmapped o addr size d.isSome)) ∧
    (s.direct .pf → ∀ (e : List Bool) (d : List Byte), exec (.windowTlp addr e (some d) true) s =
      .next ((s.rasEvent stEcc 0 c addr .uncorr).answerWith [])) ∧
    (let q := (s.answerWith []).spadRead c off size;
      s.direct .pf → winSize addr size = true → off < 0x300000 → s.stoppedForWindow c = true → q.bad = none →
      exec (.windowTlp addr (List.replicate size true) none false) s = .next (q.st.answerWith q.data)) ∧
    (∀ d : List Byte, let q := (s.answerWith []).spadWrite c off (d.take size);
      s.direct .pf → winSize addr size = true → off < 0x300000 → s.stoppedForWindow c = true → q.bad = none →
      exec (.windowTlp addr (List.replicate size true) (some d) false) s = .next (q.st.answerWith []))

/-- LOAD and LOAD_STANDBY accepted with a good head, accepted and failed, accepted and waiting, and rejected. -/
def Stated.SlotLoading : Prop :=
  ∀ (s : State) (o : Origin) (slot pred : Fin 16), s.direct o →
    let go (i : Instr) (v : State) (p : Option Nat) : Prop :=
      let u := ((v.slotOutcome slot ⟨stOK, 0, 0, 0⟩).wr PLN_SLOT_STATUS.STATE pLOADING slot).setSlot slot
        fun _ => { Slot.empty with load := some ⟨p.isSome, none⟩, pred := p }
      let n := u.imgLen slot
      let q := u.prepare (keysOf (u.imgAddr slot) n) false
      let r := q.1.rangeRead (u.imgAddr slot) n 97 (u.partOf 97)
      let fails (status check : Nat) : Prop := ∃ t, exec i s = .next t ∧ t.slotSt slot = pFAILED
        ∧ t.rd PLN_SLOT_STATUS.STATUS slot = status % 2 ^ PLN_SLOT_STATUS.STATUS.width
        ∧ t.rd PLN_SLOT_STATUS.CHECK slot = check % 2 ^ PLN_SLOT_STATUS.CHECK.width
        ∧ bit (t.rd PLN_INT_STATUS.FAIL) slot = true
      (v.board.boot.stopped = true → exec i s = .next v) ∧
      (v.board.boot.stopped = false → v.slotSt slot = pEMPTY ∨ v.slotSt slot = pFAILED → v.on RAS_SERVICE.OUT = false →
        (n = 0 ∨ 2 ^ 26 < n ∨ u.hbmEnd < u.imgAddr slot + n → fails stPlanCheck 1) ∧
        (n ≠ 0 → n ≤ 2 ^ 26 → u.imgAddr slot + n ≤ u.hbmEnd →
          (q.2 = false → exec i s = .next q.1) ∧ (q.2 = true → r.poison = true → fails stEcc 0) ∧
          (∀ f, q.2 = true → r.poison = false → r.st.headChecks slot r.data = some f → fails f.status f.check) ∧
          (∀ f, q.2 = true → r.poison = false → r.st.headChecks slot r.data = none → (r.st.slot slot).pred = p →
            r.st.claimCheck slot p (r.st.placed slot r.data) (sectIdx (imgTable r.data) tRegion) = some f →
            fails f.status f.check)) ∧
        (n ≠ 0 → n ≤ 2 ^ 26 → u.imgAddr slot + n ≤ u.hbmEnd → q.2 = true → r.poison = false →
          r.st.headChecks slot r.data = none →
          r.st.claimCheck slot p (r.st.placed slot r.data) (sectIdx (imgTable r.data) tRegion) = none →
          (r.st.slot slot).pred = p →
          ∃ t, exec i s = .next t ∧ (t.slot slot).load = some ⟨p.isSome, some r.data⟩
            ∧ (∀ c ∈ r.st.placed slot r.data, (r.st.clu c).owner = none → (t.clu c).owner = some slot.val)
            ∧ t.slotSt slot = r.st.slotSt slot)) ∧
      (v.board.boot.stopped = false → (v.slotSt slot ≠ pEMPTY ∧ v.slotSt slot ≠ pFAILED) ∨ v.on RAS_SERVICE.OUT = true →
        ∃ t, exec i s = .next t ∧ t.rd PLN_SLOT_STATUS.CMD_REJECT slot = 1
          ∧ v.sameRegs t [PLN_SLOT_STATUS.CMD_REJECT.key slot 0 0] ∧ t = { v with regs := t.regs })
    go (.load o slot) s none ∧
    go (.loadStandby o slot pred) (s.wr PLN_SLOT_CTRL.PRED pred slot) (some pred.val)

/-- LOAD_COMPLETE of a good image, of one that fails a check of order 3 or 4 or a preload, and of one that must wait (a word under
a preload that cannot be read: log entry 37). -/
def Stated.SlotLoaded : Prop :=
  (∀ (s : State) (slot : Fin 16), (s.slot slot).load = none → exec (.loadComplete slot) s = .next s) ∧
  (∀ (s : State) (slot : Fin 16) (standby : Bool), (s.slot slot).load = some ⟨standby, none⟩ →
    exec (.loadComplete slot) s = .next (s.loadClaim slot standby)) ∧
  ∀ (s : State) (slot : Fin 16) (standby : Bool) (img : List Byte), (s.slot slot).load = some ⟨standby, some img⟩ →
    let p := readPlan img (s.placeOf slot) slot
    let cfg := s.planCfg slot img p
    let g := if standby then (s, .ok []) else s.gather cfg.preloads
    let fails (u : State) (status check : Nat) : Prop := ∃ t, exec (.loadComplete slot) s = .next t ∧ t.slotSt slot = pFAILED
      ∧ t.rd PLN_SLOT_STATUS.STATUS slot = status % 2 ^ PLN_SLOT_STATUS.STATUS.width
      ∧ t.rd PLN_SLOT_STATUS.CHECK slot = check % 2 ^ PLN_SLOT_STATUS.CHECK.width
      ∧ bit (t.rd PLN_INT_STATUS.FAIL) slot = true ∧ u.sameStore t
    let tested := p.clus.any fun e => (s.clu e.1).bist
    (∀ f, s.bodyChecks slot img p = some f → fails s f.status f.check) ∧
    (s.bodyChecks slot img p = none → tested = true → exec (.loadComplete slot) s = .next s) ∧
    (s.bodyChecks slot img p = none → tested = false →
      (g.2 = .error .wait → exec (.loadComplete slot) s = .next g.1) ∧
      (∀ st, g.2 = .error (.fail st) → fails g.1 st 0)) ∧
    (∀ l, s.bodyChecks slot img p = none → tested = false → g.2 = .ok l →
      let u := (g.1.setSlot slot fun x => { x with cfg := some cfg }).takeRefs slot cfg.objs
      let v := p.clus.foldl (fun s e =>
        if standby then s.setClu e.1 fun x => { x with shadow := some e.2 } else s.configure e.1 e.2) u
      let w := v.putPreloads l
      (w.2 = false → fails w.1 stEcc 0) ∧ (∀ f, w.2 = true → w.1.sigCheck img = some f → fails w.1 f.status f.check) ∧
      (w.2 = true → w.1.sigCheck img = none → ∃ t, exec (.loadComplete slot) s = .next t ∧ t.slotSt slot = (if standby then pSTANDBY else pLOADED)
        ∧ (t.slot slot).load = none ∧ t.rd PLN_SLOT_STATUS.STATUS slot = stOK ∧ bit (t.rd PLN_INT_STATUS.DONE) slot = true
        ∧ t.rd DLN_GRANT.G slot = 0 ∧ t.rd DLN_SLOT_EXEC.EXEC slot = 0 ∧ t.spad = w.1.spad ∧ t.clus = w.1.clus))

/-- Loading a plan: its parts together. -/
def Obligations.SlotLoads : Prop :=
  Stated.SlotLoading ∧ Stated.SlotLoaded

/-- UNLOAD, STANDBY_TAKEOVER, MOLT_SWAP and PLAN_REAPPLY, where they act, where they are rejected and where they wait. -/
def Obligations.SlotReleases : Prop :=
  ∀ (s : State) (o : Origin) (slot : Fin 16), s.direct o →
    (s.slotSt slot = pFAILED → s.on RAS_SERVICE.OUT = false → ∃ t, exec (.unload o slot) s = .next t
      ∧ t.slotSt slot = pEMPTY ∧ t.slot slot = Slot.empty ∧ t.rd DLN_SLOT_EXEC.EXEC slot = 0
      ∧ t.rd PLN_SLOT_STATUS.STATUS slot = stOK
      ∧ bit (t.rd PLN_INT_STATUS.DONE) slot = true
      ∧ t = { s with regs := t.regs, irq := t.irq, out := t.out, slots := t.slots }) ∧
    (s.slotSt slot = pLOADED → s.on RAS_SERVICE.OUT = false → s.rd DLN_SLOT_EXEC.EXEC slot ≠ 2 →
      (∀ c ∈ s.owned slot, s.cluSt c = cStopped ∨ s.cluSt c = cFaulted) →
      exec (.unload o slot) s = .next (s.unloadLoaded slot)) ∧
    (s.slotSt slot = pLOADED → s.on RAS_SERVICE.OUT = false → s.rd DLN_SLOT_EXEC.EXEC slot ≠ 2 →
      (∀ c ∈ s.owned slot, s.cluSt c = cStopped) → s.on SEC_CTRL.SCRUB_ON_UNLOAD = false →
      ∃ t, exec (.unload o slot) s = .next t ∧ t.slotSt slot = pEMPTY ∧ t.slot slot = Slot.empty
        ∧ bit (t.rd PLN_INT_STATUS.DONE) slot = true
        ∧ (∀ c ∈ s.owned slot, (∀ u ∈ s.successors slot, s.shadowOf u c = false) →
            (t.clu c).owner = none ∧ (t.clu c).act = none)
        ∧ (∀ u ∈ s.successors slot, (t.slot u).takeover = true ∧ t.slotSt u = pSTANDBY
            ∧ ∀ c ∈ s.owned slot, s.shadowOf u c = true → (t.clu c).owner = some u ∧ (t.clu c).act = none)) ∧
    (s.slotSt slot = pSTANDBY → s.on RAS_SERVICE.OUT = false → (s.slot slot).molt = none →
      (∀ c ∈ s.owned slot, s.cluSt c = cStopped) → s.on SEC_CTRL.SCRUB_ON_UNLOAD = false →
      ∃ t, exec (.unload o slot) s = .next t ∧ t.slotSt slot = pEMPTY ∧ t.slot slot = Slot.empty
        ∧ bit (t.rd PLN_INT_STATUS.DONE) slot = true
        ∧ (∀ c, t.shadowOf slot c = false)
        ∧ ∀ c ∈ s.owned slot, (t.clu c).owner = none) ∧
    (s.on RAS_SERVICE.OUT = true ∨ (s.slotSt slot = pLOADED ∧ s.rd DLN_SLOT_EXEC.EXEC slot = 2)
      ∨ (s.slotSt slot = pSTANDBY ∧ (s.slot slot).molt.isSome = true) →
      exec (.unload o slot) s = .next (s.slotRejects slot)) ∧
    (∀ c, s.slotSt slot = pLOADED → c ∈ s.owned slot → s.cluSt c ≠ cStopped → s.cluSt c ≠ cFaulted →
      exec (.unload o slot) s = .next (s.slotRejects slot)) ∧
    (s.slotSt slot = pEMPTY ∨ s.slotSt slot = pLOADING → ∃ t, exec (.unload o slot) s = .next t
      ∧ t.rd PLN_SLOT_STATUS.CMD_REJECT slot = 1 ∧ s.sameRegs t [PLN_SLOT_STATUS.CMD_REJECT.key slot 0 0]
      ∧ t = { s with regs := t.regs }) ∧
    ((s.slot slot).takeover = false ∨ (s.slot slot).cfg = none ∨ (∃ p, (s.slot slot).cfg = some p
        ∧ ∃ e ∈ p.clus, s.cluSt e.1 = cFaulted ∨ s.cluSt e.1 = cResetting ∨ (s.clu e.1).bist = true) →
      exec (.standbyTakeover slot) s = .next s) ∧
    ((s.slot slot).molt = none ∨ s.slotSt slot ≠ pSTANDBY ∨ (∃ q, (s.slot slot).molt = some q ∧ s.moltReady q = false) →
      exec (.moltSwap slot) s = .next s) ∧
    ((s.slot slot).reapply = [] ∨ s.slotSt slot ≠ pLOADED ∨ (∃ c ∈ (s.slot slot).reapply, s.cluSt c = cResetting) →
      exec (.planReapply slot) s = .next s) ∧
    (∀ p l, (s.slot slot).cfg = some p → (s.slot slot).takeover = true →
      (∀ e ∈ p.clus, s.cluSt e.1 ≠ cFaulted ∧ s.cluSt e.1 ≠ cResetting ∧ (s.clu e.1).bist = false) →
      (s.gather p.preloads).2 = .ok l →
      ∃ t, exec (.standbyTakeover slot) s = .next t ∧ t.slotSt slot = pLOADED ∧ t.rd DLN_GRANT.G slot = 0
        ∧ (t.slot slot).takeover = false ∧ bit (t.rd PLN_INT_STATUS.DONE) slot = true
        ∧ (∀ e ∈ p.clus, (t.clu e.1).owner = some slot.val ∧ (t.clu e.1).shadow = none ∧ (t.clu e.1).begun = 0)) ∧
    (∀ q cfg l, (s.slot slot).molt = some q → (s.slot slot).cfg = some cfg → s.slotSt slot = pSTANDBY → q ≠ slot.val →
      q < 16 → s.moltReady q = true →
      (∀ e ∈ cfg.clus, s.cluSt e.1 ≠ cFaulted ∧ s.cluSt e.1 ≠ cResetting ∧ (s.clu e.1).bist = false) →
      (s.gather cfg.preloads).2 = .ok l → (s.slot slot).firstGrant < 2 ^ 48 →
      ∃ t, exec (.moltSwap slot) s = .next t ∧ t.slotSt slot = pLOADED ∧ t.slotSt q = pEMPTY
        ∧ t.rd DLN_GRANT.G slot = (s.slot slot).firstGrant ∧ t.on DLN_INT_STATUS.MOLT_DONE slot = true
        ∧ t.slot q = Slot.empty) ∧
    (∀ cfg l, (s.slot slot).cfg = some cfg → s.slotSt slot = pLOADED → (s.slot slot).reapply ≠ [] →
      (∀ c ∈ (s.slot slot).reapply, s.cluSt c ≠ cResetting) →
      let q := s.prepare (keysOf (s.imgAddr slot) (s.imgLen slot)) false
      let r := q.1.rangeRead (s.imgAddr slot) (s.imgLen slot) 97 (s.partOf 97)
      let mine := cfg.clus.filter fun (e : Nat × CluCfg) => (s.slot slot).reapply.contains e.1
      let g := r.st.gather (cfg.preloads.filter fun p => (s.slot slot).reapply.contains p.cluster)
      let failed (st ck : Nat) : Prop := ∃ t, exec (.planReapply slot) s = .next t ∧ t.slotSt slot = pFAILED
        ∧ t.rd PLN_SLOT_STATUS.STATUS slot = st ∧ t.rd PLN_SLOT_STATUS.CHECK slot = ck
        ∧ bit (t.rd PLN_INT_STATUS.FAIL) slot = true
      let same := ∀ j, j < 8 → quad (planDigest r.data) j = s.rd PLN_DIGEST.DIGEST slot j
      (q.2 = false → exec (.planReapply slot) s = .next q.1) ∧
      (q.2 = true → r.poison = true ∨ ¬ same → failed stPlanSignature 0x03) ∧
      (q.2 = true → r.poison = false → same → (mine.all fun e => r.st.sparesServe e.1 e.2) = false →
        failed stPlanCheck 0x0A) ∧
      (q.2 = true → r.poison = false → same → (mine.all fun e => r.st.sparesServe e.1 e.2) = true → g.2 = .ok l →
      ∃ t, exec (.planReapply slot) s = .next t ∧ (t.slot slot).reapply = []
        ∧ bit (t.rd PLN_INT_STATUS.RELOAD) slot = true))

/-- PASS_START, PASS_START_CONTINUOUS, PASS_STOP and MOLT, taken and rejected, and behind a core's earlier stores (R195; that a command of a core stands for its store is log entry 70's reading). (That a continuous grant stays continuous under
PASS_START is log entry 31's reading.) -/
def Obligations.Grants : Prop :=
  ∀ (s : State) (o : Origin) (slot : Fin 16),
    let g := s.rd DLN_GRANT.G slot
    let cmd := DLN_SLOT_CMD.CMD.addr slot 0
    let rejects (i : Instr) : Prop := ∃ t, exec i s = .next t ∧ t.rd DLN_SLOT_EXEC.CMD_REJECT slot = 1
      ∧ s.sameRegs t [DLN_SLOT_EXEC.CMD_REJECT.key slot 0 0] ∧ t = { s with regs := t.regs }
    (∀ p : BitVec 32, s.goesBehind o (.passStart o slot p) cmd (1 + p.toNat * 2 ^ 8)) ∧
    s.goesBehind o (.passStartContinuous o slot) cmd 9 ∧ s.goesBehind o (.passStop o slot) cmd 2 ∧
    (∀ (p : BitVec 32) (cont : Bool),
      s.goesBehind o (.molt o slot p cont) cmd (3 + (if cont then 8 else 0) + p.toNat * 2 ^ 8)) ∧
    (s.direct o → s.storesDone o →
    (∀ p : BitVec 32, s.execTakes slot = true → p ≠ 0 → g < 2 ^ 48 → ∃ t, exec (.passStart o slot p) s = .next t
      ∧ t.rd DLN_GRANT.G slot = addPasses g p.toNat ∧ s.sameStore t ∧ t.slots = s.slots) ∧
    (s.execTakes slot = true → exec (.passStart o slot 0) s = .next s) ∧
    (∀ p : BitVec 32, s.execTakes slot = false → rejects (.passStart o slot p)) ∧
    (s.execTakes slot = true → ∃ t, exec (.passStartContinuous o slot) s = .next t
      ∧ t.rd DLN_GRANT.G slot = gCont ∧ t.rd DLN_SLOT_EXEC.CONT slot = 1 ∧ s.sameStore t ∧ t.slots = s.slots) ∧
    (s.execTakes slot = false → rejects (.passStartContinuous o slot)) ∧
    (s.rd DLN_SLOT_EXEC.EXEC slot = 1 → ∃ t, exec (.passStop o slot) s = .next t
      ∧ t.rd DLN_GRANT.G slot = min g ((s.owned slot).foldl (fun m c => max m (s.clu c).begun) 0) % 2 ^ 48
      ∧ t.clus = s.clus ∧ t.slots = s.slots ∧ s.sameStore t) ∧
    (s.rd DLN_SLOT_EXEC.EXEC slot = 0 → exec (.passStop o slot) s = .next s) ∧
    (2 ≤ s.rd DLN_SLOT_EXEC.EXEC slot → rejects (.passStop o slot)) ∧
    (∀ (p : BitVec 32) (cont : Bool) (q : Nat), (s.slot slot).pred = some q → s.slotSt slot = pSTANDBY →
      (s.slot slot).molt = none → s.execTakes q = true →
      ∃ t, exec (.molt o slot p cont) s = .next t ∧ t.rd DLN_SLOT_EXEC.EXEC q = 2 ∧ t.rd DLN_SLOT_EXEC.EXEC slot = 2
        ∧ (t.slot q).molt = some slot.val ∧ (t.slot slot).molt = some q
        ∧ (t.slot slot).firstGrant = (if cont then gCont else p.toNat) ∧ t.clus = s.clus) ∧
    (∀ (p : BitVec 32) (cont : Bool), (s.slot slot).pred = none → rejects (.molt o slot p cont)))

/-- The five operations begin the move a mover holds; a GET from another module sends a GET packet. -/
def Stated.MoveBegins : Prop :=
  (∀ (c : Fin 512) (m : Fin 2) (s : State) (v : Move), (s.mover c m).cur = some v →
    let waits (i : Instr) : Prop := exec i s = .next s
    (v.op ≠ 0 ∨ s.mayBegin c v = false → waits (.copy c m)) ∧ (v.op ≠ 1 ∨ s.mayBegin c v = false → waits (.gather c m)) ∧
    (v.op ≠ 2 ∨ s.mayBegin c v = false → waits (.scatter c m)) ∧
    (v.op ≠ 3 ∨ s.mayBegin c v = false → waits (.scatterAdd c m)) ∧
    (v.op ≠ 4 ∨ s.mayBegin c v = false → waits (.get c m))) ∧
  ∀ (c : Fin 512) (m : Fin 2) (s : State) (v : Move), (s.mover c m).cur = some v → s.mayBegin c v = true →
    let begins (i : Instr) : Prop := ∃ t, exec i s = .next t ∧ (t.mover c m).cur = some { v with begun := true, since := s.us }
      ∧ (t.mover c m).hostq = (s.mover c m).hostq ∧ t.mover c (1 - m) = s.mover c (1 - m)
      ∧ s.sameClus t c ∧ t = { s with clus := t.clus }
    (v.op = 0 → begins (.copy c m)) ∧ (v.op = 1 → begins (.gather c m)) ∧ (v.op = 2 → begins (.scatter c m)) ∧
    (v.op = 3 → begins (.scatterAdd c m)) ∧
    (v.op = 4 → v.total = 0 ∨ (s.side c v false).remote = false → begins (.get c m)) ∧
    (∀ mod spad base, v.op = 4 → v.total ≠ 0 → s.side c v false = .peer mod spad base →
      let u := s.setMove c m fun v => { v with begun := true, since := s.us }
      let h := u.moverHdr c m { v with begun := true, since := s.us } mod false 0
      let hdr := { h with repoch := u.ownEpoch }
      exec (.get c m) s = .next (u.sendPkt 0 false (.get hdr v.desc)))

/-- OBJECT_RESOLVE of an object in T1, of one in T2 only, of what fails, and with the tier manager off or not READY (who may read
an object: log entry 26). -/
def Stated.MoveObjects : Prop :=
  ∀ (c : Fin 512) (m : Fin 2) (s : State) (v : Move), (s.mover c m).cur = some v → v.sspace = 5 → v.total ≠ 0 →
    v.obj = none → v.err = none →
    let fails : Prop := ∃ t, exec (.objectResolve c m) s = .next t
      ∧ (t.mover c m).cur = some { v with err := some stBadDescriptor } ∧ t = { s with regs := t.regs, clus := t.clus }
    (s.on TIER_CTRL.EN = false → fails) ∧
    (s.on TIER_CTRL.EN = true → s.tierRuns = false → exec (.objectResolve c m) s = .next s) ∧
    (∀ i, s.on TIER_CTRL.EN = true → s.tierRuns = true → s.handleEntry (v.saddr / 2 ^ 32) = some i →
      s.mayRead v.func (s.obj i).ctx = false ∨ (v.op ≠ 1 ∧ ((v.objOff : Int) + (v.span false).1 < 0
        ∨ ((s.obj i).len : Int) < (v.objOff : Int) + (v.span false).2 + v.runBytes)) → fails) ∧
    (s.on TIER_CTRL.EN = true → s.tierRuns = true → s.handleEntry (v.saddr / 2 ^ 32) = none → fails) ∧
    (∀ i, s.on TIER_CTRL.EN = true → s.tierRuns = true → s.handleEntry (v.saddr / 2 ^ 32) = some i →
      s.mayRead v.func (s.obj i).ctx = true →
      v.op = 1 ∨ (0 ≤ (v.objOff : Int) + (v.span false).1 ∧ (v.objOff : Int) + (v.span false).2 + v.runBytes ≤ (s.obj i).len) →
      ((s.obj i).state ≤ 3 → ∃ t, exec (.objectResolve c m) s = .next t
        ∧ (t.mover c m).cur = some { v with obj := some (.t1 i (s.obj i).t1 (s.obj i).len) }
        ∧ (t.obj i).t1refs = (s.obj i).t1refs + 1 ∧ t = { s with regs := t.regs, clus := t.clus, tier := t.tier }) ∧
      (3 < (s.obj i).state → ∃ t, exec (.objectResolve c m) s = .next t
        ∧ (t.mover c m).cur = some { v with obj := some (.t2 i (s.obj i).t2addr (s.obj i).pasid (s.obj i).pv (s.obj i).len) }
        ∧ (t.obj i).t2refs = (s.obj i).t2refs + 1 ∧ t = { s with regs := t.regs, clus := t.clus, tier := t.tier }))

/-- A mover begins its move and resolves an OBJECT source: its parts together. -/
def Obligations.MovesBegin : Prop :=
  Stated.MoveBegins ∧ Stated.MoveObjects

/-- LANDING in general, and of a COPY of one short run into a scratchpad: what lands, and the counter. (That the unit lands before
its counter's error faults the cluster: log entry 196.) -/
def Obligations.MoveLands : Prop :=
  (∀ (c : Fin 512) (m : Fin 2) (s : State) (unit : Nat) (l : LandIn),
    ((s.mover c m).cur = none → exec (.landing c m unit l) s = .next s) ∧
    (∀ v, (s.mover c m).cur = some v → v.begun = false ∨ (v.op = 4 ∧ (s.side c v false).remote = true)
      ∨ v.units.any (·.1 == unit) = true ∨ v.runs * v.perRun (s.side c v true).granule ≤ unit →
      exec (.landing c m unit l) s = .next s)) ∧
  ∀ (c : Fin 512) (m : Fin 2) (s : State) (v : Move) (denied : Bool), (s.mover c m).cur = some v → v.begun = true →
    (v.op = 4 → (s.side c v false).remote = false) →
    (∀ unit l, v.total = 0 ∨ (v.err ≠ none ∧ getK [] v.ahead unit = []) → exec (.landing c m unit l) s = .next s) ∧
    (∀ unit, v.total ≠ 0 → v.err = none ∨ getK [] v.ahead unit ≠ [] → (v.units.any (·.1 == unit)) = false → unit < v.runs * v.perRun (s.side c v true).granule →
      exec (.landing c m unit ⟨denied, false⟩) s = .next (s.landUnit c m unit denied v)) ∧
    (∀ unit e cnt, v.total ≠ 0 → v.err = none → (v.units.any (·.1 == unit)) = false → unit < v.runs * v.perRun (s.side c v true).granule →
      v.counter (s.side c v true) = some (e, cnt) → let u := s.landUnit c m unit denied v
      u.cluSt e ≠ cOff → u.cluSt e ≠ cResetting →
      ∃ t, exec (.landing c m unit ⟨denied, true⟩) s = .next t ∧ t = (u.faultClu e stEcc FaultAt.none).autoReset e
        ∧ ∀ k, (u.clu e).owner = some k → (u.slot k).takeover = false → t.cluSt e = cFaulted
          ∧ t.rd CLU_STATUS.LAST_STATUS e = stEcc) ∧
    (∀ e b bytes, v.err = none → v.total ≠ 0 → v.op = 0 → v.ndim = 1 → s.side c v true = .spad e b → 0 < v.runBytes → b % 64 + v.runBytes ≤ 64 →
      b < 2 ^ 22 → (v.units.any (·.1 == 0)) = false → s.countWaits (v.counter (.spad e b)) = false →
      let q := s.unitBytes c m 0 v 0 v.runBytes denied
      let w := q.1.landSpad e b bytes
      q.2 = .bytes bytes → w.2 = .ok →
      ∃ t, exec (.landing c m 0 ⟨denied, false⟩) s = .next t ∧ t.spad = w.1.spad
        ∧ (v.lcntEn = true → t.cnt e v.lcnt = (w.1.cnt e v.lcnt + v.runBytes) % 2 ^ 48)
        ∧ t = { w.1 with regs := t.regs, clus := t.clus, irq := t.irq, out := t.out })

/-- MOVE_COMPLETE of an ended move, and what it leaves where nothing else waits for the mover; MOVER_WATCHDOG. -/
def Obligations.MoveEnds : Prop :=
  ∀ (c : Fin 512) (m : Fin 2) (s : State) (v : Move), (s.mover c m).cur = some v →
    (v.ended = true → exec (.moveComplete c m) s = .next (s.finishMove c m v)) ∧
    (v.ended = false → exec (.moveComplete c m) s = .next s) ∧
    (v.ended = true → v.status ≠ stOK → v.obj = none → v.src = .step → v.op = 0 → (s.mover c m).hostq = [] →
      let u := (s.recordMoveErr c m v v.status).setMover c m fun x => { x with cur := none }
      u.stepMove c m = none → u.nextMig c m = none →
      ∃ t, exec (.moveComplete c m) s = .next t ∧ (t.mover c m).cur = none
        ∧ t.rd MOV_ERR.STATUS c = v.status % 2 ^ MOV_ERR.STATUS.width ∧ t.rd MOV_ERR.MOVER c = m ∧ t.rd MOV_ERR.VALID c = 1
        ∧ t.rd MOV_ERR.LANDED c = v.landed % 2 ^ MOV_ERR.LANDED.width ∧ t.on MOV_INT_STATUS.ERR c = true
        ∧ (∀ i, i < 8 → t.rd MOV_ERR_DESC.Q c i = v.q i % 2 ^ MOV_ERR_DESC.Q.width)
        ∧ s.sameClus t c ∧ t = { s with regs := t.regs, clus := t.clus, irq := t.irq, out := t.out }) ∧
    (v.ended = true → v.status = stOK → v.obj = none → v.src = .step → v.op = 0 →
      (s.mover c m).hostq = [] →
      let u := (s.bump (if m = 0 then MOV_DONE0.MOVES else MOV_DONE1.MOVES) 1 c).setMover c m fun x => { x with cur := none }
      u.stepMove c m = none → u.nextMig c m = none →
      ∃ t, exec (.moveComplete c m) s = .next t ∧ (t.mover c m).cur = none
        ∧ s.counted1 t (if m = 0 then MOV_DONE0.MOVES else MOV_DONE1.MOVES) 1 c
        ∧ t.rd (if m = 0 then MOV_STATE.STATE0 else MOV_STATE.STATE1) c = 0
        ∧ (∀ n, n < 256 → t.cnt c n = if v.scntEn = true ∧ v.scnt = n then (s.cnt c n + v.total) % 2 ^ 48 else s.cnt c n)
        ∧ s.sameClus t c ∧ t = { s with regs := t.regs, clus := t.clus, irq := t.irq, out := t.out }) ∧
    (∀ target : WdogTarget, s.on MOV_WDOG.EN c = true → v.begun = true → v.ended = false →
      v.since + min (s.rd MOV_WDOG.PERIOD_US c) 60000000 ≤ s.us →
      let st := match target with | .peer => stPeerTimeout | .host => stHostLost | .package => stCounterTimeout
      (match target with
        | .peer => (s.side c v false).remote = true ∨ (s.side c v true).remote = true
        | .host => (∃ b, s.side c v false = .host b) ∨ ∃ b, s.side c v true = .host b
        | .package => ¬ ((s.side c v false).remote = true ∧ v.op = 4)
          ∧ ¬ ((∃ b, s.side c v false = .host b) ∧ ∃ b, s.side c v true = .host b)) →
      ∃ t, exec (.moverWatchdog c m target) s = .next t
        ∧ (t.mover c m).cur = some { v with err := some (v.err.getD st), ahead := [], queued := 0, flight := [] }
        ∧ t.on MOV_INT_STATUS.WDOG c = true
        ∧ (∀ e ∈ t.obl.ports, ∀ q ∈ e.2.txq, ∀ x ∈ q.2, s.putOf c m x = false)
        ∧ t = { s with regs := t.regs, clus := t.clus, irq := t.irq, out := t.out, obl := { s.obl with ports := t.obl.ports } }) ∧
    (∀ target : WdogTarget, s.us < v.since + min (s.rd MOV_WDOG.PERIOD_US c) 60000000 ∨ s.on MOV_WDOG.EN c = false
        ∨ v.begun = false ∨ v.ended = true →
      exec (.moverWatchdog c m target) s = .next s)

/-- LND_ADD, LND_WATCH and LND_CLEAR. (That a command of a core stands for its store is log entry 70's reading.) -/
def Obligations.LandingCounters : Prop :=
  ∀ (s : State) (o : Origin) (c : Fin 512) (n : Fin 256),
    (∀ a : BitVec 32, s.goesBehind o (.lndAdd o c n a) (LND_ADD.CNT.addr c 0) (n + a.toNat * 2 ^ 16)) ∧
    (∀ g : BitVec 48, s.goesBehind o (.lndWatch o c n g) (LND_WATCH.CNT.addr c 0) (n + g.toNat * 2 ^ 16)) ∧
    (∀ all : Bool, s.goesBehind o (.lndClear o c n all) (LND_CLEAR.CNT.addr c 0) (n + (if all then 2 ^ 8 else 0))) ∧
    (s.direct o → s.storesDone o →
    (∀ a : BitVec 32, a ≠ 0 → s.cluSt c ≠ cResetting → ∃ t, exec (.lndAdd o c n a) s = .next t
      ∧ t.cnt c n = (s.cnt c n + a.toNat) % 2 ^ 48
      ∧ (let fires := s.rd LND_WATCH.ARMED c = 1 ∧ s.rd LND_WATCH.CNT c = n ∧ reached (t.cnt c n) (s.rd LND_WATCH.TARGET c) = true
        (fires → t.rd LND_WATCH.ARMED c = 0 ∧ t.on LND_INT_STATUS.WATCH c = true)
          ∧ (¬ fires → t.rd LND_WATCH.ARMED c = s.rd LND_WATCH.ARMED c))
      ∧ s.sameRegs t [LND_CNT.COUNT.key c n 0, LND_WATCH.ARMED.key c 0 0, LND_INT_STATUS.WATCH.key c 0 0]
      ∧ s.sameClus t c ∧ t = { s with regs := t.regs, clus := t.clus, irq := t.irq, out := t.out }) ∧
    (exec (.lndAdd o c n 0) s = .next s) ∧
    (∀ a : BitVec 32, a ≠ 0 → s.cluSt c = cResetting → ∃ t, exec (.lndAdd o c n a) s = .next t
      ∧ (t.clu c).adds = (s.clu c).adds ++ [(n.val, a.toNat)] ∧ s.sameClus t c ∧ t = { s with clus := t.clus }) ∧
    (∀ g : BitVec 48, g = 0 ∨ reached (s.cnt c n) g.toNat = true → ∃ t, exec (.lndWatch o c n g) s = .next t
      ∧ t.rd LND_WATCH.ARMED c = 0 ∧ t.on LND_INT_STATUS.WATCH c = true ∧ t.rd LND_WATCH.TARGET c = g.toNat ∧ s.quiet t) ∧
    (∀ g : BitVec 48, g ≠ 0 → reached (s.cnt c n) g.toNat = false → ∃ t, exec (.lndWatch o c n g) s = .next t
      ∧ t.rd LND_WATCH.ARMED c = 1 ∧ t.rd LND_WATCH.CNT c = n ∧ t.rd LND_WATCH.TARGET c = g.toNat
      ∧ s.sameRegs t [LND_WATCH.ARMED.key c 0 0, LND_WATCH.CNT.key c 0 0, LND_WATCH.TARGET.key c 0 0]
      ∧ t = { s with regs := t.regs }) ∧
    (s.cluSt c = cStopped → (s.clu c).owner = none → ∃ t, exec (.lndClear o c n false) s = .next t ∧ t.cnt c n = 0
      ∧ s.sameRegs t [LND_CNT.COUNT.key c n 0] ∧ t = { s with regs := t.regs }) ∧
    (s.cluSt c = cStopped → (s.clu c).owner = none → ∃ t, exec (.lndClear o c n true) s = .next t
      ∧ (∀ k, k < 256 → t.cnt c k = 0) ∧ t = { s with regs := t.regs }) ∧
    (s.cluSt c ≠ cStopped ∨ (s.clu c).owner ≠ none → ∀ all : Bool, exec (.lndClear o c n all) s = .next s))

/-- R187's comparison, in integers, on every 48-bit counter and target; and that only a WAIT of zero TARGET and PERPASS and a watch
of target 0 are satisfied whatever the counter holds: a target that comes to 0 by reduction has no such exception. -/
def Obligations.CounterTargets : Prop :=
  (∀ C T : Nat, C < 2 ^ 48 → T < 2 ^ 48 →
    (reached C T = true ↔ ((C : Int) - T) % (2 ^ 48 : Nat) < (2 ^ 47 : Nat))) ∧
  (∀ w n : Nat, waitTarget w n = (StepW.target w + n * StepW.perpass w) % 2 ^ 48) ∧
  (∀ (s : State) (c n a : Nat), (s.advance c n a).cnt c n = (s.cnt c n + a) % 2 ^ 48) ∧
  (∀ (s : State) (c : Fin 512) (w : Nat), s.stepAt c 1 = some w →
    ((StepW.target w = 0 ∧ StepW.perpass w = 0) ∨ reached (s.cnt c (StepW.cnt w)) (waitTarget w (s.clu c).pass) = true ↔
      ∃ t, exec (.wait c) s = .next t ∧ t.rd LND_WAITING.ACTIVE c = 0)) ∧
  (∀ (s : State) (c : Fin 512) (w : Nat) (d : DlEntry), s.stepAt c 6 = some w → s.dlEntry c w = some d →
    d.target < 2 ^ 48 ∧ (reached (s.cnt c (migCnt d.mig)) d.target = true ↔
      ∃ t, exec (.waitdl c) s = .next t ∧ t.rd LND_WAITING.ACTIVE c = 0)) ∧
  (∀ (s : State) (o : Origin) (c : Fin 512) (n : Fin 256) (g : BitVec 48), s.direct o → s.storesDone o →
    (g = 0 ∨ reached (s.cnt c n) g.toNat = true ↔
      ∃ t, exec (.lndWatch o c n g) s = .next t ∧ t.rd LND_WATCH.ARMED c = 0))

/-- CTX_CREATE and CTX_DESTROY, carried out and refused. -/
def Stated.TierContexts : Prop :=
  (∀ (s : State) (f : Fin 65) (ctx : BitVec 24) (h : BitVec 32) (len : BitVec 40) (addr : BitVec 64) (pasid : BitVec 20)
      (a b : Bool) (part : Fin 16) (quota : BitVec 40) (i : Instr) (cmd : Nat),
    let onHandle := [(Instr.seal f ctx h len a, 4), (.evict f ctx h addr pasid a, 6), (.fetch f ctx h a b, 7), (.unpin f ctx h, 8),
      (.free f ctx h, 9), (.releaseT2 f ctx h, 10), (.verify f ctx h, 11), (.query f ctx h addr, 12)]
    let others := [(Instr.ctxCreate f ctx part quota, 1), (.ctxDestroy f ctx, 2), (.allocOpen f ctx len, 3),
      (.adopt f ctx addr len pasid a, 5)]
    let fails (status detail handle : Nat) : Prop := ∃ t, exec i s = .next t ∧ s.tierFailed t f cmd status detail handle
    let named : Nat := if (i, cmd) ∈ others then 0 else h.toNat
    ((i, cmd) ∈ onHandle ++ others → s.on TIER_CTRL.EN = false → fails stBadDescriptor 3 named) ∧
    ((i, cmd) ∈ onHandle ++ others → s.on TIER_CTRL.EN = true → s.tierRuns = false → ∃ t w, exec i s = .next t
      ∧ t.tier = { s.tier with waiting := s.tier.waiting ++ [(w, f.val, s.rowReply f)] } ∧ w.cmd = cmd ∧ w.ctx = ctx.toNat
      ∧ w.handle = named ∧ (s.rowReply f = .regs → t.rd TIER_CMD_GO.BUSY = 1) ∧ t = { s with regs := t.regs, tier := t.tier }) ∧
    (s.tierRuns = true → s.ownsCtx f ctx.toNat = false → (i, cmd) ∈ onHandle ++ others → cmd ≠ 1 → fails stNoContext 0 named) ∧
    (s.tierRuns = true → s.ownsCtx f ctx.toNat = true → (i, cmd) ∈ onHandle →
      s.handleEntry h.toNat = none ∨ (∃ e, s.handleEntry h.toNat = some e ∧ (s.obj e).ctx ≠ ctx.toNat) →
      fails stBadDescriptor 2 h.toNat)) ∧
  ∀ (s : State) (f : Fin 65) (ctx : BitVec 24), s.tierRuns = true →
    let only (t : State) : Prop := t = { s with regs := t.regs, irq := t.irq, out := t.out, tier := t.tier }
    (∀ (part : Fin 16) (quota : BitVec 40), ctx.toNat ≠ 0xFFFFFF → s.ctx ctx.toNat = none →
      s.tier.ctxs.length < tierContexts → ∃ t, exec (.ctxCreate f ctx part quota) s = .next t
        ∧ t.ctx ctx.toNat = some ⟨f, part, quota.toNat⟩ ∧ (∀ d, d ≠ ctx.toNat → t.ctx d = s.ctx d)
        ∧ t.tier.objs = s.tier.objs ∧ s.tierSaid t f 0 0 ∧ only t) ∧
    (∀ (part : Fin 16) (quota : BitVec 40), ctx.toNat ≠ 0xFFFFFF → (s.ctx ctx.toNat).isSome = true →
      ∃ t, exec (.ctxCreate f ctx part quota) s = .next t ∧ t.tier = s.tier
        ∧ t.rd TIER_ERR.STATUS = stBadDescriptor ∧ t.rd TIER_ERR.DETAIL = 3 ∧ t.on TIER_INT_STATUS.ERR = true ∧ s.quiet t) ∧
    (∀ (part : Fin 16) (quota : BitVec 40), (ctx.toNat = 0xFFFFFF → ∃ t, exec (.ctxCreate f ctx part quota) s = .next t
        ∧ s.tierFailed t f 1 stBadDescriptor 1 0) ∧
      (ctx.toNat ≠ 0xFFFFFF → s.ctx ctx.toNat = none → tierContexts ≤ s.tier.ctxs.length →
        ∃ t, exec (.ctxCreate f ctx part quota) s = .next t ∧ s.tierFailed t f 1 stNoContext 0 0)) ∧
    (s.ownsCtx f ctx.toNat = true → (ctx.toNat = 0 → ∃ t, exec (.ctxDestroy f ctx) s = .next t
        ∧ s.tierFailed t f 2 stBadDescriptor 1 0) ∧
      (ctx.toNat ≠ 0 → (s.tier.objs.any fun e => e.2.state != 0 && e.2.ctx == ctx.toNat) = true →
        ∃ t, exec (.ctxDestroy f ctx) s = .next t ∧ s.tierFailed t f 2 stBadDescriptor 5 0)) ∧
    (s.ownsCtx f ctx.toNat = true → ctx.toNat ≠ 0 →
      (s.tier.objs.any fun e => e.2.state != 0 && e.2.ctx == ctx.toNat) = false →
      ∃ t, exec (.ctxDestroy f ctx) s = .next t ∧ t.ctx ctx.toNat = none ∧ (∀ d, d ≠ ctx.toNat → t.ctx d = s.ctx d)
        ∧ t.tier.objs = s.tier.objs ∧ s.tierSaid t f 0 0 ∧ only t) ∧
    (s.ownsCtx f ctx.toNat = false → ∃ t, exec (.ctxDestroy f ctx) s = .next t ∧ t.tier = s.tier
      ∧ t.rd TIER_ERR.STATUS = stNoContext ∧ s.quiet t)

/-- ALLOC_OPEN, ADOPT, SEAL and QUERY by the function that owns the context, carried out and failed. -/
def Obligations.TierObjects : Prop :=
  ∀ (s : State) (f : Fin 65) (ctx : BitVec 24) (len : BitVec 40), s.tierRuns = true →
    s.ownsCtx f ctx.toNat = true →
    let only (t : State) : Prop := t = { s with regs := t.regs, irq := t.irq, out := t.out, tier := t.tier }
    let gen (i : Nat) : Nat := if (s.obj i).gen = 0 then 1 else (s.obj i).gen
    let fails (i : Instr) (cmd status detail handle : Nat) : Prop :=
      ∃ t, exec i s = .next t ∧ s.tierFailed t f cmd status detail handle
    let size := len.toNat ≠ 0 ∧ len.toNat ≤ 2 ^ 34
    (¬ size → fails (.allocOpen f ctx len) 3 stBadDescriptor 6 0) ∧
    (size → s.freeEntry = none → fails (.allocOpen f ctx len) 3 stNoObjectSlot 1 0) ∧
    (size → s.freeEntry ≠ none → s.findExtent (cdiv len.toNat 65536) = none → fails (.allocOpen f ctx len) 3 stNoObjectSlot 2 0) ∧
    (size → s.freeEntry ≠ none → s.findExtent (cdiv len.toNat 65536) ≠ none → s.quotaFits ctx.toNat (cdiv len.toNat 65536) = false →
      fails (.allocOpen f ctx len) 3 stNoObjectSlot 3 0) ∧
    (∀ addr pasid pv, (¬ size → fails (.adopt f ctx addr len pasid pv) 5 stBadDescriptor 6 0) ∧
      (size → s.freeEntry = none → fails (.adopt f ctx addr len pasid pv) 5 stNoObjectSlot 1 0)) ∧
    (∀ i (h : BitVec 32) (crc : Bool) (addr : BitVec 64), s.handleEntry h.toNat = some i → (s.obj i).ctx = ctx.toNat →
      ((s.obj i).state ≠ 1 → fails (.seal f ctx h len crc) 4 stBadDescriptor 3 h.toNat) ∧
      ((s.obj i).state = 1 → (s.obj i).len < len.toNat → fails (.seal f ctx h len crc) 4 stBadDescriptor 6 h.toNat) ∧
      (addr.toNat % 64 ≠ 0 ∨ s.hbmEnd < addr.toNat + 64 ∨ (addr.toNat < s.metaBase + metaSize ∧ s.metaBase < addr.toNat + 64) →
        fails (.query f ctx h addr) 12 stBadDescriptor 1 h.toNat)) ∧
    (∀ i a, len.toNat ≠ 0 → len.toNat ≤ 2 ^ 34 → s.freeEntry = some i → s.findExtent (cdiv len.toNat 65536) = some a →
      s.quotaFits ctx.toNat (cdiv len.toNat 65536) = true →
      let u := cdiv len.toNat 65536
      ∃ t, exec (.allocOpen f ctx len) s = .next t
        ∧ t.obj i = { Obj.free with state := 1, ctx := ctx.toNat, len := u * 65536, units := u, t1 := a, gen := gen i }
        ∧ (∀ j, j ≠ i → t.obj j = s.obj j) ∧ s.tierSaid t f (t.handleOf i * 2 ^ 32) a ∧ only t) ∧
    (∀ i addr pasid pv, len.toNat ≠ 0 → len.toNat ≤ 2 ^ 34 → s.freeEntry = some i →
      let o := { Obj.free with state := 4, ctx := ctx.toNat, len := len.toNat, t2valid := true, t2addr := addr.toNat }
      ∃ t, exec (.adopt f ctx addr len pasid pv) s = .next t
        ∧ t.obj i = { o with pasid := pasid.toNat, pv := pv, gen := gen i }
        ∧ (∀ j, j ≠ i → t.obj j = s.obj j) ∧ s.tierSaid t f (t.handleOf i * 2 ^ 32) 0 ∧ only t) ∧
    (∀ i (h : BitVec 32) (crc : Bool), s.handleEntry h.toNat = some i → (s.obj i).ctx = ctx.toNat → (s.obj i).state = 1 →
      len.toNat ≤ (s.obj i).len →
      let keep := cdiv len.toNat 65536
      ∃ t, exec (.seal f ctx h len crc) s = .next t ∧ (t.obj i).state = 2 ∧ (t.obj i).len = len.toNat
        ∧ (t.obj i).units = keep ∧ (t.obj i).t2valid = false
        ∧ (keep < (s.obj i).units → t.tier.exts = s.tier.exts ++ [⟨(s.obj i).t1 + keep * 65536, (s.obj i).units - keep, some i,
            (s.obj i).ctx, (s.obj i).t1, s.t1Readers i (s.obj i).t1 ((s.obj i).t1 + keep * 65536)⟩])
        ∧ (t.obj i).t1refs = (s.obj i).t1refs
        ∧ (crc = true → (t.obj i).sums = (s.obj i).sums ++ [(0x04, s.rowReply f)])
        ∧ (crc = false → s.tierSaid t f (h.toNat * 2 ^ 32) 0)
        ∧ (∀ j, j ≠ i → t.obj j = s.obj j) ∧ only t) ∧
    (∀ i (h : BitVec 32) (addr : BitVec 64), s.handleEntry h.toNat = some i → (s.obj i).ctx = ctx.toNat →
      addr.toNat % 64 = 0 → addr.toNat + 64 ≤ s.hbmEnd →
      addr.toNat + 64 ≤ s.metaBase ∨ s.metaBase + metaSize ≤ addr.toNat →
      let v := if s.rowReply f = .regs then s.wr TIER_CMD_GO.BUSY 1 else s
      let u := v.rangeWrite 98 (s.ctxPart (s.obj i).ctx) addr.toNat (s.entryImage i)
      exec (.query f ctx h addr) s = .next (u.tierDone 0x0C (s.rowReply f) (.ok h.toNat rDone (u.obj i).t1)))

/-- EVICT, FETCH, UNPIN, FREE, RELEASE_T2 and VERIFY on a valid handle of a context the function owns. -/
def Obligations.TierMoves : Prop :=
  ∀ (s : State) (f : Fin 65) (ctx : BitVec 24) (h : BitVec 32) (i : Nat), s.tierRuns = true →
    s.ownsCtx f ctx.toNat = true → s.handleEntry h.toNat = some i →
    (s.obj i).ctx = ctx.toNat →
    let o := s.obj i
    let said (t : State) : Prop := s.tierSaid t f (h.toNat * 2 ^ 32) 0
    let only (t : State) : Prop := (∀ j, j ≠ i → t.obj j = s.obj j)
      ∧ t = { s with regs := t.regs, irq := t.irq, out := t.out, tier := t.tier }
    let fails (i : Instr) (cmd status detail : Nat) : Prop :=
      ∃ t, exec i s = .next t ∧ s.tierFailed t f cmd status detail h.toNat
    (∀ addr pasid pv,
      (o.state = 1 → fails (.evict f ctx h addr pasid pv) 6 stBadDescriptor 3) ∧
      (o.state ≠ 1 → o.state ≠ 4 → 0 < o.pins → fails (.evict f ctx h addr pasid pv) 6 stBadDescriptor 4) ∧
      (o.state = 2 → o.pins = 0 → o.t2valid = false → addr = 0 → fails (.evict f ctx h addr pasid pv) 6 stBadDescriptor 1) ∧
      (o.state = 4 → ∃ t, exec (.evict f ctx h addr pasid pv) s = .next t ∧ t.tier = s.tier ∧ said t ∧ s.quiet t) ∧
      (o.state = 3 ∨ o.state = 5 → o.pins = 0 → ∃ t, exec (.evict f ctx h addr pasid pv) s = .next t
        ∧ t.obj i = { o with intentIn := false, waits := o.waits ++ [⟨6, s.rowReply f, false, false⟩] } ∧ only t)) ∧
    (∀ pin verify,
      (pin = true → 65535 ≤ o.pins → fails (.fetch f ctx h pin verify) 7 stBadDescriptor 4) ∧
      (pin = false ∨ o.pins < 65535 → verify = true → o.crc = none → fails (.fetch f ctx h pin verify) 7 stBadDescriptor 3) ∧
      (pin = false ∨ o.pins < 65535 → verify = false ∨ o.crc ≠ none →
        (o.state = 3 → ∃ t, exec (.fetch f ctx h pin verify) s = .next t
          ∧ t.obj i = { o with pins := o.pins + b2n pin, intentIn := true
                               waits := o.waits ++ [⟨7, s.rowReply f, pin, false⟩] } ∧ only t) ∧
        (o.state = 5 → ∃ t, exec (.fetch f ctx h pin verify) s = .next t
          ∧ t.obj i = { o with pins := o.pins + b2n pin, intentIn := true, verify := o.verify || verify
                               waits := o.waits ++ [⟨7, s.rowReply f, pin, true⟩] } ∧ only t) ∧
        (o.state = 4 → s.findExtent (cdiv o.len 65536) = none → fails (.fetch f ctx h pin verify) 7 stNoObjectSlot 2) ∧
        (o.state = 4 → s.findExtent (cdiv o.len 65536) ≠ none → s.quotaFits o.ctx (cdiv o.len 65536) = false →
          fails (.fetch f ctx h pin verify) 7 stNoObjectSlot 3))) ∧
    (o.pins = 0 → fails (.unpin f ctx h) 8 stBadDescriptor 4) ∧ (0 < o.pins → fails (.free f ctx h) 9 stBadDescriptor 4) ∧
    (o.pins = 0 → o.slotRefs ≠ 0 → fails (.free f ctx h) 9 stBadDescriptor 5) ∧
    (o.state ≠ 2 → fails (.releaseT2 f ctx h) 10 stBadDescriptor 3) ∧
    (o.state ≠ 2 → o.state ≠ 3 → fails (.verify f ctx h) 11 stBadDescriptor 3) ∧
    (∀ pasid pv, o.state = 2 → o.pins = 0 → o.t2valid = true → o.units ≠ 0 → o.sums = [] → ∃ t, exec (.evict f ctx h 0 pasid pv) s = .next t
      ∧ t.obj i = { o with state := 4, t1 := 0, units := 0 }
      ∧ t.tier.exts = s.tier.exts ++ [⟨o.t1, o.units, some i, o.ctx, o.t1, s.t1Readers i o.t1 o.t1⟩]
      ∧ s.counted1 t TIER_EVICTS.COUNT 1 0 ∧ said t ∧ only t) ∧
    (∀ (addr : BitVec 64) (pasid : BitVec 20) pv, o.state = 2 → o.pins = 0 → addr ≠ 0 →
      let o := { o with state := 3, intentIn := false, t2valid := false, t2addr := addr.toNat, pasid := pasid.toNat, pv := pv }
      ∃ t, exec (.evict f ctx h addr pasid pv) s = .next t
        ∧ t.obj i = { o with waits := o.waits ++ [⟨6, s.rowReply f, false, false⟩] } ∧ only t) ∧
    (∀ pin verify, o.state = 1 ∨ o.state = 2 → pin = false ∨ o.pins < 65535 → verify = false ∨ o.crc ≠ none →
      ∃ t, exec (.fetch f ctx h pin verify) s = .next t ∧ t.obj i = { o with pins := o.pins + b2n pin } ∧ said t ∧ only t) ∧
    (∀ pin verify a, o.state = 4 → pin = false ∨ o.pins < 65535 → verify = false ∨ o.crc ≠ none →
      s.findExtent (cdiv o.len 65536) = some a →
      s.quotaFits o.ctx (cdiv o.len 65536) = true → ∃ t, exec (.fetch f ctx h pin verify) s = .next t
        ∧ (t.obj i).state = 5 ∧ (t.obj i).intentIn = true ∧ (t.obj i).verify = verify ∧ (t.obj i).t1 = a ∧ (t.obj i).units = cdiv o.len 65536 ∧ (t.obj i).pins = o.pins + b2n pin
        ∧ (t.obj i).waits = o.waits ++ [⟨7, s.rowReply f, pin, false⟩] ∧ only t) ∧
    (0 < o.pins → ∃ t, exec (.unpin f ctx h) s = .next t ∧ t.obj i = { o with pins := o.pins - 1 } ∧ said t ∧ only t) ∧
    (o.pins = 0 → o.slotRefs = 0 → o.units ≠ 0 → o.waits = [] → o.sums = [] → ∃ t, exec (.free f ctx h) s = .next t
      ∧ (t.obj i).state = 6 ∧ (t.obj i).units = 0 ∧ (t.obj i).waits = [⟨9, s.rowReply f, false, false⟩]
      ∧ t.tier.exts = s.tier.exts ++ [⟨o.t1, o.units, some i, o.ctx, o.t1, s.t1Readers i o.t1 o.t1⟩] ∧ only t) ∧
    (o.pins = 0 → o.slotRefs = 0 → o.units = 0 → o.t2refs = 0 → o.waits = [] → o.sums = [] → s.extOf i = false →
      ∃ t, exec (.free f ctx h) s = .next t ∧ t.obj i = { Obj.free with gen := if o.gen = 1023 then 1 else o.gen + 1 }
        ∧ t.tier.tail = s.tier.tail ++ [i] ∧ only t) ∧
    (o.state = 2 → o.t2refs = 0 → o.waits = [] → ∃ t, exec (.releaseT2 f ctx h) s = .next t
      ∧ t.obj i = { o with t2valid := false } ∧ s.tierSaid t f (s.handleOf i * 2 ^ 32) 0 ∧ only t) ∧
    (o.state = 2 → o.t2refs ≠ 0 → ∃ t, exec (.releaseT2 f ctx h) s = .next t
      ∧ t.obj i = { o with t2valid := false, waits := o.waits ++ [⟨0x0A, s.rowReply f, false, false⟩] } ∧ only t) ∧
    (o.state = 2 ∨ o.state = 3 → ∃ t, exec (.verify f ctx h) s = .next t
      ∧ t.obj i = { o with sums := o.sums ++ [(0x0B, s.rowReply f)] } ∧ only t)

/-- The completions, while the tier manager runs and nothing of their lines must be waited for. (A command given on a ring is
answered in host memory: the clauses on memory are of objects no ring command waits on.) -/
def Obligations.TierCopies : Prop :=
  ∀ (s : State) (entry : Fin 4194304), s.tierRuns = true →
    let o := s.obj entry
    let noRing : Prop := ∀ w ∈ o.waits, ∀ rg slot, w.reply ≠ .ring rg slot
    let ks := if o.len = 0 then [] else keysOf o.t1 o.len
    (o.state ≠ 3 ∨ s.hostUp = false → exec (.evictionCopyLands entry) s = .next s) ∧
    (o.state = 3 → s.hostUp = true → (s.prepare ks false).2 = false →
      exec (.evictionCopyLands entry) s = .next (s.prepare ks false).1) ∧
    (o.state ≠ 5 ∨ s.hostUp = false ∨ (o.sums.any (·.1 == 0x07)) = true → exec (.fetchCopyLands entry) s = .next s) ∧
    (o.state ≠ 3 → o.state ≠ 5 → ∀ why, exec (.copyFails entry why) s = .next s) ∧
    (o.sums = [] → exec (.checksumComplete entry) s = .next s) ∧
    (o.state = 3 → noRing → o.sums = [] → s.hostUp = true → o.intentIn = false → (s.prepare ks false).2 = true →
      let r := (s.prepare ks false).1.rangeRead o.t1 o.len 98 (s.ctxPart o.ctx)
      r.poison = false → ∃ t, exec (.evictionCopyLands entry) s = .next t ∧ (t.obj entry).state = 4
        ∧ (t.obj entry).t2valid = true ∧ (t.obj entry).units = 0
        ∧ t.hostMem = (r.st.hostWrite (s.copyFunc entry) (if o.pv then o.pasid else 0) o.t2addr r.data).hostMem) ∧
    (o.state = 3 → noRing → o.sums = [] → s.hostUp = true → o.intentIn = true → (s.prepare ks false).2 = true →
      let r := (s.prepare ks false).1.rangeRead o.t1 o.len 98 (s.ctxPart o.ctx)
      r.poison = false → ∃ t, exec (.evictionCopyLands entry) s = .next t ∧ (t.obj entry).state = 2
        ∧ (t.obj entry).t2valid = true ∧ (t.obj entry).units = (r.st.obj entry).units
        ∧ t.hostMem = (r.st.hostWrite (s.copyFunc entry) (if o.pv then o.pasid else 0) o.t2addr r.data).hostMem) ∧
    (o.state = 5 → s.hostUp = true → o.intentIn = true → o.verify = true → (o.sums.any (·.1 == 0x07)) = false →
      (s.prepare ks true).2 = true →
      ∃ t, exec (.fetchCopyLands entry) s = .next t ∧ (t.obj entry).state = 5
        ∧ (t.obj entry).sums = o.sums ++ [(0x07, .loader)]) ∧
    (o.state = 5 → s.hostUp = true → o.intentIn = false → (o.sums.any (·.1 == 0x07)) = false → (s.prepare ks true).2 = true →
      ∃ t, exec (.fetchCopyLands entry) s = .next t ∧ (t.obj entry).state = 4 ∧ (t.obj entry).units = 0) ∧
    (∀ reply rest x, o.state = 2 → o.sums = (0x0B, reply) :: rest → (s.prepare ks false).2 = true → o.crc = some x →
      let r := (s.prepare ks false).1.rangeRead o.t1 o.len (s.geyStream (o.t1 / 64)) (s.ctxPart o.ctx)
      ∃ t, exec (.checksumComplete entry) s = .next t ∧ (t.obj entry).crc = some x ∧ (t.obj entry).sums = rest
        ∧ (r.poison = true ∨ crc64 r.data ≠ x → t.on TIER_INT_STATUS.ERR = true ∧ t.rd TIER_ERR.STATUS = stEcc)) ∧
    (o.state = 5 → s.hostUp = true → o.intentIn = true → o.verify = false → (o.sums.any (·.1 == 0x07)) = false →
      (s.prepare ks true).2 = true →
      let r := (s.prepare ks true).1.hostRead (s.copyFunc entry) (if o.pv then o.pasid else 0) o.t2addr o.len
      ∃ t, exec (.fetchCopyLands entry) s = .next t ∧ (t.obj entry).state = 2
        ∧ t.hbm = (r.1.rangeWrite 98 (s.ctxPart o.ctx) o.t1 r.2).hbm) ∧
    (o.state = 3 → noRing → ∃ t, exec (.copyFails entry .hostLost) s = .next t ∧ (t.obj entry).state = 2
      ∧ (t.obj entry).t2valid = false ∧ s.sameStore t) ∧
    (o.state = 3 → noRing → ∃ t, exec (.copyFails entry .eccT1) s = .next t ∧ (t.obj entry).state = 2
      ∧ (t.obj entry).t2valid = false ∧ s.sameStore t) ∧
    (o.state = 5 → noRing → o.verify = true → ∃ t, exec (.copyFails entry .checksum) s = .next t ∧ (t.obj entry).state = 4
      ∧ (t.obj entry).units = 0 ∧ s.sameStore t) ∧
    (∀ (unit : BitVec 24) (e : Ext),
      (s.tier.exts.find? fun e => e.addr == unit.toNat * 65536 && e.refs == 0 && e.entry.isSome) = some e →
      (s.prepare (s.busyKeys e.addr (e.units * 65536)) true).2 = true →
      ∃ t, exec (.eraseComplete unit) s = .next t
        ∧ (∀ a, e.addr ≤ a → a < e.addr + e.units * 65536 → memGet t.hbm a = 0)
        ∧ (∀ x ∈ t.tier.exts, x.addr ≠ e.addr)) ∧
    (∀ reply rest, o.sums = (0x04, reply) :: rest → (s.prepare ks false).2 = true →
      let r := (s.prepare ks false).1.rangeRead o.t1 o.len (s.geyStream (o.t1 / 64)) (s.ctxPart o.ctx)
      r.poison = false → ∃ t, exec (.checksumComplete entry) s = .next t ∧ (t.obj entry).crc = some (crc64 r.data)
        ∧ (t.obj entry).sums = rest)

/-- TIER_ENABLE_FRESH, TIER_ENABLE_RECOVER, TIER_READY and TIER_DISABLE. -/
def Stated.TierControl : Prop :=
  ∀ (s : State) (o : Origin) (share : Fin 16), s.direct o →
    (s.on TIER_CTRL.EN = false → s.tierReject = stOK → share ≠ 0 → ∃ t, exec (.tierEnableFresh o share) s = .next t
      ∧ t.on TIER_CTRL.EN = true ∧ t.on TIER_CTRL.READY = false ∧ t.rd TIER_CTRL.REJECT = stOK ∧ t.tier.objs = []
      ∧ t.tier.ctxs = [(0, ⟨0, 0, 2 ^ 40 - 1⟩)] ∧ t.tier.exts.length = 1) ∧
    (s.on TIER_CTRL.EN = false → s.tierReject = stOK → share ≠ 0 → ∃ t, exec (.tierEnableRecover o share) s = .next t
      ∧ t.on TIER_CTRL.EN = true ∧ t.on TIER_CTRL.READY = false ∧ t.rd TIER_CTRL.MODE = 1 ∧ t.rd TIER_CTRL.REJECT = stOK
      ∧ t = { s with regs := t.regs, tier := { s.tier with recovering := true } }) ∧
    (s.on TIER_CTRL.EN = false → s.tierReject = stBadDescriptor → ∃ t, exec (.tierEnableFresh o share) s = .next t
      ∧ t.on TIER_CTRL.EN = false ∧ t.rd TIER_CTRL.REJECT = stBadDescriptor
      ∧ s.sameRegs t [TIER_CTRL.REJECT.key 0 0 0] ∧ t = { s with regs := t.regs }) ∧
    (s.on TIER_CTRL.EN = false → s.tierReject = stBadDescriptor → ∃ t, exec (.tierEnableRecover o share) s = .next t
      ∧ t.on TIER_CTRL.EN = false ∧ t.rd TIER_CTRL.REJECT = stBadDescriptor
      ∧ s.sameRegs t [TIER_CTRL.REJECT.key 0 0 0] ∧ t = { s with regs := t.regs }) ∧
    (s.on TIER_CTRL.EN = true ∨ s.tierReject = stOK → ∀ i ∈ [Instr.tierEnableFresh o 0, .tierEnableRecover o 0],
      ∃ t, exec i s = .next t ∧ t.rd TIER_CTRL.REJECT = stZeroWindow
      ∧ s.sameRegs t [TIER_CTRL.REJECT.key 0 0 0] ∧ t = { s with regs := t.regs }) ∧
    (s.on TIER_CTRL.EN = true → share ≠ 0 → ∀ recover : Bool,
      ∃ t, exec (if recover then .tierEnableRecover o share else .tierEnableFresh o share) s = .next t
      ∧ t.rd TIER_CTRL.MODE = b2n recover ∧ t.rd TIER_CTRL.ERASE_SHARE = share ∧ t.rd TIER_CTRL.REJECT = stOK
      ∧ s.sameRegs t [TIER_CTRL.MODE.key 0 0 0, TIER_CTRL.ERASE_SHARE.key 0 0 0, TIER_CTRL.REJECT.key 0 0 0]
      ∧ t = { s with regs := t.regs }) ∧
    (s.on TIER_CTRL.EN = false → exec (.tierDisable o) s = .next s) ∧
    (s.on TIER_CTRL.EN = false ∨ s.on TIER_CTRL.READY = true ∨ s.hub0Reset = true → exec .tierReady s = .next s) ∧
    (s.on TIER_CTRL.EN = true → s.tierIdle = true → ∃ t, exec (.tierDisable o) s = .next t
      ∧ t.on TIER_CTRL.EN = false ∧ t.on TIER_CTRL.READY = false ∧ t.rd TIER_CTRL.REJECT = stOK
      ∧ t = { s with regs := t.regs, hbm := s.putTables.hbm, hbmPoison := s.putTables.hbmPoison }) ∧
    (s.on TIER_CTRL.EN = true → s.tierIdle = false → ∃ t, exec (.tierDisable o) s = .next t
      ∧ t.on TIER_CTRL.EN = true ∧ t.rd TIER_CTRL.REJECT = stBadDescriptor ∧ t = { s with regs := t.regs }) ∧
    (s.on TIER_CTRL.EN = true → s.on TIER_CTRL.READY = false → s.hub0Reset = false → s.tier.recovering = false → s.tier.waiting = [] →
      ∃ t, exec .tierReady s = .next t ∧ t.on TIER_CTRL.READY = true ∧ t.on TIER_INT_STATUS.READY = true
        ∧ (∀ e ∈ t.tier.exts, e.entry.isSome = true) ∧ t.tier.objs = s.tier.objs) ∧
    (s.on TIER_CTRL.EN = true → s.on TIER_CTRL.READY = false → s.hub0Reset = false → s.tier.recovering = true → s.metaPoisoned = true →
      ∃ t, exec .tierReady s = .next t ∧ t.on TIER_CTRL.EN = false ∧ t.rd TIER_CTRL.REJECT = stEcc) ∧
    (s.on TIER_CTRL.EN = true → s.on TIER_CTRL.READY = false → s.hub0Reset = false → s.tier.recovering = true →
      s.metaPoisoned = false → s.readTables.poison = false → s.tier.waiting = [] →
      let r := s.readTables.st.rangeRead (s.headerLine * 64) 64 98 0
      r.poison = false →
      (r.data = s.tierHeader → s.readTables.good = true → ∃ t, exec .tierReady s = .next t ∧ t.on TIER_CTRL.READY = true
        ∧ (∀ e ∈ t.tier.exts, e.refs = 0) ∧ (∀ e ∈ t.tier.objs, e.2.t1refs = 0 ∧ e.2.t2refs = 0 ∧ e.2.slotRefs = 0)) ∧
      (r.data ≠ s.tierHeader ∨ s.readTables.good = false → ∃ t, exec .tierReady s = .next t ∧ t.on TIER_CTRL.EN = false
        ∧ t.rd TIER_CTRL.REJECT = stBadDescriptor ∧ t.tier = s.readTables.st.tier))

/-- Contexts of the tier manager, and its enabling and disabling: its parts together. -/
def Obligations.TierTables : Prop :=
  Stated.TierContexts ∧ Stated.TierControl

/-- CORE_LOAD by a free hart: completed, poisoned, missing, uncached, I/O, misaligned I/O, and too high or protected an address (PMP
is log entry 176's). x0 takes nothing. -/
def Obligations.CoreLoads : Prop :=
  ∀ (s : State) (h : Fin 96) (rd : Fin 32) (addr : BitVec 64) (size : Fin 4) (signed : Bool), s.hartFree h = true →
    let a := addr.toNat
    let n := 2 ^ size.val
    let bytes := (List.range n).filterMap fun i => s.coreByte h (a + i)
    let main := s.barred h a n false = false ∧ s.rangeOf a n = .main
    (main → bytes.length = n → s.coreBad h a n = false → ∃ t, exec (.coreLoad h rd addr size signed .none) s = .next t
      ∧ t.xreg h rd = (if rd = 0 then 0 else loadValue n signed bytes % 2 ^ 64)
      ∧ (∀ r, r < 32 → r ≠ rd.val → t.xreg h r = s.xreg h r)
      ∧ t = { s with cores := { s.cores with xregs := t.cores.xregs } }) ∧
    (main → bytes.length = n → s.coreBad h a n = true →
      exec (.coreLoad h rd addr size signed .none) s = .next (s.consumePoison h 5 a)) ∧
    (∀ i, main → bytes.length ≠ n → ((List.range n).find? fun i => (s.coreByte h (a + i)).isNone) = some i →
      (s.line (hbmKey (a + i)) h).st = .i → s.l2Full h = false → ∃ t, exec (.coreLoad h rd addr size signed .none) s = .next t
        ∧ t.line (hbmKey (a + i)) h =
          { s.line (hbmKey (a + i)) h with st := .isD, miss := some (.load rd a n signed) }
        ∧ t.coh.net = s.coh.net ++ [.req (hbmKey (a + i)) ⟨.rds, some h, h, none, false⟩]
        ∧ t = { s with coh := t.coh, cores := t.cores }) ∧
    (let buf := (s.core h).buf;
      main → ∃ t, exec (.coreLoad h rd addr size signed .nc) s = .next t ∧ t = { s with coh := t.coh, cores := t.cores }
        ∧ ((∀ i, i < n → ∃ b, bufByte buf (a + i) = some b) → t.coh = s.coh ∧ t.xreg h rd = (if rd = 0 then 0
          else loadValue n signed ((List.range n).map fun i => (bufByte buf (a + i)).getD 0) % 2 ^ 64))
        ∧ (∀ k more, (keysOf a n).filter (lacks buf a n) = k :: more →
          (t.core h).pend = some ⟨.load rd a n signed, k :: more, (List.range n).filterMap fun i =>
            (bufByte buf (a + i)).map fun b => (i, b)⟩
          ∧ t.coh.net = s.coh.net ++ [.req k ⟨.rdcur, none, h, none, false⟩])) ∧
    (∀ p, s.barred h a n false = false → s.rangeOf a n ≠ .main → a % n ≠ 0 →
      exec (.coreLoad h rd addr size signed p) s = .next (s.trap h 4 a)) ∧
    (main → exec (.coreLoad h rd addr size signed .io) s =
      if (s.core h).ioStores then .next s else exec (.coreLoad h rd addr size signed .nc) s) ∧
    (∀ p, s.barred h a n false = false → s.rangeOf a n ≠ .main → a % n = 0 →
      let answered (u : State) : Prop :=
        (u.resp.poison = true → exec (.coreLoad h rd addr size signed p) s = .next (u.consumePoison h 5 a)) ∧
        (u.resp.poison = false → ∃ t, exec (.coreLoad h rd addr size signed p) s = .next t
          ∧ t.xreg h rd = (if rd = 0 then 0 else loadValue n signed u.resp.data % 2 ^ 64)
          ∧ t = { u with cores := { u.cores with xregs := t.cores.xregs } })
      ((s.core h).ioStores = true → exec (.coreLoad h rd addr size signed p) s = .next s) ∧
      ((s.core h).ioStores = false → (s.rangeOf a n = .window → answered (s.window (hartOrigin h) a n none)) ∧
        (s.rangeOf a n = .register → answered (s.readReg (hartOrigin h) a n)) ∧
        (s.rangeOf a n = .unmapped → answered (s.unmapped (hartOrigin h) a n false)) ∧
        (s.rangeOf a n = .cocoon → s.inWindow a = true → ∃ t, exec (.coreLoad h rd addr size signed p) s = .next t
          ∧ (t.core h).pend = some ⟨.load rd a n signed, [], []⟩ ∧ t = { s with cores := { s.cores with core := t.cores.core } }))) ∧
    (∀ p, tooHigh a = true ∨ s.pmpLets h a n false = false →
      exec (.coreLoad h rd addr size signed p) s = .next (s.trap h 5 a))

/-- CORE_STORE by a free hart: the store buffer then supplies exactly the register's bytes at the store's addresses. -/
def Stated.CoreStores : Prop :=
  ∀ (s : State) (h : Fin 96) (rs : Fin 32) (addr : BitVec 64) (size : Fin 4), s.hartFree h = true →
    let a := addr.toNat
    let n := 2 ^ size.val
    let bytes := leBytes n (s.xreg h rs)
    let only (t : State) : Prop := t = { s with cores := { s.cores with core := t.cores.core, hpm := t.cores.hpm } }
    (∀ p, p = Pbmt.none ∨ p = .nc → s.barred h a n true = false → s.rangeOf a n = .main →
      (s.core h).buf.length + (s.core h).storeNeeds (storeParts a bytes) (p == .nc) ≤ 64 →
      ∃ t, exec (.coreStore h rs addr size p) s = .next t
        ∧ (∀ i, i < n → bufByte (t.core h).buf (a + i) = some (bytes.getD i 0))
        ∧ (∀ b, b < a ∨ a + n ≤ b → bufByte (t.core h).buf b = bufByte (s.core h).buf b)
        ∧ only t) ∧
    (s.barred h a n true = false → s.rangeOf a n = .main → (s.core h).buf.length < 64 →
      ∃ t, exec (.coreStore h rs addr size .io) s = .next t
        ∧ (t.core h).buf = (s.core h).buf ++ [⟨a / 64, [], some (a, bytes), false, false, false⟩] ∧ only t) ∧
    (∀ p, s.barred h a n true = false → s.rangeOf a n ≠ .main → a % n = 0 → (s.core h).buf.length < 64 →
      ∃ t, exec (.coreStore h rs addr size p) s = .next t
        ∧ (t.core h).buf = (s.core h).buf ++ [⟨a / 64, [], some (a, bytes), false, false, false⟩] ∧ only t) ∧
    (∀ p, s.barred h a n true = false → s.rangeOf a n ≠ .main → a % n ≠ 0 →
      exec (.coreStore h rs addr size p) s = .next (s.trap h 6 a)) ∧
    (∀ p, p = Pbmt.none ∨ p = .nc → s.barred h a n true = false → s.rangeOf a n = .main →
      64 < (s.core h).buf.length + (s.core h).storeNeeds (storeParts a bytes) (p == .nc) →
      exec (.coreStore h rs addr size p) s = .next s) ∧
    (∀ p, s.barred h a n true = false → (s.rangeOf a n = .main ∧ p = .io) ∨ (s.rangeOf a n ≠ .main ∧ a % n = 0) →
      64 ≤ (s.core h).buf.length → exec (.coreStore h rs addr size p) s = .next s) ∧
    (∀ p, tooHigh a = true ∨ s.pmpLets h a n true = false →
      exec (.coreStore h rs addr size p) s = .next (s.trap h 7 a))

/-- STORE_BUFFER_DRAIN of a cacheable, an uncached and an I/O head, and UNCACHED_STORE_FAIL. -/
def Stated.CoreDrains : Prop :=
  ∀ (s : State) (h : Fin 96),
    (∀ e rest, (s.core h).buf = e :: rest → e.io = none → e.nc = false → (s.core h).going = none →
      let k := lineKey false e.line
      let l := s.line k h
      l.st.writable = true → ∃ t, exec (.storeBufferDrain h) s = .next t
        ∧ t.line k h = { l with st := .m, data := e.onto l.data, poison := l.poison && !e.zero }
        ∧ (t.core h).buf = rest ∧ t = { s with coh := t.coh, cores := t.cores }) ∧
    ((s.core h).buf = [] → exec (.storeBufferDrain h) s = .next s) ∧
    (∀ e rest, (s.core h).buf = e :: rest → let u := (s.askWritable h).beginHead h
      (e.io = none → e.nc = false → (s.line (lineKey false e.line) h).st.writable = false →
        exec (.storeBufferDrain h) s = .next u) ∧
      (∀ a bytes, e.io = some (a, bytes) → u.orderedOpen h none = true → exec (.storeBufferDrain h) s = .next u) ∧
      (∀ a bytes, e.io = some (a, bytes) → u.orderedOpen h none = false → u.rangeOf a bytes.length = .register →
        exec (.storeBufferDrain h) s = .next ((u.writeReg (hartOrigin h) a bytes.length (leNat bytes)).popStore h)) ∧
      (∀ a bytes, e.io = some (a, bytes) → u.orderedOpen h none = false → u.rangeOf a bytes.length = .unmapped →
        exec (.storeBufferDrain h) s
          = .next (((u.unmapped (hartOrigin h) a bytes.length true).storeFailed h a stBadDescriptor).popStore h)) ∧
      (e.io = none → e.nc = true → let k := lineKey false e.line
        let p := u.storeHome h (e.line * 64) [k] fun v part => v.engineMerge k h part (e.bytes.length == 64) e.onto
        (u.orderedOpen h none = true → exec (.storeBufferDrain h) s = .next u) ∧
        (u.orderedOpen h none = false → p.2 = false → exec (.storeBufferDrain h) s = .next p.1) ∧
        (u.orderedOpen h none = false → p.2 = true → exec (.storeBufferDrain h) s = .next (p.1.popStore h)))) ∧
    (∀ (a : BitVec 40) (st : Fin 17), s.on mbuserr.VALID h = false → ∃ t, exec (.uncachedStoreFail h a st) s = .next t
      ∧ t.rd mbuserr.ADDR h = a.toNat ∧ t.rd mbuserr.STATUS h = st ∧ t.on mbuserr.VALID h = true
      ∧ bit (t.core h).mip 24 = true
      ∧ s.sameRegs t [mbuserr.ADDR.key h 0 0, mbuserr.STATUS.key h 0 0, mbuserr.VALID.key h 0 0]
      ∧ t = { s with regs := t.regs, cores := { s.cores with core := t.cores.core } }) ∧
    (∀ (a : BitVec 40) (st : Fin 17), s.on mbuserr.VALID h = true → ∃ t, exec (.uncachedStoreFail h a st) s = .next t
      ∧ t.rd mbuserr.MORE h = 1 ∧ bit (t.core h).mip 24 = true ∧ s.sameRegs t [mbuserr.MORE.key h 0 0]
      ∧ t = { s with regs := t.regs, cores := { s.cores with core := t.cores.core } })

/-- Stores of a hart, the drain of the store buffer and late failures: its parts together. -/
def Obligations.CoreWrites : Prop :=
  Stated.CoreStores ∧ Stated.CoreDrains

/-- AMO, LR and SC by a free hart: while its store buffer holds stores, on main memory when it is empty, and where they trap. -/
def Obligations.CoreAtomics : Prop :=
  (∀ (s : State) (h : Fin 96) (op : AmoOp) (rd rs : Fin 32) (addr : BitVec 64) (size : Fin 4) (sz : Fin 5) (p : Pbmt),
    (s.core h).buf ≠ [] → let a := addr.toNat
    (amoReserved op sz rd rs = false → a % 2 ^ sz.val = 0 → s.barred h a (2 ^ sz.val) true = false →
      s.rangeOf a (2 ^ sz.val) = .main → exec (.amo h op rd rs addr sz p) s = .next s) ∧
    (2 ≤ size.val → a % 2 ^ size.val = 0 → s.rangeOf a (2 ^ size.val) = .main →
      (s.barred h a (2 ^ size.val) false = false → p = .none → exec (.lr h rd addr size p) s = .next s) ∧
      (s.barred h a (2 ^ size.val) true = false → exec (.sc h rd rs addr size p) s = .next s))) ∧
  ∀ (s : State) (h : Fin 96) (rd rs : Fin 32) (addr : BitVec 64), s.hartFree h = true → (s.core h).buf = [] →
    let a := addr.toNat
    let k := hbmKey a
    let l := s.line k h
    let off := a % 64
    let rdIs (t : State) (v : Nat) : Prop := t.xreg h rd = if rd = 0 then 0 else v % 2 ^ 64
    let only (t : State) : Prop := t = { s with coh := t.coh, cores := t.cores }
    (∀ (op : AmoOp) (size : Fin 5),
      let n := 2 ^ size.val
      let x := s.operand h rs n
      let old := leNat ((l.data.drop off).take n)
      amoReserved op size rd rs = false → a % n = 0 → s.barred h a n true = false →
      s.rangeOf a n = .main →
      (s.goesFar h k n = false → l.st.writable = true → l.poison = false →
        ∃ t, exec (.amo h op rd rs addr size .none) s = .next t
          ∧ (t.line k h).data = (l.put off (leBytes n (amoResult op (8 * n) old x (s.operand h rd n)))).data
          ∧ (t.line k h).st = .m ∧ (n ≤ 8 → rdIs t (loadValue n true (leBytes n old))) ∧ only t) ∧
      (s.goesFar h k n = true → ∃ t, exec (.amo h op rd rs addr size .none) s = .next t
        ∧ (t.core h).pend = some ⟨.amo op rd a n x (s.operand h rd n), [k], []⟩
        ∧ t.coh.net = s.coh.net ++ [.req k ⟨.atomf op off n x (s.operand h rd n), some h.val, h, none, false⟩] ∧ only t)) ∧
    (∀ (op : AmoOp) (size : Fin 5) p, amoReserved op size rd rs = false → a % 2 ^ size.val ≠ 0 →
      exec (.amo h op rd rs addr size p) s = .next (s.trap h 6 a)) ∧
    (∀ (op : AmoOp) (size : Fin 5) p, let n := 2 ^ size.val
      (amoReserved op size rd rs = true → exec (.amo h op rd rs addr size p) s = .next (s.trap h 2 0)) ∧
      (amoReserved op size rd rs = false → a % n = 0 → s.barred h a n true = true ∨ s.rangeOf a n ≠ .main →
        exec (.amo h op rd rs addr size p) s = .next (s.trap h 7 a)) ∧
      (amoReserved op size rd rs = false → a % n = 0 → s.barred h a n true = false → s.rangeOf a n = .main → p ≠ .none →
        ∃ t, exec (.amo h op rd rs addr size p) s = .next t
          ∧ t.coh.net = s.coh.net ++ [.req k ⟨.atomf op off n (s.operand h rs n) (s.operand h rd n), none, h, none, false⟩]
          ∧ only t) ∧
      (amoReserved op size rd rs = false → a % n = 0 → s.barred h a n true = false → s.rangeOf a n = .main →
        s.goesFar h k n = false → l.st.writable = true → l.poison = true →
        exec (.amo h op rd rs addr size .none) s = .next (s.consumePoison h 7 a))) ∧
    (∀ (size : Fin 4) p, let n := 2 ^ size.val
      (n < 4 → exec (.lr h rd addr size p) s = .next (s.trap h 2 0) ∧ exec (.sc h rd rs addr size p) s = .next (s.trap h 2 0)) ∧
      (4 ≤ n → a % n ≠ 0 → exec (.lr h rd addr size p) s = .next (s.trap h 4 a)
        ∧ exec (.sc h rd rs addr size p) s = .next (s.trap h 6 a)) ∧
      (4 ≤ n → a % n = 0 → s.barred h a n false = true ∨ s.rangeOf a n ≠ .main ∨ p ≠ .none →
        exec (.lr h rd addr size p) s = .next (s.trap h 5 a)) ∧
      (4 ≤ n → a % n = 0 → s.barred h a n true = true ∨ s.rangeOf a n ≠ .main →
        exec (.sc h rd rs addr size p) s = .next (s.trap h 7 a)) ∧
      (4 ≤ n → a % n = 0 → s.barred h a n true = false → s.rangeOf a n = .main → p ≠ .none →
        ∃ t, exec (.sc h rd rs addr size p) s = .next t ∧ (t.core h).resv = none ∧ rdIs t 1 ∧ t.coh = s.coh ∧ only t) ∧
      (4 ≤ n → a % n = 0 → s.barred h a n false = false → s.rangeOf a n = .main →
        (l.st.writable = true → l.poison = true → exec (.lr h rd addr size .none) s = .next (s.consumePoison h 5 a)) ∧
        (l.st = .i → s.l2Full h = false → ∃ t, exec (.lr h rd addr size .none) s = .next t
          ∧ t.line k h = { l with st := .imD, miss := some (.lr rd a n) }
          ∧ t.coh.net = s.coh.net ++ [.req k ⟨.rdx, some h, h, none, false⟩] ∧ only t))) ∧
    (∀ size : Fin 4,
      let n := 2 ^ size.val
      4 ≤ n → a % n = 0 → s.barred h a n false = false → s.barred h a n true = false → s.rangeOf a n = .main →
      l.st.writable = true →
      (l.poison = false → ∃ t, exec (.lr h rd addr size .none) s = .next t ∧ (t.core h).resv = some k
        ∧ rdIs t (loadValue n true ((l.data.drop off).take n)) ∧ t.coh = s.coh ∧ only t) ∧
      ((s.core h).resv = some k → ∃ t, exec (.sc h rd rs addr size .none) s = .next t ∧ (t.core h).resv = none
        ∧ t.line k h = { l.put off (leBytes n (s.xreg h rs)) with st := .m } ∧ rdIs t 0 ∧ only t) ∧
      ((s.core h).resv ≠ some k → ∃ t, exec (.sc h rd rs addr size .none) s = .next t ∧ (t.core h).resv = none
        ∧ t.coh = s.coh ∧ rdIs t 1 ∧ only t))

/-- FENCE, CBO.ZERO, CBO.CLEAN, CBO.FLUSH and CBO.INVAL by a free hart. (That CLEAN gives the line up too is log entry 65's choice,
and the trap at CBIE 0 and 2 log entry 64's.) -/
def Obligations.CoreBlocks : Prop :=
  ∀ (s : State) (h : Fin 96) (addr : BitVec 64), s.hartFree h = true →
    let a := addr.toNat
    let k := hbmKey a
    let l := s.line k h
    ((s.core h).buf ≠ [] → ∃ t, exec (.fence h true true) s = .next t ∧ t.core h = { s.core h with fenced := true }
      ∧ t = { s with cores := { s.cores with core := t.cores.core } }) ∧
    ((s.core h).buf = [] → ∀ p q, exec (.fence h p q) s = .next s) ∧
    (∀ p q : Bool, p = false ∨ q = false → exec (.fence h p q) s = .next s) ∧
    (s.barred h (a / 64 * 64) 64 true = false → s.rangeOf (a / 64 * 64) 64 = .main → (s.core h).buf.length < 64 →
      ∃ t, exec (.cboZero h addr) s = .next t ∧ (t.core h).buf.length = (s.core h).buf.length + 1
        ∧ (∀ i, i < 64 → bufByte (t.core h).buf (a / 64 * 64 + i) = some 0)
        ∧ t = { s with cores := { s.cores with core := t.cores.core } }) ∧
    (s.barred h (a / 64 * 64) 64 true = false → s.rangeOf (a / 64 * 64) 64 = .main → s.otherCores k h = [] →
      s.l2Full h = false → ((s.core h).buf.any fun e => e.cached && e.line == a / 64) = false → l.st = .m →
      let gives (i : Instr) (st : CState) (put : ReqKind) : Prop := ∃ t, exec i s = .next t
        ∧ t.line k h = { l with st := st } ∧ t.coh.net = s.coh.net ++ [.req k ⟨put, some h, h, none, false⟩]
        ∧ (t.core h).resv ≠ some k ∧ t = { s with coh := t.coh, cores := { s.cores with core := t.cores.core } }
      gives (.cboClean h addr) .miA (.putm l.data l.poison) ∧ gives (.cboFlush h addr) .miA (.putm l.data l.poison) ∧
      (∀ cbie, gives (.cboInval h addr true cbie) .eiA .pute) ∧
      gives (.cboInval h addr false 1) .miA (.putm l.data l.poison)) ∧
    (∀ st st' put i, (st, st', put) ∈ [(CState.e, CState.eiA, ReqKind.pute), (.s, .siA, .puts), (.o, .oiA, .putm l.data l.poison)] →
      i ∈ [Instr.cboClean h addr, .cboFlush h addr, .cboInval h addr true 0] →
      s.barred h (a / 64 * 64) 64 true = false → s.rangeOf (a / 64 * 64) 64 = .main → s.otherCores k h = [] →
      s.l2Full h = false → ((s.core h).buf.any fun e => e.cached && e.line == a / 64) = false → l.st = st →
      ∃ t, exec i s = .next t ∧ t.line k h = { l with st := st' }
        ∧ t.coh.net = s.coh.net ++ [.req k ⟨put, some h, h, none, false⟩]
        ∧ (t.core h).resv ≠ some k ∧ t = { s with coh := t.coh, cores := { s.cores with core := t.cores.core } }) ∧
    (∀ i, i ∈ [Instr.cboClean h addr, .cboFlush h addr, .cboInval h addr true 0] →
      let at_ := a / 64 * 64
      (s.barred h at_ 64 true = true → s.barred h at_ 64 false = true → exec i s = .next (s.trap h 7 a)) ∧
      (s.barred h at_ 64 true = false ∨ s.barred h at_ 64 false = false → s.rangeOf at_ 64 ≠ .main
        ∨ ((s.core h).buf.any fun e => e.cached && e.line == a / 64) = true
        ∨ (s.otherCores k h ≠ [] ∧ s.lineFree k = false) → exec i s = .next s)) ∧
    (s.barred h (a / 64 * 64) 64 true = true ∨ s.rangeOf (a / 64 * 64) 64 ≠ .main →
      exec (.cboZero h addr) s = .next (s.trap h 7 a)) ∧
    (s.barred h (a / 64 * 64) 64 true = false → s.rangeOf (a / 64 * 64) 64 = .main → 64 ≤ (s.core h).buf.length →
      exec (.cboZero h addr) s = .next s) ∧
    (∀ cbie, exec (.cboInval h addr true cbie) s = exec (.cboInval h addr true 0) s) ∧
    (exec (.cboInval h addr false 3) s = exec (.cboInval h addr true 0) s) ∧
    (exec (.cboInval h addr false 1) s = exec (.cboFlush h addr) s) ∧
    (exec (.cboInval h addr false 0) s = .next (s.trap h 2 0)) ∧
    (exec (.cboInval h addr false 2) s = .next (s.trap h 2 0))

/-- WFI and CORE_WAKE. -/
def Stated.CoreSleep : Prop :=
  ∀ (s : State) (h : Fin 96),
    (s.hartFree h = false ∨ s.interruptDue h = true → exec (.wfi h) s = .next s) ∧
    (s.hartFree h = true → s.interruptDue h = false → s.rd mcorepwr.DEEP h ≠ 0 → (s.core h).buf ≠ [] →
      ∃ t, exec (.wfi h) s = .next t ∧ t.core h = { s.core h with going := some (s.rd mcorepwr.DEEP h), wakeDue := false }
        ∧ t = { s with cores := { s.cores with core := t.cores.core } }) ∧
    (s.hartFree h = true → s.interruptDue h = false → s.rd mcorepwr.DEEP h = 2 → (s.core h).buf = [] → s.linesOf h = [] →
      ∃ t, exec (.wfi h) s = .next t ∧ (t.core h).power = 3 ∧ (t.core h).going = none
        ∧ t = { s with cores := { s.cores with core := t.cores.core } }) ∧
    (∀ src, (s.core h).going = none → (s.core h).power = 0 ∨ ((s.core h).power = 1 ∨ (s.core h).power = 2) ∧ s.interruptDue h = false
      ∨ ((s.core h).power = 3 ∧ s.wakesOff h src = false) ∨ ((s.core h).power = 4 ∧ src ≠ .hawkmoth) →
      exec (.coreWake h src) s = .next s) ∧
    (∀ src d, (s.core h).going = some d → (if d = 2 then s.wakesOff h src else s.interruptDue h) = true →
      ∃ t, exec (.coreWake h src) s = .next t ∧ t.core h = { s.core h with wakeDue := true }
        ∧ t = { s with cores := { s.cores with core := t.cores.core } }) ∧
    ((s.core h).going = none → (s.core h).power = 4 → s.board.boot = .running → s.hartsReset = false →
      s.rst.groupsOff.contains (h.val / 8) = false →
      ∃ t, exec (.coreWake h .hawkmoth) s = .next t
        ∧ t.core h = { s.core h with power := 0, vector := Config.resetVector h % 2 ^ 64 }
        ∧ t = { s with cores := { s.cores with core := t.cores.core } }) ∧
    (s.hartFree h = true → s.interruptDue h = false → s.rd mcorepwr.DEEP h = 0 →
      ∃ t, exec (.wfi h) s = .next t ∧ t.core h = { s.core h with power := 1 }
        ∧ t = { s with cores := { s.cores with core := t.cores.core } }) ∧
    (s.hartFree h = true → s.interruptDue h = false → s.rd mcorepwr.DEEP h = 1 → (s.core h).buf = [] →
      ((s.linesOf h).any fun e => !e.2.st.stable) = false →
      ∃ t, exec (.wfi h) s = .next t ∧ (t.core h).power = 2 ∧ (t.core h).going = none
        ∧ t = { s with cores := { s.cores with core := t.cores.core } }) ∧
    (∀ src, (s.core h).going = none → (s.core h).power = 1 ∨ (s.core h).power = 2 → s.interruptDue h = true →
      ∃ t, exec (.coreWake h src) s = .next t ∧ t.core h = { s.core h with power := 0 }
        ∧ t.rd mcorepwr.LAST h = (s.core h).power - 1 ∧ s.sameRegs t [mcorepwr.LAST.key h 0 0]
        ∧ t = { s with regs := t.regs, cores := { s.cores with core := t.cores.core } }) ∧
    (∀ src, (s.core h).going = none → (s.core h).power = 3 → s.wakesOff h src = true →
      ∃ t, exec (.coreWake h src) s = .next t ∧ (t.core h).power = 0 ∧ (t.core h).vector = (s.core h).vector
        ∧ t.rd mcorepwr.LAST h = 2 ∧ t.rd mwdog.FIRED h = s.rd mwdog.FIRED h % 2 ^ mwdog.FIRED.width
        ∧ (∀ r, r < 32 → t.xreg h r = 0) ∧ (∀ n, n < 4096 → t.csr h n = State.reset.csr h n)
        ∧ t.comparator h .stimecmp = 0 ∧ t.comparator h .vstimecmp = 0
        ∧ t.comparator h .mtimecmp = s.comparator h .mtimecmp
        ∧ t = { s with regs := t.regs, cores := t.cores })

/-- INTERRUPT, IMSIC_WRITE, TIMER_COMPARE, CORE_WATCHDOG, KICK, FLUSH and DEBUG_HALT. -/
def Stated.CoreEvents : Prop :=
  ∀ (s : State) (h : Fin 96),
    let c := s.core h
    let core (i : Instr) (d : Core) : Prop := ∃ t, exec i s = .next t ∧ t.core h = d
      ∧ (∀ j, j ≠ h.val → t.core j = s.core j) ∧ t = { s with cores := { s.cores with core := t.cores.core } }
    (∀ cause : BitVec 64, s.hartIdle h = true →
      (cause.toNat < 2 ^ 63 ∨ 2 ^ 63 + 64 ≤ cause.toNat ∨ bit (s.csr h 0x303) (cause.toNat - 2 ^ 63) = false →
        core (.interrupt h false cause) { c with mcause := cause.toNat, mtval := 0, fenced := false }) ∧
      (∀ i, i < 64 → cause.toNat = 2 ^ 63 + i → bit (s.csr h 0x303) i = true → bit (s.csr h 0x603) i = false →
        ∃ t, exec (.interrupt h false cause) s = .next t ∧ t.csr h 0x142 = cause.toNat ∧ t.csr h 0x143 = 0
          ∧ t.core h = { c with fenced := false }
          ∧ t = { s with cores := { s.cores with core := t.cores.core, csrs := t.cores.csrs } }) ∧
      core (.interrupt h true cause) { c with mncause := cause.toNat, fenced := false }) ∧
    (∀ (o : Origin) (f : ImsicFile) (id : BitVec 32), coherentAgent o = true → id ≠ 0 →
      id.toNat ≤ imsicTop (imsicFile h f) → ∃ t, exec (.imsicWrite o h f id) s = .next t
        ∧ bit (t.eip (imsicFile h f)) id.toNat = true
        ∧ (∀ k, k ≠ id.toNat → bit (t.eip (imsicFile h f)) k = bit (s.eip (imsicFile h f)) k)
        ∧ t = { s with irq := { s.irq with imsic := t.irq.imsic } }) ∧
    (∀ k : TimerKind,
      core (.timerCompare h k) { c with mip := setBit c.mip (timerBit k) (decide (s.comparator h k ≤ s.cores.mtime)) }) ∧
    (s.on mwdog.EN h = true → c.power = 0 → s.dogPeriod h ≤ c.dog → c.expired = false →
      ∃ t, exec (.coreWatchdog h) s = .next t ∧ t.rd mwdog.FIRED h = 1
        ∧ t.core h = { c with mncause := 0x8000000000000100, dog := 0, expired := true, fenced := false }
        ∧ t = { s with regs := t.regs, cores := { s.cores with core := t.cores.core } }) ∧
    (s.on mwdog.EN h = true → c.power = 0 → s.dogPeriod h ≤ c.dog → c.expired = true →
      exec (.coreWatchdog h) s = .next (((s.setCore h fun c => { c with dog := 0 }).rasEvent stCounterTimeout 16 h 0
        .uncorr).countedReset (dCore, 0) 1 stCounterTimeout)) ∧
    (s.on mwdog.EN h = false ∨ c.power ≠ 0 ∨ c.dog < s.dogPeriod h → exec (.coreWatchdog h) s = .next s) ∧
    (s.hartFree h = false → exec (.kick h) s = .next s ∧ exec (.flush h) s = .next s) ∧
    (s.hartIdle h = false → exec (.debugHalt h) s = .next s ∧ ∀ b cause, exec (.interrupt h b cause) s = .next s) ∧
    (bit (s.rd SEC_STATUS.DEBUG) 1 = false → exec (.debugHalt h) s = .next s) ∧
    (∀ (o : Origin) (f : ImsicFile) (id : BitVec 32), coherentAgent o = false ∨ id = 0 ∨ imsicTop (imsicFile h f) < id.toNat →
      exec (.imsicWrite o h f id) s = .next s) ∧
    (s.hartFree h = true → core (.kick h) { c with dog := 0, expired := false }) ∧
    (s.hartFree h = true → core (.flush h) { c with pred := [] }) ∧
    (bit (s.rd SEC_STATUS.DEBUG) 1 = true → s.hartIdle h = true →
      core (.debugHalt h) { c with debug := if c.buf.isEmpty then 2 else 1, fenced := false })

/-- Sleep, wake, interrupts, timers, the watchdog and the debug halt of a hart: its parts together. -/
def Obligations.CoreWaking : Prop :=
  Stated.CoreSleep ∧ Stated.CoreEvents

/-- What a home that idles at a line does with a request for it (R284): it reads the line, snoops the holders, completes a Put, or
writes. The line is `k`, the caching agent that asks `a`, and the stream of a requester that keeps no copy `st`. -/
def Stated.HomeTakes : Prop :=
  ∀ (s : State) (l : Line) (a : Fin 97) (st : Nat), s.homeIdle l.key → s.streamOpen st = true →
    let k := l.key
    let n := s.home k
    let req (kind : ReqKind) : Req := ⟨kind, some a.val, a, none, false⟩
    let ask (kind : ReqKind) : Req := ⟨kind, none, st, none, false⟩
    let came (kind : ReqKind) : Prop := s.coh.net.contains (.req k (req kind)) = true
    let left (r : Req) : List Msg := s.coh.net.erase (.req k r)
    let waits (t : State) (r : Req) (l : List Nat) (mem : Bool) : Prop :=
      (t.txn k).map (fun x => (x.req, x.waiting, x.needMem)) = some (some r, l, mem)
    let snp (kd : SnpKind) (x : Nat) : Msg := if x = hostAgent then .bisnp k kd else .snp k kd x
    let only (t : State) : Prop := t = { s with coh := t.coh, regs := t.regs }
    let free : Prop := s.orderedOpen st (some k) = false
    (∀ w err sc, s.entry k = none → s.freeWay n (dirSet (keyAddr k)) = some w →
      (came .rds → ∃ t, exec (.rds l ⟨some a, a⟩ none err sc) s = .next t ∧ t.entry k = some (.empty w (s.coh.tick + 1))
        ∧ waits t (req .rds) [] true
        ∧ t.coh.net = left (req .rds) ++ if keyHost k then [.toHost k "RdShared"] else []) ∧
      (came .rdx → ∃ t, exec (.rdx l ⟨some a, a⟩ none err) s = .next t ∧ t.entry k = some (.empty w (s.coh.tick + 1))
        ∧ waits t (req .rdx) [] true
        ∧ t.coh.net = left (req .rdx) ++ if keyHost k then [.toHost k "RdOwn"] else [])) ∧
    (∀ e x sc, s.entry k = some e → e.owner = some x →
      s.awaits k x = false →
      (came .rds → ∃ t, exec (.rds l ⟨some a, a⟩ none 0 sc) s = .next t ∧ waits t (req .rds) [x] false
        ∧ t.coh.net = left (req .rds) ++ [snp .snpS x] ∧ t.entry k = some e ∧ only t) ∧
      (let others := e.sharersAll.filter (· != a.val);
        came .rdx → x ≠ a → keyHost k = false → (∀ y ∈ others, s.awaits k y = false) →
        ∃ t, exec (.rdx l ⟨some a, a⟩ none 0) s = .next t ∧ waits t (req .rdx) (x :: others) false
          ∧ t.coh.net = left (req .rdx) ++ snp .snpX x :: others.map (snp .snpInv) ∧ t.entry k = some e ∧ only t) ∧
      (free → ∃ t, exec (.rdcur l ⟨none, st⟩) s = .next t ∧ waits t (ask .rdcur) [x] false
        ∧ t.coh.net = left (ask .rdcur) ++ [snp .snpCur x] ∧ t.entry k = some e ∧ only t)) ∧
    (∀ e, s.entry k = some e → e.owner = none → e.sharers.contains a.val = true → keyHost k = false → came .upg →
      let others := e.sharersAll.filter (· != a.val)
      (others ≠ [] → (∀ y ∈ others, s.awaits k y = false) → ∃ t, exec (.upg l ⟨some a, a⟩ none) s = .next t ∧ waits t (req .upg) others false
        ∧ t.coh.net = left (req .upg) ++ others.map (snp .snpInv) ∧ t.entry k = some e ∧ only t) ∧
      (others = [] → ∃ t, exec (.upg l ⟨some a, a⟩ none) s = .next t ∧ t.txn k = none
        ∧ (t.entry k).map (fun y => (y.owner, y.sharers, y.group, y.way)) = some (some a.val, [], e.group.map (fun _ => 0), e.way)
        ∧ t.coh.net = left (req .upg) ++ [.gntma k a] ∧ only t)) ∧
    (∀ e, s.entry k = some e → keyHost k = false →
      let now (t : State) (y : DirEnt) : Prop := t.entry k = if y.none? then none else some y
      (e.owner ≠ some a.val → e.sharers.contains a.val = true → came .puts →
        ∃ t, exec (.puts l a) s = .next t ∧ now t (e.dropSharer a)
          ∧ t.coh.net = left (req .puts) ++ [.cmpput k a] ∧ only t) ∧
      (e.owner = some a.val → came .pute →
        ∃ t, exec (.pute l a) s = .next t ∧ now t { e with owner := none, ownedO := false }
          ∧ t.coh.net = left (req .pute) ++ [.cmpput k a] ∧ only t) ∧
      (∀ d p, e.owner = some a.val → came (.putm d p) → s.writeWaits k (req (.putm d p)) = false → exec (.putm l a d p) s = .next
        ((((((s.take (.req k (req (.putm d p)))).touchFar k a).lineWrites k).homeStore k a d p).leaveEntry k
          { e with owner := none, ownedO := false }).post (.cmpput k a)))) ∧
    ((∀ e, s.entry k = some e → e.owner ≠ some a.val ∧ e.sharers.contains a.val = false ∧ e.inGroup a.val = false) →
      (∀ c kind, c = (Instr.puts l a, ReqKind.puts) ∨ c = (.pute l a, .pute) → kind = c.2 → came kind →
        ∃ t, exec c.1 s = .next t ∧ t.rd DIR_STALE.COUNT n = satAdd (s.rd DIR_STALE.COUNT n) 1 48
          ∧ s.sameRegs t [DIR_STALE.COUNT.key n 0 0] ∧ t.coh.dir = s.coh.dir
          ∧ t.coh.net = left (req kind) ++ [.cmpput k a] ∧ only t) ∧
      (∀ d p, came (.putm d p) → ∃ t, exec (.putm l a d p) s = .next t ∧ t.coh.dir = s.coh.dir
        ∧ t.coh.net = left (req (.putm d p)) ++ [.cmpput k a] ∧ t = { s with coh := t.coh })) ∧
    (∀ d p (m : BitVec 64) op (off : Fin 64) (size : Fin 5) (x y : BitVec 128) (f : Fin 4) es, s.entry k = none →
      keyHost k = false → free →
      (s.writeWaits k (ask (.wrfull d p)) = false → exec (.wrfull l ⟨none, st⟩ d p) s = .next
        (((((s.take (.req k (ask (.wrfull d p)))).touchFar k st).lineWrites k).homeStore k st d p).post (.cmp k st))) ∧
      (s.writeWaits k (ask (.wrfull d p)) = true → ∃ t, exec (.wrfull l ⟨none, st⟩ d p) s = .next t
        ∧ t.queued k = [ask (.wrfull d p)] ∧ t.coh.net = left (ask (.wrfull d p)) ∧ t = { s with coh := t.coh }) ∧
      (∃ t, exec (.rdcur l ⟨none, st⟩) s = .next t ∧ waits t (ask .rdcur) [] true) ∧
      (∃ t, exec (.wrpart l ⟨none, st⟩ m ⟨d, p⟩) s = .next t ∧ waits t (ask (.wrpart m.toNat d p)) [] true) ∧
      (∃ t, exec (.atomf l ⟨none, st⟩ op off size x y) s = .next t
        ∧ waits t (ask (.atomf op off size x.toNat y.toNat)) [] true) ∧
      (∃ t, exec (.addm l ⟨none, st⟩ off f es) s = .next t ∧ waits t (ask (.addm off f es)) [] true)) ∧
    (∀ e d p, s.entry k = some e → e.holders ≠ [] → free → (∀ y ∈ e.holders, s.awaits k y = false) → ∃ t, exec (.wrfull l ⟨none, st⟩ d p) s = .next t
      ∧ waits t (ask (.wrfull d p)) e.holders false
      ∧ t.coh.net = left (ask (.wrfull d p)) ++ e.holders.map (snp .snpInv) ∧ only t)

/-- When a home does not take a request at once (R280, R281, R283, R285, R297): it has no effect while the home is in reset, its hub is
full or the ordered class holds it back (log entry 63); it waits behind the line's transaction, unless it is the Put of an agent whose
answer is awaited; a read for a copy whose set has no free way waits for the least recently used entry's, or is retried with a token. -/
def Stated.HomeWaits : Prop :=
  ∀ (s : State) (l : Line) (a : Fin 97),
    let k := l.key
    let n := s.home k
    let set := dirSet (keyAddr k)
    let waits (c : Instr) (kind : ReqKind) (r : Requester) (tok : Option (Fin 8192)) : Prop :=
      let q : Req := ⟨kind, r.agent.map (·.val), r.stream, tok.map (·.val), false⟩
      (s.homeUp k = false → q.isDat = false → exec c s = .next s) ∧
      (s.mustWait k q = true → exec c s = .next s) ∧
      (r.agent = none → s.streamOpen r.stream = false → exec c s = .next s) ∧
      (∀ x, s.txn k = some x → s.homeUp k = true → s.hasHome k = true → (r.agent.isSome || s.streamOpen r.stream) = true →
        s.mustWait k q = false → s.coh.net.contains (.req k q) = true →
        (q.isPut && (x.waiting.contains (q.agent.getD 127) || x.puts.contains (q.agent.getD 127))) = false →
        ∃ t, exec c s = .next t ∧ t.queued k = s.queued k ++ [q] ∧ t.coh.net = s.coh.net.erase (.req k q)
          ∧ t = { s with coh := t.coh })
    let crossed (c : Instr) (kind : ReqKind) : Prop :=
      let q : Req := ⟨kind, some a.val, a, none, false⟩
      ∀ x, s.txn k = some x → x.waiting.contains a.val = true → s.homeUp k = true → s.hasHome k = true → s.mustWait k q = false →
        s.tokens n set = [] → s.coh.net.contains (.req k q) = true → ∃ t, exec c s = .next t
        ∧ t.txn k = some { x with puts := x.puts.filter (· != a.val), crossed := x.crossed ++ [a.val], ans := q.gives x.ans }
        ∧ t.rd DIR_CROSS.COUNT n = satAdd (s.rd DIR_CROSS.COUNT n) 1 48
        ∧ t.coh.net = s.coh.net.erase (.req k q) ∧ t = { s with coh := t.coh, regs := t.regs }
    let noWay (c : Instr) (kind : ReqKind) : Prop :=
      let q : Req := ⟨kind, some a.val, a, none, false⟩
      s.homeIdle k → s.entry k = none → s.freeWay n set = none → s.coh.net.contains (.req k q) = true →
      (∀ v e, s.lruEntry n set = some (v, e) → s.queued v = [] → (∀ y ∈ e.holders, s.awaits v y = false) → ∃ t, exec c s = .next t
        ∧ t.queued k = [q] ∧ (t.txn v).map (fun x => (x.why, x.waiting, x.forLine)) = some (.victim, e.holders, some (k, q))
        ∧ t.rd DIR_VICTIMS.COUNT n = satAdd (s.rd DIR_VICTIMS.COUNT n) 1 48 ∧ t = { s with coh := t.coh, regs := t.regs }) ∧
      (s.lruEntry n set = none → s.setQueued n set = [] → a ≠ 96 → ∃ t, exec c s = .next t ∧ t.entry k = none ∧ t.txn k = none
        ∧ t.queued k = [] ∧ t.coh.net = s.coh.net.erase (.req k q) ++ [.retry k a (freeSlot s.coh.tokUsed n 8192 0)]
        ∧ t.rd DIR_RETRIES.COUNT n = satAdd (s.rd DIR_RETRIES.COUNT n) 1 48
        ∧ t = { s with coh := t.coh, regs := t.regs, irq := t.irq, out := t.out })
    (∀ (r : Requester) (tok : Option (Fin 8192)) sc d p (m : BitVec 64) op (off : Fin 64) (size : Fin 5) (x y : BitVec 128) (f : Fin 4) es,
      waits (.rds l r tok 0 sc) .rds r tok ∧ waits (.rdx l r tok 0) .rdx r tok ∧ waits (.upg l r tok) .upg r tok ∧
      waits (.rdcur l r) .rdcur r none ∧ waits (.wrfull l r d p) (.wrfull d p) r none ∧
      waits (.wrpart l r m ⟨d, p⟩) (.wrpart m.toNat d p) r none ∧
      waits (.atomf l r op off size x y) (.atomf op off size x.toNat y.toNat) r none ∧
      waits (.addm l r off f es) (.addm off f es) r none ∧
      waits (.puts l a) .puts ⟨some a, a⟩ none ∧ waits (.pute l a) .pute ⟨some a, a⟩ none ∧
      waits (.putm l a d p) (.putm d p) ⟨some a, a⟩ none ∧ crossed (.putm l a d p) (.putm d p)) ∧
    crossed (.puts l a) .puts ∧ crossed (.pute l a) .pute ∧
    (∀ sc, noWay (.rds l ⟨some a, a⟩ none 0 sc) .rds) ∧ noWay (.rdx l ⟨some a, a⟩ none 0) .rdx ∧ noWay (.upg l ⟨some a, a⟩ none) .upg

/-- How a home's transaction goes on (R284, R287): an answer is counted, the last one or the data of the read end it, and an
answer that nothing waits for is dropped and recorded. -/
def Stated.HomeEnds : Prop :=
  ∀ (s : State) (l : Line), keyHost l.key = false → s.queued l.key = [] →
    s.tokens (s.home l.key) (dirSet (keyAddr l.key)) = [] →
    let k := l.key
    let memory (x : Txn) (y : List Byte × Bool) (upset : Fin 3) : Prop :=
      x.waiting = [] ∧ x.puts = [] ∧ x.crossed = [] ∧ x.needMem = true ∧ x.mem = none ∧ x.ans = none ∧ x.asked = false ∧
        x.forLine = none ∧
        s.homeUp k = true ∧ (s.atHand (keyAddr k) || s.turn (keyAddr k) (s.txnPart x)) = true ∧ s.heldWrites = [] ∧
        y = ((s.homeFetch (keyAddr k) x.stream (s.txnPart x) upset x.scWay).data,
          (s.homeFetch (keyAddr k) x.stream (s.txnPart x) upset x.scWay).poison)
    let alone (tok : Option Nat) : Prop := tok ≠ none → s.setQueued (s.home k) (dirSet (keyAddr k)) = []
    let snooping (x : Txn) (a : Nat) : Prop :=
      x.waiting = [a] ∧ x.puts = [] ∧ x.crossed = [] ∧ x.needMem = false ∧ x.mem = none ∧ x.ans = none ∧ x.asked = false ∧
        x.forLine = none ∧ x.upg = false
    (∀ x a tok ks w u y upset, s.txn k = some x → memory x y upset → a < 96 → x.req = some ⟨.rds, some a, a, tok, ks⟩ →
      alone tok → s.entry k = some (.empty w u) → ∃ t, exec (.memoryData l upset) s = .next t ∧ t.txn k = none
        ∧ (t.entry k).map (fun e => (e.owner, e.sharers, e.group, e.way)) = some (some a, [], none, w)
        ∧ t.coh.net = s.coh.net ++ [.gnt k a .e y.1 y.2]) ∧
    (∀ x st y upset, s.txn k = some x → memory x y upset → x.req = some ⟨.rdcur, none, st, none, false⟩ → s.entry k = none →
      ∃ t, exec (.memoryData l upset) s = .next t ∧ t.txn k = none ∧ t.entry k = none
        ∧ t.coh.net = s.coh.net ++ [.cmpd k st y.1 y.2]) ∧
    (∀ x e (o : Fin 97) a tok ks d dirty p, s.txn k = some x → snooping x o → x.req = some ⟨.rdx, some a, a, tok, ks⟩ →
      alone tok → s.entry k = some e → (a = 96 → ks = false) → ∃ t, exec (.rspd l o .i d dirty p) s = .next t ∧ t.txn k = none
        ∧ (t.entry k).map (fun y => (y.owner, y.sharers, y.group, y.way)) = some (some a, [], e.group.map (fun _ => 0), e.way)
        ∧ t.coh.net = s.coh.net.erase (.rspd k o .i d dirty p) ++ [.gnt k a .m d p]
        ∧ t = { s with coh := t.coh, regs := t.regs }) ∧
    (∀ x (o : Fin 97) st wb, s.txn k = some x → x.waiting.contains o.val = true → x.waiting.filter (· != o.val) ≠ [] →
      ∃ t, exec (.rsp l o st wb) s = .next t
        ∧ t.txn k = some { x with waiting := x.waiting.filter (· != o.val),
                                  puts := if wb && !x.crossed.contains o.val then x.puts ++ [o.val] else x.puts,
                                  kept := if st = .i ∨ wb ∨ x.crossed.contains o.val then x.kept else x.kept ++ [(o.val, st)] }
        ∧ t.coh.net = s.coh.net.erase (.rsp k o st wb) ∧ t = { s with coh := t.coh, regs := t.regs }) ∧
    (∀ (o : Fin 97) st wb d dirty p, (∀ x, s.txn k = some x → x.waiting.contains o.val = false) →
      exec (.rsp l o st wb) s = .next ((s.take (.rsp k o st wb)).rasEvent stBadDescriptor 5 (s.home k) (keyAddr k * 64) .info) ∧
      exec (.rspd l o st d dirty p) s = .next ((s.take (.rspd k o st d dirty p)).rasEvent stBadDescriptor 5 (s.home k)
        (keyAddr k * 64) .info)) ∧
    (∀ x o st tok ks, s.txn k = some x → snooping x o.val → x.req = some ⟨.rdx, some st, st, tok, ks⟩ →
      ∃ t, exec (.rsp l o .i false) s = .next t
        ∧ (t.txn k).map (fun y => (y.req, y.waiting, y.needMem, y.mem)) = some (x.req, [], true, none)
        ∧ t.coh.net = s.coh.net.erase (.rsp k o .i false)) ∧
    (∀ upset, (s.txn k = none ∨ ∃ x, s.txn k = some x ∧ (x.needMem = false ∨ x.mem.isSome = true ∨ s.homeUp k = false ∨
        (s.atHand (keyAddr k) || s.turn (keyAddr k) (s.txnPart x)) = false)) → exec (.memoryData l upset) s = .next s)

/-- The homes of the coherence protocol take requests, and end transactions. -/
def Obligations.Homes : Prop := Stated.HomeTakes ∧ Stated.HomeWaits ∧ Stated.HomeEnds

/-- SNPS, SNPX, SNPINV and SNPCUR at a core, the four grants, CMPPUT, RETRY and CMPD, for a core that is not going to sleep. -/
def Obligations.LinesOfCores : Prop :=
  ∀ (s : State) (l : Line) (h : Fin 96), (s.core h).going = none →
    let k := l.key
    let x := s.line k h
    let only (t : State) : Prop := t = { s with coh := t.coh, cores := t.cores }
    let coh (t : State) : Prop := t = { s with coh := t.coh }
    (∀ c kd, c = (Instr.snps l h, SnpKind.snpS) ∨ c = (.snpx l h, .snpX) ∨ c = (.snpinv l h, .snpInv) ∨ c = (.snpcur l h, .snpCur) →
      kd = c.2 → ∃ t, exec c.1 s = .next t ∧ only t
        ∧ (∀ st st' wb, snoopTable x.st kd = (st, .rsp st' wb) → t.line k h = x.after st
          ∧ t.coh.net = s.coh.net.erase (.snp k kd h) ++ [.rsp k h st' wb])
        ∧ (∀ st st' dirty, snoopTable x.st kd = (st, .rspd st' dirty) → t.line k h = x.after st
          ∧ t.coh.net = s.coh.net.erase (.snp k kd h) ++ [.rspd k h st' x.data dirty x.poison])
        ∧ (∀ st, snoopTable x.st kd = (st, .hold) → t.line k h = { x with held := some kd }
          ∧ t.coh.net = s.coh.net.erase (.snp k kd h))) ∧
    (∀ d p, x.miss = none → x.held = none → (s.l2Set k h).length < 16 →
      let held (st : CState) (d : List Byte) (p : Bool) : CLine := ⟨st, d, p, none, none, none⟩
      (x.st = .isD → ∃ t, exec (.gnts l h d p) s = .next t ∧ t.line k h = held .s d p
        ∧ t.coh.net = s.coh.net.erase (.gnt k h .s d p) ∧ coh t) ∧
      (x.st = .isD → ∃ t, exec (.gnte l h d p) s = .next t ∧ t.line k h = held .e d p
        ∧ t.coh.net = s.coh.net.erase (.gnt k h .e d p) ∧ coh t) ∧
      (x.st = .imD ∨ x.st = .imA → ∃ t, exec (.gntm l h d p) s = .next t ∧ t.line k h = held .m d p
        ∧ t.coh.net = s.coh.net.erase (.gnt k h .m d p) ∧ coh t) ∧
      (x.st = .smA ∨ x.st = .omA → ∃ t, exec (.gntma l h) s = .next t ∧ t.line k h = held .m x.data x.poison
        ∧ t.coh.net = s.coh.net.erase (.gntma k h) ∧ coh t)) ∧
    (x.st = .miA ∨ x.st = .oiA ∨ x.st = .eiA ∨ x.st = .siA ∨ x.st = .iiA →
      ∃ t, exec (.cmpput l h) s = .next t ∧ t.line k h = CLine.none ∧ t.coh.net = s.coh.net.erase (.cmpput k h) ∧ coh t) ∧
    (∀ (tok : Fin 8192) kind, x.st = .isD ∧ kind = ReqKind.rds ∨ x.st = .imD ∧ kind = .rdx ∨
        (x.st = .smA ∨ x.st = .omA ∨ x.st = .imA) ∧ kind = .upg →
      ∃ t, exec (.retry l h tok) s = .next t ∧ t.line k h = { x with token := some tok.val }
        ∧ t.coh.net = s.coh.net.erase (.retry k h tok) ++ [.req k ⟨kind, some h.val, h, some tok.val, false⟩] ∧ coh t) ∧
    (∀ rd a n signed got d, (s.core h).pend = some ⟨.load rd a n signed, [k], got⟩ →
      ∃ t, exec (.cmpd l ⟨none, h⟩ d false) s = .next t ∧ (t.core h).pend = none
        ∧ t.xreg h rd = (if rd = 0 then 0 else loadValue n signed ((List.range n).map fun i =>
          match got.find? fun b => b.1 == i with
          | some b => b.2
          | none => if hbmKey (a + i) = k then d.getD ((a + i) % 64) 0 else 0) % 2 ^ 64) ∧ only t) ∧
    (∀ d p, (x.st ≠ .isD → exec (.gnts l h d p) s = .next (s.take (.gnt k h .s d p)) ∧ exec (.gnte l h d p) s = .next (s.take (.gnt k h .e d p))) ∧
      (x.st ≠ .imD → x.st ≠ .imA → exec (.gntm l h d p) s = .next (s.take (.gnt k h .m d p)))) ∧
    (x.st ≠ .smA → x.st ≠ .omA → exec (.gntma l h) s = .next (s.take (.gntma k h))) ∧
    (∀ d p kd, x.miss = none → x.held = some kd → x.st = .imD → (s.l2Set k h).length < 16 → ∃ t, exec (.gntm l h d p) s = .next t
      ∧ t.line k h = (CLine.mk .m d p none none none).after (snoopTable .m kd).1
      ∧ t.coh.net.length = (s.coh.net.erase (.gnt k h .m d p)).length + 1 ∧ only t) ∧
    (x.st.stable = true → exec (.cmpput l h) s = .next (s.take (.cmpput k h)) ∧
      ∀ tok, exec (.retry l h tok) s = .next (s.take (.retry k h tok))) ∧
    (∀ d p, ((s.core h).pend = none ∨ ∃ q, (s.core h).pend = some q ∧ q.need.head? ≠ some k) →
      exec (.cmpd l ⟨none, h⟩ d p) s = .next (s.take (.cmpd k h d p))) ∧
    (∀ rd a n signed got d need, (s.core h).pend = some ⟨.load rd a n signed, need, got⟩ → need.head? = some k →
      exec (.cmpd l ⟨none, h⟩ d true) s = .next (((s.take (.cmpd k h d true)).setCore h fun c => { c with pend := none }).consumePoison h 5 a)) ∧
    (∀ rd a n signed got d k2, (s.core h).pend = some ⟨.load rd a n signed, [k, k2], got⟩ → ∃ t,
      exec (.cmpd l ⟨none, h⟩ d false) s = .next t ∧ (t.core h).pend.map (·.need) = some [k2]
        ∧ t.coh.net = s.coh.net.erase (.cmpd k h d false) ++ [.req k2 ⟨.rdcur, none, h, none, false⟩]
        ∧ ∀ b, t.xreg h b = s.xreg h b) ∧
    (∀ op rd a n rs cmp got d, (s.core h).pend = some ⟨.amo op rd a n rs cmp, [k], got⟩ → n ≤ 8 → ∃ t,
      exec (.cmpd l ⟨none, h⟩ d false) s = .next t ∧ (t.core h).pend = none
        ∧ t.xreg h rd = (if rd = 0 then 0 else wrap (sext (leNat ((d.drop (a % 64)).take n)) (8 * n)) 64) ∧ only t)

/-- The host's requests go to the homes as requests of agent 96 (R301), its answers end back-invalidations (R302), and HD0 answers
its snoops (R303). (MEMINV and MEMINVNT with the MetaValue S have no effect: log entry 22; the place of the HDM decoders: log
entry 21.) -/
def Stated.HostLines : Prop :=
  ∀ (s : State) (addr : Nat) (m : Meta) (d : List Byte) (p : Bool) (mask : BitVec 64), s.hostUp = true →
    let k := lineKey false (addr / 64)
    let reads (i : Instr) : Prop :=
      (∀ kind, s.decoded addr = true → s.homeUp k = true → s.hostRequests < 2048 → readKind m s k = some kind →
        s.mustWait k ⟨kind, some 96, 96, none, false⟩ = false →
        exec i s = .next ((s.bump HOST_BYTES_OUT.BYTES 64).arrive k ⟨kind, some 96, 96, none, false⟩)) ∧
      (s.decoded addr = false → exec i s = .next (s.hostUr addr false))
    let invs (i : Instr) : Prop :=
      (∀ kind, s.decoded addr = true → s.homeUp k = true → s.hostRequests < 2048 → s.hubFull (s.home k) = false → invKind m s k = some kind →
        exec i s = .next (s.arrive k ⟨kind, some 96, 96, none, decide (m = .a)⟩)) ∧
      (s.decoded addr = true → invKind m s k = none → exec i s = .next s) ∧
      (s.decoded addr = false → exec i s = .next (s.hostUr addr false))
    reads (.memrd addr m) ∧ reads (.memrddata addr m) ∧ invs (.meminv addr m) ∧ invs (.meminvnt addr m) ∧
    (s.decoded addr = true → s.homeUp k = true → s.hostRequests < 2048 → s.hubFull (s.home k) = false → s.orderedOpen 96 (some k) = false →
      exec (.memwr addr m d p) s = .next ((s.bump HOST_BYTES_IN.BYTES 64).arrive k
        ⟨if s.hostInA k then .putm d p else .wrfull d p, some 96, 96, none, decide (m = .s) && s.hostInA k⟩) ∧
      exec (.memwrptl addr mask d p) s = .next ((s.bump HOST_BYTES_IN.BYTES 64).arrive k
        ⟨.wrpart mask.toNat d p, some 96, 96, none, false⟩)) ∧
    (s.decoded addr = false → exec (.memwr addr m d p) s = .next (s.hostUr addr true) ∧
      exec (.memwrptl addr mask d p) s = .next (s.hostUr addr true)) ∧
    exec (.memspecrd addr) s = .next s ∧
    (∀ kd i, let h := lineKey true (addr / 64)
      i = (Instr.hostSnpdata addr, SnpKind.snpS) ∨ i = (.hostSnpinv addr, .snpInv) ∨ i = (.hostSnpcur addr, .snpCur) → kd = i.2 →
      s.homeUp h = true → s.txn h = none → s.queued h = [] → s.tokens (s.home h) (dirSet (keyAddr h)) = [] →
      (s.entry h = none → ∃ t, exec i.1 s = .next t ∧ t.coh.net = s.coh.net ++ [.toHost h "RspIHitI"]
        ∧ (kd = .snpInv → getK 0 t.coh.hostGrant h = 0) ∧ t = { s with coh := t.coh }) ∧
      (∀ e, s.entry h = some e →
        let l := if kd = .snpInv then e.holders else match e.owner with | some x => [x] | none => []
        l ≠ [] → (∀ y ∈ l, s.awaits h y = false) → ∃ t, exec i.1 s = .next t
          ∧ t.coh.net = s.coh.net ++ l.map (fun x => if x = hostAgent then .bisnp h kd else .snp h kd x)
          ∧ (t.txn h).map (fun x => (x.req, x.waiting, x.why)) = some (none, l, .hostSnp kd)
          ∧ t = { s with coh := t.coh, regs := t.regs }))

/-- The host's requests and snoops while its link is down, while their home is in reset, and while the bridge or the hub is full or the
ordered class holds them (R280, R283, R301, R303; log entry 63); a host snoop at a busy line waits (log entry 154). -/
def Stated.HostWaits : Prop :=
  ∀ (s : State) (addr : Nat) (m : Meta) (d : List Byte) (p : Bool) (mask : BitVec 64),
    let k := lineKey false (addr / 64)
    let h := lineKey true (addr / 64)
    let reqs (i : Instr) : Prop := i = .memrd addr m ∨ i = .memrddata addr m ∨ i = .meminv addr m ∨ i = .meminvnt addr m ∨
      i = .memwr addr m d p ∨ i = .memwrptl addr mask d p
    let snps (i : Instr) (kd : SnpKind) : Prop := i = .hostSnpdata addr ∧ kd = .snpS ∨ i = .hostSnpinv addr ∧ kd = .snpInv ∨
      i = .hostSnpcur addr ∧ kd = .snpCur
    (∀ i, reqs i ∨ (∃ kd, snps i kd) → s.hostUp = false → exec i s = .next s) ∧
    (∀ i, reqs i → s.hostUp = true → s.decoded addr = true → 2048 ≤ s.hostRequests → exec i s = .next s) ∧
    (∀ i, reqs i → s.hostUp = true → s.decoded addr = true → s.homeUp k = false → s.hostInA k = false → exec i s = .next s) ∧
    (∀ kind i, s.hostUp = true → s.decoded addr = true → s.mustWait k ⟨kind, some 96, 96, none, false⟩ = true →
      ((i = .memrd addr m ∨ i = .memrddata addr m) ∧ readKind m s k = some kind) ∨
        i = .memwrptl addr mask d p ∧ kind = .wrpart mask.toNat d p ∨
        i = .memwr addr m d p ∧ s.hostInA k = false ∧ kind = .wrfull d p → exec i s = .next s) ∧
    (∀ i kd, snps i kd → s.homeUp h = false → exec i s = .next s) ∧
    (∀ i kd x, snps i kd → s.hostUp = true → s.homeUp h = true → s.txn h = some x → ∃ t, exec i s = .next t
      ∧ t.queued h = s.queued h ++ [⟨.hostSnp kd, none, 96, none, false⟩] ∧ t = { s with coh := t.coh }) ∧
    (∀ i kd e, snps i kd → kd ≠ .snpInv → s.hostUp = true → s.homeUp h = true → s.txn h = none → s.queued h = [] →
      s.tokens (s.home h) (dirSet (keyAddr h)) = [] → s.entry h = some e → e.owner = none → e.none? = false → ∃ t, exec i s = .next t
      ∧ t.coh.net = s.coh.net ++ [.toHost h (if kd = .snpCur then "RspVHitV" else "RspSHitSE")] ∧ t.txn h = none
      ∧ (t.entry h).map (fun y => (y.owner, y.sharers, y.group)) = some (none, e.sharers, e.group))

/-- BIRSP and its timeout, the host's answer to what HD0 asked, and the conflict handshake. -/
def Stated.HostAnswers : Prop :=
  ∀ (s : State) (l : Line), s.queued l.key = [] → s.tokens (s.home l.key) (dirSet (keyAddr l.key)) = [] →
    let k := l.key
    let n := s.home k
    (∀ x, s.txn k = some x → keyHost k = false → x.req = none → x.why = .victim → x.waiting = [hostAgent] → x.puts = [] →
      x.crossed = [] → x.ans = none → x.asked = false → x.forLine = none →
      ∃ t, exec (.birsp l .i) s = .next t ∧ t.entry k = none ∧ t.txn k = none ∧ t.coh.net = (s.takeBisnp k).coh.net
        ∧ t = { s with coh := t.coh, regs := t.regs }) ∧
    (∀ x, s.txn k = some x → keyHost k = false → x.waiting.contains hostAgent = true →
      x.sentAt + min (s.rd DIR_HOST_TMO.US n) 60000000 ≤ s.us → x.waiting.filter (· != hostAgent) ≠ [] → ∃ t, exec (.birspTimeout l) s = .next t
        ∧ (t.txn k).map (·.waiting) = some (x.waiting.filter (· != hostAgent))
        ∧ t.rd DIR_INT_STATUS.HOST_TMO n = 1 ∧ t.rd DIR_ERR.VALID n = 1 ∧ t.rd DIR_ERR.STATUS n = stHostLost
        ∧ t.rd DIR_ERR.AGENT n = hostAgent ∧ t.rd DIR_ERR_ADDR.LINE n = keyAddr k % 2 ^ 58
        ∧ (s.hostInA k = true → getK false t.hbmPoison (keyAddr k) = true)
        ∧ (s.hostInA k = false → t.hbmPoison = s.hbmPoison)
        ∧ t = { s with coh := t.coh, regs := t.regs, hbmPoison := t.hbmPoison, irq := t.irq, out := t.out }) ∧
    (∀ x a w u d p g, s.txn k = some x → keyHost k = true → x.asked = true → x.req = some ⟨.rds, some a, a, none, false⟩ →
      a < 96 → x.waiting = [] → x.puts = [] → x.crossed = [] → x.ans = none → x.forLine = none → d.length = 64 →
      s.entry k = some (.empty w u) → g = LState.s ∨ g = .e →
      ∃ t, exec (.hostCacheResponse l g d p) s = .next t ∧ t.txn k = none
        ∧ t.coh.net = s.coh.net ++ [.gnt k a g d p] ∧ memRead t.hostMem (keyAddr k * 64) 64 = d
        ∧ (∀ b, b < keyAddr k * 64 ∨ keyAddr k * 64 + 64 ≤ b → memGet t.hostMem b = memGet s.hostMem b)
        ∧ getK 0 t.coh.hostGrant k = (if g = .s then 1 else 2)
        ∧ t = { s with coh := t.coh, regs := t.regs, hostMem := t.hostMem }) ∧
    ((s.txn k = none ∨ ∃ x, s.txn k = some x ∧ s.hostLate k x = false) → exec (.birspTimeout l) s = .next s) ∧
    ((s.txn k = none ∨ keyHost k = false ∨ ∃ x, s.txn k = some x ∧ x.asked = false) →
      ∀ g d p, exec (.hostCacheResponse l g d p) s = .next s) ∧
    ((s.txn k = none ∨ ∃ x, s.txn k = some x ∧ x.waiting.contains hostAgent = false) →
      ∀ st, exec (.birsp l st) s = .next ((s.takeBisnp k).rasEvent stBadDescriptor 5 n (keyAddr k * 64) .info)) ∧
    (∃ t, exec (.biconflict l) s = .next t ∧ t.coh.net = s.coh.net ++ [.toHost k "BIConflictAck"] ∧ t = { s with coh := t.coh })

/-- DIR_LOOKUP shows a line's entry (R305); what a reset of the core die or a hub die loses is poisoned (R304). -/
def Stated.AgentsLost : Prop :=
  ∀ (s : State) (o : Origin) (n : Fin 2) (hostMem : Bool) (line : BitVec 58),
    let k := lineKey hostMem line.toNat
    (s.direct o → s.home k = n → ∃ t, exec (.dirLookup o n hostMem line) s = .next t
      ∧ t.rd DIR_LOOKUP_DATA.VALID n = 1 ∧ t.rd DIR_LOOKUP_DATA.HIT n = b2n (s.entry k).isSome
      ∧ t.rd DIR_LOOKUP_DATA.SET n = dirSet line.toNat
      ∧ (∀ e, s.entry k = some e → t.rd DIR_LOOKUP_DATA.STATE n = (if e.owner.isNone then 1 else if e.ownedO then 3 else 2)
        ∧ t.rd DIR_LOOKUP_DATA.OWNER n = e.owner.getD 127 % 128 ∧ t.rd DIR_LOOKUP_DATA.MODE n = b2n e.group.isSome)
      ∧ (s.entry k = none → t.rd DIR_LOOKUP_DATA.STATE n = 0 ∧ t.rd DIR_LOOKUP_DATA.OWNER n = 127)
      ∧ t = { s with regs := t.regs }) ∧
    (s.direct o → s.home k ≠ n → ∃ t, exec (.dirLookup o n hostMem line) s = .next t ∧ t.rd DIR_LOOKUP_DATA.VALID n = 1
      ∧ t.rd DIR_LOOKUP_DATA.HIT n = 0 ∧ t = { s with regs := t.regs }) ∧
    (s.rst.busy.contains (3, 0) = false → exec .coreWritebackTimeout s = .next s) ∧
    (s.rst.busy.contains (2, n.val) = false → s.rst.busy.contains (4, 0) = false → exec (.recallTimeout n) s = .next s) ∧
    (s.rst.busy.contains (3, 0) = true →
      let lost := (s.coh.dir.filter fun e => match e.2.owner with | some a => decide (a < 96) | none => false).length
      exec .coreWritebackTimeout s =
        .next (s.dropCores.rasEvent (if lost = 0 then stOK else stEcc) 18 3 0 .reset lost)) ∧
    (s.rst.busy.contains (2, n.val) = true ∨ s.rst.busy.contains (4, 0) = true →
      let late := s.coh.txns.filter fun e =>
        decide (e.2.why = .recall) && !(e.2.waiting.isEmpty && e.2.puts.isEmpty) && decide (s.home e.1 = n)
      exec (.recallTimeout n) s = .next (late.foldl (fun (u : State) e =>
        (u.poisonLine e.1 stEcc ((e.2.waiting ++ e.2.puts).headD 0)).setTxn e.1 { e.2 with waiting := [], puts := [] })
        s).goOnAll)

/-- The CXL bridge, back-invalidation, host-memory lines, lookups and lost agents. -/
def Obligations.HostCoherence : Prop := Stated.HostLines ∧ Stated.HostWaits ∧ Stated.HostAnswers ∧ Stated.AgentsLost

/-- The stacks (R310 to R314, R317): scrub, refresh, power-down, a failed pseudo-channel, the policy and the refill of credits. -/
def Stated.HbmStacks : Prop :=
  ∀ (s : State) (n : Fin 2) (line : Nat) (pc : Fin 768) (o : Origin) (p : Bool),
    let seen := setK false s.mem.scrubSeen line true
    let done := s.hubLines n ≤ (seen.filter fun e => decide (hubOfPc (s.pcOfLine e.1) = n.val)).length
    let only (t : State) : Prop := t = { s with mem := t.mem, regs := t.regs, irq := t.irq, out := t.out }
    (s.on HBM_SCRUB.EN = true → line * 64 < s.hbmEnd → hubOfPc (s.pcOfLine line) = n.val →
      getK false s.mem.selfRef (s.ctrlOf line) = false → s.pcFailed (s.pcOfLine line) = false → getK 0 s.mem.err line ≤ 1 →
      (∃ t, exec (.hbmScrubRead n line 1) s = .next t ∧ getK 0 t.mem.err line = 0
        ∧ t.rd HBM_ERR_CORR.COUNT n = satAdd (s.rd HBM_ERR_CORR.COUNT n) 1 HBM_ERR_CORR.COUNT.width
        ∧ (done → t.rd HBM_INT_STATUS.SCRUB_DONE n = 1) ∧ (¬ done → t.mem.scrubSeen = seen) ∧ s.sameStore t ∧ only t) ∧
      (s.metaLine line = false → ∃ t, exec (.hbmScrubRead n line 2) s = .next t ∧ getK 0 t.mem.err line = 2
        ∧ t.rd HBM_ERR_UNCORR.COUNT n = satAdd (s.rd HBM_ERR_UNCORR.COUNT n) 1 HBM_ERR_UNCORR.COUNT.width
        ∧ t.rd HBM_ERR_LAST.VALID n = 1 ∧ t.rd HBM_ERR_LAST.STATUS n = stEcc ∧ t.rd HBM_INT_STATUS.ECC_UNCORR n = 1
        ∧ s.sameStore t ∧ only t)) ∧
    (s.on HBM_SCRUB.EN = false ∨ s.hbmEnd ≤ line * 64 ∨ hubOfPc (s.pcOfLine line) ≠ n.val ∨ getK false s.mem.selfRef (s.ctrlOf line) = true →
      ∀ e, exec (.hbmScrubRead n line e) s = .next s) ∧
    (s.on HBM_SCRUB.EN = true → line * 64 < s.hbmEnd → hubOfPc (s.pcOfLine line) = n.val →
      getK false s.mem.selfRef (s.ctrlOf line) = false → getK 0 s.mem.err line = 0 →
      ∃ t, exec (.hbmScrubRead n line 0) s = .next t ∧ (done → t.rd HBM_INT_STATUS.SCRUB_DONE n = 1 ∧
          ∀ l, hubOfPc (s.pcOfLine l) = n.val → getK false t.mem.scrubSeen l = false)
        ∧ (¬ done → t.mem.scrubSeen = seen) ∧ t.rd HBM_ERR_CORR.COUNT n = s.rd HBM_ERR_CORR.COUNT n
        ∧ t.rd HBM_ERR_UNCORR.COUNT n = s.rd HBM_ERR_UNCORR.COUNT n ∧ s.sameStore t ∧ only t) ∧
    (getK false s.mem.selfRef (pc / 64) = true → exec (.pseudoChannelPowerDown pc) s = .next s) ∧
    (getK false s.mem.selfRef (pc / 64) = false → ∃ t, exec (.refresh pc) s = .next t
      ∧ getK 0 t.mem.refreshed pc = (getK 0 s.mem.refreshed pc + 1) % 64
      ∧ t = { s with mem := { s.mem with refreshed := t.mem.refreshed } }) ∧
    (getK false s.mem.selfRef (pc / 64) = true → exec (.refresh pc) s = .next s) ∧
    (getK false s.mem.selfRef (pc / 64) = false → ∃ t, exec (.pseudoChannelPowerDown pc) s = .next t ∧ getK false t.mem.powerDown pc = true
      ∧ (∀ q, q ≠ pc.val → getK false t.mem.powerDown q = getK false s.mem.powerDown q)
      ∧ t = { s with mem := { s.mem with powerDown := t.mem.powerDown } }) ∧
    (s.mappedOut pc = false → s.pcFailed pc = false → ∃ t, exec (.pseudoChannelFailed pc) s = .next t
      ∧ t.pcFailed pc = true ∧ t.rd HBM_INT_STATUS.FAILED (hubOfPc pc) = 1 ∧ s.quiet t) ∧
    (s.mappedOut pc = true ∨ s.pcFailed pc = true → exec (.pseudoChannelFailed pc) s = .next s) ∧
    (s.direct o → ∃ t, exec (.hbmPolicyWrite o p) s = .next t ∧ t.rd HBM_MAP.POLICY = b2n p
      ∧ s.sameRegs t [HBM_MAP.POLICY.key 0 0 0] ∧ t = { s with regs := t.regs }) ∧
    (∃ t : State, exec (.partitionRefill n) s = .next t.goOnHeld
      ∧ (∀ q, q < 16 → t.credit n q = min ((s.rd HBM_PART.BURST_KIB 0 q * 1024 : Nat) : Int)
          (s.credit n q + ((s.rd HBM_PART.MAX 0 q * s.periodBytes / 256 : Nat) : Int)) ∧ getK 0 t.mem.charged (partKey n q) = 0)
      ∧ (∀ m q, m ≠ n.val → q < 16 → t.credit m q = s.credit m q)
      ∧ t = { s with mem := { s.mem with credit := t.mem.credit, charged := t.mem.charged } })

/-- The ways of the system caches (R323 to R327, R329): preload, lock, gate and re-enable. -/
def Stated.CacheWays : Prop :=
  ∀ (s : State) (n : Fin 2) (o : Origin) (ways : BitVec 16) (way : Fin 16), s.direct o →
    let m := ways.toNat
    let base := s.rd SC_PRELOAD_BASE.BASE n
    let len := s.rd SC_PRELOAD_LEN.LEN n
    let bad := s.on SC_PRELOAD_CTRL.BUSY n = true ∨ 12 < popBits (s.rd SC_LOCK.LOCKED n ||| m) 16 ∨ s.namesDisabled n m = true ∨
      len % 64 ≠ 0 ∨ s.hbmEnd < base * 64 + len
    let awake (t : State) : Prop := ∀ w, w < 16 → bit m w = true → s.wayState n w ≠ 3 → s.wayState n w < 4 → t.wayState n w = 0
    let regs (t : State) (f : Fld) : Prop := s.sameRegs t [f.key n 0 0] ∧ t = { s with regs := t.regs }
    let ofWay (k : Nat) : Prop := k / 16 / 131072 = n ∧ k % 16 = way
    (bad → ∃ t, exec (.scPreload o n ways) s = .next t ∧ t.rd SC_PRELOAD_CTRL.STATUS n = stBadDescriptor
      ∧ regs t SC_PRELOAD_CTRL.STATUS) ∧
    (¬ bad → ∃ t, exec (.scPreload o n ways) s = .next t ∧ t.rd SC_PRELOAD_CTRL.STATUS n = stOK
      ∧ t.rd SC_PRELOAD_CTRL.BUSY n = 1 ∧ t.rd SC_PRELOAD_RESULT.LOADED n = 0 ∧ t.rd SC_PRELOAD_RESULT.SKIPPED n = 0 ∧ awake t
      ∧ (t.mem.preload.find? (·.1 = n.val)).map (·.2) = some (base, base + len / 64, m + s.partOfOrigin o * 65536)
      ∧ s.sameStore t) ∧
    (∀ lo hi w, (s.mem.preload.find? (·.1 = n.val)).map (·.2) = some (lo, hi, w) → ∃ t, exec (.preloadDone n) s = .next t
      ∧ t.rd SC_LOCK.LOCKED n = (s.rd SC_LOCK.LOCKED n ||| w % 65536) % 65536 ∧ t.rd SC_PRELOAD_CTRL.BUSY n = 0
      ∧ t.rd SC_INT_STATUS.PRELOAD_DONE n = 1 ∧ t.mem.preload.find? (·.1 = n.val) = none
      ∧ (hi = lo + 1 → hubOfPc (s.pcOfLine lo) = n → s.scFind lo = none → ∀ v,
        ((List.range 16).filter (bit (w % 65536))).find? (fun x => (s.scAt n (scSet lo) x).isNone) = some v →
        (t.scAt n (scSet lo) v).map (fun x => (x.line, x.dirty, x.preload)) = some (lo, false, true))
      ∧ s.sameStore t) ∧
    (12 < popBits m 16 ∨ s.namesDisabled n m = true → ∃ t, exec (.scLock o n ways) s = .next t
      ∧ t.rd SC_LOCK.REJECT n = stBadDescriptor ∧ regs t SC_LOCK.REJECT) ∧
    (popBits m 16 ≤ 12 → s.namesDisabled n m = false → ∃ t, exec (.scLock o n ways) s = .next t
      ∧ t.rd SC_LOCK.LOCKED n = m ∧ t.rd SC_LOCK.REJECT n = stOK ∧ awake t ∧ t.mem = s.mem ∧ s.sameStore t) ∧
    (bit (s.rd SC_LOCK.LOCKED n) way = true → ∃ t, exec (.wayOffReq o n way) s = .next t
      ∧ t.rd SC_WAY_PWR.REJECT n = stBadDescriptor ∧ regs t SC_WAY_PWR.REJECT) ∧
    (bit (s.rd SC_LOCK.LOCKED n) way = false → ∃ t, exec (.wayOffReq o n way) s = .next t
      ∧ bit (t.rd SC_WAY_PWR.OFF_REQ n) way = true ∧ t.rd SC_WAY_PWR.REJECT n = stOK
      ∧ t.wayState n way = (if s.wayState n way = 0 then 1 else s.wayState n way)
      ∧ (s.wayState n way = 0 → ∀ e ∈ t.mem.sc, ofWay e.1 → e.2.dirty = false) ∧ s.sameStore t) ∧
    (∃ t, exec (.wayOnReq o n way) s = .next t
      ∧ bit (t.rd SC_WAY_PWR.OFF_REQ n) way = false ∧ t.rd SC_WAY_PWR.REJECT n = stOK
      ∧ t.wayState n way = (if (s.wayState n way = 1 ∧ s.leaving n way = false) ∨ s.wayState n way = 2 then 0 else s.wayState n way)
      ∧ s.sameRegs t [SC_WAY_PWR.OFF_REQ.key n 0 0, SC_WAY_PWR.REJECT.key n 0 0, SC_WAY_STATE.STATE.key n 0 way]
      ∧ t = { s with regs := t.regs }) ∧
    (s.wayState n way = 1 → s.wayInFlight n way = false → ∃ t, exec (.wayGateClose n way) s = .next t
      ∧ (∀ e ∈ t.mem.sc, ¬ ofWay e.1) ∧ s.sameStore t ∧ (t.wayState n way = 2 ∨ t.wayState n way = 3)
      ∧ ((∀ e ∈ s.mem.sc, ofWay e.1 → e.2.dirty = false) → s.leaving n way = false →
        t.wayState n way = 2 ∧ t.rd SC_INT_STATUS.GATE_DONE n = 1)
      ∧ (s.leaving n way = true → t.wayState n way = 3 ∧ bit (t.rd SC_WAY_DISABLE.DISABLED n) way = true
        ∧ t.rd SC_INT_STATUS.WAY_DISABLED n = 1 ∧ getK false t.mem.wayHist (n * 16 + way) = true)) ∧
    (s.wayState n way ≠ 1 ∨ s.wayInFlight n way = true → exec (.wayGateClose n way) s = .next s) ∧
    (bit (s.rd SC_WAY_DISABLE.DISABLED n) way = true → ∃ t, exec (.wayReenable o n way) s = .next t
      ∧ bit (t.rd SC_WAY_DISABLE.DISABLED n) way = false ∧ t.wayState n way = 0
      ∧ getK false t.mem.wayHist (n * 16 + way) = false
      ∧ s.sameRegs t [SC_WAY_DISABLE.DISABLED.key n 0 0, SC_WAY_STATE.STATE.key n 0 way]
      ∧ t = { s with regs := t.regs, mem := { s.mem with wayHist := t.mem.wayHist } }) ∧
    (bit (s.rd SC_WAY_DISABLE.DISABLED n) way = false → exec (.wayReenable o n way) s = .next s) ∧
    (s.mem.preload.find? (·.1 = n.val) = none → exec (.preloadDone n) s = .next s)

/-- The commands of the HBM stacks and of the system caches' ways. -/
def Obligations.MemorySide : Prop := Stated.HbmStacks ∧ Stated.CacheWays

/-- FILL, CRC, their completion and its read, and the tests. -/
def Obligations.Geysers : Prop :=
  ∀ (s : State) (o : Origin) (n : Fin 2), s.direct o →
    let cmd : GeyCmd := ⟨s.rd GEY_CMD0.OP, s.rd GEY_CMD0.PATTERN, s.rd GEY_CMD0.PART, s.rd GEY_CMD0.TAG,
      s.rd GEY_CMD1.BASE, s.rd GEY_CMD2.LENGTH, s.rd GEY_CMD3.VALUE⟩
    let queued (i : Instr) : Prop :=
      (s.mem.geyq.length < 16 → ∃ t, exec i s = .next t ∧ t.mem.geyq = s.mem.geyq ++ [cmd]
        ∧ t.rd GEY_GO.FULL = b2n (decide (15 ≤ s.mem.geyq.length)) ∧ s.sameRegs t [GEY_GO.FULL.key 0 0 0]
        ∧ t = { s with regs := t.regs, mem := { s.mem with geyq := t.mem.geyq } }) ∧
      (16 ≤ s.mem.geyq.length → exec i s = .next s)
    (s.rd GEY_CMD0.OP = 1 → queued (.fill o)) ∧ (s.rd GEY_CMD0.OP = 2 → queued (.crc o)) ∧
    (s.rd GEY_CMD0.OP ≠ 1 → exec (.fill o) s = .next s) ∧ (s.rd GEY_CMD0.OP ≠ 2 → exec (.crc o) s = .next s) ∧
    (s.mem.geyq = [] → exec .geyserComplete s = .next s) ∧
    (s.mem.geyDone = [] → ∃ t, exec (.geyDone o) s = .next t
      ∧ t.resp = ⟨leBytes 8 (s.recWord [GEY_DONE.STATUS, GEY_DONE.TAG, GEY_DONE.VALID] 0), false, false⟩
      ∧ t = { s with resp := t.resp }) ∧
    (s.mem.geyTest.find? (·.1 = n.val) = none → ∀ e r b c, exec (.geyTestDone n e r b c) s = .next s) ∧
    (∀ c rest, s.mem.geyq = c :: rest →
      let taken : State := { s with mem := { s.mem with geyq := rest } }.wr GEY_GO.FULL 0
      let ks := keysOf c.base c.length
      let r := taken.rangeRead c.base c.length (s.geyStream (c.base / 64)) c.part
      let posted (t : State) (st crc : Nat) : Prop := t.mem.geyq = rest ∧ t.mem.geyDone = s.mem.geyDone ++ [⟨st, c.tag, crc⟩]
        ∧ (st = stOK → t.rd GEY_INT_STATUS.DONE = 1) ∧ (st ≠ stOK → t.rd GEY_INT_STATUS.ERR = 1)
      (s.geyBad c = true → ∃ t, exec .geyserComplete s = .next t ∧ posted t stBadDescriptor 0 ∧ s.sameStore t) ∧
      (s.geyBad c = false → c.length = 0 → ∃ t, exec .geyserComplete s = .next t ∧ posted t stOK 0 ∧ s.sameStore t) ∧
      (s.geyBad c = false → 0 < c.length → c.op = 1 → (s.prepare ks true).2 = true → s.creditFor ks c.part = true →
        ∃ t, exec .geyserComplete s = .next t ∧ posted t (if s.meetsFailed c then stEcc else stOK) 0
          ∧ (∀ i, i < c.length / 64 → t.hbmLine (c.base / 64 + i) = patternLine c (c.base / 64 + i)
            ∧ t.poisoned (c.base / 64 + i) = false)
          ∧ (∀ a, a < c.base ∨ c.base + c.length ≤ a → memGet t.hbm a = memGet s.hbm a)) ∧
      (s.geyBad c = false → 0 < c.length → c.op = 2 → (s.prepare ks false).2 = true → s.creditFor ks c.part = true →
        ∃ t, exec .geyserComplete s = .next t ∧ posted t (if r.poison || s.meetsFailed c then stEcc else stOK)
          (if r.poison || s.meetsFailed c then 0 else crc64 r.data)) ∧
      (s.geyBad c = false → 0 < c.length → (s.prepare ks (c.op == 1)).2 = false ∨ s.creditFor ks c.part = false →
        exec .geyserComplete s = .next (s.prepare ks (c.op == 1)).1)) ∧
    (∀ d rest, s.mem.geyDone = d :: rest → ∃ t, exec (.geyDone o) s = .next t ∧ t.mem.geyDone = rest
      ∧ t.rd GEY_CRC.CRC = d.crc % 2 ^ 64
      ∧ t.resp = ⟨leBytes 8 (s.recWord [GEY_DONE.STATUS, GEY_DONE.TAG, GEY_DONE.VALID] 0), false, false⟩
      ∧ t = { s with regs := t.regs, mem := { s.mem with geyDone := rest }, resp := t.resp }) ∧
    (∀ (pc : Fin 1024) (pattern : Fin 8),
      let ours := pc.val < 768 ∧ hubOfPc pc = n.val ∧ s.on GEY_TEST_CTRL.BUSY n = false
      let started (i : Instr) (mode pat : Nat) : Prop := ∃ t, exec i s = .next t ∧ t.rd GEY_TEST_CTRL.BUSY n = 1
        ∧ t.rd GEY_TEST_CTRL.REJECT n = stOK ∧ (t.mem.geyTest.find? (·.1 = n.val)).map (·.2) = some (pc.val, mode, pat)
        ∧ t = { s with regs := t.regs, mem := { s.mem with geyTest := t.mem.geyTest } }
      (ours → s.mappedOut pc = false → started (.readCheck o n pc) 1 0) ∧
      (ours → s.mappedOut pc = true ∨ s.pcFailed pc = true → pattern.val < 5 → started (.writeCheck o n pc pattern) 2 pattern) ∧
      (∀ i, ((i = Instr.readCheck o n pc ∨ i = .writeCheck o n pc pattern) ∧ ¬ ours) ∨ (i = .readCheck o n pc ∧ s.mappedOut pc = true) ∨
          (i = .writeCheck o n pc pattern ∧ (s.mappedOut pc = false ∧ s.pcFailed pc = false ∨ 5 ≤ pattern.val)) → ∃ t, exec i s = .next t
        ∧ t.rd GEY_TEST_CTRL.REJECT n = stBadDescriptor ∧ t.mem = s.mem ∧ t = { s with regs := t.regs })) ∧
    (∀ e r b c pc mode pat, (s.mem.geyTest.find? (·.1 = n.val)).map (·.2) = some (pc, mode, pat) →
      ∃ t, exec (.geyTestDone n e r b c) s = .next t ∧ t.rd GEY_TEST_RESULT.ERRORS n = e.count
        ∧ t.rd GEY_TEST_RESULT.ROW n = r.toNat ∧ t.rd GEY_TEST_RESULT.BANK n = b.toNat ∧ t.rd GEY_TEST_RESULT.COL n = c.toNat
        ∧ t.rd GEY_TEST_RESULT.DONE n = 1 ∧ t.rd GEY_TEST_CTRL.BUSY n = 0
        ∧ (mode ≠ 1 → getK 99 t.mem.testMem pc = pat)
        ∧ (mode = 1 → t.credit n 0 = s.credit n 0 - 2 ^ 30
          ∧ t.rd HBM_ERR_CORR.COUNT n = satAdd (s.rd HBM_ERR_CORR.COUNT n) e.corr.toNat HBM_ERR_CORR.COUNT.width
          ∧ t.rd HBM_ERR_UNCORR.COUNT n = satAdd (s.rd HBM_ERR_UNCORR.COUNT n) e.uncorr.toNat HBM_ERR_UNCORR.COUNT.width
          ∧ (e.uncorr.toNat ≠ 0 → t.rd HBM_ERR_LAST.PC n = pc % 1024 ∧ t.rd HBM_INT_STATUS.ECC_UNCORR n = 1))
        ∧ t = { s with regs := t.regs, mem := t.mem, irq := t.irq, out := t.out })

/-- The commands of the host port beside its memory traffic. (The unstated dwords of configuration space: log entry 39.) -/
def Obligations.HostPort : Prop :=
  ∀ (s : State) (f : Fin 65) (reg : Fin 1024),
    let lost (t : State) (cause : Nat) : Prop := t.rd HOST_RESET.STATE = 1 ∧ t.rd HOST_RESET.CAUSE = cause
      ∧ t.rd HOST_RESET.COUNT = satAdd (s.rd HOST_RESET.COUNT) 1 HOST_RESET.COUNT.width ∧ t.rd HOST_LINK.UP = 0
      ∧ t.rd HOST_INT_STATUS.LOST = 1 ∧ t.host.cfg = [] ∧ t.host.comp = [] ∧ t.host.atc = [] ∧ t.irq.msix = []
      ∧ (∀ r, r < 1024 → t.ringSt r = 0 ∧ t.ring r = Ring.idle)
    (s.on HOST_RESET.STATE = false → ∃ t, exec .perstAssert s = .next t ∧ t.host.perst = true ∧ lost t 1) ∧
    (s.on HOST_RESET.STATE = true → exec .perstAssert s = .next { s with host := { s.host with perst := true } }) ∧
    (s.hostUp = true → ∃ t, exec .hotReset s = .next t ∧ lost t 2) ∧
    (s.hostUp = false → exec .hotReset s = .next s) ∧
    (s.hostUp = true ∨ s.downLong = true → ∃ t, exec .hostDownTimeout s = .next t ∧ lost t 3) ∧
    (s.hostUp = false → s.downLong = false → exec .hostDownTimeout s = .next s) ∧
    (s.host.perst = true → exec .perstDeassert s = .next { s with
      host := { s.host with perst := false, cfg := [], comp := [], atc := [], doeIn := [], doeOut := [], doeBad := false }
      irq := { s.irq with msix := [] } }) ∧
    (∀ l : LinkIn, s.board.powered = true → s.host.perst = false → s.hostUp = false → linkGood l = true →
      s.rst.busy.contains (dHub, 0) = false → s.rst.busy.contains (dPackage, 0) = false →
      ∃ t, exec (.hostLinkUp l) s = .next t ∧ t.rd HOST_LINK.UP = 1 ∧ t.rd HOST_RESET.STATE = 0
        ∧ t.rd HOST_LINK.SPEED = l.speed ∧ t.rd HOST_LINK.WIDTH = l.width ∧ t.rd HOST_LINK.FLIT = b2n l.flit
        ∧ t.rd HOST_INT_STATUS.LINK_UP = 1 ∧ t.host.trained = l.width
        ∧ s.quiet { t with host := s.host }) ∧
    (∀ l : LinkIn, s.board.powered = true → s.host.perst = false → s.hostUp = false →
      s.rst.busy.contains (dHub, 0) = true ∨ s.rst.busy.contains (dPackage, 0) = true ∨ l.cableA = false →
      ∃ t, exec (.hostLinkUp l) s = .next t ∧ t.host.cableA = l.cableA ∧ t.host.cableB = l.cableB
        ∧ t = { s with host := t.host }) ∧
    (∀ l : LinkIn, s.hostUp = true → ∃ t, exec (.hostLinkUp l) s = .next t
      ∧ ((l.width = 4 ∨ l.width = 8 ∨ l.width = 16) → l.width.val ≤ s.host.trained → t.rd HOST_LINK.WIDTH = l.width)
      ∧ s.sameRegs t [HOST_LINK.WIDTH.key 0 0 0] ∧ t = { s with regs := t.regs }) ∧
    (∀ e : BitVec 16, s.hostUp = true → ∃ t, exec (.linkRetrain e) s = .next t
      ∧ s.counted1 t HOST_LINK_CNT.RETRAINS 1 0
      ∧ t.rd HOST_LINK_CNT.ERRORS = satAdd (s.rd HOST_LINK_CNT.ERRORS) e.toNat HOST_LINK_CNT.ERRORS.width
      ∧ t.rd HOST_INT_STATUS.RETRAIN = 1
      ∧ (e.toNat ≠ 0 → bit (t.configRead 0 0x44) 0 = true ∧ bit (t.comp (cxlRasOff + 0xC)) 6 = true)
      ∧ s.quiet { t with host := { t.host with cfg := s.host.cfg, comp := s.host.comp } }) ∧
    (s.hostUp = true → s.funcHere f = true →
      exec (.configRequest f reg none) s = .next { s with resp := ⟨leBytes 4 (s.configRead f reg), false, false⟩ } ∧
      bits (s.configRead f 0) 16 16 = (if f.val = 0 then 0x0A40 else 0x0A41) ∧
      (f.val = 0 → s.host.cfg = [] → bits (s.configRead 0 0x65) 0 16 = 1 ∧ bits (s.configRead 0 0x65) 16 16 = 1 ∧
        bits (s.configRead 0 0x66) 16 16 = 0x0A41 ∧ bits (s.configRead 0 0x63) 0 16 = 64) ∧
      (∀ v : BitVec 32, reg.val ∉ [0x2C, 0x62, 0x8A, 0x8C, 0x8D] → ∃ t, exec (.configRequest f reg (some v)) s = .next t
        ∧ t.resp = ⟨[], false, false⟩ ∧ getK 0 t.host.cfg (f.val * 1024 + reg.val) = s.cfgWritten f reg v.toNat
        ∧ (cfgKnown f reg = none → s.cfgWritten f reg v.toNat = v.toNat)
        ∧ (∀ d k, k ≠ f.val * 1024 + reg.val → getK d t.host.cfg k = getK d s.host.cfg k)
        ∧ t = { s with resp := t.resp, host := { s.host with cfg := t.host.cfg } }) ∧
      (∃ t, exec (.functionLevelReset f) s = .next t
        ∧ (∀ r, r < 1024 → s.rd RING_CFG.FUNC r = f → t.ringSt r = 0 ∧ t.ring r = Ring.idle)
        ∧ (∀ k, f * 1024 ≤ k → k < (f + 1) * 1024 → ∀ d, getK d t.host.cfg k = d)
        ∧ (∀ k, k < f * 1024 ∨ (f + 1) * 1024 ≤ k → ∀ d, getK d t.host.cfg k = getK d s.host.cfg k))) ∧
    (s.hostUp = true → s.funcHere f = false → ∀ v,
      exec (.configRequest f reg v) s =
        .next { s with resp := ⟨if v.isSome then [] else List.replicate 4 0xFF, true, false⟩ }) ∧
    (s.hostUp = true → ∀ (p : BitVec 20) (page : PageRange), ∃ t, exec (.atsInvalidation f p page) s = .next t
      ∧ (∀ e, e ∈ t.host.atc ↔ e ∈ s.host.atc ∧
        ¬ ∃ q, page.first ≤ q ∧ q < page.first + 2 ^ page.order.val ∧ e.holds f p.toNat q = true) ∧ s.counted1 t HOST_ATS.INVALS 1 0
      ∧ s.sameRegs t [HOST_ATS.INVALS.key 0 0 0] ∧ t = { s with regs := t.regs, host := { s.host with atc := t.host.atc } }) ∧
    (s.hostUp = true → ∀ m, ∃ t, exec (.mctpMessage m) s = .next t ∧ t.host = { s.host with mctp := s.host.mctp ++ [m] }
      ∧ t.board = { s.board with identify := (Config.mctpIdentify (m.map BitVec.toNat)).getD s.board.identify }
      ∧ (Config.mctpFirmware (m.map BitVec.toNat) = none → t.flash = s.flash)
      ∧ t = { s with host := t.host, flash := t.flash, board := t.board }) ∧
    (s.hostUp = false → ∀ data e p page m, exec (.configRequest f reg data) s = .next s ∧ exec (.functionLevelReset f) s = .next s ∧
      exec (.linkRetrain e) s = .next s ∧ exec (.atsInvalidation f p page) s = .next s ∧ exec (.mctpMessage m) s = .next s) ∧
    (s.funcHere f = false → exec (.functionLevelReset f) s = .next s) ∧
    (s.host.perst = false → exec .perstDeassert s = .next s) ∧
    (∀ l : LinkIn, s.hostUp = false → s.board.powered = false ∨ s.host.perst = true ∨ linkGood l = false →
      exec (.hostLinkUp l) s = .next { s with host := { s.host with cableA := l.cableA, cableB := l.cableB } }) ∧
    (∀ l : LinkIn, linkGood l = (decide (1 ≤ l.speed.val ∧ l.speed.val ≤ 6 ∧ (l.flit = true ∨ l.speed.val ≠ 6)) && l.cableA
      && l.width.val == (if l.cableB then 16 else 8))) ∧
    (∀ (o : Origin) (src : Fin 549), s.direct o →
      let on := 1 ≤ src.val ∧ bit (s.rd HOST_EVT_EN.EN 0 (src / 64)) (src % 64) = true ∧ s.source src = true
      (on → exec (.hostEvtRearm o src) s = .next (s.msix 0 (1023 + src))) ∧
      (¬ on → exec (.hostEvtRearm o src) s = .next s))

/-- A ring is enabled, rung, fetched from and drained (R351, R352, R358 to R360). -/
def Stated.RingDoors : Prop :=
  ∀ (s : State) (o : Origin) (r : Fin 1024) (v : BitVec 16), s.ringsFor o r = true →
    let n := s.rd RING_SIZE.ENTRIES r
    let x := v.toNat
    let h := s.rd RING_HEAD.HEAD r
    let wrote (t : State) (f : Fld) (y : Nat) : Prop := t.rd f r = y ∧ s.sameRegs t [f.key r 0 0] ∧ t = { s with regs := t.regs }
    let failed (t : State) (st : Nat) : Prop := t.ringSt r = rError ∧ t.rd RING_STATUS.ERR r = st ∧ t.rd RING_STATUS.ERR_INDEX r = h
      ∧ t.rd RING_ERR_LAST.RING = r ∧ t.rd RING_ERR_LAST.STATUS = st ∧ t.rd RING_ERR_LAST.VALID = 1
      ∧ t.rd RING_INT_STATUS.ERR = 1
    (s.ringSt r = rEnabled → (x ≠ h → x < n → ∃ t, exec (.ringDbSq o r v) s = .next t ∧ wrote t RING_HEAD.TAIL x) ∧
      (x = h → exec (.ringDbSq o r v) s = .next s) ∧
      (x ≠ h → n ≤ x → h < 2 ^ 16 → ∃ t, exec (.ringDbSq o r v) s = .next t ∧ failed t stBadDescriptor ∧ s.quiet t) ∧
      (x < n → ∃ t, exec (.ringDbCq o r v) s = .next t ∧ wrote t RING_CQ.HEAD x) ∧
      (n ≤ x → h < 2 ^ 16 → ∃ t, exec (.ringDbCq o r v) s = .next t ∧ failed t stBadDescriptor ∧ s.quiet t)) ∧
    (s.ringSt r ≠ rEnabled → exec (.ringDbSq o r v) s = .next s ∧ exec (.ringDbCq o r v) s = .next s) ∧
    (s.ringSt r ≠ rEnabled ∨ h = s.rd RING_HEAD.TAIL r ∨ s.ringRoom r = false ∨ (s.on RING_CFG.SPACE r = false ∧ s.hostUp = false) →
      ∀ w, exec (.descriptorFetch r w) s = .next s) ∧
    (s.ringSt r = rEnabled → h ≠ s.rd RING_HEAD.TAIL r → s.ringRoom r = true → s.on RING_CFG.SPACE r = false → s.hostUp = true →
      let a := s.rd RING_SQ_BASE.BASE r * 4096 + 256 * h
      let d : RingDesc := ⟨h, memRead s.hostMem a 256, false⟩
      ((∀ e ∈ (s.ring r).inflight ++ [d], e.cls < 6) → ∃ t, exec (.descriptorFetch r .data) s = .next t
        ∧ (t.ring r).inflight = (s.ring r).inflight ++ [d]
        ∧ t.rd RING_HEAD.HEAD r = (if h + 1 = n then 0 else h + 1) % 2 ^ 16 ∧ t.ringSt r = rEnabled ∧ s.sameStore t
        ∧ t = { s with regs := t.regs, host := { s.host with rings := t.host.rings, atc := t.host.atc } }) ∧
      (h < 2 ^ 16 → (∃ t, exec (.descriptorFetch r .refused) s = .next t ∧ failed t stHostLost ∧ t.rd HOST_ATS_ERR.VALID = 1
        ∧ t.rd HOST_INT_STATUS.ATS_ERR = 1 ∧ s.quiet t) ∧
        ∃ t, exec (.descriptorFetch r .poisoned) s = .next t ∧ failed t stEcc ∧ s.quiet t)) ∧
    (s.ringSt r = rEnabled → h ≠ s.rd RING_HEAD.TAIL r → s.ringRoom r = true → s.on RING_CFG.SPACE r = true → h < 2 ^ 16 →
      let a := s.rd RING_SQ_BASE.BASE r * 4096 + 256 * h
      let y := s.rangeRead a 256 96 (s.ringPart r)
      let d : RingDesc := ⟨h, y.data, false⟩
      (s.hbmEnd < a + 256 → ∀ w, ∃ t, exec (.descriptorFetch r w) s = .next t ∧ failed t stBadDescriptor ∧ s.quiet t) ∧
      (a + 256 ≤ s.hbmEnd → (s.prepare (keysOf a 256) false).2 = false ∨ s.creditFor (keysOf a 256) (s.ringPart r) = false → ∀ w,
        exec (.descriptorFetch r w) s = .next (s.prepare (keysOf a 256) false).1) ∧
      (a + 256 ≤ s.hbmEnd → (s.prepare (keysOf a 256) false).2 = true → s.creditFor (keysOf a 256) (s.ringPart r) = true →
        (y.poison = true → ∀ w, ∃ t, exec (.descriptorFetch r w) s = .next t ∧ failed t stEcc) ∧
        (y.poison = false → (∀ e ∈ (s.ring r).inflight ++ [d], e.cls < 6) → ∀ w, ∃ t, exec (.descriptorFetch r w) s = .next t
          ∧ (t.ring r).inflight = (s.ring r).inflight ++ [d]
          ∧ t.rd RING_HEAD.HEAD r = (if h + 1 = n then 0 else h + 1) % 2 ^ 16))) ∧
    (let good := s.ringSt r = rDisabled ∧ s.rd RING_SLOTS.USED + n ≤ 65536 ∧ (s.on RING_CFG.SPACE r = false ∨ s.ringFunc r = 0);
      (good → ringSizeGood n = true → ∃ t, exec (.ringEnable o r) s = .next t ∧ t.rd RING_CFG.EN r = 1
        ∧ t.ringSt r = rEnabled ∧ t.rd RING_CFG.REJECT r = stOK ∧ t.rd RING_SLOTS.USED = s.rd RING_SLOTS.USED + n
        ∧ t.rd RING_CQ.PHASE r = 1 ∧ t = { s with regs := t.regs }) ∧
      (good → n = 0 → ∃ t, exec (.ringEnable o r) s = .next t ∧ wrote t RING_CFG.REJECT stZeroWindow) ∧
      (¬ good ∨ n ≠ 0 ∧ ringSizeGood n = false →
        ∃ t, exec (.ringEnable o r) s = .next t ∧ wrote t RING_CFG.REJECT stBadDescriptor)) ∧
    (s.ringSt r = rEnabled ∨ s.ringSt r = rError →
      let u := ((s.wr RING_CFG.REJECT stOK r).wr RING_CFG.EN 0 r).wr RING_STATUS.STATE rDraining r
      let skip := ((s.ring r).inflight.filter fun d => !d.begun).map (·.slot)
      exec (.ringDrain o r) s = .next ((skip.foldl (fun (u : State) k => u.complete r k stOK 0 0 true) u).ringSettle r) ∧
      ((s.ring r).inflight = [] → ∃ t, exec (.ringDrain o r) s = .next t ∧ t.ringSt r = rDisabled ∧ t.rd RING_CFG.EN r = 0
        ∧ t.rd RING_HEAD.HEAD r = 0 ∧ t.rd RING_HEAD.TAIL r = 0 ∧ t.rd RING_CQ.TAIL r = 0 ∧ t.rd RING_INT_STATUS.DRAINED = 1
        ∧ s.quiet t)) ∧
    (s.ringSt r ≠ rEnabled → s.ringSt r ≠ rError → ∃ t, exec (.ringDrain o r) s = .next t ∧ t.rd RING_CFG.REJECT r = stOK
      ∧ t.rd RING_CFG.EN r = 0 ∧ s.sameRegs t [RING_CFG.REJECT.key r 0 0, RING_CFG.EN.key r 0 0] ∧ t = { s with regs := t.regs }) ∧
    (∀ m, (s.ring r).due = some m → m + min (s.rd RING_IRQ.HOLDOFF_US r) 1000 ≤ s.us →
      exec (.msixHoldoffExpiry r) s = .next ((s.setRing r fun x => { x with due := none }).ringMsix r)) ∧
    (∀ m, (s.ring r).due = some m → s.us < m + min (s.rd RING_IRQ.HOLDOFF_US r) 1000 → exec (.msixHoldoffExpiry r) s = .next s) ∧
    ((s.ring r).due = none → exec (.msixHoldoffExpiry r) s = .next s)

/-- The descriptor of a ring whose turn it is is carried out by its class (R354 to R357, R450), and its record written. -/
def Stated.RingClasses : Prop :=
  ∀ (s : State) (r : Fin 1024) (slot : Fin 65536) (d : RingDesc), s.ringNext r = some d → d.slot = slot →
    let plens (c n : Nat) : Prop :=
      c = 0 ∧ n = 0 ∨ c = 1 ∧ n ≤ 192 ∨ c = 2 ∧ n = 64 ∨ c = 3 ∧ n = 0 ∨ c = 4 ∧ n = 32 ∨ c = 5 ∧ n = 0
    let whole := d.headGood = true ∧ d.argsGood = true ∧ plens d.cls d.plen
    let runs (c : Nat) : Prop := d.cls = c ∧ s.on RAS_SERVICE.OUT = false ∧ whole
    let ends (i : Instr) (u : State) (st : Nat) (q2 : Nat := 0) : Prop :=
      exec i s = .next ((u.finishDesc r slot st q2).ringGo r)
    let q (i : Nat) : Nat := quad d.payload i
    let k := bits (d.q 2) 0 4
    let cmd := bits (d.q 2) 4 3
    (∀ i c, (i, c) ∈ [(Instr.nop r slot, 0), (.inline r slot, 1), (.moveClass r slot, 2), (.exec r slot, 3), (.tier r slot, 4),
        (.land r slot, 5)] → d.cls = c →
      (s.on RAS_SERVICE.OUT = true → ends i s stOutOfService) ∧
      (s.on RAS_SERVICE.OUT = false → ¬ whole → ends i s stBadDescriptor)) ∧
    (runs 0 → ends (.nop r slot) s stOK) ∧
    (runs 0 → s.ringDesc r slot = some d → s.host.compq = [] → s.on RING_CFG.SPACE r = false → s.ringSt r = rEnabled →
      bit (d.q 0) 5 = false → bit (d.q 0) 6 = false → (∀ e ∈ (s.ring r).inflight, e.cls < 6) →
      ∃ t, exec (.nop r slot) s = .next t
        ∧ memRead t.hostMem (s.recordAddr r) 32 = s.recordBytes ⟨r, slot, stOK, 0, false, d.q 1, 0, 0, false, true⟩
        ∧ (∀ a, a < s.recordAddr r ∨ s.recordAddr r + 32 ≤ a → memGet t.hostMem a = memGet s.hostMem a)
        ∧ (t.ring r).inflight = (s.ring r).inflight.filter (fun e => e.slot != slot.val)
        ∧ t.rd RING_DONE.COUNT r = satAdd (s.rd RING_DONE.COUNT r) 1 RING_DONE.COUNT.width
        ∧ t.rd RING_CQ.TAIL r = (if s.rd RING_CQ.TAIL r + 1 = s.rd RING_SIZE.ENTRIES r then 0 else s.rd RING_CQ.TAIL r + 1) % 2 ^ 16) ∧
    (runs 1 →
      let p := s.inlineReady r d
      let w := p.1.landInline r d
      (s.inlineGood r d = false → ends (.inline r slot) s stBadDescriptor) ∧
      (s.inlineGood r d = true → d.plen = 0 → ends (.inline r slot) s stOK) ∧
      (s.inlineGood r d = true → d.plen ≠ 0 → p.2 = true → ends (.inline r slot) w.1 (if w.2 then stOK else stEcc))) ∧
    (runs 2 →
      let desc := (List.range 8).map q
      let c := bits (d.q 2) 0 9
      let m := bits (d.q 2) 9 1
      (s.mayMove (s.ringFunc r) desc = false → ends (.moveClass r slot) s stBadDescriptor) ∧
      (s.mayMove (s.ringFunc r) desc = true → exec (.moveClass r slot) s = .next
        ((((s.beginDesc r slot).setMover c m fun x =>
          { x with hostq := x.hostq ++ [⟨desc, s.ringFunc r, r, slot⟩] }).dispatch c m).ringGo r))) ∧
    (runs 3 →
      (s.mayCommand (s.ringFunc r) k = false → ends (.exec r slot) s stBadDescriptor (s.rd DLN_GRANT.G k)) ∧
      (s.mayCommand (s.ringFunc r) k = true →
        let u := s.execCommand k cmd (bits (d.q 3) 0 32) (bit (d.q 2) 7)
        ends (.exec r slot) u (if s.execAccepts k cmd then stOK else stBadDescriptor) (u.rd DLN_GRANT.G k))) ∧
    (runs 4 → exec (.tier r slot) s = .next (((s.beginDesc r slot).tierAsk
      (TierCmd.ofWords (q 0) (q 1) (q 2) (q 3)) (s.ringFunc r) (.ring r slot)).ringGo r)) ∧
    (runs 5 → (s.ringFunc r ≠ 0 → ends (.land r slot) s stBadDescriptor) ∧
      (s.ringFunc r = 0 → ends (.land r slot)
        (s.lndAdd (bits (d.q 2) 0 9) (bits (d.q 2) 9 8) (bits (d.q 3) 0 32)) stOK))

/-- A descriptor of a class begins only as its turn comes (R354, R356): the row of another one, or of another class, has no effect; a
fenced one waits for all before it; an INLINE waits for what it lands in (R189); one whose class is reserved completes with the one
before (R355). -/
def Stated.RingTurns : Prop :=
  ∀ (s : State) (r : Fin 1024) (slot : Fin 65536),
    (∀ i c, (i, c) ∈ [(Instr.nop r slot, 0), (.inline r slot, 1), (.moveClass r slot, 2), (.exec r slot, 3), (.tier r slot, 4),
        (.land r slot, 5)] → (s.ringNext r = none ∨ ∃ d, s.ringNext r = some d ∧ (d.slot ≠ slot ∨ d.cls ≠ c)) → exec i s = .next s) ∧
    (∀ d first, (s.ring r).inflight.find? (fun x => !x.begun) = some d → d.fence = true → (s.ring r).inflight.head? = some first →
      first.slot ≠ d.slot → s.ringNext r = none) ∧
    (∀ d, (s.ring r).inflight.find? (fun x => !x.begun) = some d → d.fence = false → s.ringNext r = some d) ∧
    (∀ d, s.ringNext r = some d → d.slot = slot → d.cls = 1 → s.on RAS_SERVICE.OUT = false → d.headGood = true → d.argsGood = true →
      d.plen ≤ 192 → d.plen ≠ 0 → s.inlineGood r d = true → (s.inlineReady r d).2 = false →
      exec (.inline r slot) s = .next ((s.inlineReady r d).1.ringGo r)) ∧
    (∀ d, s.ringNext r = some d → 6 ≤ d.cls → s.ringReserved r 1 = s.finishDesc r d.slot stBadDescriptor) ∧
    (∀ d, s.ringNext r = some d → d.cls < 6 → s.ringGo r = s)

/-- The commands of the work rings. (That a ring that is not ENABLED ignores doorbells, that a refused fetch ends HOST_LOST, and that
unlisted argument bits are refused, is DEDUCED: log entries 40, 41 and 68; LAND for a virtual function: log entry 42.) -/
def Obligations.Rings : Prop := Stated.RingDoors ∧ Stated.RingClasses ∧ Stated.RingTurns

/-- Transfers on a bundle of a die-to-die link (R372, R375) and budgets (R377, R379). -/
def Stated.DieLinks : Prop :=
  ∀ (s : State) (link : Fin 15) (dir : Bool) (b : Fin 100) (die : Fin 7) (e v w : BitVec 16),
    let k := bundleKey link dir b
    let role := s.role link dir b
    let n := getK 0 s.d2d.fails k + 1
    let bytes := if dir then D2D_BYTES_BA.BYTES else D2D_BYTES_AB.BYTES
    let up (t : State) (f : Fld) (m : Nat) : Prop := t.rd f link = satAdd (s.rd f link) m f.width
    let only (t : State) : Prop := t = { s with regs := t.regs, d2d := { s.d2d with fails := t.d2d.fails } }
    (role = 0 ∨ role = 6 → ∀ x, exec (.d2dTransfer link dir b x) s = .next s) ∧
    (role ≠ 0 → role ≠ 6 →
      (∃ t, exec (.d2dTransfer link dir b 0) s = .next t ∧ up t bytes 16 ∧ getK 0 t.d2d.fails k = 0
        ∧ s.sameRegs t [bytes.key link 0 0] ∧ only t) ∧
      (∃ t, exec (.d2dTransfer link dir b 1) s = .next t ∧ up t bytes 16 ∧ up t D2D_ERR.CORR 1 ∧ getK 0 t.d2d.fails k = 0
        ∧ s.sameRegs t [bytes.key link 0 0, D2D_ERR.CORR.key link 0 0] ∧ only t) ∧
      (n < 8 → ∃ t, exec (.d2dTransfer link dir b 2) s = .next t ∧ up t D2D_ERR.REPLAY 1 ∧ getK 0 t.d2d.fails k = n
        ∧ s.sameRegs t [D2D_ERR.REPLAY.key link 0 0] ∧ only t) ∧
      (8 ≤ n → exec (.d2dTransfer link dir b 2) s = .next ((s.bump D2D_ERR.REPLAY 1 link).bundleDown link dir b) ∧
        ((s.setD2d fun d => { d with role := setK 0 d.role k 0 }).linkFailed link = false →
          ∃ t, exec (.d2dTransfer link dir b 2) s = .next t ∧ t.role link dir b = 0 ∧ up t D2D_ERR.DOWN 1
            ∧ up t D2D_ERR.REPLAY 1 ∧ t.rd D2D_INT_STATUS.BUNDLE_DOWN = 1
            ∧ t = { s with regs := t.regs, d2d := t.d2d, irq := t.irq, out := t.out }))) ∧
    (let held := (s.d2d.held.find? (·.1 = die.val)).map (·.2);
      let fresh := held = none ∨ ∃ x, held = some x ∧ newer e.toNat x.1 = true;
      (fresh → ∃ t, exec (.budget die e v w) s = .next t
        ∧ (t.d2d.held.find? (·.1 = die.val)).map (·.2) = some (e.toNat, v.toNat, w.toNat)
        ∧ t = { s with d2d := { s.d2d with held := t.d2d.held } }) ∧
      (¬ fresh → exec (.budget die e v w) s = .next s)) ∧
    (let sent := (getK [] s.d2d.sent die).find? (·.1 = e.toNat);
      (sent = none → exec (.budgetAck die e v) s = .next s) ∧
      (∀ x, sent = some x → ∃ t, exec (.budgetAck die e v) s = .next t ∧ t.rd D2D_BUDGET.ACK_EPOCH 0 die = e.toNat
        ∧ t.rd D2D_BUDGET.DRAW 0 die = v.toNat ∧ t.ackedBudget die = x.2
        ∧ s.sameRegs t [D2D_BUDGET.ACK_EPOCH.key 0 die 0, D2D_BUDGET.DRAW.key 0 die 0]
        ∧ t = { s with regs := t.regs, d2d := { s.d2d with acked := t.d2d.acked, sent := t.d2d.sent, draws := t.d2d.draws } }
        ∧ getK [] t.d2d.draws die = getK [] s.d2d.draws die ++ [v.toNat]))

/-- The Cocoon site is brought up, offered power, fenced and left without rail (R381 to R383, R386, R387, R390). -/
def Stated.CocoonSite : Prop :=
  ∀ (s : State) (d : List Byte) (o : Origin) (e limit : BitVec 16), s.direct o →
    let only (t : State) : Prop := t = { s with regs := t.regs, coc := t.coc, irq := t.irq, out := t.out }
    let free := if o = .hawkmoth then s.coc.due = true else s.cocSt ≠ cocUP ∧ s.coc.fencing = false
    let code := s.trust.cocoonCode
    let fenced (t : State) (reason source : Nat) : Prop := t.coc.fencing = true ∧ t.siteUp = false ∧ t.rd COC_STATUS.REASON = reason
      ∧ t.rd COC_INT_STATUS.FENCED = 1 ∧ t.rd COC_ERR.SOURCE = source ∧ t.rd COC_ERR.STATUS = reason ∧ t.rd COC_ERR.VALID = 1
      ∧ t.rd PWR_CLASS.MAX 0 4 = 0 ∧ t.coh.net = s.coh.net.filter (fun m => !forCocoon m)
      ∧ t = { s with regs := t.regs, coc := t.coc, irq := t.irq, out := t.out, coh := t.coh }
    (free → code = 0 → ∃ t, exec (.bringup o d) s = .next t ∧ t.cocSt = cocEMPTY ∧ only t) ∧
    (free → code ≠ 0 → ∃ t, exec (.bringup o d) s = .next t ∧ t.cocSt = cocTRAINING ∧ t.coc.rail = true ∧ t.coc.found = some d
      ∧ only t) ∧
    (s.coc.found = none → s.siteSettle = s) ∧
    (s.coc.found = some d → discGood d = false ∨ discField d 2 2 ≠ code → ∃ t, s.siteSettle = t
      ∧ t.cocSt = cocMISMATCH ∧ t.rd COC_STATUS.REASON = stBadDescriptor ∧ t.rd COC_ERR.SOURCE = 5 ∧ t.coc.rail = false ∧ only t) ∧
    (s.coc.found = some d → discGood d = true → discField d 2 2 = code → ∃ t, s.siteSettle = t
      ∧ t.cocSt = cocNEGOTIATING ∧ t.coc.rail = s.coc.rail ∧ t.coc.found = none ∧ t.rd COC_STATUS.MODE = cocMode (discField d 6 1) (s.rd COC_CFG.MODE_PREF)
      ∧ t.rd COC_STATUS.RATE = min (discField d 8 1) (cocRate (s.rd COC_CFG.RATE_MAX))
      ∧ t.rd COC_STATUS.STREAMS = min (discField d 9 1) 16 ∧ t.rd COC_STATUS.WINDOW_LOG2 = min (discField d 0xA 1) 28
      ∧ t.rd COC_OFFER.EPOCH = (s.rd COC_OFFER.EPOCH + 1) % 65536
      ∧ t.rd COC_OFFER.LIMIT = min (Config.firstOffer (s.rd COC_OFFER.EPOCH)) (discField d 0xC 2) ∧ only t) ∧
    (¬ free → exec (.bringup o d) s = .next s) ∧
    (s.offered = true → e.toNat = s.rd COC_OFFER.EPOCH → ∃ t, exec (.accept e) s = .next t
      ∧ t.rd COC_OFFER.ACC_EPOCH = e.toNat ∧ t.rd COC_OFFER.ACC_LIMIT = s.rd COC_OFFER.LIMIT % 2 ^ 16 ∧ t.cocSt = cocUP
      ∧ t.rd COC_INT_STATUS.ACCEPTED = 1 ∧ (s.cocSt = cocNEGOTIATING → t.rd COC_INT_STATUS.UP = 1) ∧ s.quiet t) ∧
    (s.offered = false ∨ e.toNat ≠ s.rd COC_OFFER.EPOCH → exec (.accept e) s = .next s) ∧
    (s.siteUp = true → exec (.request limit) s = .next (s.offer (min limit.toNat (4 * s.rd PWR_CLASS.GRANT 0 4)))) ∧
    (s.siteUp = false → exec (.request limit) s = .next s) ∧
    (s.offered = true → ∃ t, exec .offerTimeout s = .next t ∧ fenced t stOutOfService 1) ∧
    (s.offered = false → exec .offerTimeout s = .next s) ∧
    (s.siteUp = true → s.coc.above = true → s.graceMs ≤ s.rd COC_DRAW.EXCESS_MS →
      ∃ t, exec .graceExpiry s = .next t ∧ fenced t stOutOfService 1) ∧
    (s.siteUp = true → s.coc.down = true → s.coc.downAt + 1000 * min (s.rd COC_ENF.DOWN_MS) 10000 < s.us →
      ∃ t, exec .cocoonLinkDownTimeout s = .next t ∧ fenced t stPeerTimeout 2) ∧
    (s.coc.down = false ∨ s.us ≤ s.coc.downAt + 1000 * min (s.rd COC_ENF.DOWN_MS) 10000 → exec .cocoonLinkDownTimeout s = .next s) ∧
    (s.coc.fencing = true → ∃ t, exec .siteRailRemoval s = .next t ∧ t.cocSt = cocFENCED
      ∧ t.coc = { s.coc with fencing := false, rail := false, down := false } ∧ s.sameRegs t [COC_STATUS.STATE.key 0 0 0]
      ∧ t = { s with regs := t.regs, coc := t.coc }) ∧
    (s.coc.fencing = false → exec .siteRailRemoval s = .next s) ∧
    (s.siteUp = true → exec .cocoonLinkDown s = .next { s with
      coc := { s.coc with down := true, downAt := if s.coc.down then s.coc.downAt else s.us } }) ∧
    (s.siteUp = false → exec .cocoonLinkDown s = .next s) ∧
    (s.siteUp = false ∨ s.coc.above = false ∨ s.rd COC_DRAW.EXCESS_MS < s.graceMs → exec .graceExpiry s = .next s) ∧
    (exec .cocoonLinkRetrain s = .next { s with coc := { s.coc with down := false } })

/-- The die's register window (R385) and its streaming requests (R384). -/
def Stated.CocoonTraffic : Prop :=
  ∀ (s : State) (o : Origin) (addr size : Nat) (a : List Byte) (d : List Byte), s.direct o →
    cocWindow ≤ addr → addr < cocWindow + 0x10000000 →
    (s.inWindow addr = false → ∀ w x, exec (.cocoonWindowAccess o addr size w x) s =
      .next ((s.unmapped o addr size w.isSome).cocLoaded o addr size)) ∧
    (s.inWindow addr = true → [1, 2, 4, 8].contains size = true → addr % size = 0 →
      exec (.cocoonWindowAccess o addr size none (some a)) s =
        .next (({ s with resp := ⟨a.take size, false, false⟩ } : State).cocLoaded o addr size) ∧
      (∃ t, exec (.cocoonWindowAccess o addr size (some d) (some a)) s = .next t
        ∧ t.out = s.out ++ [.cocoonWrite (addr - cocWindow) (d.take size)] ∧ t = { s with out := t.out, resp := ⟨[], false, false⟩ }) ∧
      (∀ w, exec (.cocoonWindowAccess o addr size w none) s =
        .next { s with coc := { s.coc with open_ := s.coc.open_ ++ [(addr, w.isSome, size, s.us)] } })) ∧
    (∀ e w, (s.coc.open_.find? fun e => e.1 == addr && e.2.1 == w) = some e → e.2.2.2 + s.rd COC_ENF.WIN_US ≤ s.us →
      ∃ t, exec (.windowAnswerTimeout o addr w) s = .next t
      ∧ t.coc.open_ = s.coc.open_.erase e ∧ t.rd COC_ERR.SOURCE = 3 ∧ t.rd COC_ERR.STATUS = stPeerTimeout
      ∧ t.resp = ⟨if w then [] else List.replicate e.2.2.1 0xFF, hostSide o, false⟩ ∧ s.sameStore t) ∧
    (∀ w, ((s.coc.open_.find? fun e => e.1 == addr && e.2.1 == w) = none ∨ ∃ e, (s.coc.open_.find? fun e => e.1 == addr && e.2.1 == w) = some e ∧
      s.us < e.2.2.2 + s.rd COC_ENF.WIN_US) → exec (.windowAnswerTimeout o addr w) s = .next s) ∧
    (s.inWindow addr = true → [1, 2, 4, 8].contains size = false ∨ addr % size ≠ 0 → ∀ w x, ∃ t,
      exec (.cocoonWindowAccess o addr size w x) s = .next t
      ∧ t.resp = ⟨if w.isSome then [] else List.replicate size 0xFF, hostSide o, false⟩
      ∧ { t with resp := s.resp } = s.rasEvent stBadDescriptor 17 0 addr (if w.isSome then .uncorr else .info)) ∧
    (∀ a2 w x, a2 < cocWindow ∨ cocWindow + 0x10000000 ≤ a2 → exec (.cocoonWindowAccess o a2 size w x) s = .next s)

/-- A put and a get of a die that streams (R384), at any address. -/
def Stated.CocoonStreams : Prop :=
  ∀ (s : State) (cluster : Bool) (addr : Nat) (d : List Byte) (cnt : Option (Fin 256)) (lclu : Nat) (len : Fin 257),
    (s.streaming = false → exec (.cocoonPut cluster addr d cnt lclu) s = .next s ∧ exec (.cocoonGet cluster addr len) s = .next s) ∧
    (d = [] ∨ 256 < d.length → exec (.cocoonPut cluster addr d cnt lclu) s = .next s) ∧
    (len.val = 0 → exec (.cocoonGet cluster addr len) s = .next s) ∧
    (s.streaming = true →
    let c := cnt.map fun n => (if cluster then bits addr 22 9 else lclu % 512, n.val)
    (0 < d.length → d.length ≤ 256 →
      let aim := s.streamAt cluster addr d.length
      (aim = .none → exec (.cocoonPut cluster addr d cnt lclu) s = .next (s.cocRefuse addr)) ∧
      (aim ≠ .none → (s.putReady aim c d.length).2 = true →
        exec (.cocoonPut cluster addr d cnt lclu) s = .next (s.landPut aim c d)) ∧
      (aim ≠ .none → (s.putReady aim c d.length).2 = false →
        exec (.cocoonPut cluster addr d cnt lclu) s = .next (s.putReady aim c d.length).1) ∧
      (cluster = false → aim = .hbm addr → (s.putReady aim c d.length).2 = true → s.on TIER_CTRL.EN = false →
        (∀ k ∈ keysOf addr d.length, s.entry k = none) → ∃ t, exec (.cocoonPut cluster addr d cnt lclu) s = .next t
          ∧ memRead t.hbm addr d.length = d
          ∧ ∀ a, a < addr ∨ addr + d.length ≤ a → memGet t.hbm a = memGet s.hbm a)) ∧
    (0 < len.val →
      let aim := s.streamAt cluster addr len
      (aim = .none → exec (.cocoonGet cluster addr len) s = .next (s.cocRefuse addr)) ∧
      (∀ a, aim = .hbm a → (s.prepare (keysOf a len) false).2 = false ∨ s.creditFor (keysOf a len) s.cocPart = false →
        exec (.cocoonGet cluster addr len) s = .next (s.prepare (keysOf a len) false).1) ∧
      (∀ a, aim = .hbm a → (s.prepare (keysOf a len) false).2 = true → s.creditFor (keysOf a len) s.cocPart = true →
        let r := s.rangeRead a len cocStream s.cocPart
        (r.poison = false → exec (.cocoonGet cluster addr len) s = .next (r.st.send (.cocoonPut addr r.data))) ∧
        (r.poison = true → exec (.cocoonGet cluster addr len) s = .next (r.st.cocErr stEcc 4 addr))) ∧
      (∀ k off, aim = .spad k off →
        let r := s.spadRead k off len
        (r.bad = none → exec (.cocoonGet cluster addr len) s = .next (r.st.send (.cocoonPut addr r.data))) ∧
        (∀ w, r.bad = some w → exec (.cocoonGet cluster addr len) s = .next ((r.st.spadEvent k w).cocErr stEcc 4 addr)))))

/-- The commands of the die-to-die links and of the Cocoon site. (The first offer and the answer to REQUEST: log entry 44.) -/
def Obligations.DiesAndCocoon : Prop := Stated.DieLinks ∧ Stated.CocoonSite ∧ Stated.CocoonTraffic ∧ Stated.CocoonStreams

/-- The sequenced frames a port receives (R394 to R404): one out of order is answered with a NAK, one in order advances the link
and acts. -/
def Stated.LinkFrames : Prop :=
  ∀ (s : State) (k : ObLink) (h : ObHdr) (desc : List Word) (a : ObAck) (b : List Byte),
    let p := k.port.val
    let x := s.port p
    let good := s.portSt p = pUp ∧ k.crcOk = true ∧ k.seq = x.rxSeq
    let acted (i : Instr) (u : State) (cls credit : Nat) : Prop := ∃ t, exec i s = .next t
      ∧ (t.port p).rxSeq = (x.rxSeq + 1) % 4096
      ∧ getK 0 (t.port p).returned (cls * 2 + b2n k.vc) = (getK 0 x.returned (cls * 2 + b2n k.vc) + credit) % 65536
      ∧ (∀ q, (t.port q).txq = (u.port q).txq ∧ (t.port q).rxRun = (u.port q).rxRun)
      ∧ t.out.take u.out.length = u.out ∧ t = { u with obl := { u.obl with ports := t.obl.ports }, out := t.out }
    let frames := [Instr.hdr k h, .getFrame k h desc, .ack k a, .nack k a] ++
      if b ≠ [] ∧ b.length ≤ 256 then [.data k b] else []
    let run (t : State) : Option ObRun := t.rxRun p k.vc
    (∀ i ∈ frames, (s.portSt p = pUp → k.crcOk = false ∨ k.seq ≠ x.rxSeq → ∃ t, exec i s = .next t
        ∧ t.out = s.out ++ [.ctl p ((x.rxSeq + 4095) % 4096) true ((List.range 6).map fun c => getK 0 x.returned c)]
        ∧ t = { s with obl := t.obl, out := t.out }) ∧
      (s.portSt p ≠ pUp → exec i s = .next s)) ∧
    (good → s.mine h.dest = true →
      acted (.hdr k h) (s.hdrMine p k.vc h) cPut 1 ∧
      (s.on OBL_STATUS.QUIET = false → h.reply = false → s.hdrGood h = true →
        ∃ t, exec (.hdr k h) s = .next t ∧ run t = some ⟨h, 0, false⟩ ∧ t.regs = s.regs) ∧
      (s.on OBL_STATUS.QUIET = false → h.reply = false → s.hdrGood h = false →
        ∃ t, exec (.hdr k h) s = .next t ∧ run t = some ⟨h, 0, true⟩ ∧ t.rd OBL_NACK_LAST.VALID = 1
          ∧ t.rd OBL_NACK_LAST.STATUS = stBadDescriptor) ∧
      (s.on OBL_STATUS.QUIET = true → ∃ t, exec (.hdr k h) s = .next t ∧ run t = some ⟨h, 0, true⟩
        ∧ t.rd OBL_DROP2.QUIET = satAdd (s.rd OBL_DROP2.QUIET) 1 OBL_DROP2.QUIET.width) ∧
      (s.on OBL_STATUS.QUIET = false → h.reply = true → (s.replyTo h).isSome = true →
        ∃ t, exec (.hdr k h) s = .next t ∧ run t = some ⟨h, 0, false⟩ ∧ t.regs = s.regs) ∧
      (s.on OBL_STATUS.QUIET = false → h.reply = true → s.replyTo h = none → ∃ t, exec (.hdr k h) s = .next t
        ∧ run t = some ⟨h, 0, true⟩ ∧ t.rd OBL_DROP2.STALE = satAdd (s.rd OBL_DROP2.STALE) 1 OBL_DROP2.STALE.width)) ∧
    (b = [] ∨ 256 < b.length → exec (.data k b) s = .next s) ∧
    (good → b ≠ [] → b.length ≤ 256 → s.rxRun p k.vc = none → acted (.data k b) s cPut (cdiv (8 + b.length) 64)) ∧
    (good → b ≠ [] → b.length ≤ 256 → ∀ r, s.rxRun p k.vc = some r → r.refused = true →
      let on (u : State) : State := (u.setRun p k.vc { r with off := r.off + b.length }).bump OBL_PORT_RX.BYTES b.length p
      (s.mine r.h.dest = true → acted (.data k b) (on s) cPut (cdiv (8 + b.length) 64)) ∧
      (s.mine r.h.dest = false → acted (.data k b) (on (s.oblDrop OBL_DROP2.LOOP)) cPut (cdiv (8 + b.length) 64))) ∧
    (good → s.mine h.dest = false →
      acted (.hdr k h) (s.hdrPast p k.vc h) cPut 1 ∧
      (h.hops = 0 → ∃ t, exec (.hdr k h) s = .next t ∧ run t = some ⟨h, 0, true⟩
        ∧ t.rd OBL_DROP2.LOOP = satAdd (s.rd OBL_DROP2.LOOP) 1 OBL_DROP2.LOOP.width) ∧
      (h.hops ≠ 0 → (s.output h.dest).isSome = true →
        ∃ t, exec (.hdr k h) s = .next t ∧ run t = some ⟨{ h with hops := h.hops - 1 }, 0, false⟩ ∧ t.regs = s.regs)) ∧
    (good → b ≠ [] → b.length ≤ 256 → ∀ r, s.rxRun p k.vc = some r → r.refused = false →
      let at_ := r.h.addr + r.off
      let w := s.landPacket r.h at_ b
      (s.mine r.h.dest = true → r.h.reply = false → s.dataGood r.h at_ b.length = true → w.2 = .ok →
        acted (.data k b) (((w.1.sendPkt 0 false (.ack ⟨r.h.src, w.1.ownAddr, r.h.tag, stOK, b.length⟩)).setRun p k.vc
          ⟨r.h, r.off + b.length, false⟩).bump OBL_PORT_RX.BYTES b.length p) cPut (cdiv (8 + b.length) 64)) ∧
      (s.mine r.h.dest = true → r.h.reply = false → s.dataGood r.h at_ b.length = false →
        acted (.data k b) (((s.sendNack r.h stBadDescriptor).setRun p k.vc ⟨r.h, r.off + b.length, true⟩).bump
          OBL_PORT_RX.BYTES b.length p) cPut (cdiv (8 + b.length) 64)) ∧
      (s.mine r.h.dest = true → r.h.reply = false → s.dataGood r.h at_ b.length = true → w.2 = .bad →
        acted (.data k b) (((w.1.sendNack r.h stEcc).setRun p k.vc ⟨r.h, r.off + b.length, true⟩).bump
          OBL_PORT_RX.BYTES b.length p) cPut (cdiv (8 + b.length) 64)) ∧
      (s.mine r.h.dest = true → (r.h.reply = true → (s.replyTo r.h).isSome = true) → s.dataGood r.h at_ b.length = true → w.2 = .wait →
        exec (.data k b) s = .next w.1) ∧
      (s.mine r.h.dest = true → r.h.reply = true → s.replyTo r.h = none →
        acted (.data k b) (((s.oblDrop OBL_DROP2.STALE).setRun p k.vc ⟨r.h, r.off + b.length, true⟩).bump
          OBL_PORT_RX.BYTES b.length p) cPut (cdiv (8 + b.length) 64)) ∧
      (∀ c m, s.mine r.h.dest = true → r.h.reply = true → s.replyTo r.h = some (c, m) →
        (s.dataGood r.h at_ b.length = false → acted (.data k b) (((s.moveErr c m stBadDescriptor).setRun p k.vc
          ⟨r.h, r.off + b.length, true⟩).bump OBL_PORT_RX.BYTES b.length p) cPut (cdiv (8 + b.length) 64)) ∧
        (s.dataGood r.h at_ b.length = true → w.2 = .bad → acted (.data k b) (((w.1.setMove c m fun v =>
          { v with lost := v.lost + b.length, since := s.us }).setRun p k.vc ⟨r.h, r.off + b.length, false⟩).bump
            OBL_PORT_RX.BYTES b.length p) cPut (cdiv (8 + b.length) 64)) ∧
        (s.dataGood r.h at_ b.length = true → w.2 = .ok → acted (.data k b) ((((((w.1.setMove c m fun v =>
          { v with landed := v.landed + b.length, since := s.us }).progress c).bump (if m = 0 then MOV_BYTES0.BYTES else MOV_BYTES1.BYTES)
            b.length c).setRun p k.vc ⟨r.h, r.off + b.length, false⟩)).bump OBL_PORT_RX.BYTES b.length p) cPut
              (cdiv (8 + b.length) 64))) ∧
      (s.mine r.h.dest = false →
        acted (.data k b) (((s.sendPkt (1 + p) k.vc (.put { r.h with addr := at_ } b)).setRun p k.vc
          { r with off := r.off + b.length }).bump OBL_PORT_RX.BYTES b.length p) cPut (cdiv (8 + b.length) 64))) ∧
    (good →
      let d := desc.map (·.toNat)
      let q := getK [] s.obl.getq (p / 8)
      (s.mine h.dest = true → s.on OBL_STATUS.QUIET = false → (s.getBase h d).isSome = true → q.length < 256 →
        ∃ t, exec (.getFrame k h desc) s = .next t ∧ getK [] t.obl.getq (p / 8) = q ++ [(h, d, b2n k.vc)] ∧ t.regs = s.regs) ∧
      (s.mine h.dest = true → s.on OBL_STATUS.QUIET = false → s.getBase h d = none →
        acted (.getFrame k h desc) (s.sendNack h stBadDescriptor) cGet 2) ∧
      (s.mine h.dest = true → s.on OBL_STATUS.QUIET = true →
        acted (.getFrame k h desc) (s.oblDrop OBL_DROP2.QUIET) cGet 2) ∧
      (s.mine h.dest = true → s.on OBL_STATUS.QUIET = false → (s.getBase h d).isSome = true → 256 ≤ q.length →
        exec (.getFrame k h desc) s = .next s) ∧
      (s.mine h.dest = false → h.hops = 0 → acted (.getFrame k h desc) (s.oblDrop OBL_DROP2.LOOP) cGet 2) ∧
      (s.mine h.dest = false → h.hops ≠ 0 →
        acted (.getFrame k h desc) (s.sendPkt (1 + p) k.vc (.get { h with hops := h.hops - 1 } d)) cGet 2)) ∧
    (good → (s.mine a.dest = true → acted (.ack k a) (s.ackMine a false) cRsp 1 ∧ acted (.nack k a) (s.ackMine a true) cRsp 1) ∧
      (s.mine a.dest = false → acted (.ack k a) (s.sendPkt (1 + p) k.vc (.ack a)) cRsp 1 ∧
        acted (.nack k a) (s.sendPkt (1 + p) k.vc (.nack a)) cRsp 1)) ∧
    (∀ n : Fin 2, getK [] s.obl.getq n = [] → exec (.replyEngineStart n) s = .next s) ∧
    (∀ (n : Fin 2) d v rest, getK [] s.obl.getq n = (h, d, v) :: rest →
      let done (u : State) : State := { u with obl := { u.obl with getq := setK [] u.obl.getq n rest } }
      let m := getMove d
      (s.getBase h d = none → exec (.replyEngineStart n) s = .next (done (s.sendNack h stBadDescriptor))) ∧
      (∀ base, s.getBase h d = some base → m.total = 0 → exec (.replyEngineStart n) s = .next (done s)) ∧
      (∀ base, s.getBase h d = some base → m.total ≠ 0 → (s.prepare (getKeys m base) false).2 = false →
        exec (.replyEngineStart n) s = .next (s.prepare (getKeys m base) false).1) ∧
      (∀ base, s.getBase h d = some base → m.total ≠ 0 → (s.prepare (getKeys m base) false).2 = true →
        let r := (List.range m.runs).foldl (fun (q : State × Bool) i =>
          if q.2 then q.1.replyRun (q.1.replyHdr h m) (m.runBytes / 256 + 2) (wrap ((base : Int) + m.runOff false i (some 0)) 40)
            (wrap ((replyBase h m : Int) + m.runOff true i (some 0)) 40) m.runBytes else q)
          ((s.prepare (getKeys m base) false).1, true)
        exec (.replyEngineStart n) s = .next (done (if r.2 then r.1 else r.1.sendNack h stEcc))))

/-- A port's own frames, its credit and retry (R397, R398), and its states (R392, R393, R410). -/
def Stated.LinkPorts : Prop :=
  ∀ (s : State) (port : Fin 16) (b : ObCtl),
    let p := port.val
    let x := s.port p
    let st := s.portSt p
    let sent (t : State) (key : Nat) (f : ObFrame) : Prop := t.out = s.out ++ [.frame p x.seq (key % 2) f]
      ∧ (t.port p).seq = (x.seq + 1) % 4096 ∧ (t.port p).replay = x.replay ++ [(x.seq, key, f)]
      ∧ getK 0 (t.port p).used key = (getK 0 x.used key + f.credit) % 65536
      ∧ t = { s with regs := t.regs, obl := t.obl, out := t.out, clus := t.clus }
    let own (from_ : Nat) (h : ObHdr) : Prop := from_ = 0 ∧ h.src = s.ownAddr ∧ h.reply = false
    let flight (t : State) (from_ : Nat) (h : ObHdr) (f : Move → Move) : Prop := (¬ own from_ h → t.clus = s.clus) ∧
      (own from_ h → ∀ v, (s.mover (h.tag / 2) (h.tag % 2)).cur = some v → (t.mover (h.tag / 2) (h.tag % 2)).cur = some (f v))
    let again (t : State) : Prop := (8 ≤ x.resends → t.portSt p = pRecovery)
      ∧ (x.resends < 8 → t.out = s.out ++ x.replay.map (fun e => .frame p e.1 (e.2.1 % 2) e.2.2)
        ∧ (t.port p).resends = x.resends + 1
        ∧ t.rd OBL_PORT_RETRY.RESENT p = satAdd (s.rd OBL_PORT_RETRY.RESENT p) x.replay.length OBL_PORT_RETRY.RESENT.width)
    (st = pUp →
      (∃ t, exec (.ctl port true { b with nak := false }) s = .next t
        ∧ (∀ c, c < 6 → getK 0 (t.port p).granted c = b.credits.getD c 0 % 65536)
        ∧ (∀ i, x.replay.findIdx? (·.1 == b.ackSeq) = some i → (t.port p).replay = x.replay.drop (i + 1) ∧ (t.port p).resends = 0)
        ∧ (x.replay.findIdx? (·.1 == b.ackSeq) = none → (t.port p).replay = x.replay)
        ∧ t = { s with obl := t.obl }
        ∧ exec (.ctl port true { b with nak := true }) s = .next (t.resend p)) ∧
      (∀ i, i = Instr.ctlPeriod port ∨ i = .ctl port false b → ∃ t, exec i s = .next t ∧ (t.port p).rxCount = 0
        ∧ t.out = s.out ++ [.ctl p ((x.rxSeq + 4095) % 4096) (i != .ctlPeriod port) ((List.range 6).map fun c => getK 0 x.returned c)]
        ∧ t = { s with obl := t.obl, out := t.out }) ∧
      (x.replay ≠ [] → ∃ t, exec (.replayTimeout port) s = .next t ∧ again t)) ∧
    (st ≠ pUp → ∀ v cls vc, exec (.ctl port v b) s = .next s ∧ exec (.ctlPeriod port) s = .next s ∧
      exec (.replayTimeout port) s = .next s ∧ exec (.frameSend port cls vc) s = .next s) ∧
    (st = pUp → ∀ (cls : Fin 3) (vc : Bool) from_ rest,
      let key := cls.val * 2 + b2n vc
      let run := (x.txRun.find? (·.1 = key)).map (·.2)
      let room (f : ObFrame) : Prop := s.creditOn p key f = true ∧ s.replayRoom p f = true
      let first (pk : ObPkt) : Prop := getK [] x.txq key = (from_, pk) :: rest
      (∀ pk f, run = none → first pk → room f →
        (∃ h d, pk = .get h d ∧ f = .get h d) ∨ (∃ a, pk = .ack a ∧ f = .ack a) ∨ (∃ a, pk = .nack a ∧ f = .nack a) →
        ∃ t, exec (.frameSend port cls vc) s = .next t ∧ sent t key f ∧ getK [] (t.port p).txq key = rest
          ∧ t.clus = s.clus) ∧
      (∀ h d, run = none → first (.put h d) → room (.hdr h) → ∃ t, exec (.frameSend port cls vc) s = .next t
        ∧ sent t key (.hdr h) ∧ (t.port p).txq = x.txq ∧ (((t.port p).txRun.find? (·.1 = key)).map (·.2)) = some (h, 0)
        ∧ flight t from_ h fun v => { v with flight := v.flight ++ [0] }) ∧
      (∀ h d n, run = some (h, n) → n < 16 → first (.put h d) → room (.data d) → ∃ t, exec (.frameSend port cls vc) s = .next t
        ∧ sent t key (.data d) ∧ getK [] (t.port p).txq key = rest
        ∧ (((t.port p).txRun.find? (·.1 = key)).map (·.2)) = some ({ h with addr := h.addr + d.length }, n + 1)
        ∧ flight t from_ h fun v =>
          { v with queued := v.queued - d.length, flight := v.flight.dropLast ++ [v.flight.getLastD 0 + d.length] }) ∧
      (∀ h d n h2 d2 f2, run = some (h, n) → 16 ≤ n → first (.put h d) → rest.find? (fun e => e.1 != from_) = some (f2, .put h2 d2) →
        h2 ≠ h → room (.hdr h2) → ∃ t, exec (.frameSend port cls vc) s = .next t ∧ sent t key (.hdr h2)
        ∧ (((t.port p).txRun.find? (·.1 = key)).map (·.2)) = some (h2, 0)) ∧
      (∀ pk f, run = none → first pk → (s.creditOn p key f = false ∨ s.replayRoom p f = false) →
        (∃ h d, pk = .put h d ∧ f = .hdr h) ∨ (∃ h d, pk = .get h d ∧ f = .get h d) ∨ (∃ a, pk = .ack a ∧ f = .ack a) ∨
          (∃ a, pk = .nack a ∧ f = .nack a) → exec (.frameSend port cls vc) s = .next s)) ∧
    (st = pUp → ∀ (cls : Fin 3) (vc : Bool), getK [] x.txq (cls.val * 2 + b2n vc) = [] → exec (.frameSend port cls vc) s = .next s) ∧
    (x.replay = [] → exec (.replayTimeout port) s = .next s) ∧
    (st ≠ pUp → st ≠ pTraining → exec (.lossOfSignal port) s = .next s) ∧
    (∀ (a e : BitVec 16) (q : BitVec 4),
      (st = pTraining → ∃ t, exec (.ident port true a e q) s = .next t ∧ t.portSt p = pUp ∧ t.rd OBL_PORT_PARTNER.ADDR p = a.toNat
        ∧ t.rd OBL_PORT_PARTNER.EPOCH p = e.toNat ∧ t.rd OBL_PORT_PARTNER.PORT p = q.toNat ∧ t.rd OBL_PORT_INT_STATUS.UP p = 1
        ∧ t.port p = { ObPort.idle with present := x.present }) ∧
      (st = pRecovery → s.rd OBL_PORT_PARTNER.ADDR p = a.toNat → s.rd OBL_PORT_PARTNER.EPOCH p = e.toNat →
        ∃ t, exec (.ident port true a e q) s = .next t ∧ t.portSt p = pUp ∧ (t.port p).replay = x.replay) ∧
      (st = pRecovery → s.rd OBL_PORT_PARTNER.ADDR p ≠ a.toNat ∨ s.rd OBL_PORT_PARTNER.EPOCH p ≠ e.toNat →
        ∃ t, exec (.ident port true a e q) s = .next t ∧ t.portSt p = pDown ∧ (t.port p).replay = []
          ∧ t.rd OBL_PORT_INT_STATUS.DOWN p = 1) ∧
      (st ≠ pTraining → st ≠ pRecovery → exec (.ident port true a e q) s = .next s) ∧
      exec (.ident port false a e q) s = .next s) ∧
    (st = pRecovery → (s.port p).recAt + 1000 * min (s.rd OBL_CTRL.RECOV_MS) 1000 ≤ s.us → ∃ t, exec (.recoveryTimeout port) s = .next t ∧ t.portSt p = pDown ∧ (t.port p).replay = []
      ∧ t.rd OBL_PORT_INT_STATUS.DOWN p = 1) ∧
    (st ≠ pRecovery ∨ s.us < (s.port p).recAt + 1000 * min (s.rd OBL_CTRL.RECOV_MS) 1000 → exec (.recoveryTimeout port) s = .next s) ∧
    (st = pDown → ∃ t, exec (.trainingRetry port) s = .next t ∧ t.portSt p = pTraining
      ∧ t.out = s.out ++ [.ident p s.ownAddr s.ownEpoch] ∧ s.sameRegs t [OBL_PORT_STATUS.STATE.key p 0 0]
      ∧ t = { s with regs := t.regs, out := t.out }) ∧
    (st ≠ pDown → exec (.trainingRetry port) s = .next s) ∧
    (st = pUp → ∃ t, exec (.lossOfSignal port) s = .next t ∧ t.portSt p = pRecovery
      ∧ t.rd OBL_PORT_RETRY.RECOVERIES p = satAdd (s.rd OBL_PORT_RETRY.RECOVERIES p) 1 OBL_PORT_RETRY.RECOVERIES.width
      ∧ t.out = s.out ++ [.ident p s.ownAddr s.ownEpoch] ∧ t.port p = { x with recAt := s.us }
      ∧ t = { s with regs := t.regs, out := t.out, obl := t.obl }) ∧
    (st = pTraining → ∃ t, exec (.lossOfSignal port) s = .next t ∧ t.portSt p = pDown ∧ t.rd OBL_PORT_INT_STATUS.DOWN p = 1) ∧
    (s.us < s.obl.quietAt + 1000 * min (s.rd OBL_CTRL.QUIET_MS) 60000 → exec .quietEnd s = .next s) ∧
    (s.obl.quietAt + 1000 * min (s.rd OBL_CTRL.QUIET_MS) 60000 ≤ s.us → ∃ t, exec .quietEnd s = .next t ∧ t.rd OBL_STATUS.QUIET = 0 ∧ s.sameRegs t [OBL_STATUS.QUIET.key 0 0 0]
      ∧ t = { s with regs := t.regs })

/-- The commands of the ports of the Obneurn Link. (Initial credit: log entry 46; an acknowledgement for every packet: log entry 48;
the link's own stream and partition: log entry 49.) -/
def Obligations.ObneurnLink : Prop := Stated.LinkFrames ∧ Stated.LinkPorts

/-- The cap, the measurements, the interval, supply and hold duty, current limit and droops (R415 to R426). -/
def Stated.PowerControl : Prop :=
  ∀ (s : State) (o : Origin) (watts : BitVec 13) (w : BitVec 5) (r : PmbusIn) (d : Fin 4) (up : Bool), s.direct o →
    let wrote (t : State) (f : Fld) (v : Nat) : Prop := t.rd f = v ∧ s.sameRegs t [f.key 0 0 0] ∧ t = { s with regs := t.regs }
    (watts.toNat < 1500 ∨ 4200 < watts.toNat →
      ∃ t, exec (.pwrCapWrite o watts w) s = .next t ∧ wrote t PWR_CAP.REJECT stBadDescriptor) ∧
    (1500 ≤ watts.toNat → watts.toNat ≤ 4200 → w.toNat = 0 →
      ∃ t, exec (.pwrCapWrite o watts w) s = .next t ∧ wrote t PWR_CAP.REJECT stZeroWindow) ∧
    (1500 ≤ watts.toNat → watts.toNat ≤ 4200 → w.toNat ≠ 0 → ∃ t, exec (.pwrCapWrite o watts w) s = .next t
      ∧ t.rd PWR_CAP.WATTS = watts.toNat ∧ t.rd PWR_CAP.WINDOW_S = w.toNat ∧ t.rd PWR_CAP.REJECT = stOK
      ∧ s.sameRegs t [PWR_CAP.WATTS.key 0 0 0, PWR_CAP.WINDOW_S.key 0 0 0, PWR_CAP.REJECT.key 0 0 0] ∧ t = { s with regs := t.regs }) ∧
    (∃ t, exec (.pmbusPoll r) s = .next t ∧ t.pwr.samples = (r.pin :: s.pwr.samples).take 30000
      ∧ t.pwr.polls = s.pwr.polls ++ [r] ∧ t.rd PWR_INPUT.VIN = r.vin % 2 ^ PWR_INPUT.VIN.width
      ∧ t.rd PWR_INPUT.IIN = r.iin % 2 ^ PWR_INPUT.IIN.width ∧ t.rd PWR_INPUT.PIN = r.pin % 2 ^ PWR_INPUT.PIN.width
      ∧ t.rd PWR_INPUT.AVG = meanOf (((r.pin :: s.pwr.samples).take 30000).take (1000 * s.windowS)) % 2 ^ PWR_INPUT.AVG.width
      ∧ t.rd COC_DRAW.AVG = r.cocoon % 2 ^ COC_DRAW.AVG.width ∧ t.board.stage = ⟨r.vin, r.iin, r.pin, r.stageTemp⟩
      ∧ t = { s with regs := t.regs, pwr := t.pwr, coc := t.coc, board := t.board }) ∧
    (∀ m, m < 7 → s.pwr.polls ≠ [] → (s.estimate m).1 ≠ 0 →
      s.rescaled.scaledDraw m = s.rd D2D_BUDGET.DRAW 0 m * (4 * sumOf (s.pwr.polls.map fun x => x.perDie.getD m 0) * (s.estimate m).2)
        / ((s.estimate m).1 * s.pwr.polls.length)) ∧
    (let u := s.rescaled.takeCap.thermalCuts;
      let v := u.wr PWR_OVERHEAD.O (if u.pwr.polls = [] then u.rd PWR_OVERHEAD.O else overhead u.pwr.polls);
      let g := v.grants (v.pool (if u.pwr.polls = [] then u.rd PWR_OVERHEAD.O else overhead u.pwr.polls));
      ∃ t, exec .capInterval s = .next t
        ∧ t.rd PWR_CAP.EFFECTIVE_W = max 1500 (s.rd PWR_CAP.WATTS - s.derate) % 2 ^ PWR_CAP.EFFECTIVE_W.width
        ∧ (∀ j, j < 5 → t.rd PWR_CLASS.GRANT 0 j = getK 0 g j % 2 ^ PWR_CLASS.GRANT.width)
        ∧ ((∃ j, j < 5 ∧ getK 0 g j < v.demand j) → t.rd PWR_INT_STATUS.CAP_BOUND = 1) ∧ t.pwr.polls = [] ∧ s.sameStore t
        ∧ (∀ h, h < 96 → 12 ≤ t.rd mcoreinfo.FREQ h ∧ t.rd mcoreinfo.FREQ h ≤ s.topFreq (h / 8)
          ∧ t.rd mcoreinfo.FREQ h ≤ max 12 (getK 0 g 2 * 360 / 2976))
        ∧ (∀ m, m < 7 → getK 0 u.pwr.cut m = if s.rd PWR_THERM.THROTTLE_C ≤ s.rd PWR_TEMP.TJ 0 0 m then min 100 (getK 0 s.pwr.cut m + 5)
          else match s.pwr.cool.find? (·.1 = m) with
            | some e => if e.2 + 100 ≤ s.clock / 100000 then getK 0 s.pwr.cut m - 5 else getK 0 s.pwr.cut m
            | none => getK 0 s.pwr.cut m)
        ∧ (∀ m, m < 2 → getK 0 u.pwr.hubCut m = if getK false s.pwr.stackHot m = true then min 100 (getK 0 s.pwr.hubCut m + 5) else 0)
        ∧ (v.pool (v.rd PWR_OVERHEAD.O) < ((sumOf ((List.range 5).map s.classFloor) : Nat) : Int) →
          v.rd PWR_OVERHEAD.O = (if u.pwr.polls = [] then u.rd PWR_OVERHEAD.O else overhead u.pwr.polls) →
          t.rd PWR_INT_STATUS.FLOOR_BOUND = 1)
        ∧ t = { s with regs := t.regs, pwr := t.pwr, d2d := t.d2d, irq := t.irq, out := t.out }) ∧
    (let v := s.rd PWR_SUPPLY.MV 0 0 d;
      let x := s.supplyTarget d;
      ∃ t, exec (.supplyStep d) s = .next t
        ∧ t.rd PWR_SUPPLY.MV 0 0 d = (if v < x then min x (v + 10) else max x (v - 10)) % 2 ^ PWR_SUPPLY.MV.width
        ∧ s.sameRegs t [PWR_SUPPLY.MV.key 0 0 d] ∧ t = { s with regs := t.regs }) ∧
    (let v := s.rd PWR_HOLD.D 0 0 d;
      let due := ∀ e, s.pwr.holdAt.find? (·.1 = d.val) = some e → e.2 + 160 ≤ s.beatOf d;
      let may := due ∧ if up then v < 64 ∧ s.pwr.limiting = false else 1 < v;
      (may → ∃ t, exec (.holdDutyStep d up) s = .next t ∧ t.rd PWR_HOLD.D 0 0 d = (if up then v + 1 else v - 1) % 2 ^ PWR_HOLD.D.width
        ∧ (t.pwr.holdAt.find? (·.1 = d.val)).map (·.2) = some (s.beatOf d) ∧ s.sameRegs t [PWR_HOLD.D.key 0 0 d]
        ∧ t = { s with regs := t.regs, pwr := { s.pwr with holdAt := t.pwr.holdAt } }) ∧
      (¬ may → exec (.holdDutyStep d up) s = .next s)) ∧
    (s.pwr.limiting = false → ∃ t, exec .currentLimit s = .next t ∧ t.pwr = { s.pwr with limiting := true }
      ∧ s.counted1 t PWR_EVENTS.CURRENT_LIMIT 1 0 ∧ t.rd PWR_INT_STATUS.CURRENT_LIMIT = 1
      ∧ t = { s with regs := t.regs, pwr := t.pwr, irq := t.irq, out := t.out }) ∧
    (s.pwr.limiting = true → exec .currentLimit s = .next s) ∧
    (exec .currentLimitRelease s = .next { s with pwr := { s.pwr with limiting := false } }) ∧
    (∀ x : DroopRail, ∃ t, exec (.droop x false) s = .next t ∧ t.pwr.droops.contains x = true ∧ s.counted1 t PWR_EVENTS.DROOP 1 0
      ∧ (∀ m, x = .vfab m → t.rd DLN_ADMIT.GROUP m = 4) ∧ t = { s with regs := t.regs, pwr := { s.pwr with droops := t.pwr.droops } }
      ∧ exec (.droop x true) s = .next (t.rasEvent stOK 14 (railUnit x) 0 .info (t.recWord [PWR_EVENTS.CURRENT_LIMIT,
        PWR_EVENTS.DROOP, PWR_EVENTS.THROTTLE, PWR_EVENTS.FLOOR_BOUND] 0))) ∧
    (∀ x : DroopRail, ∃ t, exec (.droopRecovery x) s = .next t ∧ t.pwr.droops.contains x = false
      ∧ (∀ m, x = .vfab m → t.rd DLN_ADMIT.GROUP m = 8) ∧ t = { s with regs := t.regs, pwr := { s.pwr with droops := t.pwr.droops } })

/-- Temperatures, coolant and ageing (R310, R427 to R434). -/
def Stated.HeatAndAge : Prop :=
  ∀ (s : State) (ts : List Nat) (inlet outlet : Nat) (rs : List AgeReading),
    let most (l : List Nat) : Nat := (l.map fun i => ts.getD i 0).foldl max 0
    let hubStk (n : Nat) : List Nat := (List.range 6).map (· + 6 * n)
    let warm (holds : Bool) (was : Option Nat) : Option Nat := sinceWhen holds was (s.clock / 100000)
    let slow := warm (decide (10 * s.rd PWR_INPUT.PIN + 2650 < 265 * (outlet - inlet))) s.pwr.slow
    let warm50 := warm (decide (500 < inlet)) s.pwr.warm50
    (∃ t, exec (.tjRead ts) s = .next t
      ∧ (∀ d, d < 7 → t.rd PWR_TEMP.TJ 0 0 d = min 255 (most (dieSensors d))
        ∧ getK false t.pwr.hot d = (if 105 ≤ most (dieSensors d) then true else if most (dieSensors d) < 100 then false
          else getK false s.pwr.hot d))
      ∧ s.sameRegs t ((List.range 7).map (PWR_TEMP.TJ.key 0 0 ·)) ∧ t = { s with regs := t.regs, pwr := t.pwr }) ∧
    (∃ t, exec (.stackTemperatureRead ts) s = .next t
      ∧ (∀ n, n < 2 → t.rd HBM_TEMP.MAX_C n = min 255 (most (hubStk n))
        ∧ ((∃ i ∈ hubStk n, 85 < ts.getD i 0) → t.rd HBM_INT_STATUS.TEMP_HIGH n = 1)
        ∧ getK false t.pwr.stackHot n = (if 95 ≤ most (hubStk n) then true else if most (hubStk n) < 92 then false
          else getK false s.pwr.stackHot n))
      ∧ (∀ i, i < 12 → getK false t.mem.fastRef i = decide (85 < ts.getD i 0))
      ∧ t.rd PWR_TEMP.HBM = min 255 (most (List.range 12))
      ∧ t = { s with regs := t.regs, pwr := t.pwr, mem := t.mem, irq := t.irq, out := t.out }) ∧
    (∃ t, exec (.coolantRead inlet outlet) s = .next t ∧ t.rd PWR_COOLANT.INLET = min 4095 inlet
      ∧ t.rd PWR_COOLANT.OUTLET = min 4095 outlet ∧ t.rd PWR_COOLANT.SENSOR_FAIL = 0 ∧ t.rd PWR_COOLANT.FLOW_LOW = b2n (s.lasted slow)
      ∧ t.pwr = { s.pwr with warm40 := warm (decide (400 < inlet)) s.pwr.warm40, warm50 := warm50, slow := slow }
      ∧ (s.lasted warm50 = true → t.on RAS_SERVICE.OUT = true)
      ∧ (s.lasted warm50 = false → t = { s with regs := t.regs, pwr := t.pwr, irq := t.irq, out := t.out })) ∧
    (∃ t, exec .sensorFail s = .next t ∧ t.rd PWR_COOLANT.SENSOR_FAIL = 1 ∧ t.rd PWR_INT_STATUS.COOLANT_WARN = 1
      ∧ t = { s with regs := t.regs, pwr := { s.pwr with derated := t.pwr.derated }, irq := t.irq, out := t.out }) ∧
    (s.on AGE_CTRL.EN = false ∨ s.measureDue = false → exec (.ageingMeasurement rs) s = .next s) ∧
    (s.on AGE_CTRL.EN = true → s.measureDue = true →
      (∃ t, exec (.ageingMeasurement rs) s = .next t
        ∧ (∀ d, d < 4 → t.rd AGE_VMIN.VMIN 0 0 d = t.vminOf d)
        ∧ (∀ g, g < 12 → t.rd AGE_VGUARD.GUARD 0 0 g = min 12 (t.guardSteps g))
        ∧ (∀ h, h < 96 → t.rd mcoreinfo.FREQ h = min (t.topFreq (h / 8)) (s.rd mcoreinfo.FREQ h) % 2 ^ mcoreinfo.FREQ.width)
        ∧ (∀ u, (∀ r ∈ rs, r.unit ≠ u) → t.ageUnit u = s.ageUnit u) ∧ s.sameStore t) ∧
      (∀ r, s.measurable r = true → r.unit < 512 →
        let x := s.ageUnit r.unit
        let lim := 100 * s.rd AGE_CTRL.MARGIN_MIN
        let more := r.margin < lim ∨ x.rising = true ∧ r.margin < lim + 200
        ∃ t, exec (.ageingMeasurement [r]) s = .next t ∧ (t.ageUnit r.unit).mons = r.monitors.take 4
          ∧ (more → x.trim < 15 → (t.ageUnit r.unit).trim = x.trim + 1 ∧ t.rd AGE_INT_STATUS.TRIM = 1)
          ∧ (¬ more → (t.ageUnit r.unit).trim = x.trim)
          ∧ (x.trim = 15 → r.margin < lim → (t.ageUnit r.unit).state = 2))) ∧
    (∃ t, exec .ageingHistoryWrite s = .next t
      ∧ t = { s with age := { s.age with hist := s.age.units, vminHist := s.age.vmin, guardHist := s.age.guard } })

/-- The commands of power, heat and ageing. (Which dies hold their budget, an estimate of no report, the energy window, a rail's RAS unit, and how V_MIN
is rounded are the model's: log entries 50 to 53 and 192.) -/
def Obligations.PowerHeatAge : Prop := Stated.PowerControl ∧ Stated.HeatAndAge

/-- The commands of resets. (How a cluster's hold meets larger resets is DEDUCED: log entry 36.) -/
def Obligations.Resets : Prop :=
  ∀ (s : State) (o : Origin) (c : Fin 512) (d : Fin 4) (n : Fin 2) (r : ResetIn), s.direct o →
    let began (i : Instr) (x : Nat × Nat) (source cause : Nat) (more : State → Prop) : Prop := ∃ t, exec i s = .next t
      ∧ t.rst.busy.contains x = true ∧ t.rd RAS_RESET.BUSY = 1 ∧ t.rd RAS_RESET_LAST.DOMAIN = x.1
      ∧ t.rd RAS_RESET_LAST.TARGET = x.2 ∧ t.rd RAS_RESET_LAST.SOURCE = source ∧ t.rd RAS_RESET_LAST.CAUSE = cause
      ∧ t.rd RAS_RESET_LAST.VALID = 1 ∧ t.rd RAS_RESET_LAST.TIME_MS = s.ms % 2 ^ 32
      ∧ (∀ k ∈ domainClusters x, t.cluSt k = cResetting ∧ ∀ m, m < 256 → t.cnt k m = 0) ∧ more t
    let requests := [(Instr.clusterReset o c, (0, c.val)), (.matrixDieReset o d, (1, d.val)), (.hubDieReset o n, (2, n.val)),
      (.coreDieReset o, (3, 0))] ++ if o = .hawkmoth then [] else [(.packageReset o, (4, 0))]
    let counted (i : Instr) (x : Nat × Nat) (source cause : Nat) : Prop :=
      (s.absorbs x = false → began i x source cause fun t => bit (s.rd RAS_ESCALATE.MASK) (x.1 - 1) = true →
        s.rd RAS_ESCALATE.LIMIT ≤ (recentTimes s (s.rd RAS_ESCALATE.WINDOW_S) s.rst.modTimes).length + 1 →
        t.rst.escalated = some cause) ∧
      (s.absorbs x = true → exec i s = .next s)
    let calm := s.rst.restoring = false ∧ s.rst.escalated = none
    (∀ p ∈ requests, (p.2.1 = 0 → s.held c = false) →
      (s.absorbs p.2 = false → began p.1 p.2 0 stOK fun t => t.rd RAS_RESET.REJECT = stOK) ∧
      (s.absorbs p.2 = true → exec p.1 s = .next (s.wr RAS_RESET.REJECT stOK))) ∧
    (s.held c = true → exec (.clusterReset o c) s = .next (s.wr RAS_RESET.REJECT stOK)) ∧
    (let due := s.rst.hmKick + 1000 * max 100 (min (s.rd RAS_HM_WDOG.PERIOD_MS) 60000) ≤ s.us;
      (due → counted .hawkmothWatchdog (4, 0) 5 stCounterTimeout) ∧ (¬ due → exec .hawkmothWatchdog s = .next s)) ∧
    counted (.controllerTimeout n) (2, n) 3 stCounterTimeout ∧
    (s.rst.busy.contains (0, c.val) = true → counted (.clusterResetTimeout c) (1, dieOf c) 1 stCounterTimeout) ∧
    (s.rst.busy.contains (0, c.val) = false → exec (.clusterResetTimeout c) s = .next s) ∧
    (∀ source cause, s.rst.due = some (source, cause) → source < 8 → cause < 256 →
      counted (.packageReset .hawkmoth) (4, 0) source cause) ∧
    (s.rst.due = none → exec (.packageReset .hawkmoth) s = .next s) ∧
    (∀ k m, s.rst.busy.contains (Fin.val k, Fin.val m) = false → exec (.resetComplete k m r) s = .next s) ∧
    (s.rst.busy.contains (0, c.val) = true → calm → ∃ t, exec (.resetComplete 0 c r) s = .next t ∧ t.cluSt c = cStopped
      ∧ t.rst.busy = s.rst.busy.filter (· != (0, c.val)) ∧ (t.clu c).owner = (s.clu c).owner
      ∧ (∀ a, a < 0x300000 → memGet t.spad (spadKey c a) = 0)
      ∧ (∀ k, k < 640 → getK Cell.rest t.cells (c * 640 + k) = Cell.rest)) ∧
    (s.rst.busy.contains (1, d.val) = true → calm →
      (s.formLinks r.bundles (matrixLinks d)).failedLinks (matrixLinks d) = [] →
      ∃ t, exec (.resetComplete 1 (Fin.ofNat 512 d) r) s = .next t ∧ t.rst.busy = s.rst.busy.filter (· != (1, d.val))
        ∧ (∀ k ∈ dieClusters d, t.cluSt k = if s.held k then cFaulted else cStopped)) ∧
    (s.on RAS_SERVICE.OUT = true → trusted o = true → s.absorbs (4, 0) = false →
      began (.restore o) (4, 0) 0 stOK fun t => t.rst.restoring = true) ∧
    (s.on RAS_SERVICE.OUT = false ∨ trusted o = false → exec (.restore o) s = .next s) ∧
    (s.held c = true → s.cluSt c = cFaulted → (s.clu c).owner = none → s.on RAS_CTRL.AUTO_CLUSTER = true →
      s.absorbs (0, c.val) = false → 2 ≤ s.rd RAS_CLU_ESCALATE.LIMIT →
      began (.heldRelease o c) (0, c) 3 (s.rd CLU_STATUS.LAST_STATUS c % 256) fun t => t.held c = false) ∧
    (s.held c = true → s.on RAS_CTRL.AUTO_CLUSTER = false → ∃ t, exec (.heldRelease o c) s = .next t ∧ t.held c = false
      ∧ s.sameRegs t [RAS_CLU_HELD.HELD.key 0 (c / 64) 0] ∧ t = { s with regs := t.regs, rst := t.rst }) ∧
    (s.held c = false → exec (.heldRelease o c) s = .next s) ∧
    (s.held c = true → exec (.heldRelease o c) s = .next
      ({ s.wr RAS_CLU_HELD.HELD (setBit (s.rd RAS_CLU_HELD.HELD 0 (c / 64)) (c % 64) false) 0 (c / 64) with
        rst := { s.rst with cluTimes := eraseK s.rst.cluTimes c } }.autoReset c)) ∧
    (s.rst.busy.contains (1, d.val) = true → s.rst.linkResets.contains (1, d.val) = true →
      (s.formLinks r.bundles (matrixLinks d)).failedLinks (matrixLinks d) ≠ [] →
      exec (.resetComplete 1 (Fin.ofNat 512 d) r) s = .next (s.formLinks r.bundles (matrixLinks d))) ∧
    (let idle := s.coh.txns = [] ∧ s.coh.lineq = [] ∧ s.on TIER_CTRL.EN = false;
      (s.rst.busy.contains (2, n.val) = true → calm → idle → (s.formLinks r.bundles (hubLinks n)).failedLinks (hubLinks n) = [] →
        ∃ t, exec (.resetComplete 2 (Fin.ofNat 512 n) r) s = .next t ∧ t.rst.busy = s.rst.busy.filter (· != (2, n.val))
          ∧ (∀ e ∈ t.coh.dir, s.home e.1 ≠ n) ∧ t.rd DIR_STALE.COUNT n = 0
          ∧ t.rd OBL_STATUS.EPOCH = (s.ownEpoch + 1) % 2 ^ 16 ∧ t.on OBL_STATUS.QUIET = true) ∧
      (s.rst.busy.contains (3, 0) = true → calm → idle → (s.formLinks r.bundles [9, 10]).failedLinks [9, 10] = [] →
        ∃ t, exec (.resetComplete 3 0 r) s = .next t ∧ t.rst.busy = s.rst.busy.filter (· != (3, 0)) ∧ t.coh.caches = []
          ∧ t.cores.mtime = s.cores.mtime ∧ ∀ h b, t.xreg h b = 0)) ∧
    (s.rst.busy.contains (4, 0) = true → calm → s.rst.linkResets.contains (4, 0) = false → ∃ t, exec (.resetComplete 4 0 r) s = .next t
      ∧ t.rst.busy.contains (4, 0) = false ∧ t.cores.mtime = 0 ∧ t.rd TIER_SESSION.SESSION = s.rd TIER_SESSION.SESSION
      ∧ t.rd HBM_MAP.P = s.rd HBM_MAP.P ∧ t.rd HBM_MAP.POLICY = s.rd HBM_MAP.POLICY
      ∧ ∀ k, k < 16 → t.rd PLN_SLOT_STATUS.STATE k = 0)

/-- The commands of error reporting and of self-test. (Where the expected signature comes from: log entry 54.) -/
def Obligations.SelfTest : Prop :=
  ∀ (s : State) (o : Origin) (corr bad : List (Fin 512)) (kind : Fin 4) (target : Fin 1024) (d : Fin 4) (c : Fin 512)
    (logic : Option LogicFinding) (mem : Option MemFinding), s.direct o →
    let passes (k t : Nat) : Prop :=
      (∀ f, logic = some f → f.sig.toNat = Config.bistExpect k t % 2 ^ 64 ∧ (k = 0 → ∀ x ∈ f.failFirst, 656 ≤ x)) ∧
        ∀ f, mem = some f → f.rows = []
    let k := s.rd BIST_CMD.KIND
    let tgt := s.rd BIST_CMD.TARGET
    let test := s.rd BIST_CMD.TEST
    let order := (dieClusters d).filter (fun x => decide (s.rd BIST_ROT.NEXT ≤ x)) ++
      (dieClusters d).filter (fun x => decide (x < s.rd BIST_ROT.NEXT))
    let rotates := s.on BIST_ROT.EN = true ∧ s.powerSpare d = true ∧ ∀ r ∈ s.rst.rot, dieOf r.1 ≠ d
    (∃ t, exec (.configScrub corr bad) s = .next t
      ∧ (∀ x ∈ bad, s.cluSt x ≠ cOff → s.cluSt x ≠ cResetting →
        (t.cluSt x = cFaulted ∨ t.cluSt x = cResetting) ∧ (s.on RAS_CTRL.AUTO_CLUSTER = false → t.cluSt x = cFaulted) ∧
        ∀ k, (s.clu x).owner = some k → (s.slot k).takeover = false → t.cluSt x = cFaulted)
      ∧ (bad = [] → t = corr.foldl (fun (u : State) x => u.rasEvent stOK 0 x.val 0 .corrected) s)) ∧
    (exec (.pop o) s = .next { s with ras := { s.ras with queue := s.ras.queue.drop 1 } }) ∧
    (exec (.ueAck o) s = .next { s with ras := { s.ras with ueOpen := false } }) ∧
    (∀ p ∈ [(Instr.logicTest o kind target, 1), (.memoryTest o kind target, 2), (.logicAndMemoryTest o kind target, 3)],
      (s.mayTest kind target p.2 = true → ∃ t, exec p.1 s = .next t ∧ t.rd BIST_CMD.BUSY = 1 ∧ t.rd BIST_CMD.KIND = kind
        ∧ t.rd BIST_CMD.TARGET = target ∧ t.rd BIST_CMD.TEST = p.2 ∧ t.rd BIST_CMD.REJECT = stOK
        ∧ t.rd BIST_RESULT.ABANDONED = 0 ∧ (kind = 0 → (t.clu target).bist = true)) ∧
      (s.mayTest kind target p.2 = false → ∃ t, exec p.1 s = .next t ∧ t.rd BIST_CMD.REJECT = stBadDescriptor
        ∧ s.sameRegs t [BIST_CMD.REJECT.key 0 0 0] ∧ t = { s with regs := t.regs })) ∧
    (s.on BIST_CMD.BUSY = true → logic.isSome = decide (test = 1 ∨ test = 3) → mem.isSome = decide (2 ≤ test) →
      ∃ t, exec (.bistDone logic mem) s = .next t ∧ t.rd BIST_CMD.BUSY = 0 ∧ t.rd BIST_RESULT.DONE = 1
        ∧ t.rd BIST_INT_STATUS.DONE = 1 ∧ (passes k tgt → t.rd BIST_RESULT.PASS = 1)
        ∧ (¬ passes k tgt → t.rd BIST_RESULT.PASS = 0 ∧ t.rd BIST_INT_STATUS.FAIL = 1)
        ∧ (k = 0 → (t.clu tgt).bist = false)) ∧
    (∀ x only rest, s.on BIST_CMD.BUSY = false → s.rst.rot = (x, only) :: rest → logic.isSome = true → mem.isSome = !only →
      ∃ t, exec (.bistDone logic mem) s = .next t ∧ t.rst.rot = rest ∧ (t.clu x).bist = false
        ∧ t.rd BIST_ROT_LAST.CLUSTER = x % 512 ∧ t.rd BIST_ROT_LAST.LOGIC_ONLY = b2n only
        ∧ (passes 0 x → t.rd BIST_ROT_LAST.PASS = 1)
        ∧ (¬ passes 0 x → t.rd BIST_ROT_LAST.PASS = 0 ∧ t.rd BIST_INT_STATUS.FAIL = 1)) ∧
    (s.on BIST_CMD.BUSY = true → logic.isSome ≠ decide (test = 1 ∨ test = 3) ∨ mem.isSome ≠ decide (2 ≤ test) →
      exec (.bistDone logic mem) s = .next s) ∧
    (∀ x only rest, s.on BIST_CMD.BUSY = false → s.rst.rot = (x, only) :: rest → logic = none ∨ mem.isSome = only →
      exec (.bistDone logic mem) s = .next s) ∧
    (order.find? (fun x => s.cluMayTest x false) = none → exec (.bistRotation d) s = .next s) ∧
    (s.on BIST_CMD.BUSY = false → s.rst.rot = [] → exec (.bistDone logic mem) s = .next s) ∧
    (rotates → ∀ x, order.find? (fun x => s.cluMayTest x false) = some x → ∃ t, exec (.bistRotation d) s = .next t
      ∧ (t.clu x).bist = true ∧ t.rst.rot = s.rst.rot ++ [(x, (s.clu x).owner.isSome)]
      ∧ t.rd BIST_ROT.NEXT = (x + 1) % 512) ∧
    (¬ rotates → exec (.bistRotation d) s = .next s) ∧
    (let due := s.on BIST_ROT.EN = true ∧ getK 0 s.rst.tested c + 3600 * s.rd BIST_ROT.PERIOD_H ≤ s.seconds ∧
        s.rst.overdue.contains c.val = false;
      (due → ∃ t, exec (.bistOverdue c) s = .next t ∧ t.rst.overdue = s.rst.overdue ++ [c.val]
        ∧ t.rd BIST_ROT.OVERDUE = (s.rst.overdue.length + 1) % 2 ^ 16 ∧ t.rd BIST_INT_STATUS.OVERDUE = 1
        ∧ t = { s with regs := t.regs, irq := t.irq, out := t.out, rst := { s.rst with overdue := t.rst.overdue } }) ∧
      (¬ due → exec (.bistOverdue c) s = .next s))

/-- The five owner authorisations (R462, R468 to R472). A record in SEC_AUTH0 to SEC_AUTH17 is submitted by the PF or a core
in M-mode; for the Hawkmoth the row stands for a record of 144 bytes that came over MCTP. -/
def Stated.Authorisations : Prop :=
  ∀ (s : State) (o : Origin) (i : Instr) (op : Nat),
    (i, op) ∈ [(Instr.installPlanKey o, 1), (.revokePlanKey o, 2), (.raisePlanCounter o, 3), (.debugUnlock o, 4), (.setOwnerKey o, 5)] →
    let byte (r : List Byte) (n : Nat) : Nat := (r.getD n 0).toNat
    let arg (r : List Byte) : List Byte := (r.drop 0x30).take 32
    let counter (r : List Byte) : Nat := leNat ((r.drop 0x30).take 4)
    let formed (r : List Byte) : Prop := byte r 1 ≤ 7 ∧ (∀ x ∈ (r.drop 2).take 6, x = 0)
      ∧ leNat ((r.drop 8).take 8) = s.trust.serial % 2 ^ 64
    let signed (r : List Byte) : Prop := (s.trust.owner = none ∧ op = 5) ∨ ∃ key, s.trust.owner = some key
      ∧ edVerify key (sha512 (r.take 0x50)) ((r.drop 0x50).take 64) = true
    let fresh (r : List Byte) : Prop := (r.drop 0x10).take 32 = (List.range 4).flatMap fun j => leBytes 8 (s.rd SEC_AUTH_NONCE.NONCE 0 j)
    let above (r : List Byte) : Prop := op = 3 → s.trust.planCounter < counter r
    let spent (t : State) : Prop := t.trust.draws = s.trust.draws + 1 ∧ t.rd SEC_INT_STATUS.AUTH_DONE = 1 ∧ s.sameStore t
      ∧ ∀ j, j < 4 → t.rd SEC_AUTH_NONCE.NONCE 0 j = bits (Config.entropy s.trust.draws % 2 ^ 256) (64 * j) 64
    let left (t : State) : Prop := t.trust = { s.trust with draws := t.trust.draws } ∧ t.rd SEC_STATUS.DEBUG = s.rd SEC_STATUS.DEBUG
    let done (r : List Byte) (t : State) : Prop :=
      (op = 1 → t.trust.keys = insK s.trust.keys (byte r 1) (arg r) ∧ t.trust.revoked = setBit s.trust.revoked (byte r 1) false
        ∧ t.trust = { s.trust with keys := t.trust.keys, revoked := t.trust.revoked, draws := t.trust.draws }
        ∧ bit (t.rd SEC_KEYS.INSTALLED) (byte r 1) = true ∧ bit (t.rd SEC_KEYS.REVOKED) (byte r 1) = false) ∧
      (op = 2 → t.trust = { s.trust with revoked := setBit s.trust.revoked (byte r 1) true, draws := t.trust.draws }
        ∧ bit (t.rd SEC_KEYS.REVOKED) (byte r 1) = true) ∧
      (op = 3 → t.trust = { s.trust with planCounter := counter r, draws := t.trust.draws }
        ∧ t.rd SEC_COUNTERS.PLAN_COUNTER = counter r) ∧
      (op = 4 → t.trust = { s.trust with draws := t.trust.draws }
        ∧ t.rd SEC_STATUS.DEBUG = (s.rd SEC_STATUS.DEBUG ||| byte r 0x30 % 8)
        ∧ (t.rd SEC_STATUS.DEBUG ≠ s.rd SEC_STATUS.DEBUG → t.rd SEC_INT_STATUS.DEBUG_UNLOCK = 1)) ∧
      (op = 5 → t.trust = { s.trust with owner := some (arg r), draws := t.trust.draws } ∧ t.rd SEC_STATUS.OWNER = 1)
    let outcome (r : List Byte) (said : Nat → State → Prop) : Prop :=
      (¬ formed r → ∃ t, exec i s = .next t ∧ said stBadDescriptor t ∧ spent t ∧ left t) ∧
      (formed r → ¬ (fresh r ∧ signed r) → ∃ t, exec i s = .next t ∧ said stPlanSignature t ∧ spent t ∧ left t) ∧
      (formed r → fresh r → signed r → ¬ above r → ∃ t, exec i s = .next t ∧ said stBadDescriptor t ∧ spent t ∧ left t) ∧
      (formed r → fresh r → signed r → above r → ∃ t, exec i s = .next t ∧ said stOK t ∧ spent t ∧ done r t)
    let record := (List.range 18).flatMap fun j => leBytes 8 (s.rd SEC_AUTH.Q j)
    (s.board.boot = .running → s.direct o → trusted o = true → byte record 0 = op → outcome record fun st t => t.rd SEC_AUTH_GO.STATUS = st) ∧
    (s.board.boot = .running → o = .hawkmoth → ∀ r rest, s.mctpOf 144 = some (r, rest) → byte r 0 = op →
      outcome r fun st t => t.out.getLast? = some (.mctp [BitVec.ofNat 8 st]) ∧ t.host.mctp = rest.host.mctp) ∧
    (trusted o = true → byte record 0 ≠ op → exec i s = .next s) ∧
    (s.board.boot = .running → (∃ h, o = .core h false) →
      exec i s = .next (s.rasEvent stBadDescriptor 20 0 (SEC_AUTH_GO.GO.addr 0 0) .uncorr)) ∧
    (s.board.boot ≠ .running → exec i s = .next s)

/-- Attestation, firmware commits and wipes (R467, R473, R474, R477, R478). (How the seed yields the identity key is a free
value: log entry 12.) -/
def Stated.AttestAndWipe : Prop :=
  ∀ (s : State) (o : Origin),
    let running := s.board.boot = .running
    let outsider := ∃ h, o = .core h false
    let refused (f : Fld) : Answer := .next (s.rasEvent stBadDescriptor 20 0 (f.addr 0 0) .uncorr)
    let secret := leBytes 32 (Config.derive (s.trust.seed.getD 0) 1)
    let plans := sha512 ((List.range 16).flatMap fun k => leBytes 8 (s.slotSt k) ++
      (if s.slotSt k = pLOADED ∨ s.slotSt k = pSTANDBY then (List.range 8).flatMap fun j => leBytes 8 (s.rd PLN_DIGEST.DIGEST k j)
        else List.replicate 64 0))
    let body (nonce : List Byte) : List Byte := leBytes 4 0x47545341 ++ leBytes 2 1 ++
      [0xB0, BitVec.ofNat 8 (b2n (s.on SEC_STATUS.DEBUG) + 2 * b2n (s.on SEC_STATUS.FALLBACK) + 4 * b2n (s.on RAS_SERVICE.OUT)
        + 8 * b2n s.trust.owner.isSome)] ++ leBytes 8 s.trust.serial ++ leBytes 4 (s.rd SEC_STATUS.FW_SVN)
      ++ leBytes 4 s.trust.fwCounter ++ leBytes 4 s.trust.planCounter ++ leBytes 2 s.trust.cocoonCode ++ leBytes 2 (s.rd HBM_MAP.P)
      ++ nonce ++ s.trust.fwDigest ++ plans ++ s.trust.owner.getD (List.replicate 32 0) ++ edPublic secret
    let report (nonce : List Byte) : List Byte := body nonce ++ edSign secret (sha512 (body nonce))
    let asked := (List.range 4).flatMap fun j => leBytes 8 (s.rd SEC_NONCE.NONCE 0 j)
    let shows (t : State) (r : Nat → Nat) (st : Nat) : Prop := (∀ j, j < 40 → t.rd SEC_REPORT.Q j = r j)
      ∧ t.rd SEC_ATTEST.STATUS = st ∧ t.rd SEC_INT_STATUS.ATTEST_DONE = 1 ∧ t = { s with regs := t.regs, irq := t.irq, out := t.out }
    let wiping := (∀ k, k < 16 → s.slotSt k = pEMPTY) ∧ s.on TIER_CTRL.EN = false
    (s.direct o → trusted o = true → s.on SEC_STATUS.ID_VALID = false →
      ∃ t, exec (.attest o) s = .next t ∧ shows t (fun _ => 0) stEcc) ∧
    (s.direct o → trusted o = true → s.on SEC_STATUS.ID_VALID = true → running →
      ∃ t, exec (.attest o) s = .next t ∧ shows t (fun j => leNat (((report asked).drop (8 * j)).take 8)) stOK) ∧
    (o = .hawkmoth → running → ∀ n rest, s.mctpOf 32 = some (n, rest) →
      exec (.attest o) s = .next (rest.send (.mctp (report n)))) ∧
    (outsider → exec (.attest o) s = refused SEC_ATTEST.GO) ∧
    (s.direct o → o = .pf → running → s.on SEC_STATUS.FALLBACK = true →
      exec (.commitFw o) s = .next (s.wr SEC_CTRL.REJECT stBadDescriptor)) ∧
    (s.direct o → o = .pf → running → s.on SEC_STATUS.FALLBACK = false → ∃ t, exec (.commitFw o) s = .next t ∧ t.rd SEC_CTRL.REJECT = stOK
      ∧ t.trust.fwCounter = max s.trust.fwCounter (s.rd SEC_STATUS.FW_SVN)
      ∧ t.trust.romRetired = (s.trust.romRetired || s.trust.fwKey == 1)
      ∧ t.trust = { s.trust with fwCounter := t.trust.fwCounter, romRetired := t.trust.romRetired }
      ∧ t.rd SEC_COUNTERS.FW_COUNTER = t.trust.fwCounter % 2 ^ 32 ∧ t.rd SEC_KEYS.ROM0_RETIRED = b2n t.trust.romRetired
      ∧ t = { s with regs := t.regs, trust := t.trust }) ∧
    (o = .hawkmoth ∨ outsider → exec (.commitFw o) s = refused SEC_CTRL.COMMIT_FW) ∧
    ((o = .pf → ¬ running) → trusted o = true → exec (.commitFw o) s = .next s) ∧
    (s.direct o → trusted o = true → running → wiping → ∃ t, exec (.wipe o) s = .next t ∧ t.rd SEC_STATUS.WIPE_BUSY = 1
      ∧ t.rd SEC_CTRL.REJECT = stOK ∧ s.sameRegs t [SEC_STATUS.WIPE_BUSY.key 0 0 0, SEC_CTRL.REJECT.key 0 0 0]
      ∧ t = { s with regs := t.regs }) ∧
    (s.direct o → trusted o = true → running → ¬ wiping → exec (.wipe o) s = .next (s.wr SEC_CTRL.REJECT stBadDescriptor)) ∧
    (trusted o = true → ¬ running → exec (.wipe o) s = .next s) ∧
    (o = .hawkmoth ∨ outsider → exec (.wipe o) s = refused SEC_CTRL.WIPE) ∧
    (s.on SEC_STATUS.WIPE_BUSY = true → (s.prepare (s.busyKeys 0 s.hbmEnd) true).2 = true → ∃ t, exec .wipeDone s = .next t
      ∧ (∀ a, a < s.hbmEnd → s.pcFailed (s.pcOfLine (a / 64)) = false → memGet t.hbm a = 0)
      ∧ (∀ c a, c < 512 → a < 0x300000 → memGet t.spad (spadKey c a) = 0)
      ∧ (∀ c, c < 512 → t.cluSt c = if s.held c then cFaulted else cStopped)
      ∧ (∀ k, k < 512 * 640 → getK Cell.rest t.cells k = Cell.rest) ∧ t.tier.objs = [] ∧ t.tier.ctxs = []
      ∧ t.rd SEC_STATUS.WIPE_BUSY = 0 ∧ t.rd SEC_INT_STATUS.WIPE_DONE = 1 ∧ t.trust = s.trust) ∧
    (s.on SEC_STATUS.WIPE_BUSY = true → (s.prepare (s.busyKeys 0 s.hbmEnd) true).2 = false →
      exec .wipeDone s = .next (s.prepare (s.busyKeys 0 s.hbmEnd) true).1) ∧
    (s.on SEC_STATUS.WIPE_BUSY = false → exec .wipeDone s = .next s)

/-- The commands of identity, keys and security. -/
def Obligations.Security : Prop := Stated.Authorisations ∧ Stated.AttestAndWipe

/-- The anti-rollback and key state of R462 over every step of the machine. -/
def Obligations.KeyStateOnlyGrows : Prop :=
  ∀ (s t : State), step s = .next t →
    let front (c : Origin → Instr) (f : Fld) : Prop := (∃ o rest, s.pending = c o :: rest)
      ∨ (∃ o a size val rest, s.pending = .registerWrite o a size val :: rest ∧ a / 8 * 8 = f.addr 0 0)
      ∨ ∃ h a bytes rest, s.pending = .storeBufferDrain h :: rest ∧ ((s.core h).buf.head?.bind (·.io)) = some (a, bytes)
        ∧ a / 8 * 8 = f.addr 0 0
    let auth (c : Origin → Instr) : Prop := front c SEC_AUTH_GO.GO
    s.trust.fwCounter ≤ t.trust.fwCounter ∧ s.trust.planCounter ≤ t.trust.planCounter ∧
    (s.trust.romRetired = true → t.trust.romRetired = true) ∧ (s.trust.owner.isSome = true → t.trust.owner.isSome = true) ∧
    (∀ k, (∃ v, (k, v) ∈ s.trust.keys) → ∃ v, (k, v) ∈ t.trust.keys) ∧
    (t.trust.fwCounter ≠ s.trust.fwCounter ∨ t.trust.romRetired ≠ s.trust.romRetired → front .commitFw SEC_CTRL.COMMIT_FW) ∧
    (t.trust.planCounter ≠ s.trust.planCounter → auth .raisePlanCounter) ∧
    (t.trust.owner ≠ s.trust.owner → auth .setOwnerKey) ∧
    (t.trust.keys ≠ s.trust.keys → auth .installPlanKey) ∧
    (t.trust.revoked ≠ s.trust.revoked → auth .installPlanKey ∨ auth .revokePlanKey)
end

