-- ==== Sys2Proof/Laws/State.lean ====
section
/-! SUPPORT. Laws/State.lean: what the plain updates of the state leave unchanged, one lemma per field per update. -/

namespace Sys2Proof.Machine

section
variable (s : State)

/-! ### wr -/

@[simp] theorem State.wr_pending (f : Fld) (v i j r : Nat) : (s.wr f v i j r).pending = s.pending := rfl
@[simp] theorem State.wr_clock (f : Fld) (v i j r : Nat) : (s.wr f v i j r).clock = s.clock := rfl
@[simp] theorem State.wr_hbm (f : Fld) (v i j r : Nat) : (s.wr f v i j r).hbm = s.hbm := rfl
@[simp] theorem State.wr_hbmPoison (f : Fld) (v i j r : Nat) : (s.wr f v i j r).hbmPoison = s.hbmPoison := rfl
@[simp] theorem State.wr_spad (f : Fld) (v i j r : Nat) : (s.wr f v i j r).spad = s.spad := rfl
@[simp] theorem State.wr_spadErr (f : Fld) (v i j r : Nat) : (s.wr f v i j r).spadErr = s.spadErr := rfl
@[simp] theorem State.wr_hostMem (f : Fld) (v i j r : Nat) : (s.wr f v i j r).hostMem = s.hostMem := rfl
@[simp] theorem State.wr_flash (f : Fld) (v i j r : Nat) : (s.wr f v i j r).flash = s.flash := rfl
@[simp] theorem State.wr_clus (f : Fld) (v i j r : Nat) : (s.wr f v i j r).clus = s.clus := rfl
@[simp] theorem State.wr_cells (f : Fld) (v i j r : Nat) : (s.wr f v i j r).cells = s.cells := rfl
@[simp] theorem State.wr_slots (f : Fld) (v i j r : Nat) : (s.wr f v i j r).slots = s.slots := rfl
@[simp] theorem State.wr_ras (f : Fld) (v i j r : Nat) : (s.wr f v i j r).ras = s.ras := rfl
@[simp] theorem State.wr_irq (f : Fld) (v i j r : Nat) : (s.wr f v i j r).irq = s.irq := rfl
@[simp] theorem State.wr_coh (f : Fld) (v i j r : Nat) : (s.wr f v i j r).coh = s.coh := rfl
@[simp] theorem State.wr_mem (f : Fld) (v i j r : Nat) : (s.wr f v i j r).mem = s.mem := rfl
@[simp] theorem State.wr_cores (f : Fld) (v i j r : Nat) : (s.wr f v i j r).cores = s.cores := rfl
@[simp] theorem State.wr_rst (f : Fld) (v i j r : Nat) : (s.wr f v i j r).rst = s.rst := rfl
@[simp] theorem State.wr_host (f : Fld) (v i j r : Nat) : (s.wr f v i j r).host = s.host := rfl
@[simp] theorem State.wr_tier (f : Fld) (v i j r : Nat) : (s.wr f v i j r).tier = s.tier := rfl
@[simp] theorem State.wr_obl (f : Fld) (v i j r : Nat) : (s.wr f v i j r).obl = s.obl := rfl
@[simp] theorem State.wr_beats (f : Fld) (v i j r : Nat) : (s.wr f v i j r).beats = s.beats := rfl
@[simp] theorem State.wr_trust (f : Fld) (v i j r : Nat) : (s.wr f v i j r).trust = s.trust := rfl
@[simp] theorem State.wr_d2d (f : Fld) (v i j r : Nat) : (s.wr f v i j r).d2d = s.d2d := rfl
@[simp] theorem State.wr_coc (f : Fld) (v i j r : Nat) : (s.wr f v i j r).coc = s.coc := rfl
@[simp] theorem State.wr_pwr (f : Fld) (v i j r : Nat) : (s.wr f v i j r).pwr = s.pwr := rfl
@[simp] theorem State.wr_age (f : Fld) (v i j r : Nat) : (s.wr f v i j r).age = s.age := rfl
@[simp] theorem State.wr_board (f : Fld) (v i j r : Nat) : (s.wr f v i j r).board = s.board := rfl
@[simp] theorem State.wr_out (f : Fld) (v i j r : Nat) : (s.wr f v i j r).out = s.out := rfl
@[simp] theorem State.wr_resp (f : Fld) (v i j r : Nat) : (s.wr f v i j r).resp = s.resp := rfl

/-! ### bump -/

@[simp] theorem State.bump_pending (f : Fld) (n i j : Nat) : (s.bump f n i j).pending = s.pending := rfl
@[simp] theorem State.bump_clock (f : Fld) (n i j : Nat) : (s.bump f n i j).clock = s.clock := rfl
@[simp] theorem State.bump_hbm (f : Fld) (n i j : Nat) : (s.bump f n i j).hbm = s.hbm := rfl
@[simp] theorem State.bump_hbmPoison (f : Fld) (n i j : Nat) : (s.bump f n i j).hbmPoison = s.hbmPoison := rfl
@[simp] theorem State.bump_spad (f : Fld) (n i j : Nat) : (s.bump f n i j).spad = s.spad := rfl
@[simp] theorem State.bump_spadErr (f : Fld) (n i j : Nat) : (s.bump f n i j).spadErr = s.spadErr := rfl
@[simp] theorem State.bump_hostMem (f : Fld) (n i j : Nat) : (s.bump f n i j).hostMem = s.hostMem := rfl
@[simp] theorem State.bump_flash (f : Fld) (n i j : Nat) : (s.bump f n i j).flash = s.flash := rfl
@[simp] theorem State.bump_clus (f : Fld) (n i j : Nat) : (s.bump f n i j).clus = s.clus := rfl
@[simp] theorem State.bump_cells (f : Fld) (n i j : Nat) : (s.bump f n i j).cells = s.cells := rfl
@[simp] theorem State.bump_slots (f : Fld) (n i j : Nat) : (s.bump f n i j).slots = s.slots := rfl
@[simp] theorem State.bump_ras (f : Fld) (n i j : Nat) : (s.bump f n i j).ras = s.ras := rfl
@[simp] theorem State.bump_irq (f : Fld) (n i j : Nat) : (s.bump f n i j).irq = s.irq := rfl
@[simp] theorem State.bump_coh (f : Fld) (n i j : Nat) : (s.bump f n i j).coh = s.coh := rfl
@[simp] theorem State.bump_mem (f : Fld) (n i j : Nat) : (s.bump f n i j).mem = s.mem := rfl
@[simp] theorem State.bump_cores (f : Fld) (n i j : Nat) : (s.bump f n i j).cores = s.cores := rfl
@[simp] theorem State.bump_rst (f : Fld) (n i j : Nat) : (s.bump f n i j).rst = s.rst := rfl
@[simp] theorem State.bump_host (f : Fld) (n i j : Nat) : (s.bump f n i j).host = s.host := rfl
@[simp] theorem State.bump_tier (f : Fld) (n i j : Nat) : (s.bump f n i j).tier = s.tier := rfl
@[simp] theorem State.bump_obl (f : Fld) (n i j : Nat) : (s.bump f n i j).obl = s.obl := rfl
@[simp] theorem State.bump_beats (f : Fld) (n i j : Nat) : (s.bump f n i j).beats = s.beats := rfl
@[simp] theorem State.bump_trust (f : Fld) (n i j : Nat) : (s.bump f n i j).trust = s.trust := rfl
@[simp] theorem State.bump_d2d (f : Fld) (n i j : Nat) : (s.bump f n i j).d2d = s.d2d := rfl
@[simp] theorem State.bump_coc (f : Fld) (n i j : Nat) : (s.bump f n i j).coc = s.coc := rfl
@[simp] theorem State.bump_pwr (f : Fld) (n i j : Nat) : (s.bump f n i j).pwr = s.pwr := rfl
@[simp] theorem State.bump_age (f : Fld) (n i j : Nat) : (s.bump f n i j).age = s.age := rfl
@[simp] theorem State.bump_board (f : Fld) (n i j : Nat) : (s.bump f n i j).board = s.board := rfl
@[simp] theorem State.bump_out (f : Fld) (n i j : Nat) : (s.bump f n i j).out = s.out := rfl
@[simp] theorem State.bump_resp (f : Fld) (n i j : Nat) : (s.bump f n i j).resp = s.resp := rfl

/-! ### resetBlock -/

@[simp] theorem State.resetBlock_pending (b : Blk) (i span : Nat) : (s.resetBlock b i span).pending = s.pending := rfl
@[simp] theorem State.resetBlock_clock (b : Blk) (i span : Nat) : (s.resetBlock b i span).clock = s.clock := rfl
@[simp] theorem State.resetBlock_hbm (b : Blk) (i span : Nat) : (s.resetBlock b i span).hbm = s.hbm := rfl
@[simp] theorem State.resetBlock_hbmPoison (b : Blk) (i span : Nat) : (s.resetBlock b i span).hbmPoison = s.hbmPoison := rfl
@[simp] theorem State.resetBlock_spad (b : Blk) (i span : Nat) : (s.resetBlock b i span).spad = s.spad := rfl
@[simp] theorem State.resetBlock_spadErr (b : Blk) (i span : Nat) : (s.resetBlock b i span).spadErr = s.spadErr := rfl
@[simp] theorem State.resetBlock_hostMem (b : Blk) (i span : Nat) : (s.resetBlock b i span).hostMem = s.hostMem := rfl
@[simp] theorem State.resetBlock_flash (b : Blk) (i span : Nat) : (s.resetBlock b i span).flash = s.flash := rfl
@[simp] theorem State.resetBlock_clus (b : Blk) (i span : Nat) : (s.resetBlock b i span).clus = s.clus := rfl
@[simp] theorem State.resetBlock_cells (b : Blk) (i span : Nat) : (s.resetBlock b i span).cells = s.cells := rfl
@[simp] theorem State.resetBlock_slots (b : Blk) (i span : Nat) : (s.resetBlock b i span).slots = s.slots := rfl
@[simp] theorem State.resetBlock_ras (b : Blk) (i span : Nat) : (s.resetBlock b i span).ras = s.ras := rfl
@[simp] theorem State.resetBlock_irq (b : Blk) (i span : Nat) : (s.resetBlock b i span).irq = s.irq := rfl
@[simp] theorem State.resetBlock_coh (b : Blk) (i span : Nat) : (s.resetBlock b i span).coh = s.coh := rfl
@[simp] theorem State.resetBlock_mem (b : Blk) (i span : Nat) : (s.resetBlock b i span).mem = s.mem := rfl
@[simp] theorem State.resetBlock_cores (b : Blk) (i span : Nat) : (s.resetBlock b i span).cores = s.cores := rfl
@[simp] theorem State.resetBlock_rst (b : Blk) (i span : Nat) : (s.resetBlock b i span).rst = s.rst := rfl
@[simp] theorem State.resetBlock_host (b : Blk) (i span : Nat) : (s.resetBlock b i span).host = s.host := rfl
@[simp] theorem State.resetBlock_tier (b : Blk) (i span : Nat) : (s.resetBlock b i span).tier = s.tier := rfl
@[simp] theorem State.resetBlock_obl (b : Blk) (i span : Nat) : (s.resetBlock b i span).obl = s.obl := rfl
@[simp] theorem State.resetBlock_beats (b : Blk) (i span : Nat) : (s.resetBlock b i span).beats = s.beats := rfl
@[simp] theorem State.resetBlock_trust (b : Blk) (i span : Nat) : (s.resetBlock b i span).trust = s.trust := rfl
@[simp] theorem State.resetBlock_d2d (b : Blk) (i span : Nat) : (s.resetBlock b i span).d2d = s.d2d := rfl
@[simp] theorem State.resetBlock_coc (b : Blk) (i span : Nat) : (s.resetBlock b i span).coc = s.coc := rfl
@[simp] theorem State.resetBlock_pwr (b : Blk) (i span : Nat) : (s.resetBlock b i span).pwr = s.pwr := rfl
@[simp] theorem State.resetBlock_age (b : Blk) (i span : Nat) : (s.resetBlock b i span).age = s.age := rfl
@[simp] theorem State.resetBlock_board (b : Blk) (i span : Nat) : (s.resetBlock b i span).board = s.board := rfl
@[simp] theorem State.resetBlock_out (b : Blk) (i span : Nat) : (s.resetBlock b i span).out = s.out := rfl
@[simp] theorem State.resetBlock_resp (b : Blk) (i span : Nat) : (s.resetBlock b i span).resp = s.resp := rfl

/-! ### zeroCounters -/

@[simp] theorem State.zeroCounters_pending (c : Nat) : (s.zeroCounters c).pending = s.pending := rfl
@[simp] theorem State.zeroCounters_clock (c : Nat) : (s.zeroCounters c).clock = s.clock := rfl
@[simp] theorem State.zeroCounters_hbm (c : Nat) : (s.zeroCounters c).hbm = s.hbm := rfl
@[simp] theorem State.zeroCounters_hbmPoison (c : Nat) : (s.zeroCounters c).hbmPoison = s.hbmPoison := rfl
@[simp] theorem State.zeroCounters_spad (c : Nat) : (s.zeroCounters c).spad = s.spad := rfl
@[simp] theorem State.zeroCounters_spadErr (c : Nat) : (s.zeroCounters c).spadErr = s.spadErr := rfl
@[simp] theorem State.zeroCounters_hostMem (c : Nat) : (s.zeroCounters c).hostMem = s.hostMem := rfl
@[simp] theorem State.zeroCounters_flash (c : Nat) : (s.zeroCounters c).flash = s.flash := rfl
@[simp] theorem State.zeroCounters_clus (c : Nat) : (s.zeroCounters c).clus = s.clus := rfl
@[simp] theorem State.zeroCounters_cells (c : Nat) : (s.zeroCounters c).cells = s.cells := rfl
@[simp] theorem State.zeroCounters_slots (c : Nat) : (s.zeroCounters c).slots = s.slots := rfl
@[simp] theorem State.zeroCounters_ras (c : Nat) : (s.zeroCounters c).ras = s.ras := rfl
@[simp] theorem State.zeroCounters_irq (c : Nat) : (s.zeroCounters c).irq = s.irq := rfl
@[simp] theorem State.zeroCounters_coh (c : Nat) : (s.zeroCounters c).coh = s.coh := rfl
@[simp] theorem State.zeroCounters_mem (c : Nat) : (s.zeroCounters c).mem = s.mem := rfl
@[simp] theorem State.zeroCounters_cores (c : Nat) : (s.zeroCounters c).cores = s.cores := rfl
@[simp] theorem State.zeroCounters_rst (c : Nat) : (s.zeroCounters c).rst = s.rst := rfl
@[simp] theorem State.zeroCounters_host (c : Nat) : (s.zeroCounters c).host = s.host := rfl
@[simp] theorem State.zeroCounters_tier (c : Nat) : (s.zeroCounters c).tier = s.tier := rfl
@[simp] theorem State.zeroCounters_obl (c : Nat) : (s.zeroCounters c).obl = s.obl := rfl
@[simp] theorem State.zeroCounters_beats (c : Nat) : (s.zeroCounters c).beats = s.beats := rfl
@[simp] theorem State.zeroCounters_trust (c : Nat) : (s.zeroCounters c).trust = s.trust := rfl
@[simp] theorem State.zeroCounters_d2d (c : Nat) : (s.zeroCounters c).d2d = s.d2d := rfl
@[simp] theorem State.zeroCounters_coc (c : Nat) : (s.zeroCounters c).coc = s.coc := rfl
@[simp] theorem State.zeroCounters_pwr (c : Nat) : (s.zeroCounters c).pwr = s.pwr := rfl
@[simp] theorem State.zeroCounters_age (c : Nat) : (s.zeroCounters c).age = s.age := rfl
@[simp] theorem State.zeroCounters_board (c : Nat) : (s.zeroCounters c).board = s.board := rfl
@[simp] theorem State.zeroCounters_out (c : Nat) : (s.zeroCounters c).out = s.out := rfl
@[simp] theorem State.zeroCounters_resp (c : Nat) : (s.zeroCounters c).resp = s.resp := rfl

/-! ### send -/

@[simp] theorem State.send_pending (o : Out) : (s.send o).pending = s.pending := rfl
@[simp] theorem State.send_clock (o : Out) : (s.send o).clock = s.clock := rfl
@[simp] theorem State.send_regs (o : Out) : (s.send o).regs = s.regs := rfl
@[simp] theorem State.send_hbm (o : Out) : (s.send o).hbm = s.hbm := rfl
@[simp] theorem State.send_hbmPoison (o : Out) : (s.send o).hbmPoison = s.hbmPoison := rfl
@[simp] theorem State.send_spad (o : Out) : (s.send o).spad = s.spad := rfl
@[simp] theorem State.send_spadErr (o : Out) : (s.send o).spadErr = s.spadErr := rfl
@[simp] theorem State.send_hostMem (o : Out) : (s.send o).hostMem = s.hostMem := rfl
@[simp] theorem State.send_flash (o : Out) : (s.send o).flash = s.flash := rfl
@[simp] theorem State.send_clus (o : Out) : (s.send o).clus = s.clus := rfl
@[simp] theorem State.send_cells (o : Out) : (s.send o).cells = s.cells := rfl
@[simp] theorem State.send_slots (o : Out) : (s.send o).slots = s.slots := rfl
@[simp] theorem State.send_ras (o : Out) : (s.send o).ras = s.ras := rfl
@[simp] theorem State.send_irq (o : Out) : (s.send o).irq = s.irq := rfl
@[simp] theorem State.send_coh (o : Out) : (s.send o).coh = s.coh := rfl
@[simp] theorem State.send_mem (o : Out) : (s.send o).mem = s.mem := rfl
@[simp] theorem State.send_cores (o : Out) : (s.send o).cores = s.cores := rfl
@[simp] theorem State.send_rst (o : Out) : (s.send o).rst = s.rst := rfl
@[simp] theorem State.send_host (o : Out) : (s.send o).host = s.host := rfl
@[simp] theorem State.send_tier (o : Out) : (s.send o).tier = s.tier := rfl
@[simp] theorem State.send_obl (o : Out) : (s.send o).obl = s.obl := rfl
@[simp] theorem State.send_beats (o : Out) : (s.send o).beats = s.beats := rfl
@[simp] theorem State.send_trust (o : Out) : (s.send o).trust = s.trust := rfl
@[simp] theorem State.send_d2d (o : Out) : (s.send o).d2d = s.d2d := rfl
@[simp] theorem State.send_coc (o : Out) : (s.send o).coc = s.coc := rfl
@[simp] theorem State.send_pwr (o : Out) : (s.send o).pwr = s.pwr := rfl
@[simp] theorem State.send_age (o : Out) : (s.send o).age = s.age := rfl
@[simp] theorem State.send_board (o : Out) : (s.send o).board = s.board := rfl
@[simp] theorem State.send_resp (o : Out) : (s.send o).resp = s.resp := rfl

/-! ### answerWith -/

@[simp] theorem State.answerWith_pending (d : List Byte) (ur poison : Bool) : (s.answerWith d ur poison).pending = s.pending := rfl
@[simp] theorem State.answerWith_clock (d : List Byte) (ur poison : Bool) : (s.answerWith d ur poison).clock = s.clock := rfl
@[simp] theorem State.answerWith_regs (d : List Byte) (ur poison : Bool) : (s.answerWith d ur poison).regs = s.regs := rfl
@[simp] theorem State.answerWith_hbm (d : List Byte) (ur poison : Bool) : (s.answerWith d ur poison).hbm = s.hbm := rfl
@[simp] theorem State.answerWith_hbmPoison (d : List Byte) (ur poison : Bool) : (s.answerWith d ur poison).hbmPoison = s.hbmPoison := rfl
@[simp] theorem State.answerWith_spad (d : List Byte) (ur poison : Bool) : (s.answerWith d ur poison).spad = s.spad := rfl
@[simp] theorem State.answerWith_spadErr (d : List Byte) (ur poison : Bool) : (s.answerWith d ur poison).spadErr = s.spadErr := rfl
@[simp] theorem State.answerWith_hostMem (d : List Byte) (ur poison : Bool) : (s.answerWith d ur poison).hostMem = s.hostMem := rfl
@[simp] theorem State.answerWith_flash (d : List Byte) (ur poison : Bool) : (s.answerWith d ur poison).flash = s.flash := rfl
@[simp] theorem State.answerWith_clus (d : List Byte) (ur poison : Bool) : (s.answerWith d ur poison).clus = s.clus := rfl
@[simp] theorem State.answerWith_cells (d : List Byte) (ur poison : Bool) : (s.answerWith d ur poison).cells = s.cells := rfl
@[simp] theorem State.answerWith_slots (d : List Byte) (ur poison : Bool) : (s.answerWith d ur poison).slots = s.slots := rfl
@[simp] theorem State.answerWith_ras (d : List Byte) (ur poison : Bool) : (s.answerWith d ur poison).ras = s.ras := rfl
@[simp] theorem State.answerWith_irq (d : List Byte) (ur poison : Bool) : (s.answerWith d ur poison).irq = s.irq := rfl
@[simp] theorem State.answerWith_coh (d : List Byte) (ur poison : Bool) : (s.answerWith d ur poison).coh = s.coh := rfl
@[simp] theorem State.answerWith_mem (d : List Byte) (ur poison : Bool) : (s.answerWith d ur poison).mem = s.mem := rfl
@[simp] theorem State.answerWith_cores (d : List Byte) (ur poison : Bool) : (s.answerWith d ur poison).cores = s.cores := rfl
@[simp] theorem State.answerWith_rst (d : List Byte) (ur poison : Bool) : (s.answerWith d ur poison).rst = s.rst := rfl
@[simp] theorem State.answerWith_host (d : List Byte) (ur poison : Bool) : (s.answerWith d ur poison).host = s.host := rfl
@[simp] theorem State.answerWith_tier (d : List Byte) (ur poison : Bool) : (s.answerWith d ur poison).tier = s.tier := rfl
@[simp] theorem State.answerWith_obl (d : List Byte) (ur poison : Bool) : (s.answerWith d ur poison).obl = s.obl := rfl
@[simp] theorem State.answerWith_beats (d : List Byte) (ur poison : Bool) : (s.answerWith d ur poison).beats = s.beats := rfl
@[simp] theorem State.answerWith_trust (d : List Byte) (ur poison : Bool) : (s.answerWith d ur poison).trust = s.trust := rfl
@[simp] theorem State.answerWith_d2d (d : List Byte) (ur poison : Bool) : (s.answerWith d ur poison).d2d = s.d2d := rfl
@[simp] theorem State.answerWith_coc (d : List Byte) (ur poison : Bool) : (s.answerWith d ur poison).coc = s.coc := rfl
@[simp] theorem State.answerWith_pwr (d : List Byte) (ur poison : Bool) : (s.answerWith d ur poison).pwr = s.pwr := rfl
@[simp] theorem State.answerWith_age (d : List Byte) (ur poison : Bool) : (s.answerWith d ur poison).age = s.age := rfl
@[simp] theorem State.answerWith_board (d : List Byte) (ur poison : Bool) : (s.answerWith d ur poison).board = s.board := rfl
@[simp] theorem State.answerWith_out (d : List Byte) (ur poison : Bool) : (s.answerWith d ur poison).out = s.out := rfl

/-! ### setAplic -/

@[simp] theorem State.setAplic_pending (d o v : Nat) : (s.setAplic d o v).pending = s.pending := rfl
@[simp] theorem State.setAplic_clock (d o v : Nat) : (s.setAplic d o v).clock = s.clock := rfl
@[simp] theorem State.setAplic_regs (d o v : Nat) : (s.setAplic d o v).regs = s.regs := rfl
@[simp] theorem State.setAplic_hbm (d o v : Nat) : (s.setAplic d o v).hbm = s.hbm := rfl
@[simp] theorem State.setAplic_hbmPoison (d o v : Nat) : (s.setAplic d o v).hbmPoison = s.hbmPoison := rfl
@[simp] theorem State.setAplic_spad (d o v : Nat) : (s.setAplic d o v).spad = s.spad := rfl
@[simp] theorem State.setAplic_spadErr (d o v : Nat) : (s.setAplic d o v).spadErr = s.spadErr := rfl
@[simp] theorem State.setAplic_hostMem (d o v : Nat) : (s.setAplic d o v).hostMem = s.hostMem := rfl
@[simp] theorem State.setAplic_flash (d o v : Nat) : (s.setAplic d o v).flash = s.flash := rfl
@[simp] theorem State.setAplic_clus (d o v : Nat) : (s.setAplic d o v).clus = s.clus := rfl
@[simp] theorem State.setAplic_cells (d o v : Nat) : (s.setAplic d o v).cells = s.cells := rfl
@[simp] theorem State.setAplic_slots (d o v : Nat) : (s.setAplic d o v).slots = s.slots := rfl
@[simp] theorem State.setAplic_ras (d o v : Nat) : (s.setAplic d o v).ras = s.ras := rfl
@[simp] theorem State.setAplic_coh (d o v : Nat) : (s.setAplic d o v).coh = s.coh := rfl
@[simp] theorem State.setAplic_mem (d o v : Nat) : (s.setAplic d o v).mem = s.mem := rfl
@[simp] theorem State.setAplic_cores (d o v : Nat) : (s.setAplic d o v).cores = s.cores := rfl
@[simp] theorem State.setAplic_rst (d o v : Nat) : (s.setAplic d o v).rst = s.rst := rfl
@[simp] theorem State.setAplic_host (d o v : Nat) : (s.setAplic d o v).host = s.host := rfl
@[simp] theorem State.setAplic_tier (d o v : Nat) : (s.setAplic d o v).tier = s.tier := rfl
@[simp] theorem State.setAplic_obl (d o v : Nat) : (s.setAplic d o v).obl = s.obl := rfl
@[simp] theorem State.setAplic_beats (d o v : Nat) : (s.setAplic d o v).beats = s.beats := rfl
@[simp] theorem State.setAplic_trust (d o v : Nat) : (s.setAplic d o v).trust = s.trust := rfl
@[simp] theorem State.setAplic_d2d (d o v : Nat) : (s.setAplic d o v).d2d = s.d2d := rfl
@[simp] theorem State.setAplic_coc (d o v : Nat) : (s.setAplic d o v).coc = s.coc := rfl
@[simp] theorem State.setAplic_pwr (d o v : Nat) : (s.setAplic d o v).pwr = s.pwr := rfl
@[simp] theorem State.setAplic_age (d o v : Nat) : (s.setAplic d o v).age = s.age := rfl
@[simp] theorem State.setAplic_board (d o v : Nat) : (s.setAplic d o v).board = s.board := rfl
@[simp] theorem State.setAplic_out (d o v : Nat) : (s.setAplic d o v).out = s.out := rfl
@[simp] theorem State.setAplic_resp (d o v : Nat) : (s.setAplic d o v).resp = s.resp := rfl

/-! ### setClu -/

@[simp] theorem State.setClu_pending (c : Nat) (f : Clu → Clu) : (s.setClu c f).pending = s.pending := rfl
@[simp] theorem State.setClu_clock (c : Nat) (f : Clu → Clu) : (s.setClu c f).clock = s.clock := rfl
@[simp] theorem State.setClu_regs (c : Nat) (f : Clu → Clu) : (s.setClu c f).regs = s.regs := rfl
@[simp] theorem State.setClu_hbm (c : Nat) (f : Clu → Clu) : (s.setClu c f).hbm = s.hbm := rfl
@[simp] theorem State.setClu_hbmPoison (c : Nat) (f : Clu → Clu) : (s.setClu c f).hbmPoison = s.hbmPoison := rfl
@[simp] theorem State.setClu_spad (c : Nat) (f : Clu → Clu) : (s.setClu c f).spad = s.spad := rfl
@[simp] theorem State.setClu_spadErr (c : Nat) (f : Clu → Clu) : (s.setClu c f).spadErr = s.spadErr := rfl
@[simp] theorem State.setClu_hostMem (c : Nat) (f : Clu → Clu) : (s.setClu c f).hostMem = s.hostMem := rfl
@[simp] theorem State.setClu_flash (c : Nat) (f : Clu → Clu) : (s.setClu c f).flash = s.flash := rfl
@[simp] theorem State.setClu_cells (c : Nat) (f : Clu → Clu) : (s.setClu c f).cells = s.cells := rfl
@[simp] theorem State.setClu_slots (c : Nat) (f : Clu → Clu) : (s.setClu c f).slots = s.slots := rfl
@[simp] theorem State.setClu_ras (c : Nat) (f : Clu → Clu) : (s.setClu c f).ras = s.ras := rfl
@[simp] theorem State.setClu_irq (c : Nat) (f : Clu → Clu) : (s.setClu c f).irq = s.irq := rfl
@[simp] theorem State.setClu_coh (c : Nat) (f : Clu → Clu) : (s.setClu c f).coh = s.coh := rfl
@[simp] theorem State.setClu_mem (c : Nat) (f : Clu → Clu) : (s.setClu c f).mem = s.mem := rfl
@[simp] theorem State.setClu_cores (c : Nat) (f : Clu → Clu) : (s.setClu c f).cores = s.cores := rfl
@[simp] theorem State.setClu_rst (c : Nat) (f : Clu → Clu) : (s.setClu c f).rst = s.rst := rfl
@[simp] theorem State.setClu_host (c : Nat) (f : Clu → Clu) : (s.setClu c f).host = s.host := rfl
@[simp] theorem State.setClu_tier (c : Nat) (f : Clu → Clu) : (s.setClu c f).tier = s.tier := rfl
@[simp] theorem State.setClu_obl (c : Nat) (f : Clu → Clu) : (s.setClu c f).obl = s.obl := rfl
@[simp] theorem State.setClu_beats (c : Nat) (f : Clu → Clu) : (s.setClu c f).beats = s.beats := rfl
@[simp] theorem State.setClu_trust (c : Nat) (f : Clu → Clu) : (s.setClu c f).trust = s.trust := rfl
@[simp] theorem State.setClu_d2d (c : Nat) (f : Clu → Clu) : (s.setClu c f).d2d = s.d2d := rfl
@[simp] theorem State.setClu_coc (c : Nat) (f : Clu → Clu) : (s.setClu c f).coc = s.coc := rfl
@[simp] theorem State.setClu_pwr (c : Nat) (f : Clu → Clu) : (s.setClu c f).pwr = s.pwr := rfl
@[simp] theorem State.setClu_age (c : Nat) (f : Clu → Clu) : (s.setClu c f).age = s.age := rfl
@[simp] theorem State.setClu_board (c : Nat) (f : Clu → Clu) : (s.setClu c f).board = s.board := rfl
@[simp] theorem State.setClu_out (c : Nat) (f : Clu → Clu) : (s.setClu c f).out = s.out := rfl
@[simp] theorem State.setClu_resp (c : Nat) (f : Clu → Clu) : (s.setClu c f).resp = s.resp := rfl

/-! ### progress -/

@[simp] theorem State.progress_pending (c : Nat) : (s.progress c).pending = s.pending := rfl
@[simp] theorem State.progress_clock (c : Nat) : (s.progress c).clock = s.clock := rfl
@[simp] theorem State.progress_regs (c : Nat) : (s.progress c).regs = s.regs := rfl
@[simp] theorem State.progress_hbm (c : Nat) : (s.progress c).hbm = s.hbm := rfl
@[simp] theorem State.progress_hbmPoison (c : Nat) : (s.progress c).hbmPoison = s.hbmPoison := rfl
@[simp] theorem State.progress_spad (c : Nat) : (s.progress c).spad = s.spad := rfl
@[simp] theorem State.progress_spadErr (c : Nat) : (s.progress c).spadErr = s.spadErr := rfl
@[simp] theorem State.progress_hostMem (c : Nat) : (s.progress c).hostMem = s.hostMem := rfl
@[simp] theorem State.progress_flash (c : Nat) : (s.progress c).flash = s.flash := rfl
@[simp] theorem State.progress_cells (c : Nat) : (s.progress c).cells = s.cells := rfl
@[simp] theorem State.progress_slots (c : Nat) : (s.progress c).slots = s.slots := rfl
@[simp] theorem State.progress_ras (c : Nat) : (s.progress c).ras = s.ras := rfl
@[simp] theorem State.progress_irq (c : Nat) : (s.progress c).irq = s.irq := rfl
@[simp] theorem State.progress_coh (c : Nat) : (s.progress c).coh = s.coh := rfl
@[simp] theorem State.progress_mem (c : Nat) : (s.progress c).mem = s.mem := rfl
@[simp] theorem State.progress_cores (c : Nat) : (s.progress c).cores = s.cores := rfl
@[simp] theorem State.progress_rst (c : Nat) : (s.progress c).rst = s.rst := rfl
@[simp] theorem State.progress_host (c : Nat) : (s.progress c).host = s.host := rfl
@[simp] theorem State.progress_tier (c : Nat) : (s.progress c).tier = s.tier := rfl
@[simp] theorem State.progress_obl (c : Nat) : (s.progress c).obl = s.obl := rfl
@[simp] theorem State.progress_beats (c : Nat) : (s.progress c).beats = s.beats := rfl
@[simp] theorem State.progress_trust (c : Nat) : (s.progress c).trust = s.trust := rfl
@[simp] theorem State.progress_d2d (c : Nat) : (s.progress c).d2d = s.d2d := rfl
@[simp] theorem State.progress_coc (c : Nat) : (s.progress c).coc = s.coc := rfl
@[simp] theorem State.progress_pwr (c : Nat) : (s.progress c).pwr = s.pwr := rfl
@[simp] theorem State.progress_age (c : Nat) : (s.progress c).age = s.age := rfl
@[simp] theorem State.progress_board (c : Nat) : (s.progress c).board = s.board := rfl
@[simp] theorem State.progress_out (c : Nat) : (s.progress c).out = s.out := rfl
@[simp] theorem State.progress_resp (c : Nat) : (s.progress c).resp = s.resp := rfl

/-! ### setCell -/

@[simp] theorem State.setCell_pending (c row col : Nat) (f : Cell → Cell) : (s.setCell c row col f).pending = s.pending := rfl
@[simp] theorem State.setCell_clock (c row col : Nat) (f : Cell → Cell) : (s.setCell c row col f).clock = s.clock := rfl
@[simp] theorem State.setCell_regs (c row col : Nat) (f : Cell → Cell) : (s.setCell c row col f).regs = s.regs := rfl
@[simp] theorem State.setCell_hbm (c row col : Nat) (f : Cell → Cell) : (s.setCell c row col f).hbm = s.hbm := rfl
@[simp] theorem State.setCell_hbmPoison (c row col : Nat) (f : Cell → Cell) : (s.setCell c row col f).hbmPoison = s.hbmPoison := rfl
@[simp] theorem State.setCell_spad (c row col : Nat) (f : Cell → Cell) : (s.setCell c row col f).spad = s.spad := rfl
@[simp] theorem State.setCell_spadErr (c row col : Nat) (f : Cell → Cell) : (s.setCell c row col f).spadErr = s.spadErr := rfl
@[simp] theorem State.setCell_hostMem (c row col : Nat) (f : Cell → Cell) : (s.setCell c row col f).hostMem = s.hostMem := rfl
@[simp] theorem State.setCell_flash (c row col : Nat) (f : Cell → Cell) : (s.setCell c row col f).flash = s.flash := rfl
@[simp] theorem State.setCell_clus (c row col : Nat) (f : Cell → Cell) : (s.setCell c row col f).clus = s.clus := rfl
@[simp] theorem State.setCell_slots (c row col : Nat) (f : Cell → Cell) : (s.setCell c row col f).slots = s.slots := rfl
@[simp] theorem State.setCell_ras (c row col : Nat) (f : Cell → Cell) : (s.setCell c row col f).ras = s.ras := rfl
@[simp] theorem State.setCell_irq (c row col : Nat) (f : Cell → Cell) : (s.setCell c row col f).irq = s.irq := rfl
@[simp] theorem State.setCell_coh (c row col : Nat) (f : Cell → Cell) : (s.setCell c row col f).coh = s.coh := rfl
@[simp] theorem State.setCell_mem (c row col : Nat) (f : Cell → Cell) : (s.setCell c row col f).mem = s.mem := rfl
@[simp] theorem State.setCell_cores (c row col : Nat) (f : Cell → Cell) : (s.setCell c row col f).cores = s.cores := rfl
@[simp] theorem State.setCell_rst (c row col : Nat) (f : Cell → Cell) : (s.setCell c row col f).rst = s.rst := rfl
@[simp] theorem State.setCell_host (c row col : Nat) (f : Cell → Cell) : (s.setCell c row col f).host = s.host := rfl
@[simp] theorem State.setCell_tier (c row col : Nat) (f : Cell → Cell) : (s.setCell c row col f).tier = s.tier := rfl
@[simp] theorem State.setCell_obl (c row col : Nat) (f : Cell → Cell) : (s.setCell c row col f).obl = s.obl := rfl
@[simp] theorem State.setCell_beats (c row col : Nat) (f : Cell → Cell) : (s.setCell c row col f).beats = s.beats := rfl
@[simp] theorem State.setCell_trust (c row col : Nat) (f : Cell → Cell) : (s.setCell c row col f).trust = s.trust := rfl
@[simp] theorem State.setCell_d2d (c row col : Nat) (f : Cell → Cell) : (s.setCell c row col f).d2d = s.d2d := rfl
@[simp] theorem State.setCell_coc (c row col : Nat) (f : Cell → Cell) : (s.setCell c row col f).coc = s.coc := rfl
@[simp] theorem State.setCell_pwr (c row col : Nat) (f : Cell → Cell) : (s.setCell c row col f).pwr = s.pwr := rfl
@[simp] theorem State.setCell_age (c row col : Nat) (f : Cell → Cell) : (s.setCell c row col f).age = s.age := rfl
@[simp] theorem State.setCell_board (c row col : Nat) (f : Cell → Cell) : (s.setCell c row col f).board = s.board := rfl
@[simp] theorem State.setCell_out (c row col : Nat) (f : Cell → Cell) : (s.setCell c row col f).out = s.out := rfl
@[simp] theorem State.setCell_resp (c row col : Nat) (f : Cell → Cell) : (s.setCell c row col f).resp = s.resp := rfl

/-! ### restCells -/

@[simp] theorem State.restCells_pending (c : Nat) : (s.restCells c).pending = s.pending := rfl
@[simp] theorem State.restCells_clock (c : Nat) : (s.restCells c).clock = s.clock := rfl
@[simp] theorem State.restCells_regs (c : Nat) : (s.restCells c).regs = s.regs := rfl
@[simp] theorem State.restCells_hbm (c : Nat) : (s.restCells c).hbm = s.hbm := rfl
@[simp] theorem State.restCells_hbmPoison (c : Nat) : (s.restCells c).hbmPoison = s.hbmPoison := rfl
@[simp] theorem State.restCells_spad (c : Nat) : (s.restCells c).spad = s.spad := rfl
@[simp] theorem State.restCells_spadErr (c : Nat) : (s.restCells c).spadErr = s.spadErr := rfl
@[simp] theorem State.restCells_hostMem (c : Nat) : (s.restCells c).hostMem = s.hostMem := rfl
@[simp] theorem State.restCells_flash (c : Nat) : (s.restCells c).flash = s.flash := rfl
@[simp] theorem State.restCells_clus (c : Nat) : (s.restCells c).clus = s.clus := rfl
@[simp] theorem State.restCells_slots (c : Nat) : (s.restCells c).slots = s.slots := rfl
@[simp] theorem State.restCells_ras (c : Nat) : (s.restCells c).ras = s.ras := rfl
@[simp] theorem State.restCells_irq (c : Nat) : (s.restCells c).irq = s.irq := rfl
@[simp] theorem State.restCells_coh (c : Nat) : (s.restCells c).coh = s.coh := rfl
@[simp] theorem State.restCells_mem (c : Nat) : (s.restCells c).mem = s.mem := rfl
@[simp] theorem State.restCells_cores (c : Nat) : (s.restCells c).cores = s.cores := rfl
@[simp] theorem State.restCells_rst (c : Nat) : (s.restCells c).rst = s.rst := rfl
@[simp] theorem State.restCells_host (c : Nat) : (s.restCells c).host = s.host := rfl
@[simp] theorem State.restCells_tier (c : Nat) : (s.restCells c).tier = s.tier := rfl
@[simp] theorem State.restCells_obl (c : Nat) : (s.restCells c).obl = s.obl := rfl
@[simp] theorem State.restCells_beats (c : Nat) : (s.restCells c).beats = s.beats := rfl
@[simp] theorem State.restCells_trust (c : Nat) : (s.restCells c).trust = s.trust := rfl
@[simp] theorem State.restCells_d2d (c : Nat) : (s.restCells c).d2d = s.d2d := rfl
@[simp] theorem State.restCells_coc (c : Nat) : (s.restCells c).coc = s.coc := rfl
@[simp] theorem State.restCells_pwr (c : Nat) : (s.restCells c).pwr = s.pwr := rfl
@[simp] theorem State.restCells_age (c : Nat) : (s.restCells c).age = s.age := rfl
@[simp] theorem State.restCells_board (c : Nat) : (s.restCells c).board = s.board := rfl
@[simp] theorem State.restCells_out (c : Nat) : (s.restCells c).out = s.out := rfl
@[simp] theorem State.restCells_resp (c : Nat) : (s.restCells c).resp = s.resp := rfl

/-! ### setSlot -/

@[simp] theorem State.setSlot_pending (k : Nat) (f : Slot → Slot) : (s.setSlot k f).pending = s.pending := rfl
@[simp] theorem State.setSlot_clock (k : Nat) (f : Slot → Slot) : (s.setSlot k f).clock = s.clock := rfl
@[simp] theorem State.setSlot_regs (k : Nat) (f : Slot → Slot) : (s.setSlot k f).regs = s.regs := rfl
@[simp] theorem State.setSlot_hbm (k : Nat) (f : Slot → Slot) : (s.setSlot k f).hbm = s.hbm := rfl
@[simp] theorem State.setSlot_hbmPoison (k : Nat) (f : Slot → Slot) : (s.setSlot k f).hbmPoison = s.hbmPoison := rfl
@[simp] theorem State.setSlot_spad (k : Nat) (f : Slot → Slot) : (s.setSlot k f).spad = s.spad := rfl
@[simp] theorem State.setSlot_spadErr (k : Nat) (f : Slot → Slot) : (s.setSlot k f).spadErr = s.spadErr := rfl
@[simp] theorem State.setSlot_hostMem (k : Nat) (f : Slot → Slot) : (s.setSlot k f).hostMem = s.hostMem := rfl
@[simp] theorem State.setSlot_flash (k : Nat) (f : Slot → Slot) : (s.setSlot k f).flash = s.flash := rfl
@[simp] theorem State.setSlot_clus (k : Nat) (f : Slot → Slot) : (s.setSlot k f).clus = s.clus := rfl
@[simp] theorem State.setSlot_cells (k : Nat) (f : Slot → Slot) : (s.setSlot k f).cells = s.cells := rfl
@[simp] theorem State.setSlot_ras (k : Nat) (f : Slot → Slot) : (s.setSlot k f).ras = s.ras := rfl
@[simp] theorem State.setSlot_irq (k : Nat) (f : Slot → Slot) : (s.setSlot k f).irq = s.irq := rfl
@[simp] theorem State.setSlot_coh (k : Nat) (f : Slot → Slot) : (s.setSlot k f).coh = s.coh := rfl
@[simp] theorem State.setSlot_mem (k : Nat) (f : Slot → Slot) : (s.setSlot k f).mem = s.mem := rfl
@[simp] theorem State.setSlot_cores (k : Nat) (f : Slot → Slot) : (s.setSlot k f).cores = s.cores := rfl
@[simp] theorem State.setSlot_rst (k : Nat) (f : Slot → Slot) : (s.setSlot k f).rst = s.rst := rfl
@[simp] theorem State.setSlot_host (k : Nat) (f : Slot → Slot) : (s.setSlot k f).host = s.host := rfl
@[simp] theorem State.setSlot_tier (k : Nat) (f : Slot → Slot) : (s.setSlot k f).tier = s.tier := rfl
@[simp] theorem State.setSlot_obl (k : Nat) (f : Slot → Slot) : (s.setSlot k f).obl = s.obl := rfl
@[simp] theorem State.setSlot_beats (k : Nat) (f : Slot → Slot) : (s.setSlot k f).beats = s.beats := rfl
@[simp] theorem State.setSlot_trust (k : Nat) (f : Slot → Slot) : (s.setSlot k f).trust = s.trust := rfl
@[simp] theorem State.setSlot_d2d (k : Nat) (f : Slot → Slot) : (s.setSlot k f).d2d = s.d2d := rfl
@[simp] theorem State.setSlot_coc (k : Nat) (f : Slot → Slot) : (s.setSlot k f).coc = s.coc := rfl
@[simp] theorem State.setSlot_pwr (k : Nat) (f : Slot → Slot) : (s.setSlot k f).pwr = s.pwr := rfl
@[simp] theorem State.setSlot_age (k : Nat) (f : Slot → Slot) : (s.setSlot k f).age = s.age := rfl
@[simp] theorem State.setSlot_board (k : Nat) (f : Slot → Slot) : (s.setSlot k f).board = s.board := rfl
@[simp] theorem State.setSlot_out (k : Nat) (f : Slot → Slot) : (s.setSlot k f).out = s.out := rfl
@[simp] theorem State.setSlot_resp (k : Nat) (f : Slot → Slot) : (s.setSlot k f).resp = s.resp := rfl

/-! ### setCoh -/

@[simp] theorem State.setCoh_pending (f : Coh → Coh) : (s.setCoh f).pending = s.pending := rfl
@[simp] theorem State.setCoh_clock (f : Coh → Coh) : (s.setCoh f).clock = s.clock := rfl
@[simp] theorem State.setCoh_regs (f : Coh → Coh) : (s.setCoh f).regs = s.regs := rfl
@[simp] theorem State.setCoh_hbm (f : Coh → Coh) : (s.setCoh f).hbm = s.hbm := rfl
@[simp] theorem State.setCoh_hbmPoison (f : Coh → Coh) : (s.setCoh f).hbmPoison = s.hbmPoison := rfl
@[simp] theorem State.setCoh_spad (f : Coh → Coh) : (s.setCoh f).spad = s.spad := rfl
@[simp] theorem State.setCoh_spadErr (f : Coh → Coh) : (s.setCoh f).spadErr = s.spadErr := rfl
@[simp] theorem State.setCoh_hostMem (f : Coh → Coh) : (s.setCoh f).hostMem = s.hostMem := rfl
@[simp] theorem State.setCoh_flash (f : Coh → Coh) : (s.setCoh f).flash = s.flash := rfl
@[simp] theorem State.setCoh_clus (f : Coh → Coh) : (s.setCoh f).clus = s.clus := rfl
@[simp] theorem State.setCoh_cells (f : Coh → Coh) : (s.setCoh f).cells = s.cells := rfl
@[simp] theorem State.setCoh_slots (f : Coh → Coh) : (s.setCoh f).slots = s.slots := rfl
@[simp] theorem State.setCoh_ras (f : Coh → Coh) : (s.setCoh f).ras = s.ras := rfl
@[simp] theorem State.setCoh_irq (f : Coh → Coh) : (s.setCoh f).irq = s.irq := rfl
@[simp] theorem State.setCoh_mem (f : Coh → Coh) : (s.setCoh f).mem = s.mem := rfl
@[simp] theorem State.setCoh_cores (f : Coh → Coh) : (s.setCoh f).cores = s.cores := rfl
@[simp] theorem State.setCoh_rst (f : Coh → Coh) : (s.setCoh f).rst = s.rst := rfl
@[simp] theorem State.setCoh_host (f : Coh → Coh) : (s.setCoh f).host = s.host := rfl
@[simp] theorem State.setCoh_tier (f : Coh → Coh) : (s.setCoh f).tier = s.tier := rfl
@[simp] theorem State.setCoh_obl (f : Coh → Coh) : (s.setCoh f).obl = s.obl := rfl
@[simp] theorem State.setCoh_beats (f : Coh → Coh) : (s.setCoh f).beats = s.beats := rfl
@[simp] theorem State.setCoh_trust (f : Coh → Coh) : (s.setCoh f).trust = s.trust := rfl
@[simp] theorem State.setCoh_d2d (f : Coh → Coh) : (s.setCoh f).d2d = s.d2d := rfl
@[simp] theorem State.setCoh_coc (f : Coh → Coh) : (s.setCoh f).coc = s.coc := rfl
@[simp] theorem State.setCoh_pwr (f : Coh → Coh) : (s.setCoh f).pwr = s.pwr := rfl
@[simp] theorem State.setCoh_age (f : Coh → Coh) : (s.setCoh f).age = s.age := rfl
@[simp] theorem State.setCoh_board (f : Coh → Coh) : (s.setCoh f).board = s.board := rfl
@[simp] theorem State.setCoh_out (f : Coh → Coh) : (s.setCoh f).out = s.out := rfl
@[simp] theorem State.setCoh_resp (f : Coh → Coh) : (s.setCoh f).resp = s.resp := rfl

/-! ### post -/

@[simp] theorem State.post_pending (m : Msg) : (s.post m).pending = s.pending := rfl
@[simp] theorem State.post_clock (m : Msg) : (s.post m).clock = s.clock := rfl
@[simp] theorem State.post_regs (m : Msg) : (s.post m).regs = s.regs := rfl
@[simp] theorem State.post_hbm (m : Msg) : (s.post m).hbm = s.hbm := rfl
@[simp] theorem State.post_hbmPoison (m : Msg) : (s.post m).hbmPoison = s.hbmPoison := rfl
@[simp] theorem State.post_spad (m : Msg) : (s.post m).spad = s.spad := rfl
@[simp] theorem State.post_spadErr (m : Msg) : (s.post m).spadErr = s.spadErr := rfl
@[simp] theorem State.post_hostMem (m : Msg) : (s.post m).hostMem = s.hostMem := rfl
@[simp] theorem State.post_flash (m : Msg) : (s.post m).flash = s.flash := rfl
@[simp] theorem State.post_clus (m : Msg) : (s.post m).clus = s.clus := rfl
@[simp] theorem State.post_cells (m : Msg) : (s.post m).cells = s.cells := rfl
@[simp] theorem State.post_slots (m : Msg) : (s.post m).slots = s.slots := rfl
@[simp] theorem State.post_ras (m : Msg) : (s.post m).ras = s.ras := rfl
@[simp] theorem State.post_irq (m : Msg) : (s.post m).irq = s.irq := rfl
@[simp] theorem State.post_mem (m : Msg) : (s.post m).mem = s.mem := rfl
@[simp] theorem State.post_cores (m : Msg) : (s.post m).cores = s.cores := rfl
@[simp] theorem State.post_rst (m : Msg) : (s.post m).rst = s.rst := rfl
@[simp] theorem State.post_host (m : Msg) : (s.post m).host = s.host := rfl
@[simp] theorem State.post_tier (m : Msg) : (s.post m).tier = s.tier := rfl
@[simp] theorem State.post_obl (m : Msg) : (s.post m).obl = s.obl := rfl
@[simp] theorem State.post_beats (m : Msg) : (s.post m).beats = s.beats := rfl
@[simp] theorem State.post_trust (m : Msg) : (s.post m).trust = s.trust := rfl
@[simp] theorem State.post_d2d (m : Msg) : (s.post m).d2d = s.d2d := rfl
@[simp] theorem State.post_coc (m : Msg) : (s.post m).coc = s.coc := rfl
@[simp] theorem State.post_pwr (m : Msg) : (s.post m).pwr = s.pwr := rfl
@[simp] theorem State.post_age (m : Msg) : (s.post m).age = s.age := rfl
@[simp] theorem State.post_board (m : Msg) : (s.post m).board = s.board := rfl
@[simp] theorem State.post_out (m : Msg) : (s.post m).out = s.out := rfl
@[simp] theorem State.post_resp (m : Msg) : (s.post m).resp = s.resp := rfl

/-! ### setErr -/

@[simp] theorem State.setErr_pending (l v : Nat) : (s.setErr l v).pending = s.pending := rfl
@[simp] theorem State.setErr_clock (l v : Nat) : (s.setErr l v).clock = s.clock := rfl
@[simp] theorem State.setErr_regs (l v : Nat) : (s.setErr l v).regs = s.regs := rfl
@[simp] theorem State.setErr_hbm (l v : Nat) : (s.setErr l v).hbm = s.hbm := rfl
@[simp] theorem State.setErr_hbmPoison (l v : Nat) : (s.setErr l v).hbmPoison = s.hbmPoison := rfl
@[simp] theorem State.setErr_spad (l v : Nat) : (s.setErr l v).spad = s.spad := rfl
@[simp] theorem State.setErr_spadErr (l v : Nat) : (s.setErr l v).spadErr = s.spadErr := rfl
@[simp] theorem State.setErr_hostMem (l v : Nat) : (s.setErr l v).hostMem = s.hostMem := rfl
@[simp] theorem State.setErr_flash (l v : Nat) : (s.setErr l v).flash = s.flash := rfl
@[simp] theorem State.setErr_clus (l v : Nat) : (s.setErr l v).clus = s.clus := rfl
@[simp] theorem State.setErr_cells (l v : Nat) : (s.setErr l v).cells = s.cells := rfl
@[simp] theorem State.setErr_slots (l v : Nat) : (s.setErr l v).slots = s.slots := rfl
@[simp] theorem State.setErr_ras (l v : Nat) : (s.setErr l v).ras = s.ras := rfl
@[simp] theorem State.setErr_irq (l v : Nat) : (s.setErr l v).irq = s.irq := rfl
@[simp] theorem State.setErr_coh (l v : Nat) : (s.setErr l v).coh = s.coh := rfl
@[simp] theorem State.setErr_cores (l v : Nat) : (s.setErr l v).cores = s.cores := rfl
@[simp] theorem State.setErr_rst (l v : Nat) : (s.setErr l v).rst = s.rst := rfl
@[simp] theorem State.setErr_host (l v : Nat) : (s.setErr l v).host = s.host := rfl
@[simp] theorem State.setErr_tier (l v : Nat) : (s.setErr l v).tier = s.tier := rfl
@[simp] theorem State.setErr_obl (l v : Nat) : (s.setErr l v).obl = s.obl := rfl
@[simp] theorem State.setErr_beats (l v : Nat) : (s.setErr l v).beats = s.beats := rfl
@[simp] theorem State.setErr_trust (l v : Nat) : (s.setErr l v).trust = s.trust := rfl
@[simp] theorem State.setErr_d2d (l v : Nat) : (s.setErr l v).d2d = s.d2d := rfl
@[simp] theorem State.setErr_coc (l v : Nat) : (s.setErr l v).coc = s.coc := rfl
@[simp] theorem State.setErr_pwr (l v : Nat) : (s.setErr l v).pwr = s.pwr := rfl
@[simp] theorem State.setErr_age (l v : Nat) : (s.setErr l v).age = s.age := rfl
@[simp] theorem State.setErr_board (l v : Nat) : (s.setErr l v).board = s.board := rfl
@[simp] theorem State.setErr_out (l v : Nat) : (s.setErr l v).out = s.out := rfl
@[simp] theorem State.setErr_resp (l v : Nat) : (s.setErr l v).resp = s.resp := rfl

/-! ### setPoison -/

@[simp] theorem State.setPoison_pending (l : Nat) (b : Bool) : (s.setPoison l b).pending = s.pending := rfl
@[simp] theorem State.setPoison_clock (l : Nat) (b : Bool) : (s.setPoison l b).clock = s.clock := rfl
@[simp] theorem State.setPoison_regs (l : Nat) (b : Bool) : (s.setPoison l b).regs = s.regs := rfl
@[simp] theorem State.setPoison_hbm (l : Nat) (b : Bool) : (s.setPoison l b).hbm = s.hbm := rfl
@[simp] theorem State.setPoison_spad (l : Nat) (b : Bool) : (s.setPoison l b).spad = s.spad := rfl
@[simp] theorem State.setPoison_spadErr (l : Nat) (b : Bool) : (s.setPoison l b).spadErr = s.spadErr := rfl
@[simp] theorem State.setPoison_hostMem (l : Nat) (b : Bool) : (s.setPoison l b).hostMem = s.hostMem := rfl
@[simp] theorem State.setPoison_flash (l : Nat) (b : Bool) : (s.setPoison l b).flash = s.flash := rfl
@[simp] theorem State.setPoison_clus (l : Nat) (b : Bool) : (s.setPoison l b).clus = s.clus := rfl
@[simp] theorem State.setPoison_cells (l : Nat) (b : Bool) : (s.setPoison l b).cells = s.cells := rfl
@[simp] theorem State.setPoison_slots (l : Nat) (b : Bool) : (s.setPoison l b).slots = s.slots := rfl
@[simp] theorem State.setPoison_ras (l : Nat) (b : Bool) : (s.setPoison l b).ras = s.ras := rfl
@[simp] theorem State.setPoison_irq (l : Nat) (b : Bool) : (s.setPoison l b).irq = s.irq := rfl
@[simp] theorem State.setPoison_coh (l : Nat) (b : Bool) : (s.setPoison l b).coh = s.coh := rfl
@[simp] theorem State.setPoison_mem (l : Nat) (b : Bool) : (s.setPoison l b).mem = s.mem := rfl
@[simp] theorem State.setPoison_cores (l : Nat) (b : Bool) : (s.setPoison l b).cores = s.cores := rfl
@[simp] theorem State.setPoison_rst (l : Nat) (b : Bool) : (s.setPoison l b).rst = s.rst := rfl
@[simp] theorem State.setPoison_host (l : Nat) (b : Bool) : (s.setPoison l b).host = s.host := rfl
@[simp] theorem State.setPoison_tier (l : Nat) (b : Bool) : (s.setPoison l b).tier = s.tier := rfl
@[simp] theorem State.setPoison_obl (l : Nat) (b : Bool) : (s.setPoison l b).obl = s.obl := rfl
@[simp] theorem State.setPoison_beats (l : Nat) (b : Bool) : (s.setPoison l b).beats = s.beats := rfl
@[simp] theorem State.setPoison_trust (l : Nat) (b : Bool) : (s.setPoison l b).trust = s.trust := rfl
@[simp] theorem State.setPoison_d2d (l : Nat) (b : Bool) : (s.setPoison l b).d2d = s.d2d := rfl
@[simp] theorem State.setPoison_coc (l : Nat) (b : Bool) : (s.setPoison l b).coc = s.coc := rfl
@[simp] theorem State.setPoison_pwr (l : Nat) (b : Bool) : (s.setPoison l b).pwr = s.pwr := rfl
@[simp] theorem State.setPoison_age (l : Nat) (b : Bool) : (s.setPoison l b).age = s.age := rfl
@[simp] theorem State.setPoison_board (l : Nat) (b : Bool) : (s.setPoison l b).board = s.board := rfl
@[simp] theorem State.setPoison_out (l : Nat) (b : Bool) : (s.setPoison l b).out = s.out := rfl
@[simp] theorem State.setPoison_resp (l : Nat) (b : Bool) : (s.setPoison l b).resp = s.resp := rfl

/-! ### setCore -/

@[simp] theorem State.setCore_pending (h : Nat) (f : Core → Core) : (s.setCore h f).pending = s.pending := rfl
@[simp] theorem State.setCore_clock (h : Nat) (f : Core → Core) : (s.setCore h f).clock = s.clock := rfl
@[simp] theorem State.setCore_regs (h : Nat) (f : Core → Core) : (s.setCore h f).regs = s.regs := rfl
@[simp] theorem State.setCore_hbm (h : Nat) (f : Core → Core) : (s.setCore h f).hbm = s.hbm := rfl
@[simp] theorem State.setCore_hbmPoison (h : Nat) (f : Core → Core) : (s.setCore h f).hbmPoison = s.hbmPoison := rfl
@[simp] theorem State.setCore_spad (h : Nat) (f : Core → Core) : (s.setCore h f).spad = s.spad := rfl
@[simp] theorem State.setCore_spadErr (h : Nat) (f : Core → Core) : (s.setCore h f).spadErr = s.spadErr := rfl
@[simp] theorem State.setCore_hostMem (h : Nat) (f : Core → Core) : (s.setCore h f).hostMem = s.hostMem := rfl
@[simp] theorem State.setCore_flash (h : Nat) (f : Core → Core) : (s.setCore h f).flash = s.flash := rfl
@[simp] theorem State.setCore_clus (h : Nat) (f : Core → Core) : (s.setCore h f).clus = s.clus := rfl
@[simp] theorem State.setCore_cells (h : Nat) (f : Core → Core) : (s.setCore h f).cells = s.cells := rfl
@[simp] theorem State.setCore_slots (h : Nat) (f : Core → Core) : (s.setCore h f).slots = s.slots := rfl
@[simp] theorem State.setCore_ras (h : Nat) (f : Core → Core) : (s.setCore h f).ras = s.ras := rfl
@[simp] theorem State.setCore_irq (h : Nat) (f : Core → Core) : (s.setCore h f).irq = s.irq := rfl
@[simp] theorem State.setCore_coh (h : Nat) (f : Core → Core) : (s.setCore h f).coh = s.coh := rfl
@[simp] theorem State.setCore_mem (h : Nat) (f : Core → Core) : (s.setCore h f).mem = s.mem := rfl
@[simp] theorem State.setCore_rst (h : Nat) (f : Core → Core) : (s.setCore h f).rst = s.rst := rfl
@[simp] theorem State.setCore_host (h : Nat) (f : Core → Core) : (s.setCore h f).host = s.host := rfl
@[simp] theorem State.setCore_tier (h : Nat) (f : Core → Core) : (s.setCore h f).tier = s.tier := rfl
@[simp] theorem State.setCore_obl (h : Nat) (f : Core → Core) : (s.setCore h f).obl = s.obl := rfl
@[simp] theorem State.setCore_beats (h : Nat) (f : Core → Core) : (s.setCore h f).beats = s.beats := rfl
@[simp] theorem State.setCore_trust (h : Nat) (f : Core → Core) : (s.setCore h f).trust = s.trust := rfl
@[simp] theorem State.setCore_d2d (h : Nat) (f : Core → Core) : (s.setCore h f).d2d = s.d2d := rfl
@[simp] theorem State.setCore_coc (h : Nat) (f : Core → Core) : (s.setCore h f).coc = s.coc := rfl
@[simp] theorem State.setCore_pwr (h : Nat) (f : Core → Core) : (s.setCore h f).pwr = s.pwr := rfl
@[simp] theorem State.setCore_age (h : Nat) (f : Core → Core) : (s.setCore h f).age = s.age := rfl
@[simp] theorem State.setCore_board (h : Nat) (f : Core → Core) : (s.setCore h f).board = s.board := rfl
@[simp] theorem State.setCore_out (h : Nat) (f : Core → Core) : (s.setCore h f).out = s.out := rfl
@[simp] theorem State.setCore_resp (h : Nat) (f : Core → Core) : (s.setCore h f).resp = s.resp := rfl

/-! ### setHpm -/

@[simp] theorem State.setHpm_pending (h n v : Nat) : (s.setHpm h n v).pending = s.pending := rfl
@[simp] theorem State.setHpm_clock (h n v : Nat) : (s.setHpm h n v).clock = s.clock := rfl
@[simp] theorem State.setHpm_regs (h n v : Nat) : (s.setHpm h n v).regs = s.regs := rfl
@[simp] theorem State.setHpm_hbm (h n v : Nat) : (s.setHpm h n v).hbm = s.hbm := rfl
@[simp] theorem State.setHpm_hbmPoison (h n v : Nat) : (s.setHpm h n v).hbmPoison = s.hbmPoison := rfl
@[simp] theorem State.setHpm_spad (h n v : Nat) : (s.setHpm h n v).spad = s.spad := rfl
@[simp] theorem State.setHpm_spadErr (h n v : Nat) : (s.setHpm h n v).spadErr = s.spadErr := rfl
@[simp] theorem State.setHpm_hostMem (h n v : Nat) : (s.setHpm h n v).hostMem = s.hostMem := rfl
@[simp] theorem State.setHpm_flash (h n v : Nat) : (s.setHpm h n v).flash = s.flash := rfl
@[simp] theorem State.setHpm_clus (h n v : Nat) : (s.setHpm h n v).clus = s.clus := rfl
@[simp] theorem State.setHpm_cells (h n v : Nat) : (s.setHpm h n v).cells = s.cells := rfl
@[simp] theorem State.setHpm_slots (h n v : Nat) : (s.setHpm h n v).slots = s.slots := rfl
@[simp] theorem State.setHpm_ras (h n v : Nat) : (s.setHpm h n v).ras = s.ras := rfl
@[simp] theorem State.setHpm_irq (h n v : Nat) : (s.setHpm h n v).irq = s.irq := rfl
@[simp] theorem State.setHpm_coh (h n v : Nat) : (s.setHpm h n v).coh = s.coh := rfl
@[simp] theorem State.setHpm_mem (h n v : Nat) : (s.setHpm h n v).mem = s.mem := rfl
@[simp] theorem State.setHpm_rst (h n v : Nat) : (s.setHpm h n v).rst = s.rst := rfl
@[simp] theorem State.setHpm_host (h n v : Nat) : (s.setHpm h n v).host = s.host := rfl
@[simp] theorem State.setHpm_tier (h n v : Nat) : (s.setHpm h n v).tier = s.tier := rfl
@[simp] theorem State.setHpm_obl (h n v : Nat) : (s.setHpm h n v).obl = s.obl := rfl
@[simp] theorem State.setHpm_beats (h n v : Nat) : (s.setHpm h n v).beats = s.beats := rfl
@[simp] theorem State.setHpm_trust (h n v : Nat) : (s.setHpm h n v).trust = s.trust := rfl
@[simp] theorem State.setHpm_d2d (h n v : Nat) : (s.setHpm h n v).d2d = s.d2d := rfl
@[simp] theorem State.setHpm_coc (h n v : Nat) : (s.setHpm h n v).coc = s.coc := rfl
@[simp] theorem State.setHpm_pwr (h n v : Nat) : (s.setHpm h n v).pwr = s.pwr := rfl
@[simp] theorem State.setHpm_age (h n v : Nat) : (s.setHpm h n v).age = s.age := rfl
@[simp] theorem State.setHpm_board (h n v : Nat) : (s.setHpm h n v).board = s.board := rfl
@[simp] theorem State.setHpm_out (h n v : Nat) : (s.setHpm h n v).out = s.out := rfl
@[simp] theorem State.setHpm_resp (h n v : Nat) : (s.setHpm h n v).resp = s.resp := rfl

/-! ### setPort -/

@[simp] theorem State.setPort_pending (p : Nat) (f : ObPort → ObPort) : (s.setPort p f).pending = s.pending := rfl
@[simp] theorem State.setPort_clock (p : Nat) (f : ObPort → ObPort) : (s.setPort p f).clock = s.clock := rfl
@[simp] theorem State.setPort_regs (p : Nat) (f : ObPort → ObPort) : (s.setPort p f).regs = s.regs := rfl
@[simp] theorem State.setPort_hbm (p : Nat) (f : ObPort → ObPort) : (s.setPort p f).hbm = s.hbm := rfl
@[simp] theorem State.setPort_hbmPoison (p : Nat) (f : ObPort → ObPort) : (s.setPort p f).hbmPoison = s.hbmPoison := rfl
@[simp] theorem State.setPort_spad (p : Nat) (f : ObPort → ObPort) : (s.setPort p f).spad = s.spad := rfl
@[simp] theorem State.setPort_spadErr (p : Nat) (f : ObPort → ObPort) : (s.setPort p f).spadErr = s.spadErr := rfl
@[simp] theorem State.setPort_hostMem (p : Nat) (f : ObPort → ObPort) : (s.setPort p f).hostMem = s.hostMem := rfl
@[simp] theorem State.setPort_flash (p : Nat) (f : ObPort → ObPort) : (s.setPort p f).flash = s.flash := rfl
@[simp] theorem State.setPort_clus (p : Nat) (f : ObPort → ObPort) : (s.setPort p f).clus = s.clus := rfl
@[simp] theorem State.setPort_cells (p : Nat) (f : ObPort → ObPort) : (s.setPort p f).cells = s.cells := rfl
@[simp] theorem State.setPort_slots (p : Nat) (f : ObPort → ObPort) : (s.setPort p f).slots = s.slots := rfl
@[simp] theorem State.setPort_ras (p : Nat) (f : ObPort → ObPort) : (s.setPort p f).ras = s.ras := rfl
@[simp] theorem State.setPort_irq (p : Nat) (f : ObPort → ObPort) : (s.setPort p f).irq = s.irq := rfl
@[simp] theorem State.setPort_coh (p : Nat) (f : ObPort → ObPort) : (s.setPort p f).coh = s.coh := rfl
@[simp] theorem State.setPort_mem (p : Nat) (f : ObPort → ObPort) : (s.setPort p f).mem = s.mem := rfl
@[simp] theorem State.setPort_cores (p : Nat) (f : ObPort → ObPort) : (s.setPort p f).cores = s.cores := rfl
@[simp] theorem State.setPort_rst (p : Nat) (f : ObPort → ObPort) : (s.setPort p f).rst = s.rst := rfl
@[simp] theorem State.setPort_host (p : Nat) (f : ObPort → ObPort) : (s.setPort p f).host = s.host := rfl
@[simp] theorem State.setPort_tier (p : Nat) (f : ObPort → ObPort) : (s.setPort p f).tier = s.tier := rfl
@[simp] theorem State.setPort_beats (p : Nat) (f : ObPort → ObPort) : (s.setPort p f).beats = s.beats := rfl
@[simp] theorem State.setPort_trust (p : Nat) (f : ObPort → ObPort) : (s.setPort p f).trust = s.trust := rfl
@[simp] theorem State.setPort_d2d (p : Nat) (f : ObPort → ObPort) : (s.setPort p f).d2d = s.d2d := rfl
@[simp] theorem State.setPort_coc (p : Nat) (f : ObPort → ObPort) : (s.setPort p f).coc = s.coc := rfl
@[simp] theorem State.setPort_pwr (p : Nat) (f : ObPort → ObPort) : (s.setPort p f).pwr = s.pwr := rfl
@[simp] theorem State.setPort_age (p : Nat) (f : ObPort → ObPort) : (s.setPort p f).age = s.age := rfl
@[simp] theorem State.setPort_board (p : Nat) (f : ObPort → ObPort) : (s.setPort p f).board = s.board := rfl
@[simp] theorem State.setPort_out (p : Nat) (f : ObPort → ObPort) : (s.setPort p f).out = s.out := rfl
@[simp] theorem State.setPort_resp (p : Nat) (f : ObPort → ObPort) : (s.setPort p f).resp = s.resp := rfl

/-! ### setCoc -/

@[simp] theorem State.setCoc_pending (f : Coc → Coc) : (s.setCoc f).pending = s.pending := rfl
@[simp] theorem State.setCoc_clock (f : Coc → Coc) : (s.setCoc f).clock = s.clock := rfl
@[simp] theorem State.setCoc_regs (f : Coc → Coc) : (s.setCoc f).regs = s.regs := rfl
@[simp] theorem State.setCoc_hbm (f : Coc → Coc) : (s.setCoc f).hbm = s.hbm := rfl
@[simp] theorem State.setCoc_hbmPoison (f : Coc → Coc) : (s.setCoc f).hbmPoison = s.hbmPoison := rfl
@[simp] theorem State.setCoc_spad (f : Coc → Coc) : (s.setCoc f).spad = s.spad := rfl
@[simp] theorem State.setCoc_spadErr (f : Coc → Coc) : (s.setCoc f).spadErr = s.spadErr := rfl
@[simp] theorem State.setCoc_hostMem (f : Coc → Coc) : (s.setCoc f).hostMem = s.hostMem := rfl
@[simp] theorem State.setCoc_flash (f : Coc → Coc) : (s.setCoc f).flash = s.flash := rfl
@[simp] theorem State.setCoc_clus (f : Coc → Coc) : (s.setCoc f).clus = s.clus := rfl
@[simp] theorem State.setCoc_cells (f : Coc → Coc) : (s.setCoc f).cells = s.cells := rfl
@[simp] theorem State.setCoc_slots (f : Coc → Coc) : (s.setCoc f).slots = s.slots := rfl
@[simp] theorem State.setCoc_ras (f : Coc → Coc) : (s.setCoc f).ras = s.ras := rfl
@[simp] theorem State.setCoc_irq (f : Coc → Coc) : (s.setCoc f).irq = s.irq := rfl
@[simp] theorem State.setCoc_coh (f : Coc → Coc) : (s.setCoc f).coh = s.coh := rfl
@[simp] theorem State.setCoc_mem (f : Coc → Coc) : (s.setCoc f).mem = s.mem := rfl
@[simp] theorem State.setCoc_cores (f : Coc → Coc) : (s.setCoc f).cores = s.cores := rfl
@[simp] theorem State.setCoc_rst (f : Coc → Coc) : (s.setCoc f).rst = s.rst := rfl
@[simp] theorem State.setCoc_host (f : Coc → Coc) : (s.setCoc f).host = s.host := rfl
@[simp] theorem State.setCoc_tier (f : Coc → Coc) : (s.setCoc f).tier = s.tier := rfl
@[simp] theorem State.setCoc_obl (f : Coc → Coc) : (s.setCoc f).obl = s.obl := rfl
@[simp] theorem State.setCoc_beats (f : Coc → Coc) : (s.setCoc f).beats = s.beats := rfl
@[simp] theorem State.setCoc_trust (f : Coc → Coc) : (s.setCoc f).trust = s.trust := rfl
@[simp] theorem State.setCoc_d2d (f : Coc → Coc) : (s.setCoc f).d2d = s.d2d := rfl
@[simp] theorem State.setCoc_pwr (f : Coc → Coc) : (s.setCoc f).pwr = s.pwr := rfl
@[simp] theorem State.setCoc_age (f : Coc → Coc) : (s.setCoc f).age = s.age := rfl
@[simp] theorem State.setCoc_board (f : Coc → Coc) : (s.setCoc f).board = s.board := rfl
@[simp] theorem State.setCoc_out (f : Coc → Coc) : (s.setCoc f).out = s.out := rfl
@[simp] theorem State.setCoc_resp (f : Coc → Coc) : (s.setCoc f).resp = s.resp := rfl

/-! ### setPwr -/

@[simp] theorem State.setPwr_pending (f : Pwr → Pwr) : (s.setPwr f).pending = s.pending := rfl
@[simp] theorem State.setPwr_clock (f : Pwr → Pwr) : (s.setPwr f).clock = s.clock := rfl
@[simp] theorem State.setPwr_regs (f : Pwr → Pwr) : (s.setPwr f).regs = s.regs := rfl
@[simp] theorem State.setPwr_hbm (f : Pwr → Pwr) : (s.setPwr f).hbm = s.hbm := rfl
@[simp] theorem State.setPwr_hbmPoison (f : Pwr → Pwr) : (s.setPwr f).hbmPoison = s.hbmPoison := rfl
@[simp] theorem State.setPwr_spad (f : Pwr → Pwr) : (s.setPwr f).spad = s.spad := rfl
@[simp] theorem State.setPwr_spadErr (f : Pwr → Pwr) : (s.setPwr f).spadErr = s.spadErr := rfl
@[simp] theorem State.setPwr_hostMem (f : Pwr → Pwr) : (s.setPwr f).hostMem = s.hostMem := rfl
@[simp] theorem State.setPwr_flash (f : Pwr → Pwr) : (s.setPwr f).flash = s.flash := rfl
@[simp] theorem State.setPwr_clus (f : Pwr → Pwr) : (s.setPwr f).clus = s.clus := rfl
@[simp] theorem State.setPwr_cells (f : Pwr → Pwr) : (s.setPwr f).cells = s.cells := rfl
@[simp] theorem State.setPwr_slots (f : Pwr → Pwr) : (s.setPwr f).slots = s.slots := rfl
@[simp] theorem State.setPwr_ras (f : Pwr → Pwr) : (s.setPwr f).ras = s.ras := rfl
@[simp] theorem State.setPwr_irq (f : Pwr → Pwr) : (s.setPwr f).irq = s.irq := rfl
@[simp] theorem State.setPwr_coh (f : Pwr → Pwr) : (s.setPwr f).coh = s.coh := rfl
@[simp] theorem State.setPwr_mem (f : Pwr → Pwr) : (s.setPwr f).mem = s.mem := rfl
@[simp] theorem State.setPwr_cores (f : Pwr → Pwr) : (s.setPwr f).cores = s.cores := rfl
@[simp] theorem State.setPwr_rst (f : Pwr → Pwr) : (s.setPwr f).rst = s.rst := rfl
@[simp] theorem State.setPwr_host (f : Pwr → Pwr) : (s.setPwr f).host = s.host := rfl
@[simp] theorem State.setPwr_tier (f : Pwr → Pwr) : (s.setPwr f).tier = s.tier := rfl
@[simp] theorem State.setPwr_obl (f : Pwr → Pwr) : (s.setPwr f).obl = s.obl := rfl
@[simp] theorem State.setPwr_beats (f : Pwr → Pwr) : (s.setPwr f).beats = s.beats := rfl
@[simp] theorem State.setPwr_trust (f : Pwr → Pwr) : (s.setPwr f).trust = s.trust := rfl
@[simp] theorem State.setPwr_d2d (f : Pwr → Pwr) : (s.setPwr f).d2d = s.d2d := rfl
@[simp] theorem State.setPwr_coc (f : Pwr → Pwr) : (s.setPwr f).coc = s.coc := rfl
@[simp] theorem State.setPwr_age (f : Pwr → Pwr) : (s.setPwr f).age = s.age := rfl
@[simp] theorem State.setPwr_board (f : Pwr → Pwr) : (s.setPwr f).board = s.board := rfl
@[simp] theorem State.setPwr_out (f : Pwr → Pwr) : (s.setPwr f).out = s.out := rfl
@[simp] theorem State.setPwr_resp (f : Pwr → Pwr) : (s.setPwr f).resp = s.resp := rfl

/-! ### setAge -/

@[simp] theorem State.setAge_pending (f : Age → Age) : (s.setAge f).pending = s.pending := rfl
@[simp] theorem State.setAge_clock (f : Age → Age) : (s.setAge f).clock = s.clock := rfl
@[simp] theorem State.setAge_regs (f : Age → Age) : (s.setAge f).regs = s.regs := rfl
@[simp] theorem State.setAge_hbm (f : Age → Age) : (s.setAge f).hbm = s.hbm := rfl
@[simp] theorem State.setAge_hbmPoison (f : Age → Age) : (s.setAge f).hbmPoison = s.hbmPoison := rfl
@[simp] theorem State.setAge_spad (f : Age → Age) : (s.setAge f).spad = s.spad := rfl
@[simp] theorem State.setAge_spadErr (f : Age → Age) : (s.setAge f).spadErr = s.spadErr := rfl
@[simp] theorem State.setAge_hostMem (f : Age → Age) : (s.setAge f).hostMem = s.hostMem := rfl
@[simp] theorem State.setAge_flash (f : Age → Age) : (s.setAge f).flash = s.flash := rfl
@[simp] theorem State.setAge_clus (f : Age → Age) : (s.setAge f).clus = s.clus := rfl
@[simp] theorem State.setAge_cells (f : Age → Age) : (s.setAge f).cells = s.cells := rfl
@[simp] theorem State.setAge_slots (f : Age → Age) : (s.setAge f).slots = s.slots := rfl
@[simp] theorem State.setAge_ras (f : Age → Age) : (s.setAge f).ras = s.ras := rfl
@[simp] theorem State.setAge_irq (f : Age → Age) : (s.setAge f).irq = s.irq := rfl
@[simp] theorem State.setAge_coh (f : Age → Age) : (s.setAge f).coh = s.coh := rfl
@[simp] theorem State.setAge_mem (f : Age → Age) : (s.setAge f).mem = s.mem := rfl
@[simp] theorem State.setAge_cores (f : Age → Age) : (s.setAge f).cores = s.cores := rfl
@[simp] theorem State.setAge_rst (f : Age → Age) : (s.setAge f).rst = s.rst := rfl
@[simp] theorem State.setAge_host (f : Age → Age) : (s.setAge f).host = s.host := rfl
@[simp] theorem State.setAge_tier (f : Age → Age) : (s.setAge f).tier = s.tier := rfl
@[simp] theorem State.setAge_obl (f : Age → Age) : (s.setAge f).obl = s.obl := rfl
@[simp] theorem State.setAge_beats (f : Age → Age) : (s.setAge f).beats = s.beats := rfl
@[simp] theorem State.setAge_trust (f : Age → Age) : (s.setAge f).trust = s.trust := rfl
@[simp] theorem State.setAge_d2d (f : Age → Age) : (s.setAge f).d2d = s.d2d := rfl
@[simp] theorem State.setAge_coc (f : Age → Age) : (s.setAge f).coc = s.coc := rfl
@[simp] theorem State.setAge_pwr (f : Age → Age) : (s.setAge f).pwr = s.pwr := rfl
@[simp] theorem State.setAge_board (f : Age → Age) : (s.setAge f).board = s.board := rfl
@[simp] theorem State.setAge_out (f : Age → Age) : (s.setAge f).out = s.out := rfl
@[simp] theorem State.setAge_resp (f : Age → Age) : (s.setAge f).resp = s.resp := rfl

/-! ### setBoard -/

@[simp] theorem State.setBoard_pending (f : Mod → Mod) : (s.setBoard f).pending = s.pending := rfl
@[simp] theorem State.setBoard_clock (f : Mod → Mod) : (s.setBoard f).clock = s.clock := rfl
@[simp] theorem State.setBoard_regs (f : Mod → Mod) : (s.setBoard f).regs = s.regs := rfl
@[simp] theorem State.setBoard_hbm (f : Mod → Mod) : (s.setBoard f).hbm = s.hbm := rfl
@[simp] theorem State.setBoard_hbmPoison (f : Mod → Mod) : (s.setBoard f).hbmPoison = s.hbmPoison := rfl
@[simp] theorem State.setBoard_spad (f : Mod → Mod) : (s.setBoard f).spad = s.spad := rfl
@[simp] theorem State.setBoard_spadErr (f : Mod → Mod) : (s.setBoard f).spadErr = s.spadErr := rfl
@[simp] theorem State.setBoard_hostMem (f : Mod → Mod) : (s.setBoard f).hostMem = s.hostMem := rfl
@[simp] theorem State.setBoard_flash (f : Mod → Mod) : (s.setBoard f).flash = s.flash := rfl
@[simp] theorem State.setBoard_clus (f : Mod → Mod) : (s.setBoard f).clus = s.clus := rfl
@[simp] theorem State.setBoard_cells (f : Mod → Mod) : (s.setBoard f).cells = s.cells := rfl
@[simp] theorem State.setBoard_slots (f : Mod → Mod) : (s.setBoard f).slots = s.slots := rfl
@[simp] theorem State.setBoard_ras (f : Mod → Mod) : (s.setBoard f).ras = s.ras := rfl
@[simp] theorem State.setBoard_irq (f : Mod → Mod) : (s.setBoard f).irq = s.irq := rfl
@[simp] theorem State.setBoard_coh (f : Mod → Mod) : (s.setBoard f).coh = s.coh := rfl
@[simp] theorem State.setBoard_mem (f : Mod → Mod) : (s.setBoard f).mem = s.mem := rfl
@[simp] theorem State.setBoard_cores (f : Mod → Mod) : (s.setBoard f).cores = s.cores := rfl
@[simp] theorem State.setBoard_rst (f : Mod → Mod) : (s.setBoard f).rst = s.rst := rfl
@[simp] theorem State.setBoard_host (f : Mod → Mod) : (s.setBoard f).host = s.host := rfl
@[simp] theorem State.setBoard_tier (f : Mod → Mod) : (s.setBoard f).tier = s.tier := rfl
@[simp] theorem State.setBoard_obl (f : Mod → Mod) : (s.setBoard f).obl = s.obl := rfl
@[simp] theorem State.setBoard_beats (f : Mod → Mod) : (s.setBoard f).beats = s.beats := rfl
@[simp] theorem State.setBoard_trust (f : Mod → Mod) : (s.setBoard f).trust = s.trust := rfl
@[simp] theorem State.setBoard_d2d (f : Mod → Mod) : (s.setBoard f).d2d = s.d2d := rfl
@[simp] theorem State.setBoard_coc (f : Mod → Mod) : (s.setBoard f).coc = s.coc := rfl
@[simp] theorem State.setBoard_pwr (f : Mod → Mod) : (s.setBoard f).pwr = s.pwr := rfl
@[simp] theorem State.setBoard_age (f : Mod → Mod) : (s.setBoard f).age = s.age := rfl
@[simp] theorem State.setBoard_out (f : Mod → Mod) : (s.setBoard f).out = s.out := rfl
@[simp] theorem State.setBoard_resp (f : Mod → Mod) : (s.setBoard f).resp = s.resp := rfl

/-! ### setTrust -/

@[simp] theorem State.setTrust_pending (f : Trust → Trust) : (s.setTrust f).pending = s.pending := rfl
@[simp] theorem State.setTrust_clock (f : Trust → Trust) : (s.setTrust f).clock = s.clock := rfl
@[simp] theorem State.setTrust_regs (f : Trust → Trust) : (s.setTrust f).regs = s.regs := rfl
@[simp] theorem State.setTrust_hbm (f : Trust → Trust) : (s.setTrust f).hbm = s.hbm := rfl
@[simp] theorem State.setTrust_hbmPoison (f : Trust → Trust) : (s.setTrust f).hbmPoison = s.hbmPoison := rfl
@[simp] theorem State.setTrust_spad (f : Trust → Trust) : (s.setTrust f).spad = s.spad := rfl
@[simp] theorem State.setTrust_spadErr (f : Trust → Trust) : (s.setTrust f).spadErr = s.spadErr := rfl
@[simp] theorem State.setTrust_hostMem (f : Trust → Trust) : (s.setTrust f).hostMem = s.hostMem := rfl
@[simp] theorem State.setTrust_flash (f : Trust → Trust) : (s.setTrust f).flash = s.flash := rfl
@[simp] theorem State.setTrust_clus (f : Trust → Trust) : (s.setTrust f).clus = s.clus := rfl
@[simp] theorem State.setTrust_cells (f : Trust → Trust) : (s.setTrust f).cells = s.cells := rfl
@[simp] theorem State.setTrust_slots (f : Trust → Trust) : (s.setTrust f).slots = s.slots := rfl
@[simp] theorem State.setTrust_ras (f : Trust → Trust) : (s.setTrust f).ras = s.ras := rfl
@[simp] theorem State.setTrust_irq (f : Trust → Trust) : (s.setTrust f).irq = s.irq := rfl
@[simp] theorem State.setTrust_coh (f : Trust → Trust) : (s.setTrust f).coh = s.coh := rfl
@[simp] theorem State.setTrust_mem (f : Trust → Trust) : (s.setTrust f).mem = s.mem := rfl
@[simp] theorem State.setTrust_cores (f : Trust → Trust) : (s.setTrust f).cores = s.cores := rfl
@[simp] theorem State.setTrust_rst (f : Trust → Trust) : (s.setTrust f).rst = s.rst := rfl
@[simp] theorem State.setTrust_host (f : Trust → Trust) : (s.setTrust f).host = s.host := rfl
@[simp] theorem State.setTrust_tier (f : Trust → Trust) : (s.setTrust f).tier = s.tier := rfl
@[simp] theorem State.setTrust_obl (f : Trust → Trust) : (s.setTrust f).obl = s.obl := rfl
@[simp] theorem State.setTrust_beats (f : Trust → Trust) : (s.setTrust f).beats = s.beats := rfl
@[simp] theorem State.setTrust_d2d (f : Trust → Trust) : (s.setTrust f).d2d = s.d2d := rfl
@[simp] theorem State.setTrust_coc (f : Trust → Trust) : (s.setTrust f).coc = s.coc := rfl
@[simp] theorem State.setTrust_pwr (f : Trust → Trust) : (s.setTrust f).pwr = s.pwr := rfl
@[simp] theorem State.setTrust_age (f : Trust → Trust) : (s.setTrust f).age = s.age := rfl
@[simp] theorem State.setTrust_board (f : Trust → Trust) : (s.setTrust f).board = s.board := rfl
@[simp] theorem State.setTrust_out (f : Trust → Trust) : (s.setTrust f).out = s.out := rfl
@[simp] theorem State.setTrust_resp (f : Trust → Trust) : (s.setTrust f).resp = s.resp := rfl

end

end Sys2Proof.Machine
end

