-- ==== Sys2Proof/Laws/Tables.lean ====
section
/-! SUPPORT. Laws/Tables.lean: reading after writing in sparse tables and byte memories, and their canonical form. -/

namespace Sys2Proof.Machine

variable {α : Type}

theorem getK_insK_same (d : α) (m : SMap α) (x : Nat) (v : α) : getK d (insK m x v) x = v := by
  induction m with
  | nil => simp [insK, getK]
  | cons e m ih =>
    obtain ⟨k, w⟩ := e
    simp only [insK]
    split
    · simp [getK]
    · split
      · simp [getK]
      · simp [getK, *]

theorem getK_insK_ne (d : α) (m : SMap α) (x y : Nat) (v : α) (h : y ≠ x) :
    getK d (insK m x v) y = getK d m y := by
  induction m with
  | nil => simp [insK, getK, Ne.symm h]
  | cons e m ih =>
    obtain ⟨k, w⟩ := e
    simp only [insK]
    split
    · simp [getK, Ne.symm h]
    · split
      · subst_vars; simp [getK, Ne.symm h]
      · simp [getK, ih]

theorem getK_eraseK_ne (d : α) (m : SMap α) (x y : Nat) (h : y ≠ x) : getK d (eraseK m x) y = getK d m y := by
  induction m with
  | nil => rfl
  | cons e m ih =>
    obtain ⟨k, w⟩ := e
    simp only [eraseK]
    split
    · subst_vars; simp [getK, Ne.symm h, ih]
    · simp [getK, ih]

theorem rising_weaken {m : SMap α} {a b : Nat} (hab : a ≤ b) (h : risingFrom b m = true) : risingFrom a m = true := by
  cases m with
  | nil => rfl
  | cons e m =>
    obtain ⟨k, w⟩ := e
    simp only [risingFrom, Bool.and_eq_true, decide_eq_true_eq] at h ⊢
    exact ⟨by omega, h.2⟩

theorem getK_eraseK_same (d : α) (m : SMap α) (x : Nat) : getK d (eraseK m x) x = d := by
  induction m with
  | nil => rfl
  | cons e m ih =>
    obtain ⟨k, w⟩ := e
    simp only [eraseK]
    split
    · exact ih
    · simp only [getK, *, if_false]

theorem rising_insK {m : SMap α} {b x : Nat} (v : α) (hx : b ≤ x) (h : risingFrom b m = true) :
    risingFrom b (insK m x v) = true := by
  induction m generalizing b with
  | nil => simp [insK, risingFrom, hx]
  | cons e m ih =>
    obtain ⟨k, w⟩ := e
    simp only [risingFrom, Bool.and_eq_true, decide_eq_true_eq] at h
    simp only [insK]
    split
    · simp only [risingFrom, Bool.and_eq_true, decide_eq_true_eq]
      exact ⟨hx, by omega, h.2⟩
    · split
      · subst_vars; simp only [risingFrom, Bool.and_eq_true, decide_eq_true_eq]; exact h
      · simp only [risingFrom, Bool.and_eq_true, decide_eq_true_eq]
        exact ⟨h.1, ih (by omega) h.2⟩

theorem rising_eraseK {m : SMap α} {b : Nat} (x : Nat) (h : risingFrom b m = true) :
    risingFrom b (eraseK m x) = true := by
  induction m generalizing b with
  | nil => rfl
  | cons e m ih =>
    obtain ⟨k, w⟩ := e
    simp only [risingFrom, Bool.and_eq_true, decide_eq_true_eq] at h
    simp only [eraseK]
    split
    · exact rising_weaken (by omega) (ih h.2)
    · simp only [risingFrom, Bool.and_eq_true, decide_eq_true_eq]
      exact ⟨h.1, ih h.2⟩

theorem rising_filter {m : SMap α} {b : Nat} (p : Nat × α → Bool) (h : risingFrom b m = true) :
    risingFrom b (m.filter p) = true := by
  induction m generalizing b with
  | nil => rfl
  | cons e m ih =>
    obtain ⟨k, w⟩ := e
    simp only [risingFrom, Bool.and_eq_true, decide_eq_true_eq] at h
    rw [List.filter_cons]
    split
    · simp only [risingFrom, Bool.and_eq_true, decide_eq_true_eq]
      exact ⟨h.1, ih h.2⟩
    · exact rising_weaken (by omega) (ih h.2)

variable [DecidableEq α]

theorem rising_setK {m : SMap α} (d : α) (x : Nat) (v : α) (h : risingFrom 0 m = true) :
    risingFrom 0 (setK d m x v) = true := by
  unfold setK
  split
  · exact rising_eraseK x h
  · exact rising_insK v (Nat.zero_le x) h

theorem getK_setK_ne (d e : α) (m : SMap α) (x y : Nat) (v : α) (h : y ≠ x) :
    getK d (setK e m x v) y = getK d m y := by
  unfold setK
  split
  · exact getK_eraseK_ne d m x y h
  · exact getK_insK_ne d m x y v h

theorem getK_setK_same (d : α) (m : SMap α) (x : Nat) (v : α) : getK d (setK d m x v) x = v := by
  unfold setK
  split
  · subst_vars; exact getK_eraseK_same _ m x
  · exact getK_insK_same d m x v

omit [DecidableEq α] in
theorem all_insK {m : SMap α} {p : Nat × α → Bool} (x : Nat) (v : α) (h : m.all p = true) (hv : p (x, v) = true) :
    (insK m x v).all p = true := by
  induction m with
  | nil => simp [insK, hv]
  | cons e m ih =>
    obtain ⟨k, w⟩ := e
    simp only [List.all_cons, Bool.and_eq_true] at h
    simp only [insK]
    split
    · simp only [List.all_cons, Bool.and_eq_true]; exact ⟨hv, h⟩
    · split
      · simp only [List.all_cons, Bool.and_eq_true]; exact ⟨hv, h.2⟩
      · simp only [List.all_cons, Bool.and_eq_true]; exact ⟨h.1, ih h.2⟩

omit [DecidableEq α] in
theorem all_eraseK {m : SMap α} {p : Nat × α → Bool} (x : Nat) (h : m.all p = true) : (eraseK m x).all p = true := by
  induction m with
  | nil => rfl
  | cons e m ih =>
    obtain ⟨k, w⟩ := e
    simp only [List.all_cons, Bool.and_eq_true] at h
    simp only [eraseK]
    split
    · exact ih h.2
    · simp only [List.all_cons, Bool.and_eq_true]; exact ⟨h.1, ih h.2⟩

theorem canonK_setK {d : α} {m : SMap α} (x : Nat) (v : α) (h : canonK d m = true) : canonK d (setK d m x v) = true := by
  unfold canonK at h ⊢
  rw [Bool.and_eq_true] at h ⊢
  refine ⟨rising_setK d x v h.1, ?_⟩
  unfold setK
  split
  · exact all_eraseK x h.2
  · exact all_insK x v h.2 (by simpa using ‹¬ v = d›)

theorem canonK_filter {d : α} {m : SMap α} (p : Nat × α → Bool) (h : canonK d m = true) :
    canonK d (m.filter p) = true := by
  unfold canonK at h ⊢
  rw [Bool.and_eq_true] at h ⊢
  refine ⟨rising_filter p h.1, ?_⟩
  rw [List.all_eq_true] at h ⊢
  exact fun e he => h.2 e (List.mem_of_mem_filter he)

theorem canonK_dropRange {d : α} {m : SMap α} (lo hi : Nat) (h : canonK d m = true) :
    canonK d (dropRange m lo hi) = true := canonK_filter _ h

/-! ## Byte memories -/

theorem memSet_wf {m : List (Nat × Byte)} (a : Nat) (b : Byte) (h : Memory.wf m = true) :
    Memory.wf (memSet m a b) = true := canonK_setK a b h

theorem memWrite_wf {m : List (Nat × Byte)} (a : Nat) (bs : List Byte) (h : Memory.wf m = true) :
    Memory.wf (memWrite m a bs) = true := by
  induction bs generalizing m a with
  | nil => exact h
  | cons b bs ih => exact ih (a + 1) (memSet_wf a b h)

theorem memErase_wf {m : List (Nat × Byte)} (lo hi : Nat) (h : Memory.wf m = true) :
    Memory.wf (memErase m lo hi) = true := canonK_dropRange lo hi h

theorem filter_wf {m : List (Nat × Byte)} (p : Nat × Byte → Bool) (h : Memory.wf m = true) :
    Memory.wf (m.filter p) = true := canonK_filter p h

theorem memGet_memSet_same (m : List (Nat × Byte)) (a : Nat) (b : Byte) : memGet (memSet m a b) a = b :=
  getK_setK_same blankByte m a b

theorem memGet_memSet_ne (m : List (Nat × Byte)) (a x : Nat) (b : Byte) (h : x ≠ a) :
    memGet (memSet m a b) x = memGet m x := getK_setK_ne blankByte blankByte m a x b h

theorem memGet_memWrite_out (m : List (Nat × Byte)) (a x : Nat) (bs : List Byte) (h : x < a ∨ a + bs.length ≤ x) :
    memGet (memWrite m a bs) x = memGet m x := by
  induction bs generalizing m a with
  | nil => rfl
  | cons b bs ih =>
    simp only [List.length_cons] at h
    simp only [memWrite]
    rw [ih (memSet m a b) (a + 1) (by omega), memGet_memSet_ne _ _ _ _ (by omega)]

theorem memRead_length (m : List (Nat × Byte)) (a n : Nat) : (memRead m a n).length = n := by
  induction n generalizing a with
  | zero => rfl
  | succ n ih => simp [memRead, ih]

theorem memRead_memWrite_same (m : List (Nat × Byte)) (a : Nat) (bs : List Byte) :
    memRead (memWrite m a bs) a bs.length = bs := by
  induction bs generalizing m a with
  | nil => rfl
  | cons b bs ih =>
    simp only [memWrite, List.length_cons, memRead]
    rw [ih (memSet m a b) (a + 1), memGet_memWrite_out _ _ _ _ (by omega), memGet_memSet_same m a b]

end Sys2Proof.Machine
end

