-- ==== Sys2Proof/Laws/Ops.lean ====
section
/-! SUPPORT. Laws/Ops.lean: what the shared operations over registers, interrupts and the RAS queue can do. -/

namespace Sys2Proof.Machine

/-! ## Register fields -/

@[simp] theorem State.rd_wr_same (s : State) (f : Fld) (v i j r : Nat) :
    (s.wr f v i j r).rd f i j r = v % 2 ^ f.width := getK_setK_same _ _ _ _

theorem State.rd_wr_ne (s : State) (f g : Fld) (v i j r i' j' r' : Nat) (h : g.key i' j' r' ≠ f.key i j r) :
    (s.wr f v i j r).rd g i' j' r' = s.rd g i' j' r' := getK_setK_ne _ _ _ _ _ _ h

theorem State.getK_wr_ne (s : State) (d : Nat) (f : Fld) (v i j r k : Nat) (h : k ≠ f.key i j r) :
    getK d (s.wr f v i j r).regs k = getK d s.regs k := getK_setK_ne _ _ _ _ _ _ h

theorem State.rising_wr (s : State) (f : Fld) (v i j r : Nat) (h : risingFrom 0 s.regs = true) :
    risingFrom 0 (s.wr f v i j r).regs = true := rising_setK _ _ _ h

theorem State.rd_bump_same (s : State) (f : Fld) (n i j : Nat) :
    (s.bump f n i j).rd f i j = satAdd (s.rd f i j) n f.width := by
  unfold State.bump
  rw [State.rd_wr_same]
  apply Nat.mod_eq_of_lt
  have := Nat.two_pow_pos f.width
  unfold satAdd
  omega

/-! ## Lists of updates -/

theorem foldl_only {β γ : Type} (P : State → γ → State) (g : State → β → State)
    (base : ∀ s, ∃ w, s = P s w) (ext : ∀ s w v, ∃ u, P (P s w) v = P s u)
    (h : ∀ s x, ∃ w, g s x = P s w) : ∀ (l : List β) (s : State), ∃ w, l.foldl g s = P s w
  | [], s => base s
  | x :: l, s => by
    obtain ⟨w, hw⟩ := h s x
    obtain ⟨v, hv⟩ := foldl_only P g base ext h l (g s x)
    rw [List.foldl_cons, hv, hw]
    exact ext s w v

/-! ## Interrupts -/

/-- A state with other interrupt files and other messages sent. -/
def State.withIrq (s : State) (w : Irq × List Out) : State := { s with irq := w.1, out := w.2 }

theorem State.withIrq_base (s : State) : ∃ w, s = s.withIrq w := ⟨(s.irq, s.out), rfl⟩

theorem State.withIrq_ext (s : State) (w v : Irq × List Out) : ∃ u, (s.withIrq w).withIrq v = s.withIrq u := ⟨v, rfl⟩

theorem State.imsicSet_only (s : State) (f i : Nat) : ∃ w, s.imsicSet f i = s.withIrq w := by
  unfold State.imsicSet
  split
  · exact s.withIrq_base
  · exact ⟨(_, s.out), rfl⟩

theorem State.setAplicPending_only (s : State) (d i : Nat) (b : Bool) : ∃ w, s.setAplicPending d i b = s.withIrq w :=
  ⟨(_, s.out), rfl⟩

theorem State.aplicForward_only (s : State) (d i : Nat) : ∃ w, s.aplicForward d i = s.withIrq w := by
  unfold State.aplicForward
  split
  · dsimp only
    split
    · exact s.setAplicPending_only _ _ _
    · obtain ⟨w, hw⟩ := s.setAplicPending_only d i false
      obtain ⟨v, hv⟩ := (s.setAplicPending d i false).imsicSet_only _ _
      rw [hv, hw]
      exact s.withIrq_ext w v
  · exact s.withIrq_base

theorem State.rectified_only (s : State) (i : Nat) (up : Bool) : ∃ w, s.rectified i up = s.withIrq w := by
  unfold State.rectified
  extract_lets dom
  split
  · obtain ⟨w, hw⟩ := s.setAplicPending_only dom i true
    obtain ⟨v, hv⟩ := (s.setAplicPending dom i true).aplicForward_only dom i
    rw [hv, hw]
    exact s.withIrq_ext w v
  · split
    · exact s.setAplicPending_only _ _ _
    · exact s.withIrq_base

theorem State.aplicInput_only (s : State) (i : Nat) (up : Bool) : ∃ w, s.aplicInput i up = s.withIrq w := by
  unfold State.aplicInput
  split
  all_goals first | exact s.rectified_only _ _ | exact s.withIrq_base

/-- A function's message touches nothing but what it sends, or what is pending. -/
theorem State.msix_only (s : State) (f v : Nat) : ∃ w, s.msix f v = s.withIrq w := by
  unfold State.msix
  extract_lets c
  split
  · exact s.withIrq_base
  · split
    · split
      · exact s.withIrq_base
      · exact ⟨(⟨s.irq.aplic, s.irq.imsic, s.irq.msix ++ [(f, v)]⟩, s.out), rfl⟩
    · exact ⟨(s.irq, s.out ++ [.msix f v]), rfl⟩

theorem State.sourceRise_only (s : State) (i : Nat) : ∃ w, s.sourceRise i = s.withIrq w := by
  unfold State.sourceRise
  split
  · obtain ⟨w, hw⟩ := s.msix_only 0 (1023 + i)
    obtain ⟨v, hv⟩ := (s.msix 0 (1023 + i)).aplicInput_only i true
    rw [hv, hw]
    exact s.withIrq_ext w v
  · exact s.aplicInput_only i true

theorem State.followSources_only (s before : State) (b : Blk) (i : Nat) :
    ∃ w, s.followSources before b i = s.withIrq w := by
  unfold State.followSources
  refine foldl_only State.withIrq _ State.withIrq_base State.withIrq_ext (fun s x => ?_) _ s
  split
  · exact s.sourceRise_only x
  · split
    · exact s.aplicInput_only x false
    · exact s.withIrq_base

/-- An interrupt event sets its STATUS bits and touches no other register; beyond that only interrupt files and messages
sent change. -/
theorem State.raise_only (s : State) (st : Fld) (i mask : Nat) :
    ∃ w, s.raise st i mask = (s.wr st (s.rd st i ||| mask) i).withIrq w :=
  (s.wr st (s.rd st i ||| mask) i).followSources_only s st.blk i

@[simp] theorem State.raise_pending (s : State) (st : Fld) (i mask : Nat) : (s.raise st i mask).pending = s.pending := by
  obtain ⟨_, h⟩ := s.raise_only st i mask; rw [h]; rfl
@[simp] theorem State.raise_clock (s : State) (st : Fld) (i mask : Nat) : (s.raise st i mask).clock = s.clock := by
  obtain ⟨_, h⟩ := s.raise_only st i mask; rw [h]; rfl
@[simp] theorem State.raise_hbm (s : State) (st : Fld) (i mask : Nat) : (s.raise st i mask).hbm = s.hbm := by
  obtain ⟨_, h⟩ := s.raise_only st i mask; rw [h]; rfl
@[simp] theorem State.raise_hbmPoison (s : State) (st : Fld) (i mask : Nat) : (s.raise st i mask).hbmPoison = s.hbmPoison := by
  obtain ⟨_, h⟩ := s.raise_only st i mask; rw [h]; rfl
@[simp] theorem State.raise_spad (s : State) (st : Fld) (i mask : Nat) : (s.raise st i mask).spad = s.spad := by
  obtain ⟨_, h⟩ := s.raise_only st i mask; rw [h]; rfl
@[simp] theorem State.raise_spadErr (s : State) (st : Fld) (i mask : Nat) : (s.raise st i mask).spadErr = s.spadErr := by
  obtain ⟨_, h⟩ := s.raise_only st i mask; rw [h]; rfl
@[simp] theorem State.raise_hostMem (s : State) (st : Fld) (i mask : Nat) : (s.raise st i mask).hostMem = s.hostMem := by
  obtain ⟨_, h⟩ := s.raise_only st i mask; rw [h]; rfl
@[simp] theorem State.raise_flash (s : State) (st : Fld) (i mask : Nat) : (s.raise st i mask).flash = s.flash := by
  obtain ⟨_, h⟩ := s.raise_only st i mask; rw [h]; rfl
@[simp] theorem State.raise_clus (s : State) (st : Fld) (i mask : Nat) : (s.raise st i mask).clus = s.clus := by
  obtain ⟨_, h⟩ := s.raise_only st i mask; rw [h]; rfl
@[simp] theorem State.raise_cells (s : State) (st : Fld) (i mask : Nat) : (s.raise st i mask).cells = s.cells := by
  obtain ⟨_, h⟩ := s.raise_only st i mask; rw [h]; rfl
@[simp] theorem State.raise_slots (s : State) (st : Fld) (i mask : Nat) : (s.raise st i mask).slots = s.slots := by
  obtain ⟨_, h⟩ := s.raise_only st i mask; rw [h]; rfl
@[simp] theorem State.raise_ras (s : State) (st : Fld) (i mask : Nat) : (s.raise st i mask).ras = s.ras := by
  obtain ⟨_, h⟩ := s.raise_only st i mask; rw [h]; rfl
@[simp] theorem State.raise_coh (s : State) (st : Fld) (i mask : Nat) : (s.raise st i mask).coh = s.coh := by
  obtain ⟨_, h⟩ := s.raise_only st i mask; rw [h]; rfl
@[simp] theorem State.raise_mem (s : State) (st : Fld) (i mask : Nat) : (s.raise st i mask).mem = s.mem := by
  obtain ⟨_, h⟩ := s.raise_only st i mask; rw [h]; rfl
@[simp] theorem State.raise_cores (s : State) (st : Fld) (i mask : Nat) : (s.raise st i mask).cores = s.cores := by
  obtain ⟨_, h⟩ := s.raise_only st i mask; rw [h]; rfl
@[simp] theorem State.raise_rst (s : State) (st : Fld) (i mask : Nat) : (s.raise st i mask).rst = s.rst := by
  obtain ⟨_, h⟩ := s.raise_only st i mask; rw [h]; rfl
@[simp] theorem State.raise_host (s : State) (st : Fld) (i mask : Nat) : (s.raise st i mask).host = s.host := by
  obtain ⟨_, h⟩ := s.raise_only st i mask; rw [h]; rfl
@[simp] theorem State.raise_tier (s : State) (st : Fld) (i mask : Nat) : (s.raise st i mask).tier = s.tier := by
  obtain ⟨_, h⟩ := s.raise_only st i mask; rw [h]; rfl
@[simp] theorem State.raise_obl (s : State) (st : Fld) (i mask : Nat) : (s.raise st i mask).obl = s.obl := by
  obtain ⟨_, h⟩ := s.raise_only st i mask; rw [h]; rfl
@[simp] theorem State.raise_beats (s : State) (st : Fld) (i mask : Nat) : (s.raise st i mask).beats = s.beats := by
  obtain ⟨_, h⟩ := s.raise_only st i mask; rw [h]; rfl
@[simp] theorem State.raise_trust (s : State) (st : Fld) (i mask : Nat) : (s.raise st i mask).trust = s.trust := by
  obtain ⟨_, h⟩ := s.raise_only st i mask; rw [h]; rfl
@[simp] theorem State.raise_d2d (s : State) (st : Fld) (i mask : Nat) : (s.raise st i mask).d2d = s.d2d := by
  obtain ⟨_, h⟩ := s.raise_only st i mask; rw [h]; rfl
@[simp] theorem State.raise_coc (s : State) (st : Fld) (i mask : Nat) : (s.raise st i mask).coc = s.coc := by
  obtain ⟨_, h⟩ := s.raise_only st i mask; rw [h]; rfl
@[simp] theorem State.raise_pwr (s : State) (st : Fld) (i mask : Nat) : (s.raise st i mask).pwr = s.pwr := by
  obtain ⟨_, h⟩ := s.raise_only st i mask; rw [h]; rfl
@[simp] theorem State.raise_age (s : State) (st : Fld) (i mask : Nat) : (s.raise st i mask).age = s.age := by
  obtain ⟨_, h⟩ := s.raise_only st i mask; rw [h]; rfl
@[simp] theorem State.raise_board (s : State) (st : Fld) (i mask : Nat) : (s.raise st i mask).board = s.board := by
  obtain ⟨_, h⟩ := s.raise_only st i mask; rw [h]; rfl
@[simp] theorem State.raise_resp (s : State) (st : Fld) (i mask : Nat) : (s.raise st i mask).resp = s.resp := by
  obtain ⟨_, h⟩ := s.raise_only st i mask; rw [h]; rfl

theorem State.raise_regs (s : State) (st : Fld) (i mask : Nat) :
    (s.raise st i mask).regs = (s.wr st (s.rd st i ||| mask) i).regs := by
  obtain ⟨_, h⟩ := s.raise_only st i mask; rw [h]; rfl

theorem State.rising_raise (s : State) (st : Fld) (i mask : Nat) (h : risingFrom 0 s.regs = true) :
    risingFrom 0 (s.raise st i mask).regs = true := by
  rw [s.raise_regs]; exact s.rising_wr _ _ _ _ _ h

theorem State.rd_raise_ne (s : State) (st g : Fld) (i mask i' j r : Nat) (h : g.key i' j r ≠ st.key i 0 0) :
    (s.raise st i mask).rd g i' j r = s.rd g i' j r := by
  unfold State.rd; rw [s.raise_regs]; exact s.getK_wr_ne _ _ _ _ _ _ _ h

theorem State.rd_raise_same (s : State) (st : Fld) (i mask : Nat) :
    (s.raise st i mask).rd st i = (s.rd st i ||| mask) % 2 ^ st.width := by
  have := s.rd_wr_same st (s.rd st i ||| mask) i 0 0
  unfold State.rd at this ⊢; rw [s.raise_regs]; exact this

theorem State.getK_raise_ne (s : State) (d : Nat) (st : Fld) (i mask k : Nat) (h : k ≠ st.key i 0 0) :
    getK d (s.raise st i mask).regs k = getK d s.regs k := by
  rw [s.raise_regs]; exact s.getK_wr_ne _ _ _ _ _ _ _ h

/-! ## RAS events -/

/-- A state with other registers, RAS queue and log, interrupt files and messages sent. -/
def State.withRas (s : State) (w : SMap Nat × Ras × Irq × List Out) : State :=
  { s with regs := w.1, ras := w.2.1, irq := w.2.2.1, out := w.2.2.2 }

theorem State.withRas_raise (s : State) (w : SMap Nat × Ras × Irq × List Out) (st : Fld) (i mask : Nat) :
    ∃ u, (s.withRas w).raise st i mask = s.withRas u := by
  obtain ⟨v, h⟩ := (s.withRas w).raise_only st i mask
  rw [h]
  exact ⟨(_, w.2.1, v.1, v.2), rfl⟩

/-- A RAS event changes the RAS queue and log and the registers, interrupt files and messages of its interrupts. -/
theorem State.rasEvent_only (s : State) (status block unit loc : Nat) (kind : RasKind) (detail : Nat) :
    ∃ w, s.rasEvent status block unit loc kind detail = s.withRas w := by
  unfold State.rasEvent
  extract_lets corrDue logged r full ras0 ras s1 s2 s3 s4
  have h1 : ∃ w, s1 = s.withRas w := ⟨(s.regs, ras, s.irq, s.out), rfl⟩
  have h2 : ∃ w, s2 = s.withRas w := by
    obtain ⟨w, hw⟩ := h1
    simp only [s2]
    split
    · rw [hw]
      exact s.withRas_raise (_, w.2.1, w.2.2.1, w.2.2.2) _ _ _
    · exact ⟨w, hw⟩
  have h3 : ∃ w, s3 = s.withRas w := by
    obtain ⟨w, hw⟩ := h2
    simp only [s3]; rw [hw]
    exact s.withRas_raise w _ _ _
  have h4 : ∃ w, s4 = s.withRas w := by
    obtain ⟨w, hw⟩ := h3
    simp only [s4]
    split
    · rw [hw]; exact s.withRas_raise w _ _ _
    · exact ⟨w, hw⟩
  obtain ⟨w, hw⟩ := h4
  split
  · rw [hw]; exact s.withRas_raise w _ _ _
  · exact ⟨w, hw⟩

@[simp] theorem State.rasEvent_pending (s : State) (status block unit loc : Nat) (kind : RasKind) (detail : Nat) :
    (s.rasEvent status block unit loc kind detail).pending = s.pending := by
  obtain ⟨_, h⟩ := s.rasEvent_only status block unit loc kind detail; rw [h]; rfl
@[simp] theorem State.rasEvent_clock (s : State) (status block unit loc : Nat) (kind : RasKind) (detail : Nat) :
    (s.rasEvent status block unit loc kind detail).clock = s.clock := by
  obtain ⟨_, h⟩ := s.rasEvent_only status block unit loc kind detail; rw [h]; rfl
@[simp] theorem State.rasEvent_hbm (s : State) (status block unit loc : Nat) (kind : RasKind) (detail : Nat) :
    (s.rasEvent status block unit loc kind detail).hbm = s.hbm := by
  obtain ⟨_, h⟩ := s.rasEvent_only status block unit loc kind detail; rw [h]; rfl
@[simp] theorem State.rasEvent_hbmPoison (s : State) (status block unit loc : Nat) (kind : RasKind) (detail : Nat) :
    (s.rasEvent status block unit loc kind detail).hbmPoison = s.hbmPoison := by
  obtain ⟨_, h⟩ := s.rasEvent_only status block unit loc kind detail; rw [h]; rfl
@[simp] theorem State.rasEvent_spad (s : State) (status block unit loc : Nat) (kind : RasKind) (detail : Nat) :
    (s.rasEvent status block unit loc kind detail).spad = s.spad := by
  obtain ⟨_, h⟩ := s.rasEvent_only status block unit loc kind detail; rw [h]; rfl
@[simp] theorem State.rasEvent_spadErr (s : State) (status block unit loc : Nat) (kind : RasKind) (detail : Nat) :
    (s.rasEvent status block unit loc kind detail).spadErr = s.spadErr := by
  obtain ⟨_, h⟩ := s.rasEvent_only status block unit loc kind detail; rw [h]; rfl
@[simp] theorem State.rasEvent_hostMem (s : State) (status block unit loc : Nat) (kind : RasKind) (detail : Nat) :
    (s.rasEvent status block unit loc kind detail).hostMem = s.hostMem := by
  obtain ⟨_, h⟩ := s.rasEvent_only status block unit loc kind detail; rw [h]; rfl
@[simp] theorem State.rasEvent_flash (s : State) (status block unit loc : Nat) (kind : RasKind) (detail : Nat) :
    (s.rasEvent status block unit loc kind detail).flash = s.flash := by
  obtain ⟨_, h⟩ := s.rasEvent_only status block unit loc kind detail; rw [h]; rfl
@[simp] theorem State.rasEvent_clus (s : State) (status block unit loc : Nat) (kind : RasKind) (detail : Nat) :
    (s.rasEvent status block unit loc kind detail).clus = s.clus := by
  obtain ⟨_, h⟩ := s.rasEvent_only status block unit loc kind detail; rw [h]; rfl
@[simp] theorem State.rasEvent_cells (s : State) (status block unit loc : Nat) (kind : RasKind) (detail : Nat) :
    (s.rasEvent status block unit loc kind detail).cells = s.cells := by
  obtain ⟨_, h⟩ := s.rasEvent_only status block unit loc kind detail; rw [h]; rfl
@[simp] theorem State.rasEvent_slots (s : State) (status block unit loc : Nat) (kind : RasKind) (detail : Nat) :
    (s.rasEvent status block unit loc kind detail).slots = s.slots := by
  obtain ⟨_, h⟩ := s.rasEvent_only status block unit loc kind detail; rw [h]; rfl
@[simp] theorem State.rasEvent_coh (s : State) (status block unit loc : Nat) (kind : RasKind) (detail : Nat) :
    (s.rasEvent status block unit loc kind detail).coh = s.coh := by
  obtain ⟨_, h⟩ := s.rasEvent_only status block unit loc kind detail; rw [h]; rfl
@[simp] theorem State.rasEvent_mem (s : State) (status block unit loc : Nat) (kind : RasKind) (detail : Nat) :
    (s.rasEvent status block unit loc kind detail).mem = s.mem := by
  obtain ⟨_, h⟩ := s.rasEvent_only status block unit loc kind detail; rw [h]; rfl
@[simp] theorem State.rasEvent_cores (s : State) (status block unit loc : Nat) (kind : RasKind) (detail : Nat) :
    (s.rasEvent status block unit loc kind detail).cores = s.cores := by
  obtain ⟨_, h⟩ := s.rasEvent_only status block unit loc kind detail; rw [h]; rfl
@[simp] theorem State.rasEvent_rst (s : State) (status block unit loc : Nat) (kind : RasKind) (detail : Nat) :
    (s.rasEvent status block unit loc kind detail).rst = s.rst := by
  obtain ⟨_, h⟩ := s.rasEvent_only status block unit loc kind detail; rw [h]; rfl
@[simp] theorem State.rasEvent_host (s : State) (status block unit loc : Nat) (kind : RasKind) (detail : Nat) :
    (s.rasEvent status block unit loc kind detail).host = s.host := by
  obtain ⟨_, h⟩ := s.rasEvent_only status block unit loc kind detail; rw [h]; rfl
@[simp] theorem State.rasEvent_tier (s : State) (status block unit loc : Nat) (kind : RasKind) (detail : Nat) :
    (s.rasEvent status block unit loc kind detail).tier = s.tier := by
  obtain ⟨_, h⟩ := s.rasEvent_only status block unit loc kind detail; rw [h]; rfl
@[simp] theorem State.rasEvent_obl (s : State) (status block unit loc : Nat) (kind : RasKind) (detail : Nat) :
    (s.rasEvent status block unit loc kind detail).obl = s.obl := by
  obtain ⟨_, h⟩ := s.rasEvent_only status block unit loc kind detail; rw [h]; rfl
@[simp] theorem State.rasEvent_beats (s : State) (status block unit loc : Nat) (kind : RasKind) (detail : Nat) :
    (s.rasEvent status block unit loc kind detail).beats = s.beats := by
  obtain ⟨_, h⟩ := s.rasEvent_only status block unit loc kind detail; rw [h]; rfl
@[simp] theorem State.rasEvent_trust (s : State) (status block unit loc : Nat) (kind : RasKind) (detail : Nat) :
    (s.rasEvent status block unit loc kind detail).trust = s.trust := by
  obtain ⟨_, h⟩ := s.rasEvent_only status block unit loc kind detail; rw [h]; rfl
@[simp] theorem State.rasEvent_d2d (s : State) (status block unit loc : Nat) (kind : RasKind) (detail : Nat) :
    (s.rasEvent status block unit loc kind detail).d2d = s.d2d := by
  obtain ⟨_, h⟩ := s.rasEvent_only status block unit loc kind detail; rw [h]; rfl
@[simp] theorem State.rasEvent_coc (s : State) (status block unit loc : Nat) (kind : RasKind) (detail : Nat) :
    (s.rasEvent status block unit loc kind detail).coc = s.coc := by
  obtain ⟨_, h⟩ := s.rasEvent_only status block unit loc kind detail; rw [h]; rfl
@[simp] theorem State.rasEvent_pwr (s : State) (status block unit loc : Nat) (kind : RasKind) (detail : Nat) :
    (s.rasEvent status block unit loc kind detail).pwr = s.pwr := by
  obtain ⟨_, h⟩ := s.rasEvent_only status block unit loc kind detail; rw [h]; rfl
@[simp] theorem State.rasEvent_age (s : State) (status block unit loc : Nat) (kind : RasKind) (detail : Nat) :
    (s.rasEvent status block unit loc kind detail).age = s.age := by
  obtain ⟨_, h⟩ := s.rasEvent_only status block unit loc kind detail; rw [h]; rfl
@[simp] theorem State.rasEvent_board (s : State) (status block unit loc : Nat) (kind : RasKind) (detail : Nat) :
    (s.rasEvent status block unit loc kind detail).board = s.board := by
  obtain ⟨_, h⟩ := s.rasEvent_only status block unit loc kind detail; rw [h]; rfl
@[simp] theorem State.rasEvent_resp (s : State) (status block unit loc : Nat) (kind : RasKind) (detail : Nat) :
    (s.rasEvent status block unit loc kind detail).resp = s.resp := by
  obtain ⟨_, h⟩ := s.rasEvent_only status block unit loc kind detail; rw [h]; rfl

end Sys2Proof.Machine
end

