-- ==== Sys2Proof/Laws/Links.lean ====
section
/-! SUPPORT. Laws/Links.lean: forming the role maps of links whose lanes all work (R374). -/

namespace Sys2Proof.Machine

/-- No bundle is known to have more failing lanes than it can repair. -/
def State.lanesGood (s : State) : Prop := ∀ k, getK 0 s.d2d.lanes k ≤ 4

theorem State.bundleFound_nil (s : State) (link : Nat) (dir : Bool) (b : Nat) :
    s.bundleFound [] link dir b = (getK 0 s.d2d.lanes (bundleKey link dir b), false) := rfl

/-- One bundle with no finding takes the next role. -/
theorem State.formDir_step (s : State) (hs : s.lanesGood) (link : Nat) (dir : Bool) (n : Nat) :
    let r := (List.range n).foldl (fun (p : State × List Nat) b =>
      let x := s.bundleFound [] link dir b
      let k := bundleKey link dir b
      let down := decide (4 < x.1) || x.2
      let role := if down then 0 else p.2.headD 6
      (p.1.setD2d fun d => { d with
        role := setK 0 d.role k role
        repaired := setK 0 d.repaired k (if down then 0 else x.1)
        lanes := setK 0 d.lanes k x.1
        fails := setK 0 d.fails k 0 }, if down then p.2 else p.2.drop 1)) (s, roleOrder link)
    r.2 = (roleOrder link).drop n ∧ r.1.regs = s.regs ∧ (∀ k, getK 0 r.1.d2d.lanes k = getK 0 s.d2d.lanes k)
      ∧ (∀ b, b < n → r.1.role link dir b = (roleOrder link).getD b 6)
      ∧ ∀ k, (∀ b, b < n → k ≠ bundleKey link dir b) → getK 0 r.1.d2d.role k = getK 0 s.d2d.role k := by
  induction n with
  | zero => simp
  | succ n ih =>
    simp only [List.range_succ, List.foldl_append, List.foldl_cons, List.foldl_nil] at ih ⊢
    generalize List.foldl _ (s, roleOrder link) (List.range n) = r at ih ⊢
    obtain ⟨h1, h2, h3, h4, h5⟩ := ih
    have g : ¬ 4 < getK 0 s.d2d.lanes (bundleKey link dir n) := by have := hs (bundleKey link dir n); omega
    simp only [State.bundleFound_nil, g, decide_false, Bool.or_false, Bool.false_eq_true, if_false]
    refine ⟨by rw [h1, List.drop_drop], h2, fun k => ?_, fun b hb => ?_, fun k hk => ?_⟩
    · simp only [State.setD2d]
      by_cases e : k = bundleKey link dir n
      · rw [e, getK_setK_same]
      · rw [getK_setK_ne _ _ _ _ _ _ e, h3]
    · simp only [State.setD2d, State.role]
      by_cases e : b = n
      · subst e
        rw [getK_setK_same, h1]
        simp [List.headD_eq_head?_getD, List.head?_drop, List.getD_eq_getElem?_getD]
      · rw [getK_setK_ne _ _ _ _ _ _ (by simp [bundleKey]; omega)]
        exact h4 b (by omega)
    · simp only [State.setD2d]
      rw [getK_setK_ne _ _ _ _ _ _ (hk n (by omega))]
      exact h5 k fun b hb => hk b (by omega)

/-- With no finding a direction takes its roles in order, and nothing else of the links changes. -/
theorem State.formDir_nil (s : State) (hs : s.lanesGood) (link : Nat) (dir : Bool) :
    let t := s.formDir [] link dir
    t.regs = s.regs ∧ t.lanesGood
      ∧ (∀ b, b < linkBundles link + linkSpares link → t.role link dir b = (roleOrder link).getD b 6)
      ∧ ∀ k, (∀ b, b < linkBundles link + linkSpares link → k ≠ bundleKey link dir b) →
        getK 0 t.d2d.role k = getK 0 s.d2d.role k := by
  obtain ⟨_, h2, h3, h4, h5⟩ := s.formDir_step hs link dir (linkBundles link + linkSpares link)
  exact ⟨h2, fun k => by rw [State.formDir, h3]; exact hs k, h4, h5⟩

/-- Whether the role map of R374 leaves a link's role without bundles, or DAT with fewer than half. -/
def planFailed (link : Nat) : Bool :=
  [1, 2, 3, 4, 5].any fun r =>
    let want := (linkRoles link).getD (r - 1) 0
    let have_ := ((List.range (linkBundles link + linkSpares link)).filter fun b => (roleOrder link).getD b 6 == r).length
    want != 0 && (have_ == 0 || (r == roleDat && decide (2 * have_ < want)))

theorem plan_good : ∀ link, link < 15 → planFailed link = false := by decide +kernel

/-- A link whose two directions have their roles in order has not failed. -/
theorem State.linkFailed_of_roles (s : State) (link : Nat) (hl : link < 15)
    (h : ∀ dir b, b < linkBundles link + linkSpares link → s.role link dir b = (roleOrder link).getD b 6) :
    s.linkFailed link = false := by
  have e (dir : Bool) (r : Nat) : s.roleCount link dir r
      = ((List.range (linkBundles link + linkSpares link)).filter fun b => (roleOrder link).getD b 6 == r).length := by
    unfold State.roleCount
    congr 1
    exact List.filter_congr fun b hb => by rw [h dir b (List.mem_range.1 hb)]
  have p := plan_good link hl
  simp only [planFailed] at p
  simp only [State.linkFailed, e, List.any_cons, List.any_nil, p, Bool.or_self]

/-- A link that has not failed settles UP or DEGRADED; its bundles stand. -/
theorem State.linkSettle_good (s : State) (link : Nat) (h : s.linkFailed link = false) :
    (s.linkSettle link).rd D2D_LINK_STATUS.STATE link ≠ 4 ∧ (s.linkSettle link).d2d = s.d2d
      ∧ ∀ l, l ≠ link → (s.linkSettle link).rd D2D_LINK_STATUS.STATE l = s.rd D2D_LINK_STATUS.STATE l := by
  have ne (f : Fld) (l : Nat) (hf : f = D2D_INT_STATUS.DEGRADED ∨ f = D2D_INT_STATUS.FAILED) :
      D2D_LINK_STATUS.STATE.key l 0 0 ≠ f.key 0 0 0 := by
    rcases hf with rfl | rfl <;> simp [Fld.key, Fld.addr, D2D_LINK_STATUS.STATE, D2D_INT_STATUS.DEGRADED,
      D2D_INT_STATUS.FAILED, Blk.base, Blk.stride] <;> omega
  have other (f : Fld) (l : Nat) (hf : f = D2D_LINK_STATUS.STATE ∨ f = D2D_LINK_STATUS.UP_AB ∨ f = D2D_LINK_STATUS.UP_BA)
      (hl : l ≠ link ∨ f ≠ D2D_LINK_STATUS.STATE) : D2D_LINK_STATUS.STATE.key l 0 0 ≠ f.key link 0 0 := by
    rcases hf with rfl | rfl | rfl <;> simp [Fld.key, Fld.addr, D2D_LINK_STATUS.STATE, D2D_LINK_STATUS.UP_AB,
      D2D_LINK_STATUS.UP_BA, Blk.base, Blk.stride] at hl ⊢ <;> omega
  unfold State.linkSettle
  rw [h]
  extract_lets st was a c
  have hst : st = 2 ∨ st = 3 := by simp only [st, Bool.false_eq_true, if_false]; split <;> simp
  have hc : c.rd D2D_LINK_STATUS.STATE link ≠ 4 := by
    simp only [c]; rw [State.rd_wr_same]; rcases hst with e | e <;> rw [e] <;> decide
  have ho : ∀ l, l ≠ link → c.rd D2D_LINK_STATUS.STATE l = s.rd D2D_LINK_STATUS.STATE l := fun l hl => by
    simp only [c, a]
    rw [State.rd_wr_ne _ _ _ _ _ _ _ _ _ _ (other _ l (.inl rfl) (.inl hl)),
      State.rd_wr_ne _ _ _ _ _ _ _ _ _ _ (other _ l (.inr (.inr rfl)) (.inr (by decide))),
      State.rd_wr_ne _ _ _ _ _ _ _ _ _ _ (other _ l (.inr (.inl rfl)) (.inr (by decide)))]
  split
  · exact ⟨hc, rfl, ho⟩
  · split
    · exact ⟨by rw [State.rd_raise_ne _ _ _ _ _ _ _ _ (ne _ _ (.inl rfl))]; exact hc, by rw [State.raise_d2d]; rfl,
        fun l hl => by rw [State.rd_raise_ne _ _ _ _ _ _ _ _ (ne _ _ (.inl rfl))]; exact ho l hl⟩
    · split
      · exact absurd ‹st = 4› (by omega)
      · exact ⟨hc, rfl, ho⟩

/-- A link that has failed says so. -/
theorem State.linkSettle_failed (s : State) (link : Nat) (h : s.linkFailed link = true) :
    (s.linkSettle link).rd D2D_LINK_STATUS.STATE link = 4 := by
  unfold State.linkSettle
  rw [h]
  extract_lets st was a c
  have hc : c.rd D2D_LINK_STATUS.STATE link = 4 := by simp only [c]; rw [State.rd_wr_same]; rfl
  have hr : (c.raise D2D_INT_STATUS.FAILED).rd D2D_LINK_STATUS.STATE link = 4 := by
    have ne : D2D_LINK_STATUS.STATE.key link 0 0 ≠ D2D_INT_STATUS.FAILED.key 0 0 0 := by
      simp only [Fld.key, Fld.addr, D2D_LINK_STATUS.STATE, D2D_INT_STATUS.FAILED, Blk.base, Blk.stride]
      omega
    rw [State.rd_raise_ne _ _ _ _ _ _ _ _ ne]
    exact hc
  split
  · exact hc
  · split
    · exact absurd ‹st = 3› (by simp [st])
    · split
      · exact hr
      · exact hc

/-- The last link of a list is formed after the others. -/
theorem State.formLinks_concat (s : State) (fs : List BundleFinding) (ls : List Nat) (l : Nat) :
    s.formLinks fs (ls ++ [l]) = (((s.formLinks fs ls).formDir fs l false).formDir fs l true).linkSettle l := by
  simp [State.formLinks, List.foldl_append]

/-- Links formed with no finding, by a part with no lane beyond repair, have not failed. -/
theorem State.formLinks_good (s : State) (hs : s.lanesGood) (ls : List Nat) (hl : ∀ l ∈ ls, l < 15) :
    (s.formLinks [] ls).lanesGood ∧ ∀ l ∈ ls, (s.formLinks [] ls).rd D2D_LINK_STATUS.STATE l ≠ 4 := by
  induction ls using List.reverseRecOn with
  | nil => exact ⟨hs, by simp⟩
  | append_singleton ls l ih =>
    obtain ⟨g, ok⟩ := ih fun x hx => hl x (by simp [hx])
    have e := s.formLinks_concat [] ls l
    generalize s.formLinks [] ls = u at *
    obtain ⟨r1, g1, p1, _⟩ := u.formDir_nil g l false
    obtain ⟨r2, g2, p2, k2⟩ := (u.formDir [] l false).formDir_nil g1 l true
    have whole := ((u.formDir [] l false).formDir [] l true).linkFailed_of_roles l (hl l (by simp)) fun dir b hb => by
      cases dir
      · have hb' : b < 128 := by
          have : linkBundles l + linkSpares l ≤ 100 := by unfold linkBundles linkSpares; split_ifs <;> omega
          omega
        exact (k2 _ fun b' hb' => by simp [bundleKey, b2n]; omega).trans (p1 b hb)
      · exact p2 b hb
    obtain ⟨a, d, o⟩ := ((u.formDir [] l false).formDir [] l true).linkSettle_good l whole
    rw [e]
    refine ⟨fun k => by rw [d]; exact g2 k, fun x hx => ?_⟩
    by_cases hx' : x = l
    · rw [hx']; exact a
    · rw [o x hx']
      have : ((u.formDir [] l false).formDir [] l true).rd D2D_LINK_STATUS.STATE x = u.rd D2D_LINK_STATUS.STATE x := by
        unfold State.rd; rw [r2, r1]
      rw [this]
      exact ok x (by simpa [hx'] using hx)

/-- Of such links none is on the list of the failed. -/
theorem State.formLinks_whole (s : State) (hs : s.lanesGood) (ls : List Nat) (hl : ∀ l ∈ ls, l < 15) :
    (s.formLinks [] ls).failedLinks ls = [] := by
  rw [State.failedLinks, List.filter_eq_nil_iff]
  intro l hm
  simpa using (s.formLinks_good hs ls hl).2 l hm

end Sys2Proof.Machine
end

