-- ==== Sys2Proof/WellFormed.lean ====
section
/-! DEFINITION. WellFormed.lean: which operands the spec gives a command. The types of the operands bound most of them; this
check holds the lengths of bytes and lists, the sizes of accesses and the widths of the fields that a number carries. The
meanings are total and answer on ill-formed operands too. -/

namespace Sys2Proof

/-- Clusters, dies, hubs or the one target that a reset of a domain has (R441). -/
def targetsOf (domain : Fin 5) : Nat := [512, 4, 2, 1, 1].getD domain 0

/-- The findings of training name parts that exist. -/
def ResetIn.wf (t : ResetIn) : Bool :=
  t.cells.all (fun f => f.failFirst.all fun c => decide (c < 656)) && t.bundles.all fun b => decide (b.failingLanes ≤ 128)

/-- A naturally aligned access of 1, 2, 4 or 8 bytes (R11, R265). -/
def regSize (addr size : Nat) : Bool := [1, 2, 4, 8].contains size && decide (addr % size = 0) && decide (addr < 2 ^ 64)

/-- A write carries the bytes of its size. -/
def carries (size : Nat) (data : Option (List Byte)) : Bool := data.all fun d => decide (d.length = size)

/-- The data of a coherence message: a line of 64 bytes. -/
def lineOf (data : List Byte) : Bool := decide (data.length = 64)

/-- The address of a line in a CXL.mem request (R301). -/
def lineAt (addr : Nat) : Bool := decide (addr % 64 = 0) && decide (addr < 2 ^ 64)

/-- Bytes of an element of an AddM (R176, R319). -/
def elemSize (efmt : Fin 4) : Nat := if efmt.val = 1 then 2 else if efmt.val = 3 then 8 else 4

/-- A line address. -/
def Line.wf (l : Line) : Bool := decide (l.addr < 2 ^ 58)

/-- A stream identifier (R283). -/
def Requester.wf (r : Requester) : Bool := decide (r.stream < 2048)

/-- A row access: a write stays within its row. -/
def BankReq.wf (r : BankReq) : Bool := r.data.all fun d => !d.isEmpty && decide (8 * r.word.val + d.length ≤ 64)

/-- A sequence number (R394). -/
def ObLink.wf (k : ObLink) : Bool := decide (k.seq < 4096)

/-- The fields of a run's header and of a GET (R395, R400). -/
def ObHdr.wf (h : ObHdr) : Bool :=
  [h.dest, h.src, h.job, h.repoch].all (fun n => decide (n < 65536)) && decide (h.tag < 2048) && decide (h.efmt < 4)
    && decide (h.addr < 2 ^ 40)
    && decide (h.lcnt < 256) && decide (h.lclu < 512) && decide (h.hops < 256)

/-- The fields of an ACK or a NACK (R399, R402). -/
def ObAck.wf (a : ObAck) : Bool :=
  [a.dest, a.src].all (fun n => decide (n < 65536)) && decide (a.tag < 2048) && decide (a.status < 256) && decide (a.bytes < 2 ^ 32)

/-- Cells of a logic test. -/
def LogicFinding.wf (f : LogicFinding) : Bool := (f.failFirst ++ f.failSecond).all fun c => decide (c < 656)

/-- Rows of a memory test: bank, row and word. -/
def MemFinding.wf (f : MemFinding) : Bool := f.rows.all fun r => decide (r.1 < 48) && decide (r.2.1 < 1024) && decide (r.2.2 < 8)

/-- Whether a command's operands are as the spec gives them. -/
def Instr.wf : Instr → Bool
  | .powerOn t => t.wf
  | .enableHigh t => t.wf
  | .resetComplete domain target t => decide (target.val < targetsOf domain) && t.wf
  | .pmbusWrite _ bytes => decide (bytes.length ≤ 32)
  | .activate _ wrong => wrong.all fun e => decide (e.1 < 0x04000000)
  | .stage _ payload => decide (payload.length ≤ 240)
  | .mctp _ packet => decide (packet.length ≤ 240)
  | .mctpMessage msg => !msg.isEmpty
  | .registerWrite _ addr size val => regSize addr size && decide (val < 2 ^ (8 * size))
  | .registerReadClear _ addr size => regSize addr size
  | .registerAccessBadSize _ addr size _ => decide (addr < 2 ^ 64) && decide (0 < size) && !(decide (size = 8) && decide (addr % 8 = 0))
  | .unmappedAccess _ addr _ => decide (addr < 2 ^ 64)
  | .windowAccess _ addr size bytes => decide (addr < 2 ^ 64) && decide (0 < size) && carries size bytes
  | .windowTlp addr enables bytes _ => decide (addr < 2 ^ 64) && !enables.isEmpty && carries enables.length bytes
  | .cocoonWindowAccess _ addr size bytes answer =>
    decide (addr < 2 ^ 64) && decide (0 < size) && carries size bytes && (bytes.isSome || carries size answer)
  | .windowAnswerTimeout _ addr _ => decide (addr < 2 ^ 64)
  | .cocoonPut _ addr bytes _ _ => decide (addr < 2 ^ 64) && decide (0 < bytes.length) && decide (bytes.length ≤ 256)
  | .cocoonGet _ addr len => decide (addr < 2 ^ 64) && decide (0 < len.val)
  | .bankAccess _ _ arrive _ => arrive.all BankReq.wf
  | .calPeek _ val => decide (val < 2 ^ 64)
  | .putm l _ bytes _ => l.wf && lineOf bytes
  | .wrfull l r bytes _ => l.wf && r.wf && lineOf bytes
  | .wrpart l r _ d => l.wf && r.wf && lineOf d.bytes
  | .rspd l _ _ bytes _ _ => l.wf && lineOf bytes
  | .gnts l _ bytes _ => l.wf && lineOf bytes
  | .gnte l _ bytes _ => l.wf && lineOf bytes
  | .gntm l _ bytes _ => l.wf && lineOf bytes
  | .cmpd l r bytes _ => l.wf && r.wf && lineOf bytes
  | .hostCacheResponse l _ bytes _ => l.wf && lineOf bytes
  | .memwr addr _ bytes _ => lineAt addr && lineOf bytes
  | .memwrptl addr _ bytes _ => lineAt addr && lineOf bytes
  | .addm l r off efmt elements =>
    l.wf && r.wf && decide (off.val + elements.length ≤ 64) && !elements.isEmpty && decide (elements.length % elemSize efmt = 0)
      && decide (off.val % elemSize efmt = 0)
  | .atomf l r _ off size _ _ => l.wf && r.wf && decide (off.val % 2 ^ size.val = 0)
  | .rds l r _ _ _ => l.wf && r.wf
  | .rdx l r _ _ => l.wf && r.wf
  | .upg l r _ => l.wf && r.wf
  | .rdcur l r => l.wf && r.wf
  | .puts l _ => l.wf
  | .pute l _ => l.wf
  | .snps l _ => l.wf
  | .snpx l _ => l.wf
  | .snpinv l _ => l.wf
  | .snpcur l _ => l.wf
  | .rsp l _ _ _ => l.wf
  | .memoryData l _ => l.wf
  | .gntma l _ => l.wf
  | .cmpput l _ => l.wf
  | .retry l _ _ => l.wf
  | .birsp l _ => l.wf
  | .birspTimeout l => l.wf
  | .biconflict l => l.wf
  | .memrd addr _ => lineAt addr
  | .memrddata addr _ => lineAt addr
  | .meminv addr _ => lineAt addr
  | .meminvnt addr _ => lineAt addr
  | .memspecrd addr => lineAt addr
  | .hostSnpdata addr => lineAt addr
  | .hostSnpinv addr => lineAt addr
  | .hostSnpcur addr => lineAt addr
  | .hbmScrubRead _ line _ => decide (line < 2 ^ 34)
  | .stackTemperatureRead temps => decide (temps.length = 12)
  | .tjRead tj => decide (tj.length = 92)
  | .atsInvalidation _ _ page => decide (page.first < 2 ^ 52) && decide (page.first % 2 ^ page.order.val = 0)
  | .bringup _ discovery => decide (discovery.length = 64)
  | .hdr k h => k.wf && h.wf
  | Instr.data k payload => k.wf && decide (0 < payload.length) && decide (payload.length ≤ 256)
  | .getFrame k h desc => k.wf && h.wf && decide (desc.length = 8)
  | .ack k a => k.wf && a.wf
  | .nack k a => k.wf && a.wf
  | .ctl _ _ b => decide (b.ackSeq < 4096) && decide (b.credits.length = 6) && b.credits.all fun n => decide (n < 65536)
  | .pmbusPoll r => decide (r.perDie.length = 7)
  | .ageingMeasurement rs => rs.all fun r => decide (r.monitors.length = 4)
  | .bistDone logic mem => (logic.isSome || mem.isSome) && logic.all LogicFinding.wf && mem.all MemFinding.wf
  | .undervoltage | .overvoltage | .enableLow | .currentLimit | .currentLimitRelease | .thermtrip .. | .cageInsert ..
  | .cageRemove .. | .chPresChange .. | .boot .. | .feederBlockIssue .. | .cubeExecute .. | .patchComplete ..
  | .drainHandshake .. | .drainWrite .. | .bankWake .. | .correctedRowWriteback .. | .scrubRead .. | .scrubPassEnd ..
  | .bankPowerRequest .. | .gateClose .. | .clusterPowerOff .. | .clusterWake .. | .cluFaultClear .. | .mac ..
  | .red .. | .fwd .. | .cellEnd .. | .endPass .. | .wait .. | .run .. | .runAdmit .. | .runComplete .. | .vec ..
  | .move .. | .sync .. | .waitdl .. | .jump .. | .passBegin .. | .deadlineExpiry .. | .beatStallWatchdog ..
  | .vecEnd .. | .ld .. | .st .. | .ldlp .. | .stt .. | .add .. | .mul .. | .fma .. | .min .. | .max .. | .cmp ..
  | .sel .. | .abs .. | .cvti .. | .cvto .. | .cvtmx .. | .rcp .. | .rsq .. | .exp2 .. | .log2 .. | .rsum ..
  | .rmax .. | .rmin .. | .scan .. | .topk .. | .seta .. | .adda .. | .setl .. | .loop .. | .load ..
  | .loadStandby .. | .unload .. | .standbyTakeover .. | .planReapply .. | .passStart .. | .passStartContinuous ..
  | .passStop .. | .molt .. | .moltSwap .. | .copy .. | .gather .. | .scatter .. | .scatterAdd .. | .get ..
  | .objectResolve .. | .landing .. | .moveComplete .. | .moverWatchdog .. | .lndAdd .. | .lndWatch .. | .lndClear ..
  | .counterWaitTimeout .. | .tierEnableFresh .. | .tierEnableRecover .. | .tierDisable .. | .tierReady
  | .ctxCreate .. | .ctxDestroy .. | .allocOpen .. | .seal .. | .adopt .. | .evict .. | .fetch .. | .unpin ..
  | .free .. | .releaseT2 .. | .verify .. | .query .. | .evictionCopyLands .. | .fetchCopyLands .. | .copyFails ..
  | .eraseComplete .. | .checksumComplete .. | .coreLoad .. | .coreStore .. | .storeBufferDrain ..
  | .uncachedStoreFail .. | .amo .. | .lr .. | .sc .. | .fence .. | .cboZero .. | .cboInval .. | .cboClean ..
  | .cboFlush .. | .wfi .. | .coreWake .. | .interrupt .. | .imsicWrite .. | .timerCompare .. | .coreWatchdog ..
  | .kick .. | .flush .. | .dirLookup .. | .coreWritebackTimeout | .recallTimeout .. | .refresh ..
  | .pseudoChannelPowerDown .. | .pseudoChannelFailed .. | .hbmPolicyWrite .. | .partitionRefill .. | .scPreload ..
  | .preloadDone .. | .scLock .. | .wayOffReq .. | .wayOnReq .. | .wayGateClose .. | .wayReenable .. | .fill ..
  | .crc .. | .geyserComplete | .geyDone .. | .readCheck .. | .writeCheck .. | .geyTestDone .. | .perstAssert
  | .perstDeassert | .hotReset | .hostDownTimeout | .linkRetrain .. | .configRequest .. | .functionLevelReset ..
  | .ringDbSq .. | .ringDbCq .. | .descriptorFetch .. | .nop .. | .inline .. | .moveClass .. | .exec .. | .tier ..
  | .land .. | .ringEnable .. | .ringDrain .. | .msixHoldoffExpiry .. | .hostEvtRearm .. | .d2dTransfer ..
  | .budget .. | .budgetAck .. | .siteRailRemoval | .accept .. | .request .. | .offerTimeout | .graceExpiry
  | .cocoonLinkDownTimeout | .replyEngineStart .. | .ident .. | .frameSend .. | .ctlPeriod .. | .replayTimeout ..
  | .recoveryTimeout .. | .trainingRetry .. | .quietEnd | .assign .. | .telemetry .. | .identify .. | .reset ..
  | .capInterval | .pwrCapWrite .. | .supplyStep .. | .holdDutyStep .. | .droop .. | .droopRecovery ..
  | .coolantRead .. | .sensorFail | .ageingHistoryWrite | .clusterReset .. | .matrixDieReset .. | .hubDieReset ..
  | .coreDieReset .. | .packageReset .. | .hawkmothWatchdog | .clusterResetTimeout .. | .controllerTimeout ..
  | .configScrub .. | .pop .. | .ueAck .. | .restore .. | .heldRelease .. | .logicTest .. | .memoryTest ..
  | .logicAndMemoryTest .. | .bistRotation .. | .bistOverdue .. | .installPlanKey .. | .revokePlanKey ..
  | .raisePlanCounter .. | .debugUnlock .. | .setOwnerKey .. | .attest .. | .commitFw .. | .wipe .. | .wipeDone
  | .loadComplete .. | .lossOfSignal .. | .debugHalt .. | .hostLinkUp .. | .cocoonLinkDown | .cocoonLinkRetrain => true

end Sys2Proof
end

