-- ==== Sys2Proof/Tests/Slice0.lean ====
section
/-! SUPPORT. Tests/Slice0.lean: the model's own tests: ill-formed operands that the check refuses, and for the statements'
hypotheses a small state and operands that meet them, mostly with one effect worked out by hand from the rule. -/

namespace Sys2Proof.Tests

set_option Elab.async false

open Sys2Proof.Machine

/-- The state after a command. -/
def ran (c : Instr) (s : State) : State :=
  match exec c s with
  | .next t => t
  | _ => s

/-- A module whose firmware runs. -/
def live : State := { State.reset with board := { State.reset.board with boot := .running, powered := true } }

/-- A cluster's configuration with a vector program, steps, operations and cells. -/
def cfg (vec steps ops cells : List Nat) (rows cols : Nat := 1) : CluCfg :=
  { slot := 2, stage := 0, rows := rows, cols := cols, banks := 0, lndExt := 2 ^ 7, ops := ops, feed := [], cells := cells,
    steps := steps, vec := vec, spareUsed := 0 }

/-- Cluster 5 in a state, all else as after reset. -/
def with5 (x : Clu) (st : Nat := cRunning) : State := (live.setClu 5 fun _ => x).wr CLU_STATUS.STATE st 5

/-- Bytes of zero. -/
def zeros (n : Nat) : List Byte := List.replicate n 0

/-! ## Well-formed operands -/

def aLine : Line := ⟨false, 2 ^ 58⟩
def okLine : Line := ⟨false, 2 ^ 58 - 1⟩
def req0 : Requester := ⟨none, 97⟩
def hdr0 : ObHdr := ⟨1, 2, 0, 5, false, false, 0, false, 0x100, false, 0, 0, 4, 0⟩
def link0 : ObLink := ⟨0, false, 4095, true⟩
def trained : ResetIn := ⟨[], [], []⟩

theorem test_wf_cells : (Instr.powerOn ⟨[⟨0, [656], []⟩], [], []⟩).wf = false ∧ (Instr.powerOn ⟨[⟨0, [655], []⟩], [], []⟩).wf = true := by decide
theorem test_wf_bundles : (Instr.enableHigh ⟨[], [], [⟨0, false, 3, 129, false⟩]⟩).wf = false ∧ (Instr.enableHigh trained).wf = true := by decide
theorem test_wf_reset_target : (Instr.resetComplete 1 4 trained).wf = false ∧ (Instr.resetComplete 1 3 trained).wf = true := by decide
theorem test_wf_pmbus : (Instr.pmbusWrite 0 (zeros 33)).wf = false := by decide
theorem test_wf_activate : (Instr.activate ⟨1, 0, 0, true⟩ [(0x04000000, 1)]).wf = false := by decide
theorem test_wf_chain_payload : (Instr.stage ⟨1, 0, 0, true⟩ (zeros 241)).wf = false ∧ (Instr.mctp ⟨1, 0, 0, true⟩ (zeros 241)).wf = false := by decide +kernel
theorem test_wf_mctp : (Instr.mctpMessage []).wf = false := by decide
theorem test_wf_register_size : (Instr.registerWrite .pf 0xF000000000 3 0).wf = false
    ∧ (Instr.registerWrite .pf 0xF000000000 4 (2 ^ 32)).wf = false ∧ (Instr.registerReadClear .pf 0xF000000004 8).wf = false
    ∧ (Instr.registerWrite .pf 0xF000000000 4 (2 ^ 32 - 1)).wf = true := by decide
theorem test_wf_bad_size : (Instr.registerAccessBadSize .pf 0xF000000000 8 true).wf = false
    ∧ (Instr.registerAccessBadSize .pf 0xF000000001 8 true).wf = true := by decide
theorem test_wf_address : (Instr.unmappedAccess .pf (2 ^ 64) true).wf = false ∧ (Instr.windowAnswerTimeout .pf (2 ^ 64) true).wf = false := by decide
theorem test_wf_window : (Instr.windowAccess .pf 0 8 (some (zeros 7))).wf = false ∧ (Instr.windowAccess .pf 0 0 none).wf = false
    ∧ (Instr.windowTlp 0 [] none false).wf = false ∧ (Instr.windowTlp 0 [true] (some (zeros 2)) false).wf = false := by decide
theorem test_wf_cocoon : (Instr.cocoonWindowAccess .pf 0 4 none (some (zeros 3))).wf = false
    ∧ (Instr.cocoonPut false 0 (zeros 257) none 0).wf = false ∧ (Instr.cocoonGet false 0 0).wf = false := by decide +kernel
theorem test_wf_bank : (Instr.bankAccess 0 0 [⟨.drain, 0, 7, some (zeros 9), 0⟩] []).wf = false
    ∧ (Instr.calPeek 0 (2 ^ 64)).wf = false := by decide
theorem test_wf_line_data : (Instr.putm okLine 0 (zeros 63) false).wf = false ∧ (Instr.wrfull okLine req0 (zeros 65) false).wf = false
    ∧ (Instr.wrpart okLine req0 1 ⟨zeros 63, false⟩).wf = false ∧ (Instr.rspd okLine 0 .s (zeros 63) true false).wf = false
    ∧ (Instr.gnts okLine 0 (zeros 63) false).wf = false ∧ (Instr.gnte okLine 0 (zeros 63) false).wf = false
    ∧ (Instr.gntm okLine 0 (zeros 63) false).wf = false ∧ (Instr.cmpd okLine req0 (zeros 63) false).wf = false
    ∧ (Instr.hostCacheResponse okLine .s (zeros 63) false).wf = false ∧ (Instr.memwr 64 .i (zeros 63) false).wf = false
    ∧ (Instr.memwrptl 64 1 (zeros 63) false).wf = false ∧ (Instr.putm okLine 0 (zeros 64) false).wf = true := by decide
theorem test_wf_line_address : (Instr.puts aLine 0).wf = false ∧ (Instr.pute aLine 0).wf = false ∧ (Instr.snps aLine 0).wf = false
    ∧ (Instr.snpx aLine 0).wf = false ∧ (Instr.snpinv aLine 0).wf = false ∧ (Instr.snpcur aLine 0).wf = false
    ∧ (Instr.rsp aLine 0 .i false).wf = false ∧ (Instr.memoryData aLine 0).wf = false ∧ (Instr.gntma aLine 0).wf = false
    ∧ (Instr.cmpput aLine 0).wf = false ∧ (Instr.retry aLine 0 0).wf = false ∧ (Instr.birsp aLine .i).wf = false
    ∧ (Instr.birspTimeout aLine).wf = false ∧ (Instr.biconflict aLine).wf = false ∧ (Instr.puts okLine 0).wf = true := by decide
theorem test_wf_stream : (Instr.rds okLine ⟨none, 2048⟩ none 0 0).wf = false ∧ (Instr.rdx okLine ⟨none, 2048⟩ none 0).wf = false
    ∧ (Instr.upg okLine ⟨none, 2048⟩ none).wf = false ∧ (Instr.rdcur okLine ⟨none, 2048⟩).wf = false := by decide
theorem test_wf_adders : (Instr.addm okLine req0 0 0 (zeros 6)).wf = false ∧ (Instr.addm okLine req0 60 3 (zeros 8)).wf = false
    ∧ (Instr.addm okLine req0 0 1 []).wf = false ∧ (Instr.addm okLine req0 60 0 (zeros 4)).wf = true
    ∧ (Instr.atomf okLine req0 .add 2 2 0 0).wf = false := by decide
theorem test_wf_host_lines : (Instr.memrd 32 .a).wf = false ∧ (Instr.memrddata 32 .a).wf = false ∧ (Instr.meminv 32 .a).wf = false
    ∧ (Instr.meminvnt 32 .a).wf = false ∧ (Instr.memspecrd 32).wf = false ∧ (Instr.hostSnpdata 32).wf = false
    ∧ (Instr.hostSnpinv 32).wf = false ∧ (Instr.hostSnpcur 32).wf = false ∧ (Instr.memrd 64 .a).wf = true := by decide
theorem test_wf_lists : (Instr.hbmScrubRead 0 (2 ^ 34) 0).wf = false ∧ (Instr.stackTemperatureRead [40]).wf = false
    ∧ (Instr.tjRead [40]).wf = false ∧ (Instr.atsInvalidation 0 0 ⟨2 ^ 52, 0⟩).wf = false ∧ (Instr.atsInvalidation 0 0 ⟨1, 1⟩).wf = false ∧ (Instr.bringup .pf (zeros 63)).wf = false
    ∧ (Instr.pmbusPoll ⟨1200, 0, 0, 0, 0, 0, 0, 0, [], 30⟩).wf = false ∧ (Instr.ageingMeasurement [⟨0, [1], 0, 0⟩]).wf = false := by decide
theorem test_wf_frames : (Instr.hdr ⟨0, false, 4096, true⟩ hdr0).wf = false ∧ (Instr.hdr link0 { hdr0 with tag := 2048 }).wf = false
    ∧ (Instr.hdr link0 hdr0).wf = true ∧ (Instr.data link0 []).wf = false ∧ (Instr.getFrame link0 hdr0 []).wf = false
    ∧ (Instr.ack link0 ⟨1, 2, 5, 256, 0⟩).wf = false ∧ (Instr.nack link0 ⟨1, 65536, 5, 0, 0⟩).wf = false
    ∧ (Instr.ctl 0 true ⟨0, false, [0]⟩).wf = false := by decide
theorem test_wf_bist : (Instr.bistDone none none).wf = false ∧ (Instr.bistDone (some ⟨[656], [], 0⟩) none).wf = false
    ∧ (Instr.bistDone none (some ⟨[(48, 0, 0)]⟩)).wf = false := by decide
theorem test_decode_none : decodeTableWord 64 0 = none := by decide

/-! ## The queue, the tick, reset -/

theorem test_step_front : ({ State.reset with pending := [.currentLimitRelease, .hotReset] } : State).pending = [.currentLimitRelease, .hotReset] := by decide
theorem test_idle_powered : live.pending = [] ∧ live.clus = [] ∧ live.host.compq = [] ∧ live.board.powered = true ∧ (match step live with | .next t => t.clock | _ => 9) = 1 := by decide
theorem test_idle_unpowered : State.reset.pending = [] ∧ State.reset.board.powered = false := by decide
theorem test_reset_stored : Memory.wf State.reset.hbm = true ∧ Memory.wf State.reset.flash = true := by decide
theorem test_reset_register : State.reset.rd CLU_STATUS.STATE 5 = cStopped ∧ State.reset.rd LND_TIMEOUT.US 5 = LND_TIMEOUT.US.reset 5 0 0 := by decide

/-! ## Vector unit (R130) -/

/-- Cluster 5 at a vector instruction, with lanes. -/
def vecState (w : Nat) (lanes : SMap Nat) (areg : SMap Nat := []) (lreg : SMap Nat := []) : State :=
  with5 { Clu.rest with owner := some 2, act := some (cfg [w] [] [] []), vact := true, vregs := lanes, areg := areg, lreg := lreg }

/-- A vector instruction word (R130). -/
def vw (op vd va vb vc : Nat) (fmt imm : Nat := 0) : Nat :=
  op + vd * 2 ^ 8 + va * 2 ^ 14 + vb * 2 ^ 20 + vc * 2 ^ 26 + fmt * 2 ^ 32 + imm * 2 ^ 40

/-- Lane 0 of V1, V2, V3 is 1.0, 2.0 and 3.0, lane 1 of V1 is -1.0. -/
def lanes0 : SMap Nat := [(64, 0x3F800000), (65, 0xBF800000), (128, 0x40000000), (192, 0x40400000)]

def lane5 (s : State) (r l : Nat) : Nat := (s.clu 5).lane r l

def atVec (w : Nat) : State := vecState w lanes0

theorem test_vec_ready (w : Nat) : ((atVec w).clu 5).vst = none := by rfl
theorem test_add : (atVec (vw 8 4 1 2 0)).vecAt 5 8 = some (vw 8 4 1 2 0)
    ∧ lane5 (ran (.add 5) (atVec (vw 8 4 1 2 0))) 4 0 = 0x40400000 := by decide +kernel
theorem test_mul : (atVec (vw 9 4 3 2 0)).vecAt 5 9 = some (vw 9 4 3 2 0)
    ∧ lane5 (ran (.mul 5) (atVec (vw 9 4 3 2 0))) 4 0 = 0x40C00000 := by decide +kernel
theorem test_fma : (atVec (vw 10 4 3 2 1)).vecAt 5 10 = some (vw 10 4 3 2 1)
    ∧ lane5 (ran (.fma 5) (atVec (vw 10 4 3 2 1))) 4 0 = 0x40E00000 := by decide +kernel
theorem test_min : (atVec (vw 11 1 1 2 0)).vecAt 5 11 = some (vw 11 1 1 2 0)
    ∧ lane5 (ran (.min 5) (atVec (vw 11 1 1 2 0))) 1 1 = 0xBF800000 := by decide +kernel
theorem test_max : (atVec (vw 12 1 1 2 0)).vecAt 5 12 = some (vw 12 1 1 2 0)
    ∧ lane5 (ran (.max 5) (atVec (vw 12 1 1 2 0))) 1 1 = 0 := by decide +kernel
theorem test_cmp : (atVec (vw 13 4 1 2 0)).vecAt 5 13 = some (vw 13 4 1 2 0) := by decide +kernel
theorem test_sel : (atVec (vw 14 4 1 2 3)).vecAt 5 14 = some (vw 14 4 1 2 3) := by decide +kernel
theorem test_abs : (atVec (vw 15 4 1 0 0)).vecAt 5 15 = some (vw 15 4 1 0 0)
    ∧ lane5 (ran (.abs 5) (atVec (vw 15 4 1 0 0))) 4 1 = 0x3F800000 := by decide +kernel
theorem test_rcp : (atVec (vw 0x18 4 1 0 0)).vecAt 5 0x18 = some (vw 0x18 4 1 0 0) := by decide +kernel
theorem test_rsq : (atVec (vw 0x19 4 1 0 0)).vecAt 5 0x19 = some (vw 0x19 4 1 0 0) := by decide +kernel
theorem test_exp2 : (atVec (vw 0x1A 4 1 0 0)).vecAt 5 0x1A = some (vw 0x1A 4 1 0 0) := by decide +kernel
theorem test_log2 : (atVec (vw 0x1B 4 1 0 0)).vecAt 5 0x1B = some (vw 0x1B 4 1 0 0) := by decide +kernel
theorem test_rsum : (atVec (vw 0x20 4 1 0 0)).vecAt 5 0x20 = some (vw 0x20 4 1 0 0)
    ∧ lane5 (ran (.rsum 5) (atVec (vw 0x20 4 2 0 0))) 4 0 = 0x40000000 := by decide +kernel
theorem test_rmax : (atVec (vw 0x21 4 1 0 0)).vecAt 5 0x21 = some (vw 0x21 4 1 0 0)
    ∧ lane5 (ran (.rmax 5) (atVec (vw 0x21 4 1 0 0))) 4 0 = 0x3F800000 := by decide +kernel
theorem test_rmin : (atVec (vw 0x22 4 1 0 0)).vecAt 5 0x22 = some (vw 0x22 4 1 0 0)
    ∧ lane5 (ran (.rmin 5) (atVec (vw 0x22 4 1 0 0))) 4 0 = 0xBF800000 := by decide +kernel
theorem test_scan : (atVec (vw 0x23 4 1 0 0)).vecAt 5 0x23 = some (vw 0x23 4 1 0 0)
    ∧ lane5 (ran (.scan 5) (atVec (vw 0x23 4 1 0 0))) 4 1 = 0 := by decide +kernel
theorem test_cvti : (atVec (vw 0x10 4 1 0 0 9)).vecAt 5 0x10 = some (vw 0x10 4 1 0 0 9) ∧ VecW.fmt (vw 0x10 4 1 0 0 9) = 9 := by decide +kernel
theorem test_cvto : (atVec (vw 0x11 4 1 0 0 9)).vecAt 5 0x11 = some (vw 0x11 4 1 0 0 9)
    ∧ lane5 (ran (.cvto 5) (atVec (vw 0x11 4 1 0 0 9))) 4 0 = 0x3F800000 := by decide +kernel
theorem test_cvt_open : (atVec (vw 0x10 4 1 0 0 12)).vecAt 5 0x10 = some (vw 0x10 4 1 0 0 12) ∧ VecW.fmt (vw 0x10 4 1 0 0 12) = 12
    ∧ (atVec (vw 0x10 4 1 0 0 12)).vecAt 5 0x11 = none := by decide +kernel
theorem test_cvtmx : (atVec (vw 0x12 4 1 5 0 0)).vecAt 5 0x12 = some (vw 0x12 4 1 5 0 0) := by decide +kernel
theorem test_seta : (atVec (vw 0x30 3 0 0 0 0 (2 ^ 22 - 1))).vecAt 5 0x30 = some (vw 0x30 3 0 0 0 0 (2 ^ 22 - 1))
    ∧ getK 0 ((ran (.seta 5) (atVec (vw 0x30 3 0 0 0 0 (2 ^ 22 - 1)))).clu 5).areg 3 = 2 ^ 22 - 1 := by decide +kernel
theorem test_adda : (vecState (vw 0x31 3 0 0 0 0 2) [] [(3, 2 ^ 22 - 1)]).vecAt 5 0x31 = some (vw 0x31 3 0 0 0 0 2)
    ∧ getK 0 ((ran (.adda 5) (vecState (vw 0x31 3 0 0 0 0 2) [] [(3, 2 ^ 22 - 1)])).clu 5).areg 3 = 1 := by decide +kernel
theorem test_setl : (atVec (vw 0x32 7 0 0 0 0 9)).vecAt 5 0x32 = some (vw 0x32 7 0 0 0 0 9)
    ∧ getK 0 ((ran (.setl 5) (atVec (vw 0x32 7 0 0 0 0 9))).clu 5).lreg 7 = 9 := by decide +kernel
theorem test_loop_jumps : (vecState (vw 0x33 7 0 0 0 0 6) [] [] [(7, 1)]).vecAt 5 0x33 = some (vw 0x33 7 0 0 0 0 6)
    ∧ ((ran (.loop 5) (vecState (vw 0x33 7 0 0 0 0 6) [] [] [(7, 1)])).clu 5).vpc = 6 := by decide +kernel
theorem test_loop_ends : (atVec (vw 0x33 7 0 0 0 0 6)).vecAt 5 0x33 = some (vw 0x33 7 0 0 0 0 6)
    ∧ ((ran (.loop 5) (atVec (vw 0x33 7 0 0 0 0 6))).clu 5).vpc = 1 := by decide +kernel
theorem test_vec_end : (atVec 0).vecAt 5 0 = some 0 ∧ ((ran (.vecEnd 5) (atVec 0)).clu 5).vact = false := by decide +kernel

/-- Cluster 5 at a vector instruction with A[2] at an address, and the word 7 in the scratchpad at 0x180000. -/
def vecMem (w a : Nat) : State :=
  let s := vecState w lanes0 [(2, a)]
  { s with spad := [(spadKey 5 0x180000, 7)] }

theorem test_ld : (vecMem (vw 1 4 2 0 0) 0x180000).vecAt 5 1 = some (vw 1 4 2 0 0)
    ∧ vecAddr ((vecMem (vw 1 4 2 0 0) 0x180000).clu 5) (vw 1 4 2 0 0) + 256 ≤ spadEnd
    ∧ lane5 (ran (.ld 5) (vecMem (vw 1 4 2 0 0) 0x180000)) 4 0 = 7 := by decide +kernel
theorem test_ld_beyond : (vecMem (vw 1 4 2 0 0) (spadEnd - 255)).vecAt 5 1 = some (vw 1 4 2 0 0)
    ∧ (ran (.ld 5) (vecMem (vw 1 4 2 0 0) (spadEnd - 255))).cluSt 5 = cFaulted := by decide +kernel
theorem test_st : (vecMem (vw 2 1 2 0 0) 0x180000).vecAt 5 2 = some (vw 2 1 2 0 0)
    ∧ memRead (ran (.st 5) (vecMem (vw 2 1 2 0 0) 0x180000)).spad (spadKey 5 0x180000) 4 = [0, 0, 0x80, 0x3F] := by decide +kernel
theorem test_st_weights : (vecMem (vw 2 1 2 0 0) 0x17FFFF).vecAt 5 2 = some (vw 2 1 2 0 0)
    ∧ (ran (.st 5) (vecMem (vw 2 1 2 0 0) 0x17FFFF)).cluSt 5 = cFaulted := by decide +kernel
theorem test_ldlp : (vecMem (vw 3 4 2 0 0) (spadEnd - 2048)).vecAt 5 3 = some (vw 3 4 2 0 0)
    ∧ (((vecMem (vw 3 4 2 0 0) (spadEnd - 2048)).progress 5).spadRead 5 (spadEnd - 2048) 2048 |>.bad) = none := by decide +kernel
theorem test_stt : (atVec (vw 4 1 0 5 0 0 256)).vecAt 5 4 = some (vw 4 1 0 5 0 0 256)
    ∧ ((atVec (vw 4 1 0 5 0 0 256)).clu 5).holder 0 = none
    ∧ ((ran (.stt 5) (atVec (vw 4 1 0 5 0 0 256))).clu 5).holder 0 = some .vector := by decide +kernel
theorem test_ldlp_beyond : (vecMem (vw 3 4 2 0 0) (spadEnd - 2047)).vecAt 5 3 = some (vw 3 4 2 0 0)
    ∧ (ran (.ldlp 5) (vecMem (vw 3 4 2 0 0) (spadEnd - 2047))).cluSt 5 = cFaulted := by decide +kernel

/-- The same with two flipped bits in the word at 0x180000: it is uncorrectable (R491). -/
def vecBadMem (w : Nat) : State := { vecMem w 0x180000 with spadErr := [(wordKey 5 0x180000, 3)] }

theorem test_ld_ecc : (vecBadMem (vw 1 4 2 0 0)).vecAt 5 1 = some (vw 1 4 2 0 0)
    ∧ (((vecBadMem (vw 1 4 2 0 0)).progress 5).spadRead 5 0x180000 256).bad = some 0x180000
    ∧ (ran (.ld 5) (vecBadMem (vw 1 4 2 0 0))).rd CLU_FAULT.STATUS 5 = stEcc := by decide +kernel
theorem test_ldlp_ecc :
    (((vecBadMem (vw 3 4 2 0 0)).progress 5).spadRead 5 0x180000 2048).bad = some 0x180000 := by decide +kernel
theorem test_st_ecc : (((vecBadMem (vw 2 4 2 0 0 0 4)).progress 5).spadWrite 5 0x180004 (leBytes 256 0)).bad = some 0x180000
    ∧ vecAddr ((vecBadMem (vw 2 4 2 0 0 0 4)).clu 5) (vw 2 4 2 0 0 0 4) = 0x180004
    ∧ (ran (.st 5) (vecBadMem (vw 2 4 2 0 0 0 4))).rd CLU_FAULT.STATUS 5 = stEcc := by decide +kernel

/-- An STT at byte 257 of tile 0, whose next tile a cell holds. -/
def sttHeld : State := (atVec (vw 4 1 0 5 0 0 257)).setClu 5 fun x => { x with claims := [(1, .cell 2 3 false)] }

theorem test_stt_refused : sttHeld.vecAt 5 4 = some (vw 4 1 0 5 0 0 257) ∧ (sttHeld.clu 5).holder 0 = none
    ∧ (sttHeld.clu 5).holder 1 = some (.cell 2 3 false)
    ∧ (ran (.stt 5) sttHeld).rd CLU_FAULT.STATUS 5 = stTileClaim := by decide +kernel
theorem test_stt_beyond : (vecState (vw 4 1 0 5 0 0 257) [(320, 1023)]).vecAt 5 4 = some (vw 4 1 0 5 0 0 257)
    ∧ ((vecState (vw 4 1 0 5 0 0 257) [(320, 1023)]).clu 5).lane 5 0 = 1023
    ∧ (ran (.stt 5) (vecState (vw 4 1 0 5 0 0 257) [(320, 1023)])).rd CLU_FAULT.STATUS 5 = stBadDescriptor := by decide +kernel

/-- An ADD after an STT of eight bytes at tile 1. -/
def afterStt : State := (atVec (vw 8 4 1 2 0)).setClu 5 fun x =>
  { x with claims := [(1, .vector)], vst := some ⟨1, 0, List.replicate 8 9⟩ }

theorem test_stt_written : afterStt.vecAt 5 8 = some (vw 8 4 1 2 0)
    ∧ (afterStt.spadWrite 5 (pmBase + 512) (List.replicate 8 9)).bad = none
    ∧ memRead (ran (.add 5) afterStt).spad (spadKey 5 (pmBase + 512)) 8 = List.replicate 8 9
    ∧ ((ran (.add 5) afterStt).clu 5).claims = [] := by decide +kernel
/-- A NaN lane counts in CAL_NAN_OUT when it is converted (R100). -/
theorem test_cvto_nan : (ran (.cvto 5) (vecState (vw 0x11 4 1 0 0 9) [(64, 0x7F800001)])).rd CAL_NAN_OUT.COUNT 5 = 1
    ∧ lane5 (ran (.cvto 5) (vecState (vw 0x11 4 1 0 0 9) [(64, 0x7F800001)])) 4 0 = 0x7FC00000 := by decide +kernel
/-- An infinity of FP16 is one of FP32 in overflow mode SAT (R101). -/
theorem test_cvti_inf : lane5 (ran (.cvti 5) (vecState (vw 0x10 4 1 0 0 7) [(64, 0xFC00)])) 4 0 = 0xFF800000 := by decide +kernel
theorem test_topk : (atVec (vw 0x24 4 1 0 5 0 7)).vecAt 5 0x24 = some (vw 0x24 4 1 0 5 0 7)
    ∧ lane5 (ran (.topk 5) (atVec (vw 0x24 4 1 0 5 0 0))) 4 0 = 0x3F800000 := by decide +kernel

/-! ## Cells, feeders and drains (R43 to R55, R121 to R126) -/

/-- An operation word (R122): opcode, formats FP32 (9) in and out, K, patches. -/
def ow (opc k patches : Nat) (pre : Nat := 0) : Nat :=
  opc + 9 * 2 ^ 4 + 9 * 2 ^ 8 + 9 * 2 ^ 12 + pre * 2 ^ 20 + k * 2 ^ 64 + patches * 2 ^ 89 + 0x180000 * 2 ^ 128

/-- Cell (0, 0) of cluster 5 in an admitted RUN of one operation, the active rectangle one cell. -/
def cellState (w : Nat) (x : Cell) (word : Nat := 0) : State :=
  (with5 { Clu.rest with owner := some 2, act := some (cfg [] [] [w] [word]), inPass := true, run := some ⟨0, 0, true, 0, [], 0, 0⟩ }).setCell
    5 0 0 fun _ => x

def atOp : Cell := { Cell.rest with phase := .atOp }
def busyCell : Cell := { atOp with set0 := { CalSet.zero with busy := true } }
def cell00 (s : State) : Cell := s.cell 5 0 0

theorem test_cell_end : (cellState 0 atOp).opAt 5 0 0 = some (cfg [] [] [0] [0], 0)
    ∧ (cell00 (ran (.cellEnd 5 0 0) (cellState 0 atOp))).phase = .ended := by decide +kernel
theorem test_fwd_empty : (cellState (ow 3 0 0) atOp).opAt 5 0 0 = some (cfg [] [] [ow 3 0 0] [0], ow 3 0 0)
    ∧ opAllBlocks (ow 3 0 0) = 0 ∧ (cell00 (ran (.fwd 5 0 0) (cellState (ow 3 0 0) atOp))).op = 1 := by decide +kernel
theorem test_fwd : opAllBlocks (ow 3 16 1) ≠ 0 ∧ (cellState (ow 3 16 1) atOp).opAt 5 0 0 ≠ none
    ∧ (cell00 (ran (.fwd 5 0 0) (cellState (ow 3 16 1) atOp))).phase = .inOp := by decide +kernel
theorem test_mac_empty : (cellState (ow 1 16 0) atOp).opAt 5 0 0 ≠ none
    ∧ (cell00 (ran (.mac 5 0 0) (cellState (ow 1 16 0) atOp))).op = 1 := by decide +kernel
theorem test_red_empty : (cellState (ow 2 16 0) atOp).opAt 5 0 0 ≠ none
    ∧ (cell00 (ran (.red 5 0 0) (cellState (ow 2 16 0) atOp))).op = 1 := by decide +kernel
theorem test_mac_waits : (cellState (ow 1 16 1) busyCell).opAt 5 0 0 ≠ none ∧ busyCell.curSet.busy = true
    ∧ (cell00 (ran (.mac 5 0 0) (cellState (ow 1 16 1) busyCell))).opened = false := by decide +kernel
theorem test_red_waits : (cellState (ow 2 16 1) busyCell).opAt 5 0 0 ≠ none
    ∧ (cell00 (ran (.red 5 0 0) (cellState (ow 2 16 1) busyCell))).opened = false := by decide +kernel
theorem test_mac_opens : atOp.curSet.busy = false ∧ OpW.pre (ow 1 16 1) = 0
    ∧ (cell00 (ran (.mac 5 0 0) (cellState (ow 1 16 1) atOp))).opened = true := by decide +kernel
theorem test_red_opens : (cell00 (ran (.red 5 0 0) (cellState (ow 2 1 1) atOp))).opened = true := by decide +kernel

/-- A block of 1.0 in FP32. -/
def oneBlk : Block := ⟨(List.replicate 16 [0, 0, 0x80, 0x3F]).flatten, none⟩
def openCell : Cell := { Cell.rest with phase := .inOp, opened := true, aq := [oneBlk], bq := [oneBlk] }
def runOk (s : State) : Bool := (s.runCfg 5).isSome && s.roomEast 5 0 0 (cfg [] [] [] []) && s.roomSouth 5 0 0 (cfg [] [] [] [])

theorem test_cube_mac : runOk (cellState (ow 1 16 1) openCell) = true ∧ 0 < opBlocks (ow 1 16 1)
    ∧ (cell00 (ran (.cubeExecute 5 0 ⟨0, false⟩) (cellState (ow 1 16 1) openCell))).k = 1
    ∧ (cell00 (ran (.cubeExecute 5 0 ⟨0, false⟩) (cellState (ow 1 16 1) openCell))).aq = [] := by decide +kernel
theorem test_cube_red : runOk (cellState (ow 2 1 1) openCell) = true ∧ 0 < opBlocks (ow 2 1 1)
    ∧ (cell00 (ran (.cubeExecute 5 0 ⟨0, false⟩) (cellState (ow 2 1 1) openCell))).bq = [oneBlk] := by decide +kernel
theorem test_cube_fwd : runOk (cellState (ow 3 16 1) openCell) = true
    ∧ (cell00 (ran (.cubeExecute 5 0 ⟨0, false⟩) (cellState (ow 3 16 1) openCell))).bq = [] := by decide +kernel
theorem test_cube_forward_cell : CellW.forward ((cfg [] [] [] [1]).cells.getD 0 1) = true
    ∧ (cell00 (ran (.cubeExecute 5 0 ⟨0, false⟩) (cellState (ow 1 16 1) openCell 1))).k = 0 := by decide +kernel
theorem test_cube_parity : (ran (.cubeExecute 5 0 ⟨0, true⟩) (cellState (ow 1 16 1) openCell)).cluSt 5 = cFaulted
    ∧ (cellState (ow 1 16 1) openCell).rd CLU_FAULT.STATUS 5 = 0
    ∧ (ran (.cubeExecute 5 0 ⟨0, true⟩) (cellState (ow 1 16 1) openCell)).rd CLU_FAULT.STATUS 5 = stEcc := by decide +kernel

def fullCell : Cell := { openCell with k := opBlocks (ow 1 16 1) }
theorem test_patch_complete : runOk (cellState (ow 1 16 1) fullCell) = true ∧ fullCell.k = opBlocks (ow 1 16 1)
    ∧ (cell00 (ran (.patchComplete 5 0 0) (cellState (ow 1 16 1) fullCell))).cur = true
    ∧ (cell00 (ran (.patchComplete 5 0 0) (cellState (ow 1 16 1) fullCell))).phase = .atOp := by decide +kernel

/-- A feeder word (R126): enabled, one block at 0x180000. -/
def fw : Nat := 0x180000 + 64 * 2 ^ 22 + 2 ^ 44 + 2 ^ 64 + 2 ^ 128
def feedState : State :=
  with5 { Clu.rest with owner := some 2, act := some { cfg [] [] [ow 1 16 1] [0] with feed := [(List.replicate 52 fw)] },
                        inPass := true, run := some ⟨0, 0, true, 0, [], 0, 0⟩ }

theorem test_feed_a : (feedState.runCfg 5).isSome = true ∧ FeedW.en fw = true ∧ 0 < FeedW.c0 fw * FeedW.c1 fw
    ∧ firstActive [0] (feederCells (cfg [] [] [] [0]) .a 0) = some 0
    ∧ blockOp (seqOps [ow 1 16 1] 64 0) 0 = some (ow 1 16 1)
    ∧ (cell00 (ran (.feederBlockIssue 5 .a 0) feedState)).aq.length = 1 := by decide +kernel
theorem test_feed_duty : (let u := feedState.setClu 5 fun x => { x with fed := [(0, [0])] }
      u.dutyLets 5 0 = true ∧ ({ u.wr PWR_HOLD.D 1 0 0 0 with beats := ⟨[(0, 100)], []⟩ } : State).dutyLets 5 0 = false
      ∧ (ran (.feederBlockIssue 5 .a 0) feedState).fedBeats 5 0 = [0]) := by decide +kernel
theorem test_feed_b : (cell00 (ran (.feederBlockIssue 5 .b 0) feedState)).bq.length = 1 := by decide +kernel
theorem test_feed_row_19 : (Side.a = .a → (19 : Nat) < 20) := by decide

def shake : Handshake := ⟨0, 0, false, [(0x180000, 7, 255)], [3], true⟩
def drainCell : Cell := { Cell.rest with own := [shake], set0 := { CalSet.zero with out := 1, busy := true } }
/-- The column's port of cluster 5 holds a handshake of cell (0, 0). -/
def portState : State :=
  let s := cellState (ow 1 16 1) drainCell
  s.setClu 5 fun x => { x with portq := [(0, [shake])] }

theorem test_drain_down : drainCell.drainNext = some (shake, { drainCell with own := [], northTurn := true })
    ∨ (drainCell.drainNext).isSome = true := by decide +kernel
theorem test_drain_last_row : (cellState (ow 1 16 1) drainCell).rowsOf 5 = 1
    ∧ getK [] ((ran (.drainHandshake 5 0 0) (cellState (ow 1 16 1) drainCell)).clu 5).portq 0 = [shake] := by decide +kernel
theorem test_drain_passes : (0 : Nat) + 1 < (live.setCell 6 0 0 fun _ => drainCell).rowsOf 6
    ∧ ((ran (.drainHandshake 6 0 0) (live.setCell 6 0 0 fun _ => drainCell)).cell 6 1 0).north = [shake] := by decide +kernel
theorem test_drain_write : (portState.clu 5).tryClaim (.cell 0 0 false) [3] = .free
    ∧ (cell00 (ran (.drainWrite 5 0) portState)).set0.busy = false
    ∧ memGet (ran (.drainWrite 5 0) portState).spad (spadKey 5 0x180000) = 7 := by decide +kernel

/-! ## Banks (R56 to R73) -/

def readReq : BankReq := ⟨.drain, 3, 0, none, 0⟩
def writeReq : BankReq := ⟨.mover 1, 3, 7, some [1, 2, 3, 4, 5, 6, 7, 8], 0⟩

theorem test_bank_read : (live.clu 5).pickReq 47 (getK [] (live.clu 5).bankq 47 ++ [readReq]) = some (readReq, [])
    ∧ ((ran (.bankAccess 5 47 [readReq] []) live).clu 5).rowOut = some (.drain, 3, zeros 64, false) := by decide +kernel
theorem test_bank_write : (live.clu 5).pickReq 47 [writeReq] = some (writeReq, []) ∧ writeReq.user ≠ .window
    ∧ memRead (ran (.bankAccess 5 47 [writeReq] []) live).spad (spadKey 5 (47 * 65536 + 3 * 64 + 56)) 2 = [1, 2] := by decide +kernel
theorem test_bank_first : (live.clu 5).pickReq 47 [readReq, writeReq] ≠ none := by decide +kernel

def fixState : State := live.setClu 5 fun x => { x with fixq := [(47, 1023)] }
theorem test_writeback : (fixState.clu 5).fixq.contains (47, 1023) = true ∧ fixState.cluSt 5 ≠ cOff ∧ fixState.gated 5 47 = false
    ∧ ((ran (.correctedRowWriteback 5 47 1023) fixState).clu 5).fixq = [] := by decide +kernel
theorem test_scrub_read : (live.wr CLU_SCRUB.EN 1 5).on CLU_SCRUB.EN 5 = true ∧ (live.word 5 0).bad = false
    ∧ (live.word 5 0).corrected = none
    ∧ getK false ((ran (.scrubRead 5 0 9 []) (live.wr CLU_SCRUB.EN 1 5)).clu 5).scrubbed 9 = true := by decide +kernel
def scrubbedOut : State := (live.wr CLU_SCRUB.EN 1 5).setClu 5 fun x => { x with offInPass := 2 ^ 48 - 1 }
theorem test_scrub_end : scrubbedOut.scrubComplete 5 = true
    ∧ (ran (.scrubPassEnd 5) scrubbedOut).rd CLU_SCRUB.PASS_DONE 5 = 1 := by decide +kernel

theorem test_power_request : live.cluSt 5 = cStopped ∧ live.gated 5 47 = false
    ∧ (ran (.bankPowerRequest 5 47 2) live).bankPwr 5 47 = 2 ∧ (ran (.bankPowerRequest 5 47 2) live).gatePending 5 47 = true
    ∧ (ran (.bankPowerRequest 5 47 0) (ran (.bankPowerRequest 5 47 2) live)).gatePending 5 47 = false := by decide +kernel
def gating : State := ran (.bankPowerRequest 5 47 2) live
theorem test_gate_close : gating.gatePending 5 47 = true ∧ gating.goingOff 5 = false
    ∧ (ran (.gateClose 5 47) gating).on CLU_INT_STATUS.GATE_DONE 5 = true := by decide +kernel
def gatedOff : State := ran (.gateClose 5 47) gating
theorem test_bank_wake : gatedOff.gated 5 47 = true ∧ gatedOff.goingOff 5 = false
    ∧ (ran (.bankWake 5 47) gatedOff).rd CLU_WAKE_COUNT.BANK_WAKES 5 = 1 := by decide +kernel
theorem test_power_off : live.on CLU_POWER.OFF_REQ 5 = false ∧ (ran (.clusterPowerOff 5) live).bankPwr 5 0 = 2 := by decide +kernel
theorem test_cluster_wake : (live.wr CLU_STATUS.STATE cOff 5).cluSt 5 = cOff
    ∧ (ran (.clusterWake 5) (live.wr CLU_STATUS.STATE cOff 5)).cluSt 5 = cStopped := by decide +kernel
theorem test_fault_clear : (ran (.cluFaultClear 5) (live.wr CLU_FAULT.BANK 47 5)).rd CLU_FAULT.BANK 5 = 0 := by decide +kernel
theorem test_peek : (ran (.calPeek 5 19) live).rd CAL_PEEK_SEL.STATUS 5 = stOK
    ∧ (ran (.calPeek 5 20) live).rd CAL_PEEK_DATA2.DATA 5 = 2 ^ 64 - 1 := by decide +kernel

/-! ## Steps and passes (R128 to R166) -/

/-- A migration record (R133) of cluster 5 counted on counter 7 with deadline 0 and fumarole 0, and a plan with it in slot 2. -/
def mig0 : Nat := 7 * 2 ^ 214 + 5 * 2 ^ 222 + 0x7FF * 2 ^ 174 + 64 * 2 ^ 150
def plan2 (kind : Nat) : PlanCfg :=
  { templates := [[0x400 + 2 * 16 + 0, 0x40, 0x180000, 64, 0, 0, 0, 0]], deadlines := [1000], fum := [kind + 3 * 4], mig := [mig0],
    preloads := [], objs := [], clus := [], window := none }

/-- Cluster 5 at a step of a pass of slot 2. -/
def stepState (w : Nat) (f : Clu → Clu := id) (kind : Nat := 0) : State :=
  let s := with5 (f { Clu.rest with owner := some 2, act := some (cfg [] [w] [ow 1 16 1] [0]), inPass := true, migSeen := [0] })
  (s.setSlot 2 fun x => { x with cfg := some (plan2 kind) }).wr PLN_SLOT_STATUS.STATE pLOADED 2

def w1 (cnt target per : Nat) : Nat := 1 + cnt * 16 + target * 2 ^ 12 + per * 2 ^ 64
/-- The deadline timer of cluster 5's die. -/
def later (s : State) (us : Nat) : State := s.wr DLN_TIMER.NS (us * 1000) (dieOf 5)

theorem test_wait_free : (stepState (w1 7 0 0)).stepAt 5 1 = some (w1 7 0 0)
    ∧ ((ran (.wait 5) (stepState (w1 7 0 0))).clu 5).pc = 1 := by decide +kernel
theorem test_wait_met : reached 5 5 = true ∧ reached 4 5 = false ∧ reached (2 ^ 47 + 5) 5 = false ∧ reached (2 ^ 47 + 4) 5 = true := by decide +kernel
theorem test_wait_holds : (stepState (w1 7 5 0)).stepAt 5 1 = some (w1 7 5 0)
    ∧ reached ((stepState (w1 7 5 0)).cnt 5 7) 5 = false
    ∧ (ran (.wait 5) (stepState (w1 7 5 0))).rd LND_WAITING.TARGET 5 = 5 := by decide +kernel
theorem test_dlwait : ((stepState 6).stepAt 5 6, ((stepState 6).dlEntry 5 6).isSome) = (some 6, true) := by decide +kernel
theorem test_step_vec : (stepState (3 + 9 * 16)).stepAt 5 3 = some (3 + 9 * 16)
    ∧ ((ran (.vec 5) (stepState (3 + 9 * 16))).clu 5).vpc = 9 := by decide +kernel
theorem test_step_run : (stepState 2).stepAt 5 2 = some 2 ∧ ((ran (.run 5) (stepState 2)).clu 5).run.isSome = true := by decide +kernel
theorem test_step_sync : (stepState (5 + 15 * 16)).stepAt 5 5 = some (5 + 15 * 16) ∧ (stepState (5 + 15 * 16)).syncMet 5 15 = true
    ∧ ((ran (.sync 5) (stepState (5 + 15 * 16))).clu 5).pc = 1 := by decide +kernel
theorem test_step_jump : (stepState (7 + 1023 * 16)).stepAt 5 7 = some (7 + 1023 * 16)
    ∧ ((ran (.jump 5) (stepState (7 + 1023 * 16))).clu 5).pc = 1023 := by decide +kernel
theorem test_step_move : (stepState 4).stepAt 5 4 = some 4 ∧ ((stepState 4).stepMove 5 0).isSome = true
    ∧ ((stepState 4).mover 5 0).cur = none ∧ ((ran (.move 5) (stepState 4)).mover 5 0).cur.isSome = true := by decide +kernel
def asked : State := stepState 2 fun x => { x with run := some ⟨0, 0, false, 3, [], 0, 0⟩ }
theorem test_run_admit : firstAsked (asked.waitingRuns 0) = some (5, 3) ∧ (asked.recentAdmits 0).length < asked.rd DLN_ADMIT.GROUP 0
    ∧ ((ran (.runAdmit 0) asked).clu 5).pc = 1 ∧ (cell00 (ran (.runAdmit 0) asked)).phase = .atOp := by decide +kernel
def finished : State := cellState 0 { Cell.rest with phase := .ended }
theorem test_run_complete : (finished.runCfg 5).isSome = true ∧ finished.runOver 5 (cfg [] [] [0] [0]) = true
    ∧ ((ran (.runComplete 5) finished).clu 5).run = none := by decide +kernel
def mayStart : State := ((stepState 0 fun x => { x with inPass := false }).wr CLU_STATUS.STATE cStopped 5).wr DLN_GRANT.G 1 2
theorem test_pass_begin : mayStart.cluSt 5 = cStopped ∧ mayStart.mayPass 5 = true
    ∧ ((ran (.passBegin 5) mayStart).clu 5).inPass = true := by decide +kernel
theorem test_end_pass : (stepState 0).stepAt 5 0 = some 0 ∧ ((ran (.endPass 5) (stepState 0)).clu 5).done = 1 := by decide +kernel

/-- Cluster 5 has waited since the timer stood at 0, and an hour has gone by. -/
def patient (w : Nat) (kind : Nat := 0) (late : Bool := false) : State :=
  later (stepState w (fun x => { x with waitFrom := some 0, late := late }) kind) 61000000
theorem test_wait_timeout : (patient (w1 7 5 0)).stepAt 5 1 = some (w1 7 5 0) ∧ (patient (w1 7 5 0)).lndExt 5 7 = true
    ∧ max 0 (getK 0 ((patient (w1 7 5 0)).clu 5).cntAdv 7) + (patient (w1 7 5 0)).rdMax LND_TIMEOUT.US 60000000 5 * 1000
      ≤ (patient (w1 7 5 0)).timer 5
    ∧ (ran (.counterWaitTimeout 5) (patient (w1 7 5 0))).rd CLU_STATUS.LAST_STATUS 5 = stPeerTimeout := by decide +kernel
def dl (s : State) : Bool := match s.dlEntry 5 6 with | some d => reached (s.cnt 5 (migCnt d.mig)) d.target | none => false
theorem test_waitdl_holds : dl (stepState 6) = false ∧ (stepState 6).stepAt 5 6 = some 6
    ∧ (ran (.waitdl 5) (stepState 6)).rd LND_WAITING.CNT 5 = 7 := by decide +kernel
def arrived : State := ran (.lndAdd .pf 5 7 64) (stepState 6)
theorem test_waitdl_met : dl arrived = true ∧ arrived.stepAt 5 6 = some 6 ∧ ((ran (.waitdl 5) arrived).clu 5).pc = 1 := by decide +kernel
theorem test_deadline_alt : dl (patient 6 1) = false ∧ ((patient 6 1).dlEntry 5 6).map (fun d => (d.ns, FumW.kind d.fum)) = some (1000, 1)
    ∧ ((ran (.deadlineExpiry 5) (patient 6 1)).clu 5).pc = 3 ∧ (ran (.deadlineExpiry 5) (patient 6 1)).rd DLN_FALLBACK.COUNT 2 = 1 := by decide +kernel
theorem test_deadline_wait : ((patient 6 3).dlEntry 5 6).map (fun d => FumW.kind d.fum) = some 3 ∧ ((patient 6 3).clu 5).late = false
    ∧ ((ran (.deadlineExpiry 5) (patient 6 3)).clu 5).late = true := by decide +kernel
def stalled : State := later ((stepState (5 + 15 * 16)).wr DLN_WDOG.EN 1 (dieOf 5)) 61000000
theorem test_stall : stalled.curStep 5 = some (5 + 15 * 16) ∧ stalled.running 5 = true ∧ stalled.on DLN_WDOG.EN (dieOf 5) = true
    ∧ (stalled.clu 5).lastProgress + stalled.rdMax DLN_WDOG.PERIOD_US 60000000 (dieOf 5) * 1000 ≤ stalled.timer 5
    ∧ (ran (.beatStallWatchdog 5) stalled).rd CLU_STATUS.LAST_STATUS 5 = stCounterTimeout := by decide +kernel
theorem test_end_pass_next : (((stepState 0).wr DLN_GRANT.G 9 2).clu 5).begun < ((stepState 0).wr DLN_GRANT.G 9 2).grantOf 5
    ∧ ((ran (.endPass 5) ((stepState 0).wr DLN_GRANT.G 9 2)).clu 5).begun = 1 := by decide +kernel
theorem test_own_claim : ((ran (.drainHandshake 5 0 0) (cellState (ow 1 16 1) drainCell)).clu 5).claims = [(3, .cell 0 0 false)]
    ∧ drainCell.drainNext.map (fun p => p.1.row) = some 0 ∧ (live.clu 5).tryClaim (.cell 0 0 false) [3] = .free := by decide +kernel
theorem test_claim_refused :
    ((cellState (ow 1 16 1) drainCell).setClu 5 fun x => { x with claims := [(3, .vector)] }).cluSt 5 = cRunning
    ∧ (ran (.drainHandshake 5 0 0) ((cellState (ow 1 16 1) drainCell).setClu 5 fun x =>
      { x with claims := [(3, .vector)] })).rd CLU_FAULT.STATUS 5 = stTileClaim := by decide +kernel
theorem test_bank_turns : ((live.clu 5).served 47 .feeder).pickReq 47 [⟨.feeder, 1, 0, none, 0⟩, readReq] = some (readReq, [⟨.feeder, 1, 0, none, 0⟩])
    ∧ (live.clu 5).pickReq 47 [readReq, ⟨.feeder, 1, 0, none, 0⟩] = some (⟨.feeder, 1, 0, none, 0⟩, [readReq]) := by decide +kernel
theorem test_bank_scrub : (live.clu 5).pickReq 47 [⟨.scrub, 1, 0, none, 0⟩] = some (⟨.scrub, 1, 0, none, 0⟩, [])
    ∧ getK false ((ran (.bankAccess 5 47 [⟨.scrub, 1, 0, none, 0⟩] []) live).clu 5).scrubbed (47 * 1024 + 1) = true := by decide +kernel

/-! ## Registers and windows (R9 to R12, R65, R66) -/

/-- LND_TIMEOUT.US of cluster 5 is a plain field; its register's address. -/
def ltAddr : Nat := LND_TIMEOUT.US.addr 5 0
def spotOf (f : Fld) : Spot := ⟨f, 0, 0⟩
/-- A write of all 64 bits of a register. -/
def whole (a v : Nat) : RegWr := RegWr.of a 8 v

theorem test_field_rw : LND_TIMEOUT.US.acc = .rw ∧ (whole ltAddr 9).touches LND_TIMEOUT.US 0 = true
    ∧ bits (whole ltAddr 9).mask LND_TIMEOUT.US.lo LND_TIMEOUT.US.width = 2 ^ LND_TIMEOUT.US.width - 1
    ∧ (live.setSpot 5 (whole ltAddr 9) (spotOf LND_TIMEOUT.US)).rd LND_TIMEOUT.US 5 = 9 := by decide +kernel
theorem test_field_w1c : LND_INT_STATUS.TIMEOUT.acc = .w1c
    ∧ ((live.wr LND_INT_STATUS.TIMEOUT 1 5).setSpot 5 (whole (LND_INT_STATUS.TIMEOUT.addr 5 0) (2 ^ 64 - 1))
        (spotOf LND_INT_STATUS.TIMEOUT)).rd LND_INT_STATUS.TIMEOUT 5 = 0 := by decide +kernel
theorem test_field_ro : CLU_STATUS.STATE.acc = .ro
    ∧ (live.setSpot 5 (whole (CLU_STATUS.STATE.addr 5 0) 3) (spotOf CLU_STATUS.STATE)).cluSt 5 = cStopped := by decide +kernel
theorem test_field_w1s : (Acc.w1s ≠ Acc.rw) ∧ (whole ltAddr 3).mask = 2 ^ 64 - 1 := by decide +kernel
theorem test_register_names : named ltAddr = .reg .lnd 5 (ltAddr % 0x1000) ∧ inRegSpace ltAddr = true ∧ ltAddr % 8 = 0
    ∧ (ran (.registerWrite .pf ltAddr 8 9) live).rd LND_TIMEOUT.US 5 = 9
    ∧ (ran (.registerReadClear .pf ltAddr 8) (live.wr LND_TIMEOUT.US 9 5)).resp.data = leBytes 8 9 := by decide +kernel
theorem test_register_bad_size : ¬ ((2 : Nat) = 4 ∨ (2 : Nat) = 8)
    ∧ (ran (.registerAccessBadSize .pf ltAddr 2 false) live).resp.data = [0xFF, 0xFF] := by decide +kernel
theorem test_unmapped : live.unmappedAt (2 ^ 45) = true ∧ (ran (.unmappedAccess .pf (2 ^ 45) false) live).resp.ur = true
    ∧ (ran (.unmappedAccess .hawkmoth (2 ^ 45) true) live).resp.ur = false
    ∧ ((ran (.unmappedAccess .pf (2 ^ 45) true) live).ras.queue.map (·.uncorr)) = [true] := by decide +kernel

/-- Window addresses of cluster 5: its first byte, its last line, and the first address past its scratchpad. -/
def w5 : Nat := winBase + 5 * 0x400000
theorem test_window_read : inWindows w5 = true ∧ winClu w5 = 5 ∧ winSize w5 64 = true ∧ live.stoppedForWindow 5 = true
    ∧ (live.spadRead 5 0 64).bad = none ∧ (ran (.windowAccess .pf w5 64 none) live).resp.data = zeros 64 := by decide +kernel
theorem test_window_write : winOff (w5 + 0x2FFFC0) < 0x300000
    ∧ memGet (ran (.windowAccess .hawkmoth (w5 + 0x2FFFC0) 1 (some [7])) live).spad (spadKey 5 0x2FFFC0) = 7 := by decide +kernel
theorem test_window_shut : (with5 Clu.rest).stoppedForWindow 5 = false
    ∧ (ran (.windowAccess .pf w5 2 none) (with5 Clu.rest)).resp.data = [0xFF, 0xFF] := by decide +kernel
theorem test_window_hole : 0x300000 ≤ winOff (w5 + 0x300000)
    ∧ (ran (.windowAccess .pf (w5 + 0x300000) 2 none) live).resp.ur = true := by decide +kernel
theorem test_window_tlp : (live.answerWith []).stoppedForWindow 5 = true
    ∧ (ran (.windowTlp w5 (List.replicate 2 true) none false) live).resp.data = [0, 0]
    ∧ ((ran (.windowTlp w5 [true] (some [7]) true) live).ras.queue.map (·.status)) = [stEcc] := by decide +kernel
def csrAddr : Nat := mwdog.PERIOD_MS.addr 3 0
theorem test_register_csr : inRegSpace csrAddr = true ∧ named csrAddr = .reg .csr 3 0x3E10 ∧ csrAddr % 8 = 0
    ∧ live.csrOpen 3 (0x3E10 / 8) true true = true ∧ live.csrOpen 3 (0x3E10 / 8) false true = false := by decide +kernel
def secAddr : Nat := SEC_NONCE.NONCE.addr 0 1
theorem test_register_sec : named secAddr = .reg .sec 0 0xE8 ∧ trusted (.core 3 false) = false
    ∧ (ran (.registerWrite (.core 3 true) secAddr 8 9) live).rd SEC_NONCE.NONCE 0 1 = 9
    ∧ (ran (.registerWrite .hawkmoth secAddr 8 9) live).ras.queue.map (·.block) = [20] := by decide +kernel
theorem test_register_cocoon : (ran (.registerWrite .cocoon ltAddr 8 9) live).resp.ur = true := by decide +kernel
theorem test_window_bad : winSize w5 3 = false ∧ winSize (w5 + 1) 2 = false
    ∧ (ran (.windowAccess .pf (w5 + 1) 2 none) live).resp.ur = true := by decide +kernel
def w5bad : State := { live with spadErr := [(wordKey 5 0, 3)] }
theorem test_window_uncorrectable : (w5bad.spadRead 5 0 8).bad = some 0 ∧ (w5bad.spadWrite 5 0 [7]).bad = some 0
    ∧ (ran (.windowAccess .pf w5 8 none) w5bad).resp.poison = true := by decide +kernel
theorem test_window_tlp_write : memGet (ran (.windowTlp w5 (List.replicate 2 true) (some [7, 8]) false) live).spad (spadKey 5 1) = 8 := by decide +kernel

/-! ## Plan slots and grants (R138 to R172) -/

def slotSt2 (v : Nat) (f : Slot → Slot := id) : State := (live.setSlot 2 f).wr PLN_SLOT_STATUS.STATE v 2
theorem test_load_accepts : live.slotSt 2 = pEMPTY ∧ live.on RAS_SERVICE.OUT = false ∧ live.board.boot.stopped = false
    ∧ live.imgLen 2 = 0 ∧ (ran (.load .pf 2) live).slotSt 2 = pFAILED
    ∧ (ran (.load .pf 2) live).rd PLN_SLOT_STATUS.CHECK 2 = 1 := by decide +kernel
theorem test_load_standby : (ran (.loadStandby .pf 2 3) live).rd PLN_SLOT_STATUS.STATUS 2 = stPlanCheck := by decide +kernel
theorem test_load_rejected : (slotSt2 pLOADED).slotSt 2 ≠ pEMPTY ∧ (slotSt2 pLOADED).slotSt 2 ≠ pFAILED
    ∧ (ran (.load .pf 2) (slotSt2 pLOADED)).rd PLN_SLOT_STATUS.CMD_REJECT 2 = 1 := by decide +kernel
theorem test_unload_failed : (slotSt2 pFAILED).slotSt 2 = pFAILED ∧ (ran (.unload .pf 2) (slotSt2 pFAILED)).slotSt 2 = pEMPTY := by decide +kernel
theorem test_unload_loaded : (slotSt2 pLOADED).rd DLN_SLOT_EXEC.EXEC 2 ≠ 2 ∧ (slotSt2 pLOADED).owned 2 = []
    ∧ (ran (.unload .pf 2) (slotSt2 pLOADED)).slotSt 2 = pEMPTY := by decide +kernel
theorem test_unload_rejected : (ran (.unload .pf 2) live).rd PLN_SLOT_STATUS.CMD_REJECT 2 = 1 := by decide +kernel

/-- A plan that configures cluster 5 and nothing more. -/
def small : PlanCfg :=
  { templates := [], deadlines := [], fum := [], mig := [], preloads := [], objs := [], clus := [(5, cfg [] [0] [] [0])], window := none }
def takeover : State := slotSt2 pSTANDBY fun x => { x with cfg := some small, takeover := true, pred := some 3 }
theorem test_takeover : (takeover.slot 2).takeover = true ∧ takeover.cluSt 5 ≠ cFaulted ∧ (takeover.gather []).2.isOk = true
    ∧ (ran (.standbyTakeover 2) takeover).slotSt 2 = pLOADED
    ∧ ((ran (.standbyTakeover 2) takeover).clu 5).owner = some 2 := by decide +kernel
def swapping : State :=
  (slotSt2 pSTANDBY fun x => { x with cfg := some small, molt := some 3, pred := some 3, firstGrant := 2 ^ 48 - 1 }).wr PLN_SLOT_STATUS.STATE pLOADED 3
theorem test_molt_swap : (swapping.slot 2).molt = some 3 ∧ swapping.moltReady 3 = true ∧ (swapping.slot 2).firstGrant < 2 ^ 48
    ∧ (ran (.moltSwap 2) swapping).slotSt 3 = pEMPTY
    ∧ (ran (.moltSwap 2) swapping).rd DLN_GRANT.G 2 = 2 ^ 48 - 1 := by decide +kernel

def granting : State := slotSt2 pLOADED
theorem test_pass_start : granting.execTakes 2 = true ∧ (ran (.passStart .pf 2 7) granting).rd DLN_GRANT.G 2 = 7
    ∧ addPasses (2 ^ 48 - 3) 9 = 2 ^ 48 - 2 ∧ addPasses gCont 1 = gCont := by decide +kernel
theorem test_pass_start_behind : ((ran (.passStart (.core 3 true) 2 7)
    (granting.setCore 3 fun c => { c with buf := [⟨64, [(0, 1)], none, false, false, false⟩] })).core 3).buf.length = 2 := by decide +kernel
theorem test_pass_start_none : live.execTakes 2 = false ∧ (ran (.passStart .pf 2 7) live).rd DLN_SLOT_EXEC.CMD_REJECT 2 = 1 := by decide +kernel
theorem test_pass_continuous : (ran (.passStartContinuous .pf 2) granting).rd DLN_GRANT.G 2 = gCont := by decide +kernel
theorem test_pass_stop : (granting.wr DLN_SLOT_EXEC.EXEC 1 2).rd DLN_SLOT_EXEC.EXEC 2 = 1
    ∧ (ran (.passStop .pf 2) ((granting.wr DLN_SLOT_EXEC.EXEC 1 2).wr DLN_GRANT.G 9 2)).rd DLN_GRANT.G 2 = 0 := by decide +kernel
theorem test_pass_stop_idle : granting.rd DLN_SLOT_EXEC.EXEC 2 = 0 := by decide +kernel
theorem test_pass_stop_rejected : 2 ≤ (granting.wr DLN_SLOT_EXEC.EXEC 3 2).rd DLN_SLOT_EXEC.EXEC 2
    ∧ (ran (.passStop .pf 2) (granting.wr DLN_SLOT_EXEC.EXEC 3 2)).rd DLN_SLOT_EXEC.CMD_REJECT 2 = 1 := by decide +kernel
def molting : State := (slotSt2 pSTANDBY fun x => { x with cfg := some small, pred := some 3 }).wr PLN_SLOT_STATUS.STATE pLOADED 3
theorem test_molt : (molting.slot 2).pred = some 3 ∧ (molting.slot 2).molt = none ∧ molting.execTakes 3 = true
    ∧ (ran (.molt .pf 2 9 false) molting).rd DLN_SLOT_EXEC.EXEC 3 = 2
    ∧ ((ran (.molt .pf 2 9 false) molting).slot 2).firstGrant = 9 := by decide +kernel
theorem test_molt_rejected : (live.slot 2).pred = none ∧ (ran (.molt .pf 2 9 false) live).rd DLN_SLOT_EXEC.CMD_REJECT 2 = 1 := by decide +kernel

/-! ## Moves and landing counters (R174 to R207) -/

/-- A descriptor of an operation (R176) between two spaces, with NDIM, LCNT 7 of this cluster and its rest. -/
def desc (op ss ds ndim c0 : Nat) (sa da : Nat := 0) (c1 : Nat := 0) : List Nat :=
  [op + ss * 2 ^ 4 + ds * 2 ^ 7 + ndim * 2 ^ 10 + 2 ^ 13 + 7 * 2 ^ 14 + 5 * 2 ^ 22, sa, da, c0 + c1 * 2 ^ 24, 0, 0, 0, 0]
def mv (d : List Nat) (begun : Bool := false) : Move := { Move.fresh d .step 0 none 0 with begun := begun }
/-- Mover 1 of cluster 5 holds a move. -/
def moving (v : Move) : State := live.setClu 5 fun x => { x with mov1 := ⟨some v, []⟩ }
def begunBy (i : Instr) (v : Move) : Bool :=
  (moving v).mayBegin 5 v && (match ((ran i (moving v)).mover 5 1).cur with | some w => w.begun | none => false)

theorem test_copy : (mv (desc 0 2 0 1 64)).op = 0 ∧ begunBy (.copy 5 1) (mv (desc 0 2 0 1 64)) = true := by decide +kernel
theorem test_gather : begunBy (.gather 5 1) (mv (desc 1 2 0 2 64 0 0 1)) = true := by decide +kernel
theorem test_scatter : begunBy (.scatter 5 1) (mv (desc 2 0 2 2 64 0 0 1)) = true := by decide +kernel
theorem test_scatter_add : begunBy (.scatterAdd 5 1) (mv (desc 3 0 2 2 64 0 0 1)) = true := by decide +kernel
theorem test_get_empty : (mv (desc 4 4 0 1 0 (2 ^ 48))).total = 0 ∧ begunBy (.get 5 1) (mv (desc 4 4 0 1 0 (2 ^ 48))) = true := by decide +kernel
theorem test_get_remote : (mv (desc 4 4 0 1 64 (2 ^ 48))).total ≠ 0
    ∧ (moving (mv (desc 4 4 0 1 64 (2 ^ 48)))).side 5 (mv (desc 4 4 0 1 64 (2 ^ 48))) false = .peer 1 false 0
    ∧ begunBy (.get 5 1) (mv (desc 4 4 0 1 64 (2 ^ 48))) = true := by decide +kernel

/-- A tier manager that is ready and holds one object of context 9 at entry 3, generation 1; the metadata
region lies at 1 GiB, the pool at 1 MiB up to 256 MiB. -/
def regions : State := ((live.wr TIER_META_BASE.BASE 512).wr TIER_POOL_BASE.BASE 16).wr TIER_POOL_LIMIT.LIMIT 4096
def obj3 (o : Obj) : State :=
  let s := (regions.wr TIER_CTRL.EN 1).wr TIER_CTRL.READY 1
  { s with tier := { s.tier with objs := [(3, { o with ctx := 9, gen := 1 })], ctxs := [(9, ⟨0, 0, 1000⟩)] } }
def h3 : Nat := (obj3 Obj.free).handleOf 3
def ready3 : Obj := { Obj.free with state := 2, len := 65536, units := 1, t1 := 0x100000 }
def objMove : Move := mv (desc 0 5 0 1 64 (h3 * 2 ^ 32))
def resolving (o : Obj) : State := (obj3 o).setClu 5 fun x => { x with mov1 := ⟨some objMove, []⟩ }
theorem test_resolve_t1 : objMove.sspace = 5 ∧ objMove.total ≠ 0 ∧ (resolving ready3).tierRuns = true
    ∧ (resolving ready3).handleEntry h3 = some 3 ∧ (resolving ready3).mayRead 0 9 = true
    ∧ (objMove.objOff : Int) + (objMove.span false).2 + objMove.runBytes ≤ 65536
    ∧ ((ran (.objectResolve 5 1) (resolving ready3)).obj 3).t1refs = 1 := by decide +kernel
theorem test_resolve_t2 : ((ran (.objectResolve 5 1) (resolving { ready3 with state := 4, units := 0 })).obj 3).t2refs = 1 := by decide +kernel
theorem test_resolve_off : (moving objMove).on TIER_CTRL.EN = false
    ∧ (((ran (.objectResolve 5 1) (moving objMove)).mover 5 1).cur.map (·.err)) = some (some stBadDescriptor) := by decide +kernel
theorem test_resolve_bad : (resolving Obj.free).handleEntry h3 = none
    ∧ (((ran (.objectResolve 5 1) (resolving Obj.free)).mover 5 1).cur.map (·.err)) = some (some stBadDescriptor) := by decide +kernel

/-- A begun COPY of 64 bytes of HBM to the scratchpad of cluster 5, and its source bytes. -/
def copying : Move := mv (desc 0 2 0 1 64 0x1000 0x180000) true
def srcState : State := { moving copying with hbm := [(0x1000, 9)] }
theorem test_landing : copying.begun = true ∧ srcState.side 5 copying true = .spad 5 0x180000 ∧ copying.runBytes = 64
    ∧ srcState.countWaits (copying.counter (.spad 5 0x180000)) = false
    ∧ 0 < copying.runs * copying.perRun (srcState.side 5 copying true).granule
    ∧ memGet (ran (.landing 5 1 0 ⟨false, false⟩) srcState).spad (spadKey 5 0x180000) = 9
    ∧ (ran (.landing 5 1 0 ⟨false, false⟩) srcState).cnt 5 7 = 64 := by decide +kernel
theorem test_counter_error : (ran (.landing 5 1 0 ⟨false, true⟩) (srcState.wr RAS_CTRL.AUTO_CLUSTER 0)).cluSt 5 = cFaulted
    ∧ memGet (ran (.landing 5 1 0 ⟨false, true⟩) srcState).spad (spadKey 5 0x180000) = 9
    ∧ (srcState.mover 5 1).cur.map (fun v => decide ((srcState.landUnit 5 1 0 false v).cluSt 5 ≠ cOff ∧ (srcState.landUnit 5 1 0 false v).cluSt 5 ≠ cResetting
      ∧ v.counter (srcState.side 5 v true) = some (5, 7))) = some true := by decide +kernel
def landed : State := ran (.landing 5 1 0 ⟨false, false⟩) srcState
theorem test_move_complete : ((landed.mover 5 1).cur.map (·.ended)) = some true
    ∧ ((ran (.moveComplete 5 1) landed).mover 5 1).cur = none ∧ (ran (.moveComplete 5 1) landed).rd MOV_DONE1.MOVES 5 = 1 := by decide +kernel
/-- With mover watchdogs, a period after every move began. -/
def lateMove (s : State) : State := { s.wr MOV_WDOG.EN 1 5 with clock := 10000000 }
theorem test_mover_watchdog_early : ran (.moverWatchdog 5 1 .package) ((moving copying).wr MOV_WDOG.EN 1 5)
    = (moving copying).wr MOV_WDOG.EN 1 5 := by decide +kernel
theorem test_mover_watchdog : ((moving copying).wr MOV_WDOG.EN 1 5).on MOV_WDOG.EN 5 = true ∧ copying.ended = false ∧ copying.op ≠ 4
    ∧ (((ran (.moverWatchdog 5 1 .package) (lateMove (moving copying))).mover 5 1).cur.map (·.err))
      = some (some stCounterTimeout) := by decide +kernel
theorem test_mover_watchdog_host : (live.side 5 (mv (desc 0 3 0 1 64) true) false) = .host 0
    ∧ (((ran (.moverWatchdog 5 1 .host) (lateMove (moving (mv (desc 0 3 0 1 64) true)))).mover 5 1).cur.map (·.err))
      = some (some stHostLost) := by decide +kernel
theorem test_mover_watchdog_peer : ((live.side 5 (mv (desc 0 0 4 1 64 0 (2 ^ 48)) true) true).remote) = true := by decide +kernel

theorem test_lnd_add : live.cluSt 5 ≠ cResetting ∧ (ran (.lndAdd .pf 5 7 9) (live.wr LND_CNT.COUNT (2 ^ 48 - 4) 5 7)).cnt 5 7 = 5 := by decide +kernel
/-- Hart 3 has a store in its buffer: its add of a landing counter goes behind it, and its drain performs it (R190). -/
def behind : State := ran (.lndAdd (.core 3 true) 5 7 9) (live.setCore 3 fun c => { c with buf := [⟨64, [(0, 1)], none, false, false, false⟩] })
theorem test_lnd_add_behind : behind.cnt 5 7 = 0 ∧ (behind.core 3).buf.length = 2
    ∧ (ran (.storeBufferDrain 3) (behind.setCore 3 fun c => { c with buf := c.buf.drop 1 })).cnt 5 7 = 9 := by decide +kernel
/-- A streaming COPY reads ahead: bytes written to its source afterwards are not seen by its units (R194). -/
def readAhead : State := srcState.readAhead 5 1
theorem test_read_ahead : ((readAhead.mover 5 1).cur.map (·.ahead.length)) = some 1
    ∧ memGet (ran (.landing 5 1 0 ⟨false, false⟩) { readAhead with hbm := [(0x1000, 8)] }).spad (spadKey 5 0x180000) = 9 := by decide +kernel
theorem test_lnd_add_reset : ((ran (.lndAdd .pf 5 7 9) (live.wr CLU_STATUS.STATE cResetting 5)).clu 5).adds = [(7, 9)] := by decide +kernel
theorem test_lnd_watch_fires : reached (live.cnt 5 7) (2 ^ 47 + 1) = true ∧ reached (live.cnt 5 7) (2 ^ 47) = false
    ∧ (ran (.lndWatch .pf 5 7 0) live).on LND_INT_STATUS.WATCH 5 = true := by decide +kernel
theorem test_lnd_watch_arms : (ran (.lndWatch .pf 5 7 1) live).rd LND_WATCH.ARMED 5 = 1 := by decide +kernel
theorem test_lnd_clear : live.cluSt 5 = cStopped ∧ (live.clu 5).owner = none
    ∧ (ran (.lndClear .pf 5 7 false) (live.wr LND_CNT.COUNT 4 5 7)).cnt 5 7 = 0
    ∧ (ran (.lndClear .pf 5 0 true) (live.wr LND_CNT.COUNT 4 5 255)).cnt 5 255 = 0 := by decide +kernel
theorem test_lnd_clear_not : (with5 Clu.rest).cluSt 5 ≠ cStopped := by decide +kernel
theorem test_landing_waits : ((patient 6).dlEntry 5 6).isSome = true ∧ (patient 6).stepAt 5 6 = some 6 := by decide +kernel

/-! ## The tier manager (R208 to R240) -/

/-- The tier manager is enabled and ready, with no table entry, context 9 of the PF and 16 GiB of pool. -/
def tierOn : State := { obj3 Obj.free with tier := { (obj3 Obj.free).tier with objs := [] } }
theorem test_ctx_create : tierOn.ctx 8 = none ∧ tierOn.tier.ctxs.length < tierContexts
    ∧ (ran (.ctxCreate 0 8 2 100) tierOn).ctx 8 = some ⟨0, 2, 100⟩ ∧ (ran (.ctxCreate 0 8 2 100) tierOn).rd TIER_CMD_GO.BUSY = 0 := by decide +kernel
theorem test_ctx_exists : (tierOn.ctx 9).isSome = true ∧ (ran (.ctxCreate 0 9 2 100) tierOn).rd TIER_ERR.DETAIL = 3 := by decide +kernel
theorem test_ctx_destroy : tierOn.ownsCtx 0 9 = true ∧ (tierOn.tier.objs.any fun e => e.2.state != 0 && e.2.ctx == 9) = false
    ∧ (ran (.ctxDestroy 0 9) tierOn).ctx 9 = none := by decide +kernel
theorem test_ctx_of_other : tierOn.ownsCtx 64 9 = false ∧ (ran (.ctxDestroy 64 9) tierOn).rd TIER_ERR.STATUS = stNoContext := by decide +kernel

theorem test_alloc : tierOn.freeEntry.isSome = true ∧ (tierOn.findExtent (cdiv 1 65536)).isSome = true
    ∧ tierOn.quotaFits 9 1 = true
    ∧ (match tierOn.freeEntry with | some i => ((ran (.allocOpen 0 9 1) tierOn).obj i).state | none => 0) = 1 := by decide +kernel
theorem test_adopt : (match tierOn.freeEntry with | some i => ((ran (.adopt 0 9 0x1000 5 3 true) tierOn).obj i).state | none => 0) = 4 := by decide +kernel
def open3 : Obj := { ready3 with state := 1, len := 131072, units := 2 }
theorem test_seal : (obj3 open3).handleEntry h3 = some 3 ∧ ((obj3 open3).obj 3).ctx = 9 ∧ ((obj3 open3).obj 3).state = 1
    ∧ ((ran (.seal 0 9 (BitVec.ofNat 32 h3) 1 false) (obj3 open3)).obj 3).units = 1
    ∧ (ran (.seal 0 9 (BitVec.ofNat 32 h3) 1 false) (obj3 open3)).tier.exts.length = 1 := by decide +kernel
theorem test_seal_crc : ((ran (.seal 0 9 (BitVec.ofNat 32 h3) 131072 true) (obj3 open3)).obj 3).sums.length = 1 := by decide +kernel
theorem test_query : (0x40 : Nat) + 64 ≤ (obj3 ready3).hbmEnd ∧ ((0x40 : Nat) + 64 ≤ (obj3 ready3).metaBase)
    ∧ (memRead (ran (.query 0 9 (BitVec.ofNat 32 h3) 0x40) (obj3 ready3)).hbm 0x40 64) = (obj3 ready3).entryImage 3 := by decide +kernel

def hd : BitVec 32 := BitVec.ofNat 32 h3
theorem test_evict_at_once : (obj3 { ready3 with t2valid := true }).tier.objs.length = 1
    ∧ ((ran (.evict 0 9 hd 0 0 false) (obj3 { ready3 with t2valid := true })).obj 3).state = 4 := by decide +kernel
theorem test_evict_copy : ((ran (.evict 0 9 hd 0x2000 0 false) (obj3 ready3)).obj 3).state = 3 := by decide +kernel
theorem test_fetch_pins : ((ran (.fetch 0 9 hd true false) (obj3 { ready3 with pins := 65534 })).obj 3).pins = 65535 := by decide +kernel
def absent3 : Obj := { ready3 with state := 4, units := 0, t1 := 0, t2valid := true, t2addr := 0x2000 }
theorem test_fetch_copy : ((obj3 absent3).findExtent 1).isSome = true ∧ (obj3 absent3).quotaFits 9 1 = true
    ∧ ((ran (.fetch 0 9 hd true false) (obj3 absent3)).obj 3).state = 5 := by decide +kernel
theorem test_unpin : ((ran (.unpin 0 9 hd) (obj3 { ready3 with pins := 1 })).obj 3).pins = 0 := by decide +kernel
theorem test_free_extent : ((ran (.free 0 9 hd) (obj3 ready3)).obj 3).state = 6 := by decide +kernel
theorem test_free_done : (obj3 absent3).extOf 3 = false ∧ ((ran (.free 0 9 hd) (obj3 absent3)).obj 3).gen = 2 := by decide +kernel
theorem test_release_t2 : ((ran (.releaseT2 0 9 hd) (obj3 { ready3 with t2valid := true })).obj 3).t2valid = false := by decide +kernel
theorem test_release_t2_waits : ((ran (.releaseT2 0 9 hd) (obj3 { ready3 with t2refs := 1 })).obj 3).waits.length = 1 := by decide +kernel
theorem test_verify : ((ran (.verify 0 9 hd) (obj3 ready3)).obj 3).sums.length = 1 := by decide +kernel

/-- R239: while a TIER_CMD submission waits, a command of the physical function leaves BUSY and TIER_RESULT alone. -/
theorem test_row_while_busy : ((ran (.ctxCreate 0 8 2 100) (tierOn.wr TIER_CMD_GO.BUSY 1)).rd TIER_CMD_GO.BUSY = 1)
    ∧ (ran (.ctxCreate 0 8 2 100) (tierOn.wr TIER_CMD_GO.BUSY 1)).ctx 8 = some ⟨0, 2, 100⟩
    ∧ (ran (.evict 0 9 hd 0x2000 0 false) (obj3 ready3)).rd TIER_CMD_GO.BUSY = 1 := by decide +kernel
/-- R231: SEAL with a reader of the open segment leaves the tail to its readers; T1REFS of R227 falls as it ends. -/
def reader3 : State := (obj3 open3).setClu 5 fun x => { x with mov1 := ⟨some { objMove with obj := some (.t1 3 0x100000 131072) }, []⟩ }
theorem test_seal_readers : ((ran (.seal 0 9 (BitVec.ofNat 32 h3) 1 false) reader3).tier.exts.map (·.refs)) = [1]
    ∧ (((ran (.seal 0 9 (BitVec.ofNat 32 h3) 1 false) reader3).dropT1Ref 3 0x100000 65536).tier.exts.map (·.refs)) = [1]
    ∧ (((ran (.seal 0 9 (BitVec.ofNat 32 h3) 1 false) reader3).dropT1Ref 3 0x100000 131072).tier.exts.map (·.refs)) = [0] := by decide +kernel
/-- R235: while HD0 is in reset a command waits. -/
theorem test_tier_in_reset : (ran (.unpin 0 9 hd) { obj3 { ready3 with pins := 1 } with
    rst := { (obj3 ready3).rst with busy := [(2, 0)] } }).tier.waiting.length = 1 := by decide +kernel
/-- R210: disabling leaves an entry's image in its region. -/
theorem test_tables_in_hbm : ((ran (.tierDisable .pf) { obj3 absent3 with tier := { (obj3 absent3).tier with ctxs := [] } }).hbmLine
    ((512 * 2 ^ 21 + 64 * 3) / 64)) = (obj3 absent3).entryImage 3
    ∧ entryOf ((obj3 absent3).entryImage 3) = (obj3 absent3).obj 3 := by decide +kernel

/-- The object 64 bytes long, its copy in progress, the host link up. -/
def small3 (st : Nat) : State :=
  let s := obj3 { ready3 with state := st, len := 64, t2addr := 0x2000 }
  { s.wr HOST_LINK.UP 1 with hbm := [(0x100000, 9)], hostMem := [(0x2000, 8)] }
theorem test_eviction_lands : (small3 3).hostUp = true ∧ (small3 3).tierRuns = true ∧ ((small3 3).obj 3).intentIn = false
    ∧ ((small3 3).prepare (keysOf 0x100000 64) false).2 = true
    ∧ ((ran (.evictionCopyLands 3) (small3 3)).obj 3).state = 4 := by decide +kernel
def inbound : State := { small3 5 with tier := { (small3 5).tier with objs := (small3 5).tier.objs.map fun e => (e.1, { e.2 with intentIn := true }) } }
theorem test_fetch_lands : (inbound.obj 3).intentIn = true ∧ (inbound.obj 3).verify = false ∧ (inbound.prepare (keysOf 0x100000 64) true).2 = true
    ∧ ((ran (.fetchCopyLands 3) inbound).obj 3).state = 2 := by decide +kernel
theorem test_copy_fails : ((ran (.copyFails 3 .hostLost) (small3 3)).obj 3).state = 2 ∧ ((ran (.copyFails 3 .eccT1) (small3 3)).obj 3).state = 2 := by decide +kernel
def verifying : State := { small3 5 with tier := { (small3 5).tier with objs := (small3 5).tier.objs.map fun e => (e.1, { e.2 with verify := true }) } }
theorem test_copy_checksum : (verifying.obj 3).verify = true ∧ ((ran (.copyFails 3 .checksum) verifying).obj 3).state = 4 := by decide +kernel
def erasing : State :=
  { obj3 Obj.free with tier := { (obj3 Obj.free).tier with exts := [⟨0x100000, 1, some 3, 9, 0x100000, 0⟩] }, hbm := [(0x100005, 9)] }
theorem test_erase : (erasing.tier.exts.find? fun e => e.addr == 16 * 65536 && e.refs == 0 && e.entry.isSome).isSome = true
    ∧ (erasing.prepare (erasing.busyKeys 0x100000 65536) true).2 = true
    ∧ memGet (ran (.eraseComplete 16) erasing).hbm 0x100005 = 0 := by decide +kernel
def summing : State := { small3 2 with tier := { (small3 2).tier with objs := (small3 2).tier.objs.map fun e => (e.1, { e.2 with sums := [(0x04, .regs)] }) } }
theorem test_checksum : (summing.obj 3).sums = [(0x04, .regs)] ∧ (summing.obj 3).len ≠ 0 ∧ (summing.obj 3).units ≠ 0
    ∧ ((ran (.checksumComplete 3) summing).obj 3).sums = [] := by decide +kernel

theorem test_tier_fresh : regions.on TIER_CTRL.EN = false ∧ regions.tierReject = stOK
    ∧ (8 : Fin 16) ≠ 0 := by decide +kernel
theorem test_tier_recover : (ran (.tierEnableRecover .pf 8) regions).rd TIER_CTRL.MODE = 1 := by decide +kernel
theorem test_tier_rejected : (live.wr TIER_POOL_LIMIT.LIMIT (2 ^ 24 - 1)).tierReject = stBadDescriptor
    ∧ (ran (.tierEnableFresh .pf 8) (live.wr TIER_POOL_LIMIT.LIMIT (2 ^ 24 - 1))).rd TIER_CTRL.REJECT = stBadDescriptor := by decide +kernel
theorem test_tier_disable : tierOn.tierIdle = true ∧ (ran (.tierDisable .pf) tierOn).on TIER_CTRL.EN = false := by decide +kernel
theorem test_tier_busy : (obj3 ready3).tierIdle = false ∧ (ran (.tierDisable .pf) (obj3 ready3)).rd TIER_CTRL.REJECT = stBadDescriptor := by decide +kernel
def starting : State := tierOn.wr TIER_CTRL.READY 0
theorem test_tier_ready : starting.tier.recovering = false ∧ starting.hub0Reset = false ∧ starting.tier.waiting = []
    ∧ (ran .tierReady starting).on TIER_CTRL.READY = true := by decide +kernel
def recovering : State := { starting with tier := { starting.tier with recovering := true } }
def spoiled : State := { recovering with hbmPoison := [(512 * 2 ^ 21 / 64, true)] }
theorem test_tier_bad_tables : spoiled.metaPoisoned = true ∧ (ran .tierReady spoiled).rd TIER_CTRL.REJECT = stEcc := by decide +kernel
/-- R213: tables left in their region by TIER_DISABLE are good for a RECOVER of the same session; a changed generation is what the
entry then has, and a changed count is refused. -/
def kept : State :=
  let s := obj3 absent3
  let s := ran (.tierDisable .pf) { s with tier := { s.tier with ctxs := [(0, ⟨0, 0, 2 ^ 40 - 1⟩), (9, ⟨0, 0, 1000⟩)] } }
  let s := { s with hbm := memWrite s.hbm (s.headerLine * 64) s.tierHeader }
  ran (.tierEnableRecover .pf 8) s
theorem test_tables_kept : kept.on TIER_CTRL.EN = true ∧ kept.on TIER_CTRL.READY = false ∧ kept.tier.recovering = true
    ∧ kept.metaPoisoned = false ∧ kept.readTables.poison = false ∧ kept.readTables.good = true := by decide +kernel
theorem test_tables_recover : (ran .tierReady kept).on TIER_CTRL.READY = true ∧ (ran .tierReady kept).obj 3 = { absent3 with ctx := 9, gen := 1 } := by decide +kernel
def regenerated : State := { kept with hbm := memSet kept.hbm (kept.metaBase + 64 * 3 + 1) 2 }
theorem test_tables_changed : ((ran .tierReady regenerated).obj 3).gen = 2 := by decide +kernel
def miscounted : State := { kept with hbm := memSet kept.hbm (kept.metaBase + 2 ^ 28 + 32 + 24) 2 }
theorem test_tables_bad : miscounted.readTables.good = false ∧ (ran .tierReady miscounted).rd TIER_CTRL.REJECT = stBadDescriptor
    ∧ (ran .tierReady miscounted).on TIER_CTRL.EN = false := by decide +kernel

/-! ## Cores (R241 to R273) -/

/-- Core 95 is running; its L2 holds a line of HBM at 0x1000 with the bytes 0, 1, …; x7 is 0x80. -/
def hart (f : Core → Core := id) (st : CState := .m) (poison : Bool := false) : State :=
  ((live.setCore 95 fun c => f { c with power := 0 }).setLine (hbmKey 0x1000) 95
    ⟨st, (List.range 64).map (BitVec.ofNat 8), poison, none, none, none⟩).setXreg 95 7 0x80

theorem test_load : hart.hartFree 95 = true ∧ hart.rangeOf 0x1001 2 = .main ∧ hart.coreBad 95 0x1001 2 = false
    ∧ (ran (.coreLoad 95 3 0x1001 1 true .none) hart).xreg 95 3 = 0x0201
    ∧ (ran (.coreLoad 95 0 0x1001 1 true .none) hart).xreg 95 0 = 0 := by decide +kernel
theorem test_load_poison : (hart id .m true).coreBad 95 0x1001 2 = true ∧ ((ran (.coreLoad 95 3 0x1001 1 true .none) (hart id .m true)).core 95).mcause = 5 := by decide +kernel
theorem test_load_miss : (hart.line (hbmKey 0x2000) 95).st = .i ∧ ((List.range 1).find? fun i => (hart.coreByte 95 (0x2000 + i)).isNone) = some 0
    ∧ ((ran (.coreLoad 95 3 0x2000 0 true .none) hart).line (hbmKey 0x2000) 95).st = .isD := by decide +kernel
theorem test_load_uncached : ((ran (.coreLoad 95 3 0x1000 0 true .nc) hart).core 95).pend.isSome = true := by decide +kernel
def stored1 : State := ran (.coreStore 95 7 0x1001 0 .none) hart
/-- A load that the buffer holds in part takes its byte from there and the other from the home (R252). -/
def partly : State := ran (.coreLoad 95 3 0x1001 1 false .nc) (ran (.coreStore 95 7 0x1001 0 .none) hart)
theorem test_load_partly : (keysOf 0x1001 2).filter (lacks (stored1.core 95).buf 0x1001 2) = [hbmKey 0x1000]
    ∧ (ran (.cmpd (Line.mk false (0x1000 / 64)) ⟨none, 95⟩ (List.replicate 64 5) false) partly).xreg 95 3 = 0x0580
    ∧ (ran (.coreLoad 95 3 0x1001 0 false .nc) stored1).xreg 95 3 = 0x80 := by decide +kernel
theorem test_load_io_misaligned : hart.rangeOf (winBase + 1) 2 ≠ .main ∧ tooHigh (winBase + 1) = false
    ∧ ((ran (.coreLoad 95 3 (BitVec.ofNat 64 (winBase + 1)) 1 true .none) hart).core 95).mcause = 4 := by decide +kernel
/-- PMP entry 0 of hart 95, locked, lets M-mode only read the 4 KiB at 0x1000. -/
def fenced95 : State := (hart.putCsr 95 0x3B0 0x5FF).putCsr 95 0x3A0 0x99
theorem test_pmp : fenced95.pmpLets 95 0x1000 8 false = true ∧ fenced95.pmpLets 95 0x1000 8 true = false
    ∧ fenced95.pmpLets 95 0xFFC 8 false = false ∧ fenced95.pmpLets 95 0x2000 8 true = true
    ∧ ((ran (.coreStore 95 7 0x1001 0 .none) fenced95).core 95).mcause = 7
    ∧ (ran (.coreLoad 95 3 0x1001 0 true .none) fenced95).xreg 95 3 = 1 := by decide +kernel
theorem test_load_too_high : tooHigh (2 ^ 40) = true ∧ ((ran (.coreLoad 95 3 (2 ^ 40) 1 true .none) hart).core 95).mcause = 5 := by decide +kernel

theorem test_store : (hart.core 95).buf.length + (hart.core 95).storeNeeds (storeParts 0x1001 (leBytes 2 0x80)) false ≤ 64
    ∧ bufByte ((ran (.coreStore 95 7 0x1001 1 .none) hart).core 95).buf 0x1001 = some 0x80
    ∧ bufByte ((ran (.coreStore 95 7 0x1001 1 .none) hart).core 95).buf 0x1003 = none := by decide +kernel
theorem test_store_io : ((ran (.coreStore 95 7 0x1001 1 .io) hart).core 95).buf.length = 1
    ∧ ((ran (.coreStore 95 7 (BitVec.ofNat 64 winBase) 1 .none) hart).core 95).buf.length = 1 := by decide +kernel
theorem test_store_misaligned : ((ran (.coreStore 95 7 (BitVec.ofNat 64 (winBase + 1)) 1 .none) hart).core 95).mcause = 6
    ∧ ((ran (.coreStore 95 7 (2 ^ 40) 1 .none) hart).core 95).mcause = 7 := by decide +kernel
theorem test_drain : (stored1.core 95).buf ≠ [] ∧ (stored1.line (hbmKey 0x1000) 95).st.writable = true ∧ (stored1.core 95).going = none
    ∧ ((ran (.storeBufferDrain 95) stored1).core 95).buf = []
    ∧ ((ran (.storeBufferDrain 95) stored1).line (hbmKey 0x1000) 95).data[1]? = some 0x80 := by decide +kernel
theorem test_store_fail : hart.on mbuserr.VALID 95 = false ∧ (ran (.uncachedStoreFail 95 0x77 9) hart).rd mbuserr.ADDR 95 = 0x77
    ∧ (ran (.uncachedStoreFail 95 0x78 9) (ran (.uncachedStoreFail 95 0x77 9) hart)).rd mbuserr.MORE 95 = 1 := by decide +kernel

theorem test_amo_near : hart.goesFar 95 (hbmKey 0x1000) 4 = false ∧ amoReserved .add 2 3 7 = false
    ∧ (ran (.amo 95 .add 3 7 0x1004 2 .none) hart).xreg 95 3 = 0x07060504
    ∧ ((ran (.amo 95 .add 3 7 0x1004 2 .none) hart).line (hbmKey 0x1000) 95).data[4]? = some 0x84 := by decide +kernel
theorem test_amo_far : (hart.wr matomic.MODE 2 95).goesFar 95 (hbmKey 0x1000) 4 = true
    ∧ ((ran (.amo 95 .add 3 7 0x1004 2 .none) (hart.wr matomic.MODE 2 95)).core 95).pend.isSome = true := by decide +kernel
theorem test_amo_misaligned : ((ran (.amo 95 .add 3 7 0x1005 2 .none) hart).core 95).mcause = 6 := by decide +kernel
theorem test_lr : ((ran (.lr 95 3 0x1004 2 .none) hart).core 95).resv = some (hbmKey 0x1000)
    ∧ (ran (.lr 95 3 0x1004 2 .none) hart).xreg 95 3 = 0x07060504 := by decide +kernel
def reserved : State := ran (.lr 95 3 0x1004 2 .none) hart
theorem test_sc : (reserved.core 95).resv = some (hbmKey 0x1000) ∧ (ran (.sc 95 3 7 0x1004 2 .none) reserved).xreg 95 3 = 0
    ∧ ((ran (.sc 95 3 7 0x1004 2 .none) reserved).line (hbmKey 0x1000) 95).data[4]? = some 0x80 := by decide +kernel
theorem test_sc_fails : (hart.core 95).resv ≠ some (hbmKey 0x1000) ∧ (ran (.sc 95 3 7 0x1004 2 .none) hart).xreg 95 3 = 1 := by decide +kernel

theorem test_fence : (stored1.core 95).buf ≠ [] ∧ ((ran (.fence 95 true true) stored1).core 95).fenced = true
    ∧ (hart.core 95).buf = [] := by decide +kernel
theorem test_cbo_zero : hart.rangeOf (0x1020 / 64 * 64) 64 = .main
    ∧ bufByte ((ran (.cboZero 95 0x1020) hart).core 95).buf 0x103F = some 0 := by decide +kernel
theorem test_cbo_give : ((hart.core 95).buf.any fun e => e.cached && e.line == 0x1000 / 64) = false ∧ (hart.line (hbmKey 0x1000) 95).st = .m
    ∧ ((ran (.cboClean 95 0x1000) hart).line (hbmKey 0x1000) 95).st = .miA
    ∧ ((ran (.cboFlush 95 0x1000) hart).line (hbmKey 0x1000) 95).st = .miA
    ∧ ((ran (.cboInval 95 0x1000 true 0) hart).line (hbmKey 0x1000) 95).st = .eiA
    ∧ ((ran (.cboInval 95 0x1000 false 1) hart).line (hbmKey 0x1000) 95).st = .miA := by decide +kernel
theorem test_cbo_inval_trap : ((ran (.cboInval 95 0x1000 false 0) hart).core 95).mcause = 2 := by decide +kernel

theorem test_wfi_pending : (hart fun c => { c with mip := 128, mie := 128 }).interruptDue 95 = true := by decide +kernel
theorem test_wfi_wait : hart.interruptDue 95 = false ∧ hart.rd mcorepwr.DEEP 95 = 0 ∧ ((ran (.wfi 95) hart).core 95).power = 1 := by decide +kernel
theorem test_wfi_retain : (hart.wr mcorepwr.DEEP 1 95).rd mcorepwr.DEEP 95 = 1
    ∧ (((hart.wr mcorepwr.DEEP 1 95).linesOf 95).any fun e => !e.2.st.stable) = false
    ∧ ((ran (.wfi 95) (hart.wr mcorepwr.DEEP 1 95)).core 95).power = 2 := by decide +kernel
theorem test_wake : ((hart fun c => { c with power := 2, mip := 128, mie := 128 }).core 95).going = none
    ∧ (ran (.coreWake 95 .interrupt) (hart fun c => { c with power := 2, mip := 128, mie := 128 })).rd mcorepwr.LAST 95 = 1
    ∧ ((ran (.coreWake 95 .interrupt) (hart fun c => { c with power := 2, mie := 128 })).core 95).power = 2 := by decide +kernel
theorem test_wake_off : (hart fun c => { c with power := 3 }).rst.groupsOff.contains 11 = false
    ∧ ((ran (.coreWake 95 .hawkmoth) (hart fun c => { c with power := 3 })).core 95).power = 0
    ∧ (ran (.coreWake 95 .hawkmoth) (hart fun c => { c with power := 3 })).xreg 95 7 = 0 := by decide +kernel

theorem test_interrupt : hart.hartIdle 95 = true ∧ ((ran (.interrupt 95 false (2 ^ 63 + 7)) hart).core 95).mcause = 2 ^ 63 + 7
    ∧ ((ran (.interrupt 95 true 9) hart).core 95).mncause = 9 := by decide +kernel
theorem test_interrupt_delegated : (ran (.interrupt 95 false (2 ^ 63 + 24)) (hart.writeCsr 95 0x303 (2 ^ 24))).csr 95 0x142 = 2 ^ 63 + 24
    ∧ ((ran (.interrupt 95 false (2 ^ 63 + 24)) (hart.writeCsr 95 0x303 (2 ^ 24))).core 95).mcause = 0 := by decide +kernel
theorem test_csrs : (hart.writeCsr 95 0x305 (2 ^ 64 - 1)).readCsr 95 0x305 = some (2 ^ 64 - 3)
    ∧ hart.readCsr 95 0x301 = some misa ∧ hart.readCsr 95 0x7FF = none ∧ hart.csrOpen 95 0xC01 false false = false
    ∧ (hart.writeCsr 95 0x306 2).csrOpen 95 0xC01 false false = true := by decide +kernel
theorem test_inhibit : (((hart.setHpm 95 35 1).writeCsr 95 0x320 8).hpmEvent 95 1).counter 95 3 = 0
    ∧ ((hart.setHpm 95 35 1).hpmEvent 95 1).counter 95 3 = 1 := by decide +kernel
theorem test_mtime : ((hart fun c => { c with mip := 128 }).writeIrq (.mtimecmp 95) 50).writeIrq .mtime 60 |>.mipOf 95 |> (bit · 7) := by decide +kernel
theorem test_imsic : coherentAgent .cocoon = true ∧ (255 : Nat) ≤ imsicTop (imsicFile 95 .s) ∧ imsicTop (imsicFile 95 (.guest 6)) = 63
    ∧ bit ((ran (.imsicWrite .cocoon 95 .s 255) hart).eip (imsicFile 95 .s)) 255 = true := by decide +kernel
theorem test_timer : hart.comparator 95 .mtimecmp ≤ hart.cores.mtime ∧ ((ran (.timerCompare 95 .mtimecmp) hart).core 95).mip ≠ 0 := by decide +kernel
def bitten (e : Bool) : State := (hart fun c => { c with dog := 60000 * 100000, expired := e }).wr mwdog.EN 1 95
theorem test_watchdog : (bitten false).on mwdog.EN 95 = true ∧ (bitten false).dogPeriod 95 ≤ ((bitten false).core 95).dog
    ∧ (ran (.coreWatchdog 95) (bitten false)).rd mwdog.FIRED 95 = 1 := by decide +kernel
theorem test_watchdog_again : ((bitten true).core 95).expired = true ∧ (bitten true).dogPeriod 95 ≤ ((bitten true).core 95).dog := by decide +kernel
theorem test_kick : ((ran (.kick 95) (bitten true)).core 95).expired = false := by decide +kernel
theorem test_flush : ((ran (.flush 95) (hart fun c => { c with pred := [(1, 1)] })).core 95).pred = [] := by decide +kernel
theorem test_debug_halt : bit ((hart.wr SEC_STATUS.DEBUG 2).rd SEC_STATUS.DEBUG) 1 = true
    ∧ ((ran (.debugHalt 95) (hart.wr SEC_STATUS.DEBUG 2)).core 95).debug = 2 := by decide +kernel

/-! ## Coherence (R274 to R306) -/

/-- The HBM line at 0x1000, a host-memory line, and their keys. -/
def lineA : Line := ⟨false, 0x40⟩
def lineH : Line := ⟨true, 0x40⟩
def kA : Nat := lineA.key
def kH : Nat := lineH.key
def data64 : List Byte := (List.range 64).map (BitVec.ofNat 8)
/-- A directory entry of an owner and sharers. -/
def ent (o : Option Nat) (ss : List Nat) : DirEnt := ⟨false, o, ss, none, 3, 1⟩
/-- Messages in flight, directory entries and open transactions. -/
def coh (net : List Msg) (dir : List (Nat × DirEnt) := []) (txns : List (Nat × Txn) := []) : State :=
  { live with coh := { live.coh with net := net, dir := dir, txns := txns } }
def reqOf (kind : ReqKind) (a : Nat) : Req := ⟨kind, some a, a, none, false⟩
def anon (kind : ReqKind) (st : Nat) : Req := ⟨kind, none, st, none, false⟩
def by5 : Requester := ⟨some 5, 5⟩
def waitsOn (s : State) (k : Nat) : Option (List Nat × Bool) := (s.txn k).map fun x => (x.waiting, x.needMem)
def idle (s : State) (k : Nat) : Bool :=
  s.homeUp k && s.hasHome k && !s.hubFull (s.home k) && (s.txn k).isNone && (s.queued k).isEmpty && (s.tokens (s.home k) (dirSet (keyAddr k))).isEmpty

def rds0 : State := coh [.req kA (reqOf .rds 5)]
theorem test_home_rds : idle rds0 kA = true ∧ rds0.streamOpen 5 = true ∧ rds0.entry kA = none ∧ (rds0.freeWay (rds0.home kA) (dirSet 0x40)).isSome = true
    ∧ waitsOn (ran (.rds lineA by5 none 0 0) rds0) kA = some ([], true) := by decide +kernel
theorem test_home_rds_host : idle (coh [.req kH (reqOf .rds 5)]) kH = true
    ∧ (ran (.rds lineH by5 none 0 0) (coh [.req kH (reqOf .rds 5)])).coh.net = [.toHost kH "RdShared"] := by decide +kernel
theorem test_home_rdx : waitsOn (ran (.rdx lineA by5 none 0) (coh [.req kA (reqOf .rdx 5)])) kA = some ([], true) := by decide +kernel
theorem test_home_rds_owned : ((coh [] [(kA, ent (some 7) [])]).entry kA).map (·.owner) = some (some 7)
    ∧ (ran (.rds lineA by5 none 0 0) (coh [.req kA (reqOf .rds 5)] [(kA, ent (some 7) [])])).coh.net = [.snp kA .snpS 7] := by decide +kernel
theorem test_home_rdx_owned : (ran (.rdx lineA by5 none 0) (coh [.req kA (reqOf .rdx 5)] [(kA, ent (some 7) [8])])).coh.net
    = [.snp kA .snpX 7, .snp kA .snpInv 8] := by decide +kernel
theorem test_home_rdcur_owned : (ran (.rdcur lineA ⟨none, 97⟩) (coh [.req kA (anon .rdcur 97)] [(kA, ent (some 96) [])])).coh.net
    = [.bisnp kA .snpCur] := by decide +kernel
theorem test_home_upg : ((coh [] [(kA, ent none [5, 8])]).entry kA).map (·.sharersAll.filter (· != 5)) = some [8]
    ∧ waitsOn (ran (.upg lineA by5 none) (coh [.req kA (reqOf .upg 5)] [(kA, ent none [5, 8])])) kA = some ([8], false) := by decide +kernel
theorem test_home_upg_alone : (ran (.upg lineA by5 none) (coh [.req kA (reqOf .upg 5)] [(kA, ent none [5])])).coh.net = [.gntma kA 5] := by decide +kernel
theorem test_home_puts : ((ran (.puts lineA 5) (coh [.req kA (reqOf .puts 5)] [(kA, ent none [5, 8])])).entry kA).map (·.sharers) = some [8] := by decide +kernel
theorem test_home_pute : (ran (.pute lineA 5) (coh [.req kA (reqOf .pute 5)] [(kA, ent (some 5) [])])).entry kA = none := by decide +kernel
theorem test_home_putm : (ran (.putm lineA 5 data64 false) (coh [.req kA (reqOf (.putm data64 false) 5)] [(kA, ent (some 5) [])])).coh.net
    = [.cmpput kA 5] := by decide +kernel
theorem test_home_stale : (ran (.puts lineA 5) (coh [.req kA (reqOf .puts 5)] [(kA, ent none [8])])).rd DIR_STALE.COUNT 0 = 1
    ∧ (ran (.pute lineA 5) (coh [.req kA (reqOf .pute 5)] [(kA, ent (some 8) [])])).coh.net = [.cmpput kA 5]
    ∧ (ran (.putm lineA 5 data64 false) (coh [.req kA (reqOf (.putm data64 false) 5)])).coh.net = [.cmpput kA 5] := by decide +kernel
theorem test_home_writes : (ran (.wrfull lineA ⟨none, 97⟩ data64 false) (coh [.req kA (anon (.wrfull data64 false) 97)])).coh.net = [.cmp kA 97]
    ∧ waitsOn (ran (.rdcur lineA ⟨none, 97⟩) (coh [.req kA (anon .rdcur 97)])) kA = some ([], true)
    ∧ waitsOn (ran (.wrpart lineA ⟨none, 97⟩ 1 ⟨data64, false⟩) (coh [.req kA (anon (.wrpart 1 data64 false) 97)])) kA = some ([], true)
    ∧ waitsOn (ran (.atomf lineA ⟨none, 97⟩ .add 0 2 1 0) (coh [.req kA (anon (.atomf .add 0 2 1 0) 97)])) kA = some ([], true)
    ∧ waitsOn (ran (.addm lineA ⟨none, 97⟩ 60 0 (zeros 4)) (coh [.req kA (anon (.addm 60 0 (zeros 4)) 97)])) kA = some ([], true) := by decide +kernel
theorem test_home_wrfull_held : waitsOn (ran (.wrfull lineA ⟨none, 97⟩ data64 false)
    (coh [.req kA (anon (.wrfull data64 false) 97)] [(kA, ent none [5, 8])])) kA = some ([5, 8], false) := by decide +kernel

/-- An open transaction. -/
def txn0 (r : Option Req) (waiting : List Nat) (mem : Bool) (why : TxnWhy := .request) : Txn :=
  ⟨r, waiting, [], [], mem, none, none, none, [], none, false, false, why, 0⟩
def reading : State := coh [] [(kA, ent none [])] [(kA, txn0 (some (reqOf .rds 5)) [] true)]
theorem test_memory_data : (reading.txn kA).isSome = true ∧ ((reading.entry kA).map fun e => decide (e = DirEnt.empty 3 1)) = some true
    ∧ reading.served (reading.home kA) 0 = true
    ∧ (ran (.memoryData lineA 0) reading).coh.net = [.gnt kA 5 .e (zeros 64) false] := by decide +kernel
def readingCur : State := coh [] [] [(kA, txn0 (some (anon .rdcur 97)) [] true)]
theorem test_memory_data_cur : (ran (.memoryData lineA 0) readingCur).coh.net = [.cmpd kA 97 (zeros 64) false] := by decide +kernel
def snooped7 : State := coh [.rspd kA 7 .i data64 true false] [(kA, ent (some 7) [])] [(kA, txn0 (some (reqOf .rdx 5)) [7] false)]
theorem test_rspd : (ran (.rspd lineA 7 .i data64 true false) snooped7).coh.net = [.gnt kA 5 .m data64 false] := by decide +kernel
def snooped78 : State := coh [.rsp kA 7 .i false] [(kA, ent none [7, 8])] [(kA, txn0 (some (reqOf .rdx 5)) [7, 8] false)]
theorem test_rsp : [7, 8].filter (· != 7) ≠ [] ∧ waitsOn (ran (.rsp lineA 7 .i false) snooped78) kA = some ([8], false) := by decide +kernel
theorem test_rsp_unasked : ((ran (.rsp lineA 7 .i false) live).ras.queue.map (·.status)) = [stBadDescriptor]
    ∧ ((ran (.rspd lineA 7 .i data64 false false) live).ras.queue.length) = 1 := by decide +kernel

/-- A line of core 5's L2 in a state. -/
def lineOf5 (st : CState) (net : List Msg := []) : State :=
  let s := coh net
  s.setLine kA 5 ⟨st, data64, false, none, none, none⟩
theorem test_snoops : ((lineOf5 .m).core 5).going = none ∧ (snoopTable .m .snpS).2 ≠ .hold
    ∧ (ran (.snps lineA 5) (lineOf5 .m [.snp kA .snpS 5])).coh.net.length = 1
    ∧ (ran (.snpx lineA 5) (lineOf5 .m [.snp kA .snpX 5])).coh.net.length = 1
    ∧ ((ran (.snpinv lineA 5) (lineOf5 .s [.snp kA .snpInv 5])).line kA 5).st = .i
    ∧ (ran (.snpcur lineA 5) (lineOf5 .m [.snp kA .snpCur 5])).coh.net.length = 1 := by decide +kernel
theorem test_snoop_held : (snoopTable .isD .snpS).2 = .hold ∨ (snoopTable .imD .snpS).2 = .hold ∨ (snoopTable .imA .snpS).2 = .hold := by decide +kernel
theorem test_grants : ((ran (.gnts lineA 5 data64 false) (lineOf5 .isD [.gnt kA 5 .s data64 false])).line kA 5).st = .s
    ∧ ((ran (.gnte lineA 5 data64 false) (lineOf5 .isD [.gnt kA 5 .e data64 false])).line kA 5).st = .e
    ∧ ((ran (.gntm lineA 5 data64 false) (lineOf5 .imD [.gnt kA 5 .m data64 false])).line kA 5).st = .m
    ∧ ((ran (.gntma lineA 5) (lineOf5 .smA [.gntma kA 5])).line kA 5).st = .m := by decide +kernel
theorem test_cmpput : ((ran (.cmpput lineA 5) (lineOf5 .iiA [.cmpput kA 5])).line kA 5).st = .i := by decide +kernel
theorem test_retry : (ran (.retry lineA 5 8191) (lineOf5 .isD [.retry kA 5 8191])).coh.net = [.req kA ⟨.rds, some 5, 5, some 8191, false⟩] := by decide +kernel
def loading : State := (coh [.cmpd kA 5 data64 false]).setCore 5 fun c => { c with power := 0, pend := some ⟨.load 3 0x1001 1 false, [kA], []⟩ }
theorem test_cmpd : (loading.core 5).pend.isSome = true ∧ (ran (.cmpd lineA ⟨none, 5⟩ data64 false) loading).xreg 5 3 = 1 := by decide +kernel

/-- The host link is up and decoder 0 of the component registers is committed over the whole HBM. -/
def hosted (s : State) : State :=
  let s := s.wr HOST_LINK.UP 1
  { s with host := { s.host with comp := [(hdmOff + 0x10, 0), (hdmOff + 0x1C, 0x100), (hdmOff + 0x20, 0x400)] } }
theorem test_host_up : (hosted live).hostUp = true ∧ (hosted live).hostRequests < 2048 ∧ (hosted live).hubFull 0 = false ∧ (hosted live).homeUp kA = true := by decide +kernel
theorem test_host_decoded : (hosted live).decoded 0x1000 = true ∧ live.decoded 0x1000 = false := by decide +kernel
theorem test_memrd : readKind .i (hosted live) kA = some .rdcur ∧ waitsOn (ran (.memrd 0x1000 .i) (hosted live)) kA = some ([], true)
    ∧ waitsOn (ran (.memrddata 0x1000 .a) (hosted live)) kA = some ([], true) := by decide +kernel
theorem test_meminv : invKind .i (hosted live) kA = some .puts ∧ invKind .s (hosted live) kA = none
    ∧ (ran (.meminv 0x1000 .i) (hosted live)).coh.net = [.cmpput kA 96]
    ∧ (ran (.meminvnt 0x1000 .i) (hosted live)).coh.net = [.cmpput kA 96] := by decide +kernel
theorem test_memwr : memRead (ran (.memwr 0x1000 .i data64 false) (hosted live)).hbm 0x1001 1 ≠ [0] ∨ (ran (.memwr 0x1000 .i data64 false) (hosted live)).mem.sc ≠ [] := by decide +kernel
theorem test_memwrptl : waitsOn (ran (.memwrptl 0x1000 1 data64 false) (hosted live)) kA = some ([], true) := by decide +kernel
theorem test_host_ur : ((ran (.memrd 0x1000 .i) (live.wr HOST_LINK.UP 1)).resp.ur) = true := by decide +kernel
theorem test_link_fell : (State.reset.wr HOST_LINK.SPEED 6).linkFell = true ∧ State.reset.linkFell = false := by decide +kernel
theorem test_host_snoop_waits : ((hosted (coh [] [] [(kH, txn0 none [5] false .victim)])).hostSnoopAt 0x1000 .snpInv).queued kH
    = [⟨.hostSnp .snpInv, none, 96, none, false⟩] := by decide +kernel
theorem test_host_snoop_miss : (ran (.hostSnpinv 0x1000) (hosted live)).coh.net = [.toHost kH "RspIHitI"] := by decide +kernel
theorem test_host_snoop : (ran (.hostSnpinv 0x1000) (hosted (coh [] [(kH, ent none [5, 8])]))).coh.net = [.snp kH .snpInv 5, .snp kH .snpInv 8]
    ∧ (ran (.hostSnpdata 0x1000) (hosted (coh [] [(kH, ent (some 5) [])]))).coh.net = [.snp kH .snpS 5]
    ∧ (ran (.hostSnpcur 0x1000) (hosted (coh [] [(kH, ent (some 5) [])]))).coh.net = [.snp kH .snpCur 5] := by decide +kernel

def invalidating : State := coh [.bisnp kA .snpInv] [(kA, ent (some 96) [])] [(kA, txn0 none [96] false .victim)]
theorem test_birsp : (invalidating.txn kA).map (·.why) = some .victim ∧ (ran (.birsp lineA .i) invalidating).entry kA = none := by decide +kernel
def unanswered : State := { coh [] [(kA, ent (some 96) [5])] [(kA, txn0 (some (reqOf .rdx 5)) [96, 7] false)] with clock := 1000000 }
theorem test_birsp_timeout : [96, 7].filter (· != hostAgent) ≠ [] ∧ unanswered.hostInA kA = true
    ∧ (ran (.birspTimeout lineA) unanswered).rd DIR_ERR.STATUS 0 = stHostLost
    ∧ getK false (ran (.birspTimeout lineA) unanswered).hbmPoison 0x40 = true := by decide +kernel
def askedHost : State := coh [] [(kH, ent none [])] [(kH, { txn0 (some (reqOf .rds 5)) [] true with asked := true })]
theorem test_host_answer : (ran (.hostCacheResponse lineH .e data64 false) askedHost).coh.net = [.gnt kH 5 .e data64 false]
    ∧ memGet (ran (.hostCacheResponse lineH .e data64 false) askedHost).hostMem 0x1001 = 1 := by decide +kernel
theorem test_biconflict : (ran (.biconflict lineA) live).coh.net = [.toHost kA "BIConflictAck"] := by decide +kernel
theorem test_dir_lookup : live.home kA = 0 ∧ (ran (.dirLookup .pf 0 false 0x40) (coh [] [(kA, ent (some 7) [])])).rd DIR_LOOKUP_DATA.OWNER 0 = 7
    ∧ (ran (.dirLookup .pf 0 false 0x40) live).rd DIR_LOOKUP_DATA.OWNER 0 = 127 := by decide +kernel
def resetting (x : Nat × Nat) (s : State) : State := { s with rst := { s.rst with busy := [x] } }
theorem test_writeback_timeout : (resetting (3, 0) (coh [] [(kA, ent (some 7) [])])).rst.busy.contains (3, 0) = true := by decide +kernel
theorem test_recall_timeout : (resetting (2, 1) live).rst.busy.contains (2, 1) = true := by decide +kernel

/-! What the homes do with Puts that wait, group entries, tokens, the ordered class and a reset (R279, R283, R285, R295, R297,
R304). -/

/-- A line in a transaction with requests that wait for it. -/
def queuedAt (q : List Req) (s : State) : State := s.setCoh fun c => { c with lineq := [(kA, q)] }
/-- The read of core 5 ends; core 7's PutM waited before core 6's RdX, behind it: the data are its write-back (R285). -/
def putWaits : State := queuedAt [reqOf .rdx 6, reqOf (.putm data64 false) 7] (coh [] [(kA, ent (some 7) [])])
def putTaken : State := putWaits.pump 8 [kA]
theorem test_put_waits : (putTaken.txn kA).map (fun x => (x.waiting, x.crossed)) = some ([7], [7])
    ∧ putTaken.coh.net = [.snp kA .snpX 7]
    ∧ (ran (.rsp lineA 7 .i true) putTaken).coh.net = [.snp kA .snpX 7, .cmpput kA 7, .gnt kA 6 .m data64 false] := by decide +kernel
theorem test_group : let e : DirEnt := ⟨false, some 40, [], some 3, 3, 1⟩
    let t := ran (.rdx lineA by5 none 0) (coh [.req kA (reqOf .rdx 5)] [(kA, e)])
    (t.txn kA).map (fun x => x.waiting.contains 5) = some false ∧ (t.txn kA).map (fun x => x.waiting.length) = some 16
    ∧ (e.owned 5 2).group = some 0 := by decide +kernel
theorem test_group_host : ((ran (.puts lineA 96) (coh [.req kA (reqOf .puts 96)] [(kA, ⟨false, none, [], some 4097, 3, 1⟩)])).entry kA).map
    (·.group) = some (some 1) := by decide +kernel
theorem test_ordered : let s := hosted (coh [] [] [(kA, txn0 (some ⟨.rdcur, some 96, 96, none, false⟩) [] true)])
    s.orderedOpen 96 (some (kA + 1)) = true ∧ s.orderedOpen 96 (some kA) = false
    ∧ (ran (.memwr 0x2000 .i data64 false) s).coh.txns = s.coh.txns ∧ (ran (.memwr 0x2000 .i data64 false) s).mem.sc = s.mem.sc := by decide +kernel
theorem test_recall : let s := resetting (2, 0) (coh [.req kA (reqOf (.putm data64 false) 7)] [(kA, ent (some 7) [])])
    s.homeUp kA = false ∧ (ran (.putm lineA 7 data64 false) s).entry kA = none := by decide +kernel
theorem test_host_poison : getK false (ran (.hostCacheResponse lineH .e data64 true) askedHost).coh.hostBad kH = true
    ∧ ((ran (.hostCacheResponse lineH .e data64 true) askedHost).hostLine kH).2 = true := by decide +kernel
theorem test_meminv_no_data : (hosted live).hostListed kA = false
    ∧ (ran (.memoryData lineA 0) (ran (.meminv 0x1000 .a) (hosted live))).coh.net = [.gntma kA 96] := by decide +kernel
/-- Tokens 37 and 38 wait in the set of line A. -/
def tokened : State := (queuedAt [⟨.rds, some 7, 7, some 37, false⟩] (coh [.req kA (reqOf .rds 9)])).setCoh fun c =>
  { c with tokq := [(setKey 0 (dirSet 0x40), [⟨37, kA, none, 0⟩, ⟨38, kA + 1, none, 0⟩])], tokUsed := [(37, true), (38, true)] }
theorem test_third_waits : (ran (.rds lineA ⟨some 9, 9⟩ none 0 0) tokened).coh.net = [.retry kA 9 0]
    ∧ (ran (.rds lineA ⟨some 9, 9⟩ none 0 0) tokened).queued kA = [⟨.rds, some 7, 7, some 37, false⟩] := by decide +kernel
theorem test_token_order : let s := tokened.setCoh fun c => { c with
      tokq := [(setKey 0 (dirSet 0x40), [⟨37, kA, none, 0⟩, ⟨38, kA + 1, some 4, 0⟩])] }
    s.tokenTurn kA ⟨.rds, some 7, 7, some 37, false⟩ = false ∧ s.tokenTurn (kA + 1) ⟨.rdx, some 12, 12, some 38, false⟩ = false := by decide +kernel
theorem test_recover_skips : (lineOf5 .isD).awaits kA 5 = true ∧ (lineOf5 .isD [.gnt kA 5 .s data64 false]).awaits kA 5 = false := by decide +kernel

/-! ## HBM, the system caches and the geyser engines (R307 to R339) -/

def scrubOn : State := live
def scrubOff : State := live.wr HBM_SCRUB.EN 0
theorem test_hbm_scrub : live.on HBM_SCRUB.EN = true ∧ hubOfPc (scrubOn.pcOfLine 0x40) = 0 ∧ scrubOn.pcFailed (scrubOn.pcOfLine 0x40) = false
    ∧ getK 0 scrubOn.mem.err 0x40 ≤ 1 ∧ scrubOn.metaLine 0x40 = false := by decide +kernel
theorem test_hbm_scrub_off : scrubOff.on HBM_SCRUB.EN = false ∧ (ran (.hbmScrubRead 0 0x40 2) scrubOff).rd HBM_ERR_UNCORR.COUNT 0 = 0 := by decide +kernel
theorem test_refresh : getK false live.mem.selfRef (767 / 64) = false ∧ getK 0 (ran (.refresh 767) live).mem.refreshed 767 = 1 := by decide +kernel
def inSelfRefresh : State := { live with mem := { live.mem with selfRef := [(11, true)] } }
theorem test_refresh_not : getK false inSelfRefresh.mem.selfRef (767 / 64) = true := by decide +kernel
theorem test_power_down : getK false (ran (.pseudoChannelPowerDown 5) live).mem.powerDown 5 = true := by decide +kernel
theorem test_pc_failed : live.mappedOut 384 = false ∧ live.pcFailed 384 = false ∧ (ran (.pseudoChannelFailed 384) live).pcFailed 384 = true
    ∧ (ran (.pseudoChannelFailed 384) live).rd HBM_INT_STATUS.FAILED 1 = 1
    ∧ (live.wr HBM_MAPOUT.OUT 1 0 6).mappedOut 384 = true := by decide +kernel
theorem test_policy : (ran (.hbmPolicyWrite .pf true) live).rd HBM_MAP.POLICY = 1 := by decide +kernel
theorem test_refill : live.credit 0 3 = 65536 ∧ (ran (.partitionRefill 0) ((live.wr HBM_PART.BURST_KIB 4 0 3))).credit 0 3 = 4096 := by decide +kernel

theorem test_preload_bad : (12 : Nat) < popBits (live.rd SC_LOCK.LOCKED 0 ||| 0x1FFF) 16
    ∧ (ran (.scPreload .pf 0 0x1FFF) live).rd SC_PRELOAD_CTRL.STATUS 0 = stBadDescriptor := by decide +kernel
def preloading : State := ran (.scPreload .pf 0 3) ((live.wr SC_PRELOAD_BASE.BASE 0x40 0).wr SC_PRELOAD_LEN.LEN 64 0)
theorem test_preload : live.namesDisabled 0 3 = false ∧ preloading.rd SC_PRELOAD_CTRL.BUSY 0 = 1
    ∧ (preloading.mem.preload.find? (·.1 = 0)).map (·.2) = some (0x40, 0x41, 3) := by decide +kernel
theorem test_preload_done : hubOfPc (preloading.pcOfLine 0x40) = 0 ∧ preloading.scFind 0x40 = none
    ∧ ((List.range 16).filter (bit 3)).find? (fun x => (preloading.scAt 0 (scSet 0x40) x).isNone) = some 0
    ∧ (ran (.preloadDone 0) preloading).rd SC_LOCK.LOCKED 0 = 3 := by decide +kernel
theorem test_lock : popBits 0xFFF 16 = 12 ∧ (ran (.scLock .pf 0 0xFFF) live).rd SC_LOCK.LOCKED 0 = 0xFFF
    ∧ popBits 0x1FFF 16 = 13 ∧ (ran (.scLock .pf 0 0x1FFF) live).rd SC_LOCK.REJECT 0 = stBadDescriptor := by decide +kernel
theorem test_way_off : bit (live.rd SC_LOCK.LOCKED 0) 15 = false ∧ live.wayState 0 15 = 0 ∧ (ran (.wayOffReq .pf 0 15) live).wayState 0 15 = 1 := by decide +kernel
theorem test_way_off_locked : bit ((live.wr SC_LOCK.LOCKED 0x8000 0).rd SC_LOCK.LOCKED 0) 15 = true
    ∧ (ran (.wayOffReq .pf 0 15) (live.wr SC_LOCK.LOCKED 0x8000 0)).rd SC_WAY_PWR.REJECT 0 = stBadDescriptor := by decide +kernel
def leaving : State := ran (.wayOffReq .pf 0 15) live
theorem test_way_gate : leaving.wayState 0 15 = 1 ∧ leaving.wayInFlight 0 15 = false ∧ (ran (.wayGateClose 0 15) leaving).wayState 0 15 = 2
    ∧ live.wayState 0 15 ≠ 1 := by decide +kernel
theorem test_way_on : (ran (.wayOnReq .pf 0 15) (ran (.wayGateClose 0 15) leaving)).wayState 0 15 = 0 := by decide +kernel
def disabled : State := (live.wr SC_WAY_DISABLE.DISABLED 0x8000 0).wr SC_WAY_STATE.STATE 3 0 0 15
theorem test_way_reenable : bit (disabled.rd SC_WAY_DISABLE.DISABLED 0) 15 = true ∧ disabled.namesDisabled 0 0x8000 = true
    ∧ (ran (.wayReenable .pf 0 15) disabled).wayState 0 15 = 0 := by decide +kernel

def filling (op len : Nat) : State :=
  ((((live.wr GEY_CMD0.OP op).wr GEY_CMD0.PATTERN 1).wr GEY_CMD1.BASE 0x1000).wr GEY_CMD2.LENGTH len).wr GEY_CMD0.TAG 9
def filled (op len : Nat) : State := ran (if op = 1 then .fill .pf else .crc .pf) (filling op len)
theorem test_gey_queued : (filling 1 64).rd GEY_CMD0.OP = 1 ∧ (filled 1 64).mem.geyq.length = 1 ∧ (filled 2 64).mem.geyq.length = 1 := by decide +kernel
def gey0 (op len : Nat) : GeyCmd := ((filled op len).mem.geyq.head?).getD ⟨0, 0, 0, 0, 0, 0, 0⟩
theorem test_gey_fill : (filled 1 64).geyBad (gey0 1 64) = false ∧ ((filled 1 64).prepare (keysOf 0x1000 64) true).2 = true
    ∧ (filled 1 64).creditFor (keysOf 0x1000 64) 0 = true ∧ ((ran .geyserComplete (filled 1 64)).mem.geyDone.map (·.status)) = [stOK] := by decide +kernel
theorem test_gey_crc : ((filled 2 64).prepare (keysOf 0x1000 64) false).2 = true
    ∧ ((ran .geyserComplete (filled 2 64)).mem.geyDone.map (·.crc)) = [crc64 (zeros 64)] := by decide +kernel
theorem test_gey_bad : (filled 1 63).geyBad (gey0 1 63) = true ∧ ((ran .geyserComplete (filled 1 63)).mem.geyDone.map (·.status)) = [stBadDescriptor] := by decide +kernel
theorem test_gey_empty : (filled 1 0).geyBad (gey0 1 0) = false ∧ ((ran .geyserComplete (filled 1 0)).mem.geyDone.map (·.status)) = [stOK] := by decide +kernel
theorem test_gey_done : (ran (.geyDone .pf) (ran .geyserComplete (filled 1 0))).mem.geyDone = [] := by decide +kernel
theorem test_gey_full : ({ live with mem := { live.mem with geyq := List.replicate 16 (gey0 1 0) } } : State).mem.geyq.length = 16 := by decide +kernel
theorem test_read_check : (383 : Nat) < 768 ∧ hubOfPc 383 = 0 ∧ live.on GEY_TEST_CTRL.BUSY 0 = false ∧ live.mappedOut 383 = false
    ∧ (ran (.readCheck .pf 0 383) live).rd GEY_TEST_CTRL.BUSY 0 = 1 := by decide +kernel
theorem test_write_check : ((live.wr HBM_FAILED.FAILED 1 0 0).pcFailed 0) = true
    ∧ (ran (.writeCheck .pf 0 0 4) (live.wr HBM_FAILED.FAILED 1 0 0)).rd GEY_TEST_CTRL.BUSY 0 = 1 := by decide +kernel
theorem test_check_not_ours : hubOfPc 384 ≠ 0 ∧ (ran (.readCheck .pf 0 384) live).rd GEY_TEST_CTRL.REJECT 0 = stBadDescriptor
    ∧ (ran (.writeCheck .pf 0 768 0) live).rd GEY_TEST_CTRL.REJECT 0 = stBadDescriptor := by decide +kernel
def checkDone : State := ran (.geyTestDone 0 ⟨5, 2⟩ 1 2 3) (ran (.readCheck .pf 0 383) live)
theorem test_check_done : ((ran (.readCheck .pf 0 383) live).mem.geyTest.find? (·.1 = 0)).isSome = true
    ∧ checkDone.rd GEY_TEST_RESULT.ERRORS 0 = 7
    ∧ checkDone.rd HBM_ERR_CORR.COUNT 0 = 5 ∧ checkDone.rd HBM_ERR_UNCORR.COUNT 0 = 2 ∧ checkDone.rd HBM_ERR_LAST.PC 0 = 383
    ∧ checkDone.credit 0 0 = 65536 - 2 ^ 30 := by decide +kernel
theorem test_check_source : (Blk.geyTest.sources 1) = [536] ∧ (sourceBlocks 535).contains (.geyTest, 0) = true := by decide
/-- Partition 3 has no credit left at HD0. -/
def broke : State := { live with mem := { live.mem with credit := [(3, 0)], pmap := [(161, 3)] } }
def heldWrite : State := ran (.wrfull lineA ⟨none, 128⟩ data64 false) broke
theorem test_write_waits : broke.home kA = 0 ∧ broke.writeWaits kA ⟨.wrfull data64 false, none, 128, none, false⟩ = true
    ∧ (heldWrite.queued kA).length = 1 ∧ heldWrite.hbm = [] ∧ (ran (.partitionRefill 0) heldWrite).queued kA = []
    ∧ (ran (.partitionRefill 0) heldWrite).hbmLine (keyAddr kA) = data64 ∧ (ran (.partitionRefill 1) heldWrite).hbm = [] := by decide +kernel
/-- A read of partition 3 waits; partition 0 was served last of class 2. -/
def rivals : State := { ran (.rdcur lineA ⟨none, 96⟩) { live with mem := { live.mem with pmap := [(96, 3)] } } with
  mem := { live.mem with pmap := [(96, 3)], turns := [(1, 0)] } }
theorem test_turns : rivals.waitsAt (rivals.ctrlOf (keyAddr kA)) = [3] ∧ rivals.turn (keyAddr kA) 3 = true ∧ rivals.turn (keyAddr kA) 5 = false
    ∧ rivals.turn (keyAddr kA) 2 = true ∧ (rivals.wr HBM_PART.MIN 1 0 3).turn (keyAddr kA) 2 = false := by decide +kernel
theorem test_tracker : let t : Tracker := ⟨0, 100, 2, 3, none, 0⟩
    (t.miss 104 1).2 = true ∧ ((t.miss 105 1).1.miss 102 2).2 = true ∧ (t.miss 110 1).2 = true
    ∧ (((t.miss 65 1).1.miss 66 2).1.miss 67 3) = (⟨0, 67, 1, 3, none, 3⟩, true) := by decide
/-- A way with a second uncorrectable error, on its way to DISABLED. -/
def dying : State := live.disableWay 0 15
theorem test_way_dying : dying.wayState 0 15 = 1 ∧ dying.leaving 0 15 = true ∧ dying.namesDisabled 0 0x8000 = true
    ∧ (ran (.wayOnReq .pf 0 15) dying).wayState 0 15 = 1 ∧ (ran (.wayGateClose 0 15) dying).wayState 0 15 = 3
    ∧ bit ((ran (.wayGateClose 0 15) dying).rd SC_WAY_DISABLE.DISABLED 0) 15 = true := by decide +kernel
theorem test_self_refresh : getK false (live.hubDown 1).mem.selfRef 6 = true ∧ getK false (live.hubDown 1).mem.selfRef 5 = false := by decide +kernel
/-- The Hawkmoth stores an entry of the map-out list, and the module is powered off and on. -/
def mapTold : State := ran (.registerWrite .hawkmoth (HBM_MAPOUT.OUT.addr 0 1) 8 4) live
theorem test_map_told : mapTold.mappedOut 66 = false ∧ (ran (.registerWrite .pf (HBM_MAPOUT.OUT.addr 0 1) 8 4) live).mem.mapNext = []
    ∧ (mapTold.withoutPower.trainHbm []).mappedOut 66 = true ∧ (mapTold.withoutPower.trainHbm []).pcs = 767 := by decide +kernel

/-! ## The host port and the work rings (R340 to R369) -/

def linked : State := live.wr HOST_LINK.UP 1
def vfs : State := { linked with host := { linked.host with cfg := [(0x62, 1), (0x64, 64)] } }
theorem test_perst : live.on HOST_RESET.STATE = false ∧ live.host.perst = false
    ∧ (ran .perstDeassert { live with host := { live.host with perst := true } }).host.perst = false := by decide +kernel
theorem test_hot_reset : linked.hostUp = true ∧ live.hostUp = false := by decide +kernel
theorem test_link_up : linkGood ⟨6, 16, true, true, true⟩ = true ∧ linkGood ⟨6, 16, false, true, true⟩ = false ∧ linkGood ⟨6, 8, true, false, true⟩ = false ∧ live.host.perst = false ∧ live.board.powered = true
    ∧ (ran (.hostLinkUp ⟨6, 16, true, true, true⟩) live).rd HOST_LINK.UP = 1 := by decide +kernel
theorem test_retrain : (ran (.linkRetrain 9) linked).rd HOST_LINK_CNT.ERRORS = 9 := by decide +kernel
theorem test_config : vfs.funcHere 64 = true ∧ linked.funcHere 1 = false     ∧ getK 0 (ran (.configRequest 0 1023 (some 5)) linked).host.cfg 1023 = 5
    ∧ (ran (.configRequest 1 0 none) linked).resp.ur = true := by decide +kernel
theorem test_flr : vfs.funcHere 3 = true ∧ vfs.hostUp = true := by decide +kernel
/-- MSI-X of the physical function is enabled, or enabled and masked. -/
def msixOn (s : State) (masked : Bool := false) : State :=
  { s with host := { s.host with cfg := [(0x2C, if masked then 3 * 2 ^ 30 else 2 ^ 31)] } }
theorem test_msix : (live.msix 0 5).out = [] ∧ ((msixOn live true).msix 0 5).irq.msix = [(0, 5)]
    ∧ (ran (.configRequest 0 0x2C (some 0x80000000)) ((msixOn linked true).msix 0 5)).out = [.msix 0 5] := by decide +kernel
theorem test_config_space : (ran (.configRequest 0 0x65 none) linked).resp.data = [1, 0, 1, 0]
    ∧ linked.configRead 0 0x6B = 0x4 ∧ (ran (.configRequest 0 0x6B (some 0xFFFFFFFF)) linked).configRead 0 0x6B = 0xFFFC0004
    ∧ (ran (.configRequest 0 0x1A (some 0x60)) linked).configRead 0 0x1A = 0 ∧ (ran (.configRequest 0 0x1A (some 0x40)) linked).configRead 0 0x1A = 0x40
    ∧ linked.configRead 0 0xA3 = 0x0C010100 := by decide +kernel
theorem test_d3 : ((ran (.configRequest 0 0x11 (some 3)) linked).inD3 0) = true
    ∧ (ran (.registerWrite .pf (PWR_CAP.WATTS.addr 0 0) 8 1500) (ran (.configRequest 0 0x11 (some 3)) linked)).resp.ur = true := by decide +kernel
/-- The DOE mailbox holds a discovery request for protocol 1. -/
def doe : State := { linked with host := { linked.host with doeIn := [1, 3, 1] } }
theorem test_doe : (ran (.configRequest 0 0x8A (some 0x80000000)) doe).host.doeOut = [1, 3, 0x00021E98]
    ∧ (ran (.configRequest 0 0x8A (some 0x80000000)) linked).host.doeBad = true := by decide +kernel
theorem test_link_errors : bit ((ran (.linkRetrain 9) linked).configRead 0 0x44) 0 = true
    ∧ (ran (.linkRetrain 0) linked).host.cfg = linked.host.cfg := by decide +kernel
theorem test_decoder : ((((live.writeComp (hdmOff + 0x1C) 0x100).writeComp (hdmOff + 0x20) 0x200).comp (hdmOff + 0x20))) = 0xA00
    ∧ (((live.writeComp (hdmOff + 0x18) 0x1FFFFFFF).writeComp (hdmOff + 0x20) 0x200).decoderSize 0) = 0x10000000
    ∧ (((live.writeComp (hdmOff + 0x18) 0x1FFFFFFF).writeComp (hdmOff + 0x20) 0x200).decoded 0xFFFFFFF) = true
    ∧ live.comp hdmOff = 1 := by decide +kernel
/-- Ring 1000 is VF 3's local ring 5. -/
def ofVf : State := ((vfs.wr RING_CFG.FUNC 3 1000).wr RING_CFG.VF_INDEX 5 1000).wr RING_SIZE.ENTRIES 8 1000
theorem test_vf_page : ofVf.vfRing 2 5 = some 1000 ∧ ofVf.ringsFor (.vf 2) 1000 = true ∧ ofVf.ringsFor (.vf 1) 1000 = false
    ∧ (ran (.registerReadClear (.vf 2) (RING_SIZE.ENTRIES.addr 5 0) 8) ofVf).resp.data.headD 0 = 8
    ∧ (ran (.registerReadClear (.vf 2) (RING_SIZE.ENTRIES.addr 1000 0) 8) ofVf).resp.data.headD 0 = 0 := by decide +kernel
theorem test_vf_reaches : ofVf.claims (.vf 2) = true ∧ ofVf.orderedOpen 96 none = false
    ∧ named (RING_SIZE.ENTRIES.addr 5 0) = .reg .ring 5 0x18 ∧ ofVf.vfRing 2 6 = none := by decide +kernel
theorem test_ats : (ran (.atsInvalidation 3 5 ⟨6, 1⟩) { linked with host := { linked.host with atc := [⟨3, 5, 7, 0⟩, ⟨3, 5, 8, 2⟩, ⟨3, 5, 4, 2⟩] } }).host.atc = [⟨3, 5, 8, 2⟩] := by decide +kernel
theorem test_mctp : (ran (.mctpMessage [1]) linked).host.mctp = [[1]] := by decide +kernel
def risen : State := msixOn ((live.raise SEC_INT_STATUS.AUTH_DONE).wr SEC_INT_EN.AUTH_DONE 1)
theorem test_rearm_off : ¬ (bit (risen.rd HOST_EVT_EN.EN 0 (548 / 64)) (548 % 64) = true) ∧ (ran (.hostEvtRearm .pf 548) risen).out = risen.out := by decide +kernel
theorem test_rearm : bit ((risen.wr HOST_EVT_EN.EN (2 ^ 36) 0 8).rd HOST_EVT_EN.EN 0 (548 / 64)) (548 % 64) = true
    ∧ (risen.wr HOST_EVT_EN.EN (2 ^ 36) 0 8).source 548 = true
    ∧ (ran (.hostEvtRearm .pf 548) (risen.wr HOST_EVT_EN.EN (2 ^ 36) 0 8)).out.getLast? = some (.msix 0 1571) := by decide +kernel

/-- Ring 1023 of the PF with four entries is enabled; descriptor slot 0 lies at 0x1000 of host memory. -/
def ring (q0 : Nat) (q2 q3 q4 : Nat := 0) : State :=
  let s := (((linked.wr RING_SIZE.ENTRIES 4 1023).wr RING_SQ_BASE.BASE 1 1023).wr RING_CQ_BASE.BASE 2 1023)
  let s := ran (.ringEnable .pf 1023) s
  { s with hostMem := memWrite [] 0x1000 (leBytes 8 q0 ++ leBytes 8 77 ++ leBytes 8 q2 ++ leBytes 8 q3 ++ leBytes 8 q4) }
theorem test_ring_enable : ringSizeGood 4 = true ∧ ringSizeGood 65536 = true ∧ ringSizeGood 3 = false ∧ (ring 0).ringSt 1023 = rEnabled
    ∧ (ring 0).rd RING_SLOTS.USED = 4 ∧ (ran (.ringEnable .pf 1023) linked).rd RING_CFG.REJECT 1023 = stZeroWindow
    ∧ (ran (.ringEnable .pf 1023) (ring 0)).rd RING_CFG.REJECT 1023 = stBadDescriptor := by decide +kernel
theorem test_doorbell : (ring 0).ringsFor .pf 1023 = true ∧ (ran (.ringDbSq .pf 1023 3) (ring 0)).rd RING_HEAD.TAIL 1023 = 3
    ∧ (ran (.ringDbSq .pf 1023 4) (ring 0)).ringSt 1023 = rError ∧ (ran (.ringDbCq .pf 1023 3) (ring 0)).rd RING_CQ.HEAD 1023 = 3
    ∧ (ran (.ringDbCq .pf 1023 4) (ring 0)).rd RING_STATUS.ERR 1023 = stBadDescriptor
    ∧ (ran (.ringDbSq .pf 1022 3) (ring 0)).rd RING_HEAD.TAIL 1022 = 0 := by decide +kernel
def rung (q0 : Nat) (q2 q3 q4 : Nat := 0) : State := ran (.ringDbSq .pf 1023 1) (ring q0 q2 q3 q4)
def fetched (q0 : Nat) (q2 q3 q4 : Nat := 0) : State := ran (.descriptorFetch 1023 .data) (rung q0 q2 q3 q4)
theorem test_fetch : (rung 0).rd RING_HEAD.HEAD 1023 ≠ (rung 0).rd RING_HEAD.TAIL 1023 ∧ (rung 0).ringRoom 1023 = true
    ∧ (rung 0).on RING_CFG.SPACE 1023 = false ∧ ((fetched 0).ring 1023).inflight.length = 1
    ∧ (ran (.descriptorFetch 1023 .refused) (rung 0)).rd RING_STATUS.ERR 1023 = stHostLost
    ∧ (ran (.descriptorFetch 1023 .poisoned) (rung 0)).rd RING_STATUS.ERR 1023 = stEcc := by decide +kernel
/-- The rings in HBM, and no stride prefetch. -/
def inHbm (base : Nat) : State := (((rung 0).wr RING_CFG.SPACE 1 1023).wr RING_SQ_BASE.BASE base 1023).wr SC_PF.EN 0
theorem test_fetch_hbm : (inHbm 1).on RING_CFG.SPACE 1023 = true ∧ ((inHbm 1).prepare (keysOf 0x1000 256) false).2 = true
    ∧ (inHbm 1).creditFor (keysOf 0x1000 256) ((inHbm 1).ringPart 1023) = true
    ∧ (((ran (.descriptorFetch 1023 .data) (inHbm 1)).ring 1023).inflight.length) = 1 := by decide +kernel
theorem test_fetch_beyond : (inHbm (2 ^ 28 - 1)).hbmEnd < (2 ^ 28 - 1) * 4096 + 256
    ∧ (ran (.descriptorFetch 1023 .data) (inHbm (2 ^ 28 - 1))).rd RING_STATUS.ERR 1023 = stBadDescriptor := by decide +kernel
theorem test_ring_next : ((fetched 0).ringNext 1023).map (fun d => (d.slot, d.cls, d.headGood, d.argsGood)) = some (0, 0, true, true) := by decide +kernel
theorem test_nop : (ran (.nop 1023 0) (fetched 0)).rd RING_DONE.COUNT 1023 = 1
    ∧ memRead (ran (.nop 1023 0) (fetched 0)).hostMem 0x2000 2 = [0, 0x10]
    ∧ memRead (ran (.nop 1023 0) (fetched 0)).hostMem 0x2008 1 = [77] := by decide +kernel
theorem test_inline : (((fetched (1 + 64 * 256) 2 0x4000).ringNext 1023).any fun d => (fetched (1 + 64 * 256) 2 0x4000).inlineGood 1023 d) = true
    ∧ (ran (.inline 1023 0) (fetched (1 + 64 * 256) 2 0x4000)).rd RING_DONE.COUNT 1023 = 1 := by decide +kernel
theorem test_inline_empty : (ran (.inline 1023 0) (fetched 1 2 0x4000)).rd RING_DONE.COUNT 1023 = 1 := by decide +kernel
theorem test_ring_move : ((ran (.moveClass 1023 0) (fetched (2 + 64 * 256) (5 + 512))).mover 5 1).cur.isSome = true := by decide +kernel
theorem test_ring_exec : (fetched 3 2 7).mayCommand 0 2 = true
    ∧ (memRead (ran (.exec 1023 0) (fetched (3 + 0x80) 2 7)).hostMem 0x2000 1) = [BitVec.ofNat 8 stBadDescriptor]
    ∧ (ran (.exec 1023 0) (fetched 3 2 7)).rd RING_DONE.COUNT 1023 = 1 := by decide +kernel
theorem test_ring_tier : ((fetched (4 + 32 * 256)).ringNext 1023).map (fun d => (d.cls, d.plen)) = some (4, 32) := by decide +kernel
theorem test_ring_land : (ran (.land 1023 0) (fetched 5 (5 + 7 * 512) 9)).cnt 5 7 = 9 := by decide +kernel
theorem test_ring_bad : (ran (.nop 1023 0) (fetched 0x80)).rd RING_DONE.COUNT 1023 = 1
    ∧ memRead (ran (.nop 1023 0) (fetched 0x80)).hostMem 0x2000 1 = [BitVec.ofNat 8 stBadDescriptor] := by decide +kernel
theorem test_ring_out_of_service : memRead (ran (.nop 1023 0) ((fetched 0).wr RAS_SERVICE.OUT 1)).hostMem 0x2000 1 = [BitVec.ofNat 8 stOutOfService] := by decide +kernel
theorem test_drain_ring : ((ring 0).ring 1023).inflight = [] ∧ (ran (.ringDrain .pf 1023) (ring 0)).ringSt 1023 = rDisabled := by decide +kernel
theorem test_holdoff : (let u := ((ring 0).setRing 1023 fun x => { x with due := some 0 }).wr RING_IRQ.HOLDOFF_US 2 1023
    u.holdoffOver 1023 = false ∧ ((ring 0).ring 1023).due = none
    ∧ ((ran (.msixHoldoffExpiry 1023) { u with clock := 200 }).ring 1023).due = none) := by decide +kernel

/-! ## The module, the chain and boot (R22 to R38, R406 to R408) -/

def dark : State := { State.reset with board := { State.reset.board with powered := false, vin := true, enable := true } }
def booting : State := { State.reset with board := { State.reset.board with powered := true, boot := .pending } }
theorem test_power_conditions : live.board.powered = true ∧ dark.board.powered = false ∧ dark.board.enable = true ∧ dark.board.vin = true := by decide +kernel
theorem test_power_noted : (ran (.powerOn ⟨[], [], []⟩) live).board.vin = true ∧ (ran (.enableHigh ⟨[], [], []⟩) live).board.enable = true := by decide +kernel
theorem test_cage : ((ran (.cageInsert 3 true) dark).port 6).present = true ∧ ((ran (.cageRemove 3) dark).port 7).present = false
    ∧ (ran (.cageRemove 7) live).portSt 15 = pEmpty ∧ (ran (.chPresChange true) live).rd CHN_LINK.TAIL = 0 := by decide +kernel
theorem test_pmbus_write : ran (.pmbusWrite 3 [4]) live = live := by decide +kernel
theorem test_boot_no_seed : booting.board.powered = true ∧ booting.board.boot = .pending ∧ booting.rst.busy.contains (dPackage, 0) = false
    ∧ (ran (.boot ⟨none, true, [], []⟩) booting).board.boot = .noSeed
    ∧ (ran (.boot ⟨some 1, false, [], []⟩) booting).board.boot = .badArea := by decide +kernel
/-- A part whose flash is blank and whose ROM key 0 is retired holds no image: a blank signature block names key 0. -/
def retired (s : State) : State := { s with trust := { s.trust with romRetired := true } }
theorem test_blank_image (s : State) (h : s.flash = []) (base : Nat) : (retired s).fwImage base = none := by
  have e (a : Nat) : (memRead [] a 128).getD 0 0 = 0 := rfl
  have hf : (retired s).flash = [] := h
  simp only [State.fwImage, hf, e]
  simp [retired]
theorem test_boot_no_image : (retired booting).fwImage (imageBase false) = none ∧ (retired booting).fwImage (imageBase true) = none :=
  ⟨test_blank_image _ rfl _, test_blank_image _ rfl _⟩

def chained (a : Nat) : State := live.wr CHN_ADDR.ADDR a
def chn (dest src : BitVec 16) (ok : Bool) : ChainHdr := ⟨dest, src, 7, ok⟩
theorem test_assign : live.rd CHN_ADDR.ADDR = 0 ∧ live.on CHN_LINK.TAIL = false ∧ (ran (.assign (chn 0 0 true) 65534) live).rd CHN_ADDR.ADDR = 65534
    ∧ (ran (.assign (chn 0 0 true) 1) live).out = [.chain 0 1 1 7 [2, 0]] := by decide +kernel
theorem test_assign_again : (ran (.assign (chn 0 0 true) 3) (chained 3)).rd CHN_ADDR.MISMATCH = 0
    ∧ (ran (.assign (chn 0 0 true) 4) (chained 3)).rd CHN_ADDR.MISMATCH = 1 := by decide +kernel
theorem test_assign_none : (ran (.assign (chn 0 0 true) 65535) live).rd CHN_ADDR.ADDR = 0
    ∧ (ran (.assign (chn 0 0 true) 65535) live).out = [] := by decide +kernel
theorem test_assign_bad : (ran (.assign (chn 0 0 false) 4) live).rd CHN_LINK.ERRORS = 1 := by decide +kernel
theorem test_chain_mine : (chained 3).board.powered = true ∧ (chained 3).board.boot = .running ∧ (3 : BitVec 16).toNat = (chained 3).rd CHN_ADDR.ADDR := by decide +kernel
theorem test_identify : (ran (.identify (chn 3 9 true) true) (chained 3)).out = [.chain 3 9 3 7 [1], .chain 9 3 3 7 [0]]
    ∧ (ran (.identify (chn 3 9 true) true) (chained 3)).board.identify = true := by decide +kernel
theorem test_chain_tail : (ran (.identify (chn 4 9 true) true) ((chained 3).wr CHN_LINK.TAIL 1)).out = []
    ∧ (ran (.identify (chn 4 9 true) true) (chained 3)).out = [.chain 4 9 3 7 [1]] := by decide +kernel
def inRom : State := (chained 3).setBoard fun b => { b with boot := .romOnly }
theorem test_chain_rom : inRom.board.boot = .romOnly ∧ (ran (.mctp (chn 3 9 true) [5]) inRom).host.mctp = [[5]]
    ∧ (ran (.identify (chn 0 9 true) true) inRom).board.identify = false
    ∧ (ran (.identify (chn 0 9 true) true) (chained 3)).out = [.chain 0 9 3 7 [1]]
    ∧ (ran (.telemetry (chn 0 9 true)) (chained 3)).rd CHN_FRAMES.COUNT = 1
    ∧ (ran (.telemetry (chn 4 9 true)) (chained 3)).rd CHN_FRAMES.COUNT = 0
    ∧ (ran (.telemetry (chn 3 9 false)) (chained 3)).rd CHN_LINK.ERRORS = 1 := by decide +kernel
theorem test_telemetry : (ran (.telemetry (chn 3 9 true)) (chained 3)).rd CHN_FRAMES.COUNT = 1 := by decide +kernel
theorem test_stage : memRead (ran (.stage (chn 3 9 true) [2, 0, 0, 0, 0xAB]) (chained 3)).flash (stagingBase + 2) 1 = [0xAB]
    ∧ (ran (.stage (chn 3 9 true) [2, 0, 0]) (chained 3)).out = [.chain 3 9 5 7 [2, 0, 0], .chain 9 3 5 7 [BitVec.ofNat 8 stBadDescriptor]] := by decide +kernel
theorem test_stage_end : imageSize < leNat [0, 0, 0, 0x80] + [0xAB].length := by decide +kernel
theorem test_activate_none : (retired (chained 3)).fwImage stagingBase = none := test_blank_image _ rfl _
theorem test_mctp_chain : (ran (.mctp (chn 3 9 true) [5]) (chained 3)).host.mctp = [[5]] := by decide +kernel
theorem test_reset_domains : chainDomain 99 = none ∧ chainDomain 3 = some (dHub, 1)
    ∧ (ran (.reset (chn 3 9 true) 99) (chained 3)).rd CHN_INT_STATUS.RESET_CMD = 1 := by decide +kernel
theorem test_power_off_twice : dark.board.powered = false ∧ (ran .enableLow dark).board.enable = false
    ∧ (ran (.thermtrip (.die 6)) dark).board.tripped = dark.board.tripped := by decide +kernel
theorem test_cage_powered : (ran (.cageInsert 3 true) live).portSt 6 = pDisabled ∧ live.portSt 6 = pEmpty ∧ live.portMay 6 = false
    ∧ (ran (.cageRemove 3) (ran (.cageInsert 3 true) live)).portSt 7 = pEmpty
    ∧ (ran (.cageInsert 3 true) (chained 3 |>.wr OBL_STATUS.ADDR 3)).portSt 6 = pTraining := by decide +kernel
theorem test_undervoltage : (ran .undervoltage live).rd PWR_LAST_OFF.CAUSE = 1 ∧ (ran .undervoltage live).board.vin = false := by decide +kernel
theorem test_thermtrip : (ran (.thermtrip (.stack 11)) live).rd PWR_LAST_OFF.SOURCE = 18 ∧ (ran (.thermtrip (.die 6)) live).board.tripped = true := by decide +kernel
theorem test_off_kinds : (ran .overvoltage live).rd PWR_LAST_OFF.CAUSE = 2 ∧ (ran .enableLow live).board.enable = false := by decide +kernel

/-! ## Die-to-die links and the Cocoon site (R370 to R390) -/

def formed : State := live.formLinks [] [14]
def broken : State := formed.setD2d fun d => { d with fails := [(bundleKey 14 true 0, 7)] }
theorem test_bundle : formed.role 14 true 0 = 5 ∧ live.role 14 true 0 = 0 ∧ (ran (.d2dTransfer 14 true 0 1) formed).rd D2D_ERR.CORR 14 = 1
    ∧ (ran (.d2dTransfer 14 false 1 0) formed).rd D2D_BYTES_AB.BYTES 14 = 16 := by decide +kernel
theorem test_bundle_fails : getK 0 broken.d2d.fails (bundleKey 14 true 0) + 1 = 8
    ∧ (broken.setD2d fun d => { d with role := setK 0 d.role (bundleKey 14 true 0) 0 }).linkFailed 14 = false
    ∧ getK 0 (ran (.d2dTransfer 14 true 0 2) formed).d2d.fails (bundleKey 14 true 0) = 1 := by decide +kernel
theorem test_budget : live.d2d.held.find? (·.1 = 6) = none ∧ newer 1 0 = true ∧ newer 0 65535 = true ∧ newer 5 5 = false ∧ newer 32768 0 = false
    ∧ (ran (.budget 6 9 4 3) live).d2d.held = [(6, 9, 4, 3)]
    ∧ (ran (.budget 6 9 5 3) (ran (.budget 6 9 4 3) live)).d2d.held = [(6, 9, 4, 3)] := by decide +kernel
def promised : State := live.setD2d fun d => { d with sent := [(6, [(9, 40)])] }
theorem test_budget_ack : (getK [] promised.d2d.sent 6).find? (·.1 = 9) = some (9, 40) ∧ (getK [] live.d2d.sent 6).find? (·.1 = 9) = none
    ∧ (ran (.budgetAck 6 9 4) promised).ackedBudget 6 = 40 := by decide +kernel

/-- A discovery block: vendor 1, code 3, both modes, streams 16, window 2^12, 100 quarter-watts. -/
def disc : List Byte := [1, 0, 3, 0, 0, 0, 3, 4, 32, 16, 28, 0, 100, 0, 0, 0, 1, 0] ++ zeros 46
def coded : State := { live with trust := { live.trust with cocoonCode := 3 } }
theorem test_bringup_free : live.cocSt ≠ cocUP ∧ live.coc.fencing = false ∧ live.trust.cocoonCode = 0 ∧ coded.trust.cocoonCode = 3
    ∧ ({ coded with coc := { coded.coc with due := true } } : State).coc.due = true := by decide +kernel
theorem test_disc : discGood disc = true ∧ discField disc 2 2 = 3 ∧ discGood (disc.take 63) = false := by decide +kernel
theorem test_bringup : (ran (.bringup .pf disc) live).cocSt = cocEMPTY ∧ (ran (.bringup .pf (zeros 64)) coded).cocSt = cocTRAINING
    ∧ (ran (.bringup .pf (zeros 64)) coded).siteSettle.cocSt = cocMISMATCH
    ∧ cocMode 3 0 = 1 ∧ cocMode 3 2 = 2 ∧ cocRate 31 = 24 := by decide +kernel
/-- A die that has been offered 10 W (the limit of the first offer is a free value, so no run of BRINGUP shows one). -/
def negotiating : State :=
  ((((((coded.wr COC_STATUS.STATE cocNEGOTIATING).wr COC_STATUS.MODE 1).wr COC_STATUS.STREAMS 16).wr COC_STATUS.WINDOW_LOG2 28).wr
    COC_OFFER.EPOCH 1).wr COC_OFFER.LIMIT 40).wr COC_DISC.BLOCK 100 0 1
theorem test_offered : negotiating.offered = true ∧ negotiating.rd COC_OFFER.EPOCH = 1 ∧ live.offered = false
    ∧ (ran (.accept 2) negotiating).cocSt = cocNEGOTIATING := by decide +kernel
def up : State := ran (.accept 1) negotiating
theorem test_accept : up.cocSt = cocUP ∧ up.siteUp = true ∧ up.rd COC_INT_STATUS.UP = 1 ∧ up.rd COC_STATUS.MODE = 1 := by decide +kernel
theorem test_fences : (ran .offerTimeout negotiating).coc.fencing = true ∧ up.offered = false
    ∧ ({ up with coc := { up.coc with above := true, down := true } } : State).siteUp = true
    ∧ up.graceMs ≤ (up.wr COC_DRAW.EXCESS_MS 1000).rd COC_DRAW.EXCESS_MS := by decide +kernel
theorem test_fence_done : (ran .siteRailRemoval (ran .offerTimeout negotiating)).cocSt = cocFENCED ∧ up.coc.fencing = false ∧ up.coc.down = false := by decide +kernel
theorem test_cocoon_link : (ran .cocoonLinkDown up).coc.down = true ∧ (ran .cocoonLinkRetrain (ran .cocoonLinkDown up)).coc.down = false
    ∧ (ran .cocoonLinkDownTimeout { ran .cocoonLinkDown up with clock := 5000100 }).rd COC_ERR.STATUS = stPeerTimeout := by decide +kernel
theorem test_window : up.inWindow (cocWindow + 0xFFFFFF8) = true ∧ up.inWindow (cocWindow + 0x10000000) = false ∧ live.inWindow cocWindow = false
    ∧ (ran (.cocoonWindowAccess .pf cocWindow 8 (some (zeros 8)) (some [])) up).out.getLast? = some (.cocoonWrite 0 (zeros 8))
    ∧ (ran (.cocoonWindowAccess .pf cocWindow 4 none (some (zeros 4))) up).resp.data = zeros 4 := by decide +kernel
def asking : State := { ran (.cocoonWindowAccess .pf cocWindow 8 none none) up with clock := 100000 }
theorem test_window_timeout : (asking.coc.open_.find? fun e => e.1 == cocWindow && e.2.1 == false) = some (cocWindow, false, 8, 0)
    ∧ (ran (.windowAnswerTimeout .pf cocWindow false) asking).resp = ⟨List.replicate 8 0xFF, true, false⟩ := by decide +kernel
def streams : State := up.wr COC_STATUS.MODE 2
theorem test_streaming : streams.streaming = true ∧ streams.streamAt false 0x1000 64 = .hbm 0x1000 ∧ streams.streamAt false (2 ^ 60) 1 = .none
    ∧ streams.streamAt true (5 * 2 ^ 22 + 0x2FFFFF) 1 = .spad 5 0x2FFFFF ∧ streams.streamAt true (5 * 2 ^ 22 + 0x2FFFFF) 2 = .none := by decide +kernel
theorem test_put : (streams.putReady (.hbm 0x1000) none 64).2 = true ∧ streams.on TIER_CTRL.EN = false
    ∧ (∀ k ∈ keysOf 0x1000 64, streams.entry k = none)
    ∧ memRead (ran (.cocoonPut false 0x1000 (List.replicate 64 7) none 0) streams).hbm 0x1000 2 = [7, 7] := by decide +kernel
theorem test_put_counted : (ran (.cocoonPut true (5 * 2 ^ 22) [1, 2] (some 9) 0) streams).cnt 5 9 = 2 := by decide +kernel
theorem test_get : (streams.prepare (keysOf 0x1000 2) false).2 = true ∧ streams.creditFor (keysOf 0x1000 2) streams.cocPart = true
    ∧ (streams.rangeRead 0x1000 2 cocStream streams.cocPart).poison = false
    ∧ (ran (.cocoonGet false 0x1000 2) streams).out.getLast? = some (.cocoonPut 0x1000 [0, 0])
    ∧ (streams.spadRead 5 0 2).bad = none
    ∧ (ran (.cocoonGet true (5 * 2 ^ 22) 2) streams).out.getLast? = some (.cocoonPut (5 * 2 ^ 22) [0, 0])
    ∧ (ran (.cocoonGet false (2 ^ 60) 2) streams).rd COC_ERR.SOURCE = 4 := by decide +kernel
def spoilt : State := { streams with hbmPoison := [(0x40, true)] }
theorem test_get_poison : (spoilt.rangeRead 0x1000 2 cocStream spoilt.cocPart).poison = true
    ∧ (ran (.cocoonGet false 0x1000 2) spoilt).rd COC_ERR.STATUS = stEcc := by decide +kernel

/-! ## The Obneurn Link (R391 to R413) -/

/-- Port 2 is UP, the module's address is 3, and job 0 is admitted; port 4 leads to module 9. -/
def wired : State :=
  ((((live.wr OBL_PORT_STATUS.STATE pUp 2).wr OBL_PORT_STATUS.STATE pUp 4).wr OBL_STATUS.ADDR 3).wr OBL_CTRL.OPEN 1).wr
    OBL_ROUTE.ENTRY (1 + 4 * 2) 8
def lk : ObLink := ⟨2, false, 0, true⟩
def obHd (dest addr : Nat) (hops : Nat := 5) : ObHdr := ⟨dest, 7, 0, 11, false, false, 0, false, addr, false, 0, 0, hops, 0⟩
def frame (i : Instr) : State := ran i wired
theorem test_link : wired.portSt 2 = pUp ∧ lk.crcOk = true ∧ lk.seq = (wired.port 2).rxSeq ∧ wired.mine 3 = true ∧ wired.mine 9 = false
    ∧ (wired.output 9).isSome = true ∧ wired.on OBL_STATUS.QUIET = false ∧ (wired.wr OBL_STATUS.QUIET 1).on OBL_STATUS.QUIET = true
    ∧ wired.portSt 3 ≠ pUp := by decide +kernel
theorem test_nak : (ran (.hdr { lk with seq := 1 } (obHd 3 0x1000)) wired).out.getLast? = some (.ctl 2 4095 true [0, 0, 0, 0, 0, 0])
    ∧ (ran (.ack { lk with crcOk := false } ⟨3, 7, 1, 0, 4⟩) wired).out.length = 1 := by decide +kernel
theorem test_hdr : wired.hdrGood (obHd 3 0x1000) = true ∧ wired.hdrGood (obHd 3 (2 ^ 47)) = false
    ∧ (frame (.hdr lk (obHd 3 0x1000))).rxRun 2 false = some ⟨obHd 3 0x1000, 0, false⟩
    ∧ (frame (.hdr lk (obHd 3 (2 ^ 47)))).rd OBL_NACK_LAST.STATUS = stBadDescriptor
    ∧ (ran (.hdr lk (obHd 3 0x1000)) (wired.wr OBL_STATUS.QUIET 1)).rd OBL_DROP2.QUIET = 1 := by decide +kernel
theorem test_hdr_past : (frame (.hdr lk (obHd 9 0x1000 0))).rd OBL_DROP2.LOOP = 1
    ∧ (frame (.hdr lk (obHd 9 0x1000))).rxRun 2 false = some ⟨obHd 9 0x1000 4, 0, false⟩ := by decide +kernel
def got (a : Host.Outcome State Fault Refusal) : State := match a with | .next t => t | _ => wired
def run2 (dest addr : Nat) : State := got (execHdr lk (obHd dest addr) wired)
theorem test_data : (run2 3 0x1000).portSt 2 = pUp ∧ (run2 3 0x1000).dataGood (obHd 3 0x1000) 0x1000 2 = true
    ∧ ((run2 3 0x1000).landPacket (obHd 3 0x1000) 0x1000 [6, 7]).2 = .ok
    ∧ memRead (ran (.data { lk with seq := 1 } [6, 7]) (run2 3 0x1000)).hbm 0x1000 2 = [6, 7]
    ∧ (ran (.data { lk with seq := 1 } [6, 7]) (run2 3 0x1000)).rd OBL_PORT_RX.BYTES 2 = 2 := by decide +kernel
theorem test_data_edge : (run2 3 ((run2 3 0).hbmEnd - 1)).dataGood (obHd 3 (live.hbmEnd - 1)) (live.hbmEnd - 1) 2 = false
    ∧ (ran (.data { lk with seq := 1 } [6, 7]) (run2 3 (live.hbmEnd - 1))).rd OBL_NACK_LAST.STATUS = stBadDescriptor := by decide +kernel
theorem test_data_past : ((ran (.data { lk with seq := 1 } [6, 7]) (run2 9 0x1000)).port 4).txq
    = [(0, [(3, .put { obHd 9 0x1000 4 with addr := 0x1000 } [6, 7])])] := by decide +kernel
def words (l : List Nat) : List Word := l.map (BitVec.ofNat 64)
/-- A GET of 64 bytes at 0x1000. -/
def getDesc : List Nat := [4 + 4 * 2 ^ 4 + 2 ^ 10, 0x1000, 0, 64, 0, 0, 0, 0]
theorem test_get_frame : (wired.getBase (obHd 3 0x1000) getDesc).isSome = true ∧ wired.getBase (obHd 3 0) (getDesc.set 1 (2 ^ 47)) = none
    ∧ (getK [] (frame (.getFrame lk (obHd 3 0) (words getDesc))).obl.getq 0).length = 1
    ∧ (frame (.getFrame lk (obHd 3 0) (words (getDesc.set 1 (2 ^ 47))))).rd OBL_NACK_LAST.STATUS = stBadDescriptor
    ∧ ((frame (.getFrame lk (obHd 9 0) (words getDesc))).port 4).txq.length = 1 := by decide +kernel
def inquired : State := got (execGetFrame lk (obHd 3 0) (words getDesc) wired)
theorem test_reply : inquired.getBase (obHd 3 0) getDesc = some 0x1000 ∧ (getMove getDesc).total = 64
    ∧ (inquired.prepare (getKeys (getMove getDesc) 0x1000) false).2 = true
    ∧ getK [] (ran (.replyEngineStart 0) inquired).obl.getq 0 = [] := by decide +kernel
theorem test_reply_bad : getK [] (ran (.replyEngineStart 0) { inquired with obl := { inquired.obl with getq := [(0, [(obHd 3 0, getDesc.set 1 (2 ^ 47), 0)])] } }).obl.getq 0 = [] := by decide +kernel
theorem test_ack_past : ((frame (.ack lk ⟨9, 7, 1, 0, 4⟩)).port 4).txq.length = 1 ∧ ((frame (.nack lk ⟨9, 7, 1, 3, 4⟩)).port 4).txq.length = 1
    ∧ ((frame (.ack lk ⟨3, 7, 1, 0, 4⟩)).port 2).rxSeq = 1 := by decide +kernel

def quiet2 (f : ObPort → ObPort) : State := wired.setPort 2 f
def waiting (pk : ObPkt) : State := quiet2 fun x => { x with txq := [(2, [(0, pk)])] }
theorem test_ctl : getK 0 ((frame (.ctl 2 true ⟨4095, false, [9, 0, 0, 0, 0, 0]⟩)).port 2).granted 0 = 9
    ∧ (frame (.ctlPeriod 2)).out.getLast? = some (.ctl 2 4095 false [0, 0, 0, 0, 0, 0])
    ∧ (frame (.ctl 2 false ⟨0, false, []⟩)).out.getLast? = some (.ctl 2 4095 true [0, 0, 0, 0, 0, 0]) := by decide +kernel
def replaying : State := quiet2 fun x => { x with seq := 2, replay := [(0, 4, .ack ⟨9, 3, 1, 0, 4⟩), (1, 4, .ack ⟨9, 3, 2, 0, 4⟩)] }
theorem test_covered : ((ran (.ctl 2 true ⟨0, false, []⟩) replaying).port 2).replay.length = 1
    ∧ (ran (.ctl 2 true ⟨0, true, []⟩) replaying).out = [.frame 2 1 0 (.ack ⟨9, 3, 2, 0, 4⟩)] := by decide +kernel
theorem test_replay : (replaying.port 2).resends = 0 ∧ (ran (.replayTimeout 2) replaying).out.length = 2
    ∧ (ran (.replayTimeout 2) (replaying.setPort 2 fun x => { x with resends := 8 })).portSt 2 = pRecovery := by decide +kernel
theorem test_send : (waiting (.get (obHd 9 0) [1])).creditOn 2 2 (.get (obHd 9 0) [1]) = true ∧ (waiting (.get (obHd 9 0) [1])).replayRoom 2 (.get (obHd 9 0) [1]) = true
    ∧ (ran (.frameSend 2 1 false) (waiting (.get (obHd 9 0) [1]))).out = [.frame 2 0 0 (.get (obHd 9 0) [1])]
    ∧ getK [] ((ran (.frameSend 2 1 false) (waiting (.get (obHd 9 0) [1]))).port 2).txq 2 = [] := by decide +kernel
def putting : State := quiet2 fun x => { x with txq := [(0, [(0, .put (obHd 9 0) [5])])] }
theorem test_send_put : putting.creditOn 2 0 (.hdr (obHd 9 0)) = true ∧ putting.replayRoom 2 (.hdr (obHd 9 0)) = true
    ∧ (ran (.frameSend 2 0 false) putting).out = [.frame 2 0 0 (.hdr (obHd 9 0))]
    ∧ (ran (.frameSend 2 0 false) (ran (.frameSend 2 0 false) putting)).out.getLast? = some (.frame 2 1 0 (.data [5])) := by decide +kernel
def portIs (st : Nat) : State := (wired.wr OBL_PORT_STATUS.STATE st 2).wr OBL_PORT_PARTNER.ADDR 8 2
theorem test_ident : (ran (.ident 2 true 8 1 4) (portIs pTraining)).portSt 2 = pUp ∧ (ran (.ident 2 true 8 1 4) (portIs pRecovery)).portSt 2 = pDown
    ∧ (ran (.ident 2 true 8 0 4) (portIs pRecovery)).portSt 2 = pUp ∧ (ran (.ident 2 false 8 1 4) (portIs pTraining)).portSt 2 = pTraining := by decide +kernel
theorem test_port_states : (ran (.recoveryTimeout 2) { portIs pRecovery with clock := 2000000 }).portSt 2 = pDown ∧ (ran (.trainingRetry 2) (portIs pDown)).portSt 2 = pTraining
    ∧ (ran (.lossOfSignal 2) (portIs pUp)).portSt 2 = pRecovery ∧ (ran (.lossOfSignal 2) (portIs pTraining)).portSt 2 = pDown
    ∧ (ran .quietEnd { wired.wr OBL_STATUS.QUIET 1 with clock := 20000000 }).rd OBL_STATUS.QUIET = 0 := by decide +kernel

/-! ## Power, heat and ageing (R415 to R434) -/

theorem test_cap : (ran (.pwrCapWrite .pf 1499 5) live).rd PWR_CAP.REJECT = stBadDescriptor ∧ (ran (.pwrCapWrite .pf 1500 0) live).rd PWR_CAP.REJECT = stZeroWindow
    ∧ (ran (.pwrCapWrite .pf 4200 1) live).rd PWR_CAP.WATTS = 4200 ∧ (ran (.pwrCapWrite .pf 4201 1) live).rd PWR_CAP.REJECT = stBadDescriptor := by decide +kernel
theorem test_scale : (let u := { ran (.budgetAck 6 9 40) promised with pwr := { live.pwr with polls := [⟨0, 0, 0, 0, 0, 20, 0, 0, [0, 0, 0, 0, 0, 0, 20], 30⟩] } };
      u.estimate 6 = (40, 1) ∧ u.rescaled.scaledDraw 6 = 80 ∧ u.scaledDraw 6 = 40 ∧ u.rescaled.d2d.draws = []) := by decide +kernel
theorem test_poll : (ran (.pmbusPoll ⟨4800, 5, 3000, 1, 1, 1, 1, 7, [], 30⟩) live).rd PWR_INPUT.AVG = 3000
    ∧ (ran (.pmbusPoll ⟨4800, 5, 3000, 1, 1, 1, 1, 7, [], 30⟩) live).rd COC_DRAW.AVG = 7 := by decide +kernel
theorem test_interval : (live.wr PWR_CAP.WATTS 2000).takeCap.rd PWR_CAP.EFFECTIVE_W = 2000 := by decide +kernel
def supplyAt (mv : Nat) : State := live.wr PWR_SUPPLY.MV mv 0 0 2
theorem test_supply : (ran (.supplyStep 2) (supplyAt 600)).rd PWR_SUPPLY.MV 0 0 2 = 590 ∧ (ran (.supplyStep 2) (supplyAt 400)).rd PWR_SUPPLY.MV 0 0 2 = 410
    ∧ (ran (.supplyStep 2) (supplyAt 545)).rd PWR_SUPPLY.MV 0 0 2 = 550 := by decide +kernel
theorem test_hold : live.pwr.holdAt.find? (·.1 = 3) = none ∧ live.pwr.limiting = false
    ∧ (ran (.holdDutyStep 3 true) (live.wr PWR_HOLD.D 63 0 0 3)).rd PWR_HOLD.D 0 0 3 = 64
    ∧ (ran (.holdDutyStep 3 true) (live.wr PWR_HOLD.D 64 0 0 3)).rd PWR_HOLD.D 0 0 3 = 64
    ∧ (ran (.holdDutyStep 3 false) (live.wr PWR_HOLD.D 1 0 0 3)).rd PWR_HOLD.D 0 0 3 = 1
    ∧ (ran (.holdDutyStep 3 false) (live.wr PWR_HOLD.D 2 0 0 3)).rd PWR_HOLD.D 0 0 3 = 1 := by decide +kernel
theorem test_current_limit : (ran .currentLimit live).rd PWR_EVENTS.CURRENT_LIMIT = 1 ∧ (ran .currentLimit live).pwr.limiting = true
    ∧ (ran .currentLimitRelease (ran .currentLimit live)).pwr.limiting = false := by decide +kernel
theorem test_droop : (ran (.droop (.vfab 3) false) live).rd DLN_ADMIT.GROUP 3 = 4 ∧ (ran (.droop (.vcg 11) false) live).rd PWR_EVENTS.DROOP = 1
    ∧ (ran (.droopRecovery (.vfab 3)) (ran (.droop (.vfab 3) false) live)).rd DLN_ADMIT.GROUP 3 = 8 := by decide +kernel
theorem test_tj : (ran (.tjRead (List.replicate 140 105)) live).rd PWR_TEMP.TJ 0 0 6 = 105
    ∧ getK false (ran (.tjRead (List.replicate 140 105)) live).pwr.hot 0 = true := by decide +kernel
theorem test_stack_temp : (ran (.stackTemperatureRead (List.replicate 6 86 ++ List.replicate 6 85)) live).rd HBM_INT_STATUS.TEMP_HIGH 0 = 1
    ∧ (ran (.stackTemperatureRead (List.replicate 6 86 ++ List.replicate 6 85)) live).rd HBM_INT_STATUS.TEMP_HIGH 1 = 0 := by decide +kernel
theorem test_coolant : live.lasted (sinceWhen (decide (500 < 501)) live.pwr.warm50 (live.clock / 100000)) = false
    ∧ (ran (.coolantRead 501 600) live).rd PWR_COOLANT.INLET = 501
    ∧ (ran .sensorFail live).rd PWR_INT_STATUS.COOLANT_WARN = 1 := by decide +kernel
def lukewarm : State := { live with clock := 10 ^ 9, pwr := { live.pwr with warm50 := some 0 } }
theorem test_coolant_late : lukewarm.lasted (sinceWhen (decide (500 < 501)) lukewarm.pwr.warm50 (lukewarm.clock / 100000)) = true := by decide +kernel
def measuring : State := live.wr AGE_CTRL.EN 1
theorem test_measure : live.on AGE_CTRL.EN = true ∧ (live.wr AGE_CTRL.EN 0).on AGE_CTRL.EN = false ∧ live.measurable ⟨5, [1, 2, 3, 4], 100, 9⟩ = true := by decide +kernel
theorem test_margins : (live.ageUnit 5).trim = 0 ∧ (100 : Nat) * live.rd AGE_CTRL.MARGIN_MIN > 100 ∧ ¬ ((1400 : Nat) < 100 * live.rd AGE_CTRL.MARGIN_MIN)
    ∧ (live.ageUnit 5).rising = false
    ∧ (({ live with age := { live.age with units := insK live.age.units 5 { AgeUnit.fresh with trim := 15 } } } : State).ageUnit 5).trim = 15 := by decide +kernel
theorem test_history : (ran .ageingHistoryWrite { live with age := { live.age with vmin := [(1, 5)] } }).age.vminHist = [(1, 5)] := by decide +kernel

/-! ## Resets and self-test (R435 to R460) -/

theorem test_reset_free : live.absorbs (0, 5) = false ∧ live.absorbs (4, 0) = false ∧ live.held 5 = false
    ∧ live.rst.restoring = false ∧ live.rst.escalated = none ∧ live.rst.due = none := by decide +kernel
def inReset (x : Nat × Nat) : State := { live with rst := { live.rst with busy := [x] } }
theorem test_absorbed : (inReset (1, 0)).absorbs (0, 5) = true ∧ (inReset (1, 0)).absorbs (1, 1) = false ∧ (inReset (4, 0)).absorbs (2, 1) = true
    ∧ (ran (.clusterReset .pf 5) (inReset (1, 0))).rst.busy = [(1, 0)] := by decide +kernel
def holding : State := live.wr RAS_CLU_HELD.HELD (2 ^ 5) 0 0
theorem test_held : holding.held 5 = true ∧ (ran (.clusterReset .pf 5) holding).cluSt 5 = holding.cluSt 5
    ∧ live.on RAS_CTRL.AUTO_CLUSTER = true ∧ (2 : Nat) ≤ live.rd RAS_CLU_ESCALATE.LIMIT
    ∧ (holding.wr CLU_STATUS.STATE cFaulted 5).cluSt 5 = cFaulted ∧ (holding.clu 5).owner = none
    ∧ (ran (.heldRelease .pf 5) (holding.wr RAS_CTRL.AUTO_CLUSTER 0)).held 5 = false := by decide +kernel
theorem test_hm_watchdog : ({ live with clock := 10 ^ 9 } : State).hawkmothLate = true ∧ ({ live with clock := 10 ^ 8 } : State).hawkmothLate = false := by decide +kernel
theorem test_escalate : bit (live.rd RAS_ESCALATE.MASK) 3 = true := by decide +kernel
theorem test_reset_timeout : (inReset (0, 5)).rst.busy.contains (0, 5) = true ∧ (inReset (0, 5)).absorbs (1, dieOf 5) = false := by decide +kernel
theorem test_reset_owed : ({ live with rst := { live.rst with due := some (3, stEcc) } } : State).rst.due = some (3, stEcc) := by decide +kernel
theorem test_reset_complete : (inReset (0, 5)).rst.busy.contains (0, 5) = true
    ∧ (ran (.resetComplete 0 4 ⟨[], [], []⟩) (inReset (0, 5))).rst.busy = [(0, 5)] := by decide +kernel
theorem test_links_whole : ((inReset (1, 2)).formLinks [] (matrixLinks 2)).failedLinks (matrixLinks 2) = [] :=
  (inReset (1, 2)).formLinks_whole (fun _ => Nat.zero_le 4) _ (by decide)
def outOfService : State := live.wr RAS_SERVICE.OUT 1
theorem test_restore : outOfService.on RAS_SERVICE.OUT = true ∧ trusted .pf = true ∧ outOfService.absorbs (4, 0) = false
    ∧ trusted (.core 3 false) = false ∧ live.on RAS_SERVICE.OUT = false := by decide +kernel

theorem test_scrub : (ran (.configScrub [] [5]) (live.wr RAS_CTRL.AUTO_CLUSTER 0)).cluSt 5 = cFaulted ∧ (ran (.configScrub [] [5]) live).cluSt 5 = cResetting ∧ live.cluSt 5 ≠ cOff ∧ live.cluSt 5 ≠ cResetting := by decide +kernel
theorem test_pop : (ran (.pop .pf) (ran (.configScrub [7] []) live)).ras.queue.length = 0 ∧ (ran (.configScrub [7] []) live).ras.queue.length ≤ 1
    ∧ (ran (.ueAck .pf) live).ras.ueOpen = false := by decide +kernel
theorem test_may_test : live.mayTest 0 5 3 = true ∧ live.mayTest 2 31 2 = false ∧ live.mayTest 2 31 1 = false ∧ live.mayTest 3 0 1 = false
    ∧ (ran (.logicTest .pf 3 0) live).rd BIST_CMD.REJECT = stBadDescriptor := by decide +kernel
def got5 (a : Host.Outcome State Fault Refusal) : State := match a with | .next t => t | _ => live
def underTest : State := got5 (execLogicAndMemoryTest .pf 0 5 live)
theorem test_tests : (ran (.logicTest .pf 0 5) live).rd BIST_CMD.TEST = 1 ∧ (ran (.memoryTest .pf 0 5) live).rd BIST_CMD.TEST = 2
    ∧ underTest.rd BIST_CMD.TEST = 3 ∧ (underTest.clu 5).bist = true ∧ underTest.on BIST_CMD.BUSY = true ∧ underTest.rd BIST_CMD.KIND = 0
    ∧ underTest.rd BIST_CMD.TARGET = 5 := by decide +kernel
theorem test_bist_fail : (ran (.bistDone none (some ⟨[(3, 9, 1)]⟩)) (ran (.memoryTest .pf 0 5) live)).rd BIST_RESULT.PASS = 0
    ∧ (ran (.bistDone none (some ⟨[]⟩)) (ran (.memoryTest .pf 0 5) live)).rd BIST_RESULT.PASS = 1
    ∧ ((ran (.bistDone none (some ⟨[]⟩)) (ran (.memoryTest .pf 0 5) live)).clu 5).bist = false := by decide +kernel
/-- A signature as expected passes: the expected value is free, and one finding carries it. -/
theorem test_signature (k t : Nat) : (BitVec.ofNat 64 (Config.bistExpect k t)).toNat = Config.bistExpect k t % 2 ^ 64 := BitVec.toNat_ofNat ..
def turning : State := (live.wr BIST_ROT.EN 1).wr BIST_ROT.NEXT 511
theorem test_rotation : turning.on BIST_ROT.EN = true ∧ turning.powerSpare 0 = true ∧ turning.rst.rot = []
    ∧ ((dieClusters 0).filter (fun x => decide (511 ≤ x)) ++ (dieClusters 0).filter (fun x => decide (x < 511))).find? (fun x => turning.cluMayTest x false) = some 0
    ∧ (ran (.bistRotation 0) turning).rst.rot = [(0, false)] ∧ (ran (.bistRotation 0) turning).rd BIST_ROT.NEXT = 1
    ∧ (live.wr BIST_ROT.EN 0).on BIST_ROT.EN = false := by decide +kernel
def late : State := { turning with clock := 10 ^ 18 }
theorem test_overdue : getK 0 late.rst.tested 5 + 3600 * late.rd BIST_ROT.PERIOD_H ≤ late.seconds ∧ late.rst.overdue.contains 5 = false
    ∧ (ran (.bistOverdue 5) late).rd BIST_ROT.OVERDUE = 1 ∧ ¬ (3600 * turning.rd BIST_ROT.PERIOD_H ≤ turning.seconds) := by decide +kernel

/-! ## Identity, keys and security (R461 to R480) -/

/-- A record in SEC_AUTH: an owner key of 32 bytes of 9, to a part that has no owner. -/
def ownerRecord : List Byte := [5] ++ zeros 7 ++ zeros 8 ++ zeros 32 ++ List.replicate 32 9 ++ zeros 64
def withRecord (r : List Byte) : State := (List.range 18).foldl (fun s j => s.wr SEC_AUTH.Q (leNat ((r.drop (8 * j)).take 8)) j) live
def record (s : State) : List Byte := (List.range 18).flatMap fun j => leBytes 8 (s.rd SEC_AUTH.Q j)
theorem test_record : record (withRecord ownerRecord) = ownerRecord ∧ ownerRecord.length = 144 := by decide +kernel
theorem test_formed : (∀ x ∈ (ownerRecord.drop 2).take 6, x = 0) ∧ leNat ((ownerRecord.drop 8).take 8) = live.trust.serial % 2 ^ 64
    ∧ live.trust.owner = none ∧ (ownerRecord.drop 0x10).take 32 = (List.range 4).flatMap fun j => leBytes 8 (live.rd SEC_AUTH_NONCE.NONCE 0 j) := by decide +kernel
/-- The nonce that follows an attempt is a free value, so the checks and the effect are looked at by themselves. -/
theorem test_auth_status : live.authStatus ownerRecord = stOK ∧ live.authStatus (ownerRecord.set 0x10 1) = stPlanSignature
    ∧ live.authStatus (ownerRecord.set 3 1) = stBadDescriptor ∧ live.authStatus (ownerRecord.set 1 8) = stBadDescriptor
    ∧ live.authStatus (ownerRecord.set 0 2) = stPlanSignature := by decide +kernel
theorem test_owner : (live.authEffect ownerRecord).trust.owner = some (List.replicate 32 9) ∧ (live.authEffect ownerRecord).rd SEC_STATUS.OWNER = 1
    ∧ (live.authEffect ((ownerRecord.set 0 1).set 1 7)).trust.keys = [(7, List.replicate 32 9)]
    ∧ (live.authEffect ((ownerRecord.set 0 2).set 1 7)).rd SEC_KEYS.REVOKED = 128
    ∧ (live.authEffect (ownerRecord.set 0 4)).rd SEC_STATUS.DEBUG = 1 := by decide +kernel
theorem test_not_this_one : (ran (.installPlanKey .pf) (withRecord ownerRecord)).rd SEC_AUTH_GO.STATUS = 0 := by decide +kernel
theorem test_counter : leNat ((((ownerRecord.set 0 3).drop 0x30).take 32).take 4) = 0x09090909
    ∧ live.trust.planCounter < 0x09090909
    ∧ ¬ (({ live with trust := { live.trust with planCounter := 2 ^ 32 } } : State).trust.planCounter < 0x09090909) := by decide +kernel
def told (m : List Byte) : State := { live with host := { live.host with mctp := [m] } }
theorem test_mctp_record : ((told ownerRecord).mctpOf 144).map (·.1) = some ownerRecord ∧ ((told (zeros 32)).mctpOf 32).map (·.1) = some (zeros 32) := by decide +kernel
theorem test_attest_no_seed : (live.wr SEC_STATUS.ID_VALID 0).on SEC_STATUS.ID_VALID = false
    ∧ (ran (.attest .pf) (live.wr SEC_STATUS.ID_VALID 0)).rd SEC_ATTEST.STATUS = stEcc
    ∧ (live.wr SEC_STATUS.ID_VALID 1).on SEC_STATUS.ID_VALID = true := by decide +kernel
theorem test_outsider : trusted (.core 3 false) = false ∧ (ran (.wipe (.core 3 false)) live).rd SEC_STATUS.WIPE_BUSY = 0 := by decide +kernel
def signedBy (k svn : Nat) : State := (({ live with trust := { live.trust with fwKey := k } } : State)).wr SEC_STATUS.FW_SVN svn
theorem test_commit : (ran (.commitFw .pf) (signedBy 1 7)).trust.fwCounter = 7 ∧ (ran (.commitFw .pf) (signedBy 1 7)).rd SEC_KEYS.ROM0_RETIRED = 1
    ∧ (ran (.commitFw .pf) (signedBy 0 7)).trust.romRetired = false
    ∧ (ran (.commitFw .pf) (live.wr SEC_STATUS.FALLBACK 1)).rd SEC_CTRL.REJECT = stBadDescriptor
    ∧ live.on SEC_STATUS.FALLBACK = false := by decide +kernel
theorem test_wipe : (∀ k, k < 16 → live.slotSt k = pEMPTY) ∧ live.on TIER_CTRL.EN = false ∧ (ran (.wipe .pf) live).rd SEC_STATUS.WIPE_BUSY = 1
    ∧ (ran (.wipe .pf) (live.wr TIER_CTRL.EN 1)).rd SEC_CTRL.REJECT = stBadDescriptor := by decide +kernel
theorem test_wipe_ready : (live.wr SEC_STATUS.WIPE_BUSY 1).busyKeys 0 live.hbmEnd = [] ∧ ((live.wr SEC_STATUS.WIPE_BUSY 1).prepare [] true).2 = true := by decide +kernel
/-- A line with an open transaction: the wipe waits. -/
theorem test_wipe_waits : live.on SEC_STATUS.WIPE_BUSY = false := by decide +kernel
/-- Every step of an idle queue keeps the keys. -/
theorem test_idle_keys : step live = .next t → t.trust.fwCounter = live.trust.fwCounter := by intro h; cases h; decide +kernel
/-- An owner key and a signature under it over a record that raises the plan counter to 1, made outside the model by RFC 8032
over SHA-512. -/
def ownerKey : List Byte := [138, 136, 227, 221, 116, 9, 241, 149, 253, 82, 219, 45, 60, 186, 93, 114, 202, 103, 9, 191, 29, 148, 18, 27, 243, 116, 
136, 1, 180, 15, 111, 92]
def signature : List Byte := [143, 133, 239, 180, 160, 67, 167, 11, 200, 148, 180, 18, 44, 127, 49, 31, 150, 47, 118, 222, 197, 84, 168, 152, 120, 
194, 106, 123, 102, 159, 104, 165, 115, 255, 75, 238, 236, 239, 103, 247, 150, 231, 56, 189, 9, 189, 182, 35, 224, 230, 
77, 149, 122, 101, 192, 109, 225, 141, 244, 23, 238, 205, 158, 1]
def owned : State := { live with trust := { live.trust with owner := some ownerKey } }
theorem test_signed : owned.authStatus ([3] ++ zeros 47 ++ [1] ++ zeros 31 ++ signature) = stOK := by decide +kernel

/-! ## Commands that wait, are refused or find nothing to do: states that meet the statements' hypotheses -/

/-- The command takes one state to the other. -/
def goes (i : Instr) (s t : State) : Bool :=
  match exec i s with
  | .next u => decide (u = t)
  | _ => false

/-- The command leaves the state as it is. -/
def still (i : Instr) (s : State) : Bool := goes i s s

/-- A cluster that is alone in holding anything holds no STT. -/
theorem no_stt (s : State) (x : Clu) (h : s.clus = [(5, x)]) (hx : x.vst = none) : ∀ d, (s.clu d).vst = none := by
  intro d
  unfold State.clu
  rw [h]
  by_cases e : 5 = d
  · subst e; simpa [getK] using hx
  · simp [getK, e, Clu.rest]

/-! ### Steps and passes -/

theorem test_no_step : live.stepAt 5 0 = none ∧ live.stepAt 5 1 = none ∧ live.stepAt 5 2 = none ∧ live.stepAt 5 3 = none
    ∧ live.stepAt 5 4 = none ∧ live.stepAt 5 5 = none ∧ live.stepAt 5 6 = none ∧ live.stepAt 5 7 = none
    ∧ (([.endPass 5, .wait 5, .counterWaitTimeout 5, .run 5, .vec 5, .move 5, .sync 5, .waitdl 5, .deadlineExpiry 5,
      .jump 5] : List Instr).all fun i => still i live) = true := by decide +kernel
def sinceNow : State := stepState (w1 7 5 0) fun x => { x with waitFrom := some 0 }
theorem test_wait_not_due : sinceNow.stepAt 5 1 = some (w1 7 5 0) ∧ (sinceNow.clu 5).waitFrom = some 0
    ∧ sinceNow.timer 5 < max 0 (getK 0 (sinceNow.clu 5).cntAdv 7) + sinceNow.rdMax LND_TIMEOUT.US 60000000 5 * 1000
    ∧ still (.counterWaitTimeout 5) sinceNow = true := by decide +kernel
def innerWait : State := later (stepState (w1 8 5 0) fun x => { x with waitFrom := some 0 }) 61000000
theorem test_wait_no_patience : ((stepState (w1 7 5 0)).clu 5).waitFrom = none
    ∧ still (.counterWaitTimeout 5) (stepState (w1 7 5 0)) = true
    ∧ innerWait.stepAt 5 1 = some (w1 8 5 0) ∧ innerWait.lndExt 5 8 = false
    ∧ still (.counterWaitTimeout 5) innerWait = true := by decide +kernel
theorem test_patient_stt : ∀ d, ((patient (w1 7 5 0)).clu d).vst = none := no_stt _ _ rfl rfl
theorem test_stalled_stt : ∀ d, (stalled.clu d).vst = none := no_stt _ _ rfl rfl
theorem test_deadline_rests : dl arrived = true ∧ still (.deadlineExpiry 5) arrived = true
    ∧ (stepState 6).timer 5 < ((stepState 6).clu 5).passStart + 1000 ∧ still (.deadlineExpiry 5) (stepState 6) = true
    ∧ ((patient 6 3 true).clu 5).late = true ∧ still (.deadlineExpiry 5) (patient 6 3 true) = true := by decide +kernel
def oneRun : RunSt := ⟨0, 0, false, 3, [], 0, 0⟩
theorem test_units_busy : asked.stepAt 5 2 = some 2 ∧ (asked.clu 5).run.isSome = true ∧ still (.run 5) asked = true
    ∧ still (.vec 5) (stepState 3 fun x => { x with vact := true }) = true
    ∧ (stepState (5 + 16) fun x => { x with vact := true, run := some oneRun }).syncMet 5 1 = false
    ∧ still (.sync 5) (stepState (5 + 16) fun x => { x with vact := true, run := some oneRun }) = true := by decide +kernel
def moverBusy : State := ran (.move 5) (stepState 4) |>.setClu 5 fun x => { x with pc := 0 }
theorem test_mover_busy : moverBusy.stepAt 5 4 = some 4 ∧ (moverBusy.mover 5 0).cur.isSome = true
    ∧ still (.move 5) moverBusy = true := by decide +kernel
def unfinished : State := cellState 0 atOp
theorem test_run_goes_on : (unfinished.runCfg 5).isSome = true ∧ unfinished.runOver 5 (cfg [] [] [0] [0]) = false
    ∧ still (.runComplete 5) unfinished = true ∧ live.runCfg 5 = none ∧ still (.runComplete 5) live = true := by decide +kernel
theorem test_no_run_asked : firstAsked (live.waitingRuns 0) = none ∧ still (.runAdmit 0) live = true
    ∧ (asked.wr DLN_ADMIT.GROUP 0 0).rd DLN_ADMIT.GROUP 0 ≤ ((asked.wr DLN_ADMIT.GROUP 0 0).recentAdmits 0).length
    ∧ still (.runAdmit 0) (asked.wr DLN_ADMIT.GROUP 0 0) = true := by decide +kernel
def unwatched : State := later ((stepState (5 + 15 * 16)).wr DLN_WDOG.EN 0 (dieOf 5)) 61000000
theorem test_watchdog_rests : live.running 5 = false ∧ still (.beatStallWatchdog 5) live = true
    ∧ unwatched.on DLN_WDOG.EN (dieOf 5) = false ∧ still (.beatStallWatchdog 5) unwatched = true
    ∧ still (.beatStallWatchdog 5) ((stepState 5).wr DLN_WDOG.EN 1 (dieOf 5)) = true
    ∧ still (.beatStallWatchdog 5) (later ((stepState (w1 7 5 0)).wr DLN_WDOG.EN 1 (dieOf 5)) 61000000) = true := by decide +kernel
theorem test_no_pass : live.cluSt 5 = cStopped ∧ live.mayPass 5 = false ∧ still (.passBegin 5) live = true
    ∧ (stepState 0).cluSt 5 ≠ cStopped ∧ still (.passBegin 5) (stepState 0) = true := by decide +kernel
def vecBusy : State := stepState 0 fun x => { x with vact := true }
theorem test_end_pass_waits : vecBusy.stepAt 5 0 = some 0
    ∧ ((vecBusy.makeReady 5 fun _ => true).dispatchBoth 5).syncMet 5 15 = false ∧ still (.endPass 5) vecBusy = true := by decide +kernel

/-! ### Bank power -/

def wantsOff : State := ran (.clusterPowerOff 5) live
theorem test_power_form : (live.wr CLU_STATUS.STATE cOff 5).cluSt 5 = cOff
    ∧ (ran (.bankPowerRequest 5 47 2) (live.wr CLU_STATUS.STATE cOff 5)).bankPwr 5 47 = 2
    ∧ gatedOff.cluSt 5 = cStopped ∧ gatedOff.gated 5 47 = true ∧ (ran (.bankPowerRequest 5 47 1) gatedOff).gated 5 47 = true
    ∧ (ran (.bankPowerRequest 5 47 1) gatedOff).bankPwr 5 47 = 1
    ∧ still (.bankPowerRequest 5 47 3) live = true := by decide +kernel
def inUse : State := (live.wr CLU_STATUS.STATE cRunning 5).wr CLU_BANK_INUSE.INUSE (2 ^ 47) 5
theorem test_power_in_use : inUse.cluSt 5 = cRunning ∧ bit (inUse.rd CLU_BANK_INUSE.INUSE 5) 47 = true
    ∧ still (.bankPowerRequest 5 47 1) inUse = true ∧ still (.clusterPowerOff 5) inUse = true := by decide +kernel
def gateHeld : State := gating.setClu 5 fun x => { x with bankq := [(47, [writeReq])] }
theorem test_gate_waits : live.gatePending 5 47 = false ∧ still (.gateClose 5 47) live = true
    ∧ getK [] (gateHeld.clu 5).bankq 47 ≠ [] ∧ still (.gateClose 5 47) gateHeld = true := by decide +kernel
/-- Cluster 5 is going OFF, and bank 47 is the last to close. -/
def lastGate : State := wantsOff.wr CLU_GATE_PENDING.PENDING (2 ^ 47) 5
theorem test_last_gate : wantsOff.gatePending 5 0 = true ∧ wantsOff.goingOff 5 = true ∧ wantsOff.bankPwr 5 0 ≠ 0
    ∧ (ran (.gateClose 5 0) wantsOff).cluSt 5 = cStopped
    ∧ lastGate.gatePending 5 47 = true ∧ ((List.range 47).all fun b => lastGate.gated 5 b) = true
    ∧ (ran (.gateClose 5 47) lastGate).cluSt 5 = cOff := by decide +kernel
theorem test_wakes : still (.bankWake 5 47) live = true ∧ still (.clusterWake 5) live = true
    ∧ (ran (.bankWake 5 47) (live.wr CLU_STATUS.STATE cOff 5)).rd CLU_WAKE_COUNT.CLUSTER_WAKES 5 = 1
    ∧ (ran (.gateClose 5 0) wantsOff).gated 5 0 = true ∧ (ran (.gateClose 5 0) wantsOff).goingOff 5 = true
    ∧ (ran (.bankWake 5 0) (ran (.gateClose 5 0) wantsOff)).rd CLU_WAKE_COUNT.BANK_WAKES 5 = 1
    ∧ (ran (.bankWake 5 0) (ran (.gateClose 5 0) wantsOff)).on CLU_POWER.OFF_REQ 5 = false
    ∧ still (.clusterPowerOff 5) wantsOff = true := by decide +kernel

/-! ### Bank contents -/

/-- Words of row 1023 of bank 47 with one and with two flipped bits. -/
def flipped : State :=
  let s := fixState.wr CLU_SCRUB.EN 1 5
  (s.upset 5 47 1023 6 1).upset 5 47 1023 7 3
theorem test_flipped : (flipped.word 5 (48 * 65536 - 16)).corrected.isSome = true ∧ (flipped.word 5 (48 * 65536 - 8)).bad = true
    ∧ (flipped.word 5 (48 * 65536 - 8)).corrected = none
    ∧ ((ran (.correctedRowWriteback 5 47 1023) flipped).word 5 (48 * 65536 - 16)).corrected = none
    ∧ ((ran (.scrubRead 5 47 1023 []) flipped).word 5 (48 * 65536 - 16)).corrected = none
    ∧ ((ran (.scrubRead 5 47 1023 []) flipped).word 5 (48 * 65536 - 8)).bad = true := by decide +kernel
theorem test_scrub_rests : still (.scrubRead 5 47 9 []) (live.wr CLU_SCRUB.EN 0 5) = true ∧ (live.wr CLU_SCRUB.EN 0 5).on CLU_SCRUB.EN 5 = false
    ∧ still (.scrubRead 5 47 9 []) (gatedOff.wr CLU_SCRUB.EN 1 5) = true
    ∧ still (.scrubRead 5 0 9 []) ((live.wr CLU_SCRUB.EN 1 5).wr CLU_STATUS.STATE cResetting 5) = true
    ∧ still (.correctedRowWriteback 5 47 1023) live = true ∧ still (.scrubPassEnd 5) (live.wr CLU_SCRUB.EN 0 5) = true := by decide +kernel
def halfScrubbed : State := (live.wr CLU_SCRUB.EN 1 5).setClu 5 fun x => { x with scrubbed := [(0, true)] }
theorem test_scrub_incomplete : halfScrubbed.scrubComplete 5 = false
    ∧ ((ran (.scrubPassEnd 5) halfScrubbed).clu 5).scrubbed = [] := by decide +kernel
/-- Requests of one user at the row whose last word is uncorrectable. -/
def badRead (u : BankUser) : List BankReq := [⟨u, 1023, 0, none, 0⟩]
theorem test_bank_bad : ((flipped.setClu 5 fun x => x.served 47 .feeder).spadRead 5 (48 * 65536 - 64) 64).bad = some (48 * 65536 - 8)
    ∧ ([BankUser.feeder, .drain, .vector].all fun u => (ran (.bankAccess 5 47 (badRead u) []) flipped).rd CLU_FAULT.STATUS 5 == stEcc) = true
    ∧ (ran (.bankAccess 5 47 (badRead (.mover 1)) []) flipped).rd CLU_FAULT.STATUS 5 = 0
    ∧ ((ran (.bankAccess 5 47 (badRead .window) []) flipped).clu 5).rowOut = some (.window, 1023, [], true)
    ∧ flipped.stoppedForWindow 5 = true := by decide +kernel
def patch1 : List BankReq := [⟨.drain, 1023, 7, some [1], 0⟩]
theorem test_bank_bad_write : ((flipped.setClu 5 fun x => x.served 47 .drain).spadWrite 5 (48 * 65536 - 8) [1]).bad = some (48 * 65536 - 8)
    ∧ (ran (.bankAccess 5 47 patch1 []) flipped).rd CLU_FAULT.SOURCE 5 = 2 := by decide +kernel
def winReq : BankReq := ⟨.window, 3, 0, none, 0⟩
theorem test_bank_window_refused : (live.wr CLU_STATUS.STATE cRunning 5).stoppedForWindow 5 = false ∧ winReq.user = .window
    ∧ goes (.bankAccess 5 47 [winReq] []) (live.wr CLU_STATUS.STATE cRunning 5)
      (ran (.bankAccess 5 47 [] []) ((live.wr CLU_STATUS.STATE cRunning 5).refuseWindow 5 47 winReq)) = true := by decide +kernel
theorem test_bank_upset : goes (.bankAccess 5 47 [] [(1023, 7, 3)]) live (ran (.bankAccess 5 47 [] []) (live.upset 5 47 1023 7 3)) = true
    ∧ goes (.scrubRead 5 47 1023 [(7, 3)]) flipped (ran (.scrubRead 5 47 1023 []) (flipped.upset 5 47 1023 7 3)) = true := by decide +kernel

/-! ### Feeders, drains and cells -/

/-- A feeder whose block lies at the uncorrectable words, and one with its scale bytes there. -/
def feedAt (block scale : Nat) : State :=
  let f := block + 64 * 2 ^ 22 + 2 ^ 44 + 2 ^ 64 + 2 ^ 128 + scale
  let s := with5 { Clu.rest with owner := some 2, act := some { cfg [] [] [ow 1 16 1] [0] with feed := [(List.replicate 52 f)] },
                                 inPass := true, run := some ⟨0, 0, true, 0, [], 0, 0⟩ }
  s.upset 5 24 0 0 3
theorem test_feed_ecc : ((feedAt 0x180000 0).readRows 5 (fun _ => 0x180000) 64 (List.range 1)).bad = some 0x180000
    ∧ (ran (.feederBlockIssue 5 .a 0) (feedAt 0x180000 0)).rd CLU_FAULT.SOURCE 5 = 1 := by decide +kernel
def feedFull : State := feedState.setCell 5 0 0 fun x => { x with aq := List.replicate 8 oneBlk }
theorem test_feed_waits : ¬ 8 < feedFull.feederAhead 5 ⟨0, 0, true, 0, [], 0, 0⟩ ∧ still (.feederBlockIssue 5 .a 0) feedFull = true
    ∧ still (.feederBlockIssue 5 .b 0) (feedState.setClu 5 fun x =>
      { x with run := some ⟨0, 0, true, 0, [(20, 1)], 0, 0⟩ }) = true := by decide +kernel
theorem test_drain_rests : Cell.rest.drainNext = none ∧ still (.drainHandshake 5 0 0) live = true
    ∧ getK [] (live.clu 5).portq 0 = [] ∧ still (.drainWrite 5 0) live = true := by decide +kernel
/-- Tile 3 is held by a claimant; bank 24 has requests waiting. -/
def portHeld (who : Claimant) : State := portState.setClu 5 fun x => { x with claims := [(3, who)] }
def portBank : State := portState.setClu 5 fun x => { x with bankq := [(24, [⟨.feeder, 0, 0, none, 0⟩])] }
theorem test_drain_waits : ((portHeld (.cell 0 0 true)).clu 5).tryClaim (.cell 0 0 false) [3] = .waits
    ∧ still (.drainWrite 5 0) (portHeld (.cell 0 0 true)) = true ∧ still (.drainHandshake 5 0 0) (portHeld (.cell 0 0 true)) = true
    ∧ portBank.bankFree 5 .drain 24 = false ∧ still (.drainWrite 5 0) portBank = true
    ∧ ((portHeld .vector).clu 5).tryClaim (.cell 0 0 false) [3] = .refused 3
    ∧ (ran (.drainWrite 5 0) (portHeld .vector)).rd CLU_FAULT.STATUS 5 = stTileClaim := by decide +kernel
def portEcc : State := portState.upset 5 24 0 0 3
theorem test_drain_ecc : (portEcc.putMasked 5 (putRuns shake.puts)).bad = some 0x180000
    ∧ (ran (.drainWrite 5 0) portEcc).rd CLU_FAULT.SOURCE 5 = 2 := by decide +kernel
/-- Cell (0, 0) waits: with an operand missing, with its patch full, and before it is opened. -/
def shyCell (b : List Block) (k : Nat) : Cell := { openCell with bq := b, k := k }
theorem test_cube_waits : still (.cubeExecute 5 0 ⟨0, false⟩) (cellState (ow 1 16 1) (shyCell [] 0)) = true
    ∧ opBlocks (ow 1 16 1) ≤ 16 ∧ still (.cubeExecute 5 0 ⟨0, false⟩) (cellState (ow 1 16 1) (shyCell [oneBlk] 16)) = true
    ∧ still (.cubeExecute 5 0 ⟨0, false⟩) (cellState (ow 2 1 1) (shyCell [] 16)) = true := by decide +kernel
theorem test_cube_opens : goes (.cubeExecute 5 0 ⟨0, false⟩) (cellState (ow 1 16 1) { openCell with opened := false })
    (ran (.cubeExecute 5 0 ⟨0, false⟩) ((cellState (ow 1 16 1) { openCell with opened := false }).openPatch 5 0 0
      (cfg [] [] [ow 1 16 1] [0]))) = true
    ∧ (((cellState (ow 1 16 1) { openCell with opened := false }).openPatch 5 0 0 (cfg [] [] [ow 1 16 1] [0])).runCfg 5).isSome = true := by decide +kernel
theorem test_cube_forward_a : (cell00 (ran (.cubeExecute 5 0 ⟨0, false⟩) (cellState (ow 1 16 1) (shyCell [] 0) 1))).aq = [] := by decide +kernel

/-! ### Requesters that do not reach a register -/

noncomputable def rowCmds (o : Origin) : List Instr :=
  [.load o 2, .unload o 2, .passStart o 2 1, .lndAdd o 5 7 1, .tierEnableFresh o 2, .dirLookup o 0 false 0x40, .scLock o 0 1, .fill o,
   .hostEvtRearm o 3, .bringup o [], .windowAccess o w5 8 none, .pwrCapWrite o 100 1, .clusterReset o 5, .pop o, .heldRelease o 5,
   .logicTest o 0 0, .attest o, .wipe o, .ringDbSq o 3 1, .ringEnable o 3]
def inD3Pf : State := { live with host := { live.host with cfg := [(0x11, 3)] } }
theorem test_other_requesters : ((rowCmds (.vf 0)).all fun i => still i live) = true
    ∧ live.ringsFor (.vf 0) 3 = false ∧ inD3Pf.inD3 0 = true ∧ ((rowCmds .pf).all fun i => still i inD3Pf) = true := by decide +kernel
theorem test_cocoon_refused : ((rowCmds .cocoon).all fun i =>
    (ran i live).rd COC_ERR.VALID == 1) = true
    ∧ goes (.load .cocoon 2) live (live.cocRefuse (PLN_SLOT_CTRL.CMD.addr 2 0)) = true := by decide +kernel
/-- An ordered write of the PF's own stream is open. -/
def orderedPf : State := coh [] [] [(kA, txn0 (some ⟨.wrfull data64 false, none, originStream .pf, none, false⟩) [] true)]
theorem test_ordered_waits : orderedPf.orderedOpen (originStream .pf) none = true
    ∧ (((rowCmds .pf).take 18).all fun i => still i orderedPf) = true := by decide +kernel

/-! ### Homes -/

/-- The requests of a core and of a requester that keeps no copy, at line A. -/
def homeCmds : List Instr :=
  [.rds lineA by5 none 0 0, .rdx lineA by5 none 0, .upg lineA by5 none, .rdcur lineA ⟨none, 97⟩, .wrfull lineA ⟨none, 97⟩ data64 false,
   .wrpart lineA ⟨none, 97⟩ 1 ⟨data64, false⟩, .atomf lineA ⟨none, 97⟩ .add 0 2 1 0, .addm lineA ⟨none, 97⟩ 60 0 (zeros 4),
   .puts lineA 5, .pute lineA 5]
def homeMsgs : List Msg :=
  [reqOf .rds 5, reqOf .rdx 5, reqOf .upg 5, anon .rdcur 97, anon (.wrfull data64 false) 97, anon (.wrpart 1 data64 false) 97,
   anon (.atomf .add 0 2 1 0) 97, anon (.addm 60 0 (zeros 4)) 97, reqOf .puts 5, reqOf .pute 5].map (Msg.req kA)
theorem test_home_down : (resetting (2, 0) (coh homeMsgs)).homeUp kA = false ∧ (reqOf .rds 5).isDat = false
    ∧ (homeCmds.all fun i => still i (resetting (2, 0) (coh homeMsgs))) = true := by decide +kernel
/-- Hub 0 has no room for another request. -/
def fullHub : State := { coh homeMsgs with coh := { (coh homeMsgs).coh with lineq := [(kA + 2, List.replicate 24576 (reqOf .rds 7))] } }
theorem test_home_full : fullHub.mustWait kA (reqOf .rds 5) = true
    ∧ (homeCmds.all fun i => (ran i fullHub).coh.net == homeMsgs && (ran i fullHub).coh.txns == []) = true := by decide +kernel
/-- A write of stream 97 is open at another line, and so is the ordered class's. -/
def streamShut : State := coh homeMsgs [] [(kA + 2, txn0 (some ⟨.wrfull data64 false, none, 97, none, false⟩) [] true)]
theorem test_home_ordered : streamShut.mustWait kA (anon (.wrfull data64 false) 97) = true
    ∧ still (.wrfull lineA ⟨none, 97⟩ data64 false) streamShut = true := by decide +kernel
def busyLine : State := coh homeMsgs [(kA, ent (some 8) [])] [(kA, txn0 (some (reqOf .rdx 6)) [8] false)]
theorem test_home_busy : (busyLine.txn kA).isSome = true ∧ busyLine.hasHome kA = true ∧ busyLine.mustWait kA (reqOf .rds 5) = false
    ∧ (homeCmds.all fun i => ((ran i busyLine).queued kA).length == 1 && ((ran i busyLine).coh.net.length == 9)) = true := by decide +kernel
def crossing : State := coh [.req kA (reqOf .puts 5), .req kA (reqOf .pute 5), .req kA (reqOf (.putm data64 false) 5)]
  [(kA, ent (some 5) [])] [(kA, txn0 (some (reqOf .rdx 6)) [5] false)]
theorem test_home_crossing : (crossing.txn kA).map (fun x => x.waiting.contains 5) = some true ∧ crossing.tokens (crossing.home kA) (dirSet 0x40) = []
    ∧ ([Instr.puts lineA 5, .pute lineA 5, .putm lineA 5 data64 false].all fun i =>
      ((ran i crossing).txn kA).map (·.crossed) == some [5] && (ran i crossing).rd DIR_CROSS.COUNT 0 == 1) = true := by decide +kernel
/-- Sixteen lines of the set of line A, which core 8 owns, fill its ways; in one form each is in a transaction. -/
def setLines : List Nat := [1, 3, 5, 7, 9, 10, 12, 13, 15, 17, 19, 21, 22, 24, 25, 27].map fun j => 2 * (j * 2 ^ 18 + (0x40 ^^^ j))
def fullSet (busy : Bool) : State :=
  coh [.req kA (reqOf .rds 5), .req kA (reqOf .rdx 5), .req kA (reqOf .upg 5)]
    (setLines.zipIdx.map fun e => (e.1, { ent (some 8) [] with way := e.2, used := e.2 }))
    (if busy then setLines.map fun k => (k, txn0 (some (reqOf .rdx 6)) [8] false) else [])
theorem test_no_way_victim : (fullSet false).freeWay 0 (dirSet 0x40) = none
    ∧ ((fullSet false).lruEntry 0 (dirSet 0x40)).map (·.1) = some 0x80082 ∧ idle (fullSet false) kA = true
    ∧ ([Instr.rds lineA by5 none 0 0, .rdx lineA by5 none 0, .upg lineA by5 none].all fun i =>
      let t := ran i (fullSet false)
      (t.queued kA).length == 1 && (t.txn 0x80082).map (fun x => (x.why, x.waiting)) == some (.victim, [8])
        && t.rd DIR_VICTIMS.COUNT 0 == 1) = true := by decide +kernel
theorem test_no_way_retry : (fullSet true).lruEntry 0 (dirSet 0x40) = none ∧ (fullSet true).setQueued 0 (dirSet 0x40) = []
    ∧ ([Instr.rds lineA by5 none 0 0, .rdx lineA by5 none 0, .upg lineA by5 none].all fun i =>
      let t := ran i (fullSet true)
      t.coh.net.contains (.retry kA 5 0) && t.rd DIR_RETRIES.COUNT 0 == 1 && t.queued kA == []) = true := by decide +kernel
theorem test_home_ends : waitsOn (ran (.rsp lineA 7 .i false) (coh [.rsp kA 7 .i false] [(kA, ent (some 7) [])]
      [(kA, txn0 (some (reqOf .rdx 5)) [7] false)])) kA = some ([], true)
    ∧ still (.memoryData lineA 0) live = true ∧ still (.memoryData lineA 0) busyLine = true
    ∧ still (.memoryData lineA 0) (resetting (2, 0) reading) = true := by decide +kernel

/-! ### Cores' lines -/

theorem test_lines_dropped : goes (.gnts lineA 5 data64 false) (lineOf5 .m) ((lineOf5 .m).take (.gnt kA 5 .s data64 false)) = true
    ∧ ([Instr.gnte lineA 5 data64 false, .gntm lineA 5 data64 false, .gntma lineA 5, .cmpput lineA 5, .retry lineA 5 8191,
      .cmpd lineA ⟨none, 5⟩ data64 false].all fun i => still i (lineOf5 .m)) = true
    ∧ CState.stable .m = true := by decide +kernel
def heldSnoop : State := (coh [.gnt kA 5 .m data64 false]).setLine kA 5 ⟨.imD, [], false, some .snpInv, none, none⟩
theorem test_held_snoop : ((heldSnoop.line kA 5).st, (heldSnoop.line kA 5).held) = (.imD, some .snpInv)
    ∧ (ran (.gntm lineA 5 data64 false) heldSnoop).coh.net = [.rspd kA 5 .i data64 true false]
    ∧ ((ran (.gntm lineA 5 data64 false) heldSnoop).line kA 5).st = .i := by decide +kernel
def pending (p : CorePend) : State := (coh [.cmpd kA 5 data64 false]).setCore 5 fun c => { c with power := 0, pend := some p }
theorem test_cmpd_poisoned : ((pending ⟨.load 3 0x1001 1 false, [kA], []⟩).core 5).pend.isSome = true
    ∧ ((ran (.cmpd lineA ⟨none, 5⟩ data64 true) (pending ⟨.load 3 0x1001 1 false, [kA], []⟩)).core 5).pend = none
    ∧ (ran (.cmpd lineA ⟨none, 5⟩ data64 true) (pending ⟨.load 3 0x1001 1 false, [kA], []⟩)).xreg 5 3 = 0
    ∧ still (.cmpd lineA ⟨none, 5⟩ data64 false) ((pending ⟨.load 3 0x2001 1 false, [kA + 2], []⟩).setCoh fun c => { c with net := [] }) = true := by decide +kernel
theorem test_cmpd_two_lines : let t := ran (.cmpd lineA ⟨none, 5⟩ data64 false) (pending ⟨.load 3 0x103F 2 false, [kA, kA + 2], []⟩)
    (t.core 5).pend.map (·.need) = some [kA + 2] ∧ t.coh.net = [.req (kA + 2) ⟨.rdcur, none, 5, none, false⟩] := by decide +kernel
theorem test_cmpd_amo : let s := pending ⟨.amo .add 3 0x1001 1 7 0, [kA], []⟩
    (ran (.cmpd lineA ⟨none, 5⟩ data64 false) s).xreg 5 3 = 1 ∧ ((ran (.cmpd lineA ⟨none, 5⟩ data64 false) s).core 5).pend = none := by decide +kernel

/-! ### The host -/

def hostCmds (addr : Nat) : List Instr :=
  [.memrd addr .i, .memrddata addr .a, .meminv addr .i, .meminvnt addr .a, .memwr addr .i data64 false, .memwrptl addr 1 data64 false]
def hostSnoops : List Instr := [.hostSnpdata 0x1000, .hostSnpinv 0x1000, .hostSnpcur 0x1000]
theorem test_host_down : live.hostUp = false ∧ ((hostCmds 0x1000 ++ hostSnoops).all fun i => still i live) = true := by decide +kernel
def bridgeFull : State := { hosted live with coh := { (hosted live).coh with lineq := [(kH, List.replicate 2048 (reqOf .rds 96))] } }
theorem test_host_bridge_full : 2048 ≤ bridgeFull.hostRequests ∧ bridgeFull.decoded 0x1000 = true
    ∧ ((hostCmds 0x1000).all fun i => (ran i bridgeFull).coh.txns == [] && (ran i bridgeFull).coh.lineq.length == 1) = true := by decide +kernel
theorem test_host_home_down : (resetting (2, 0) (hosted live)).homeUp kA = false ∧ (resetting (2, 0) (hosted live)).homeUp kH = false
    ∧ (resetting (2, 0) (hosted live)).hostInA kA = false
    ∧ ((hostCmds 0x1000 ++ hostSnoops).all fun i => still i (resetting (2, 0) (hosted live))) = true := by decide +kernel
/-- Another line's write of the host is open. -/
def hostOrdered : State := hosted (coh [] [] [(kA + 2, txn0 (some ⟨.rdcur, some 96, 96, none, false⟩) [] true)])
theorem test_host_ordered : hostOrdered.mustWait kA ⟨.rdcur, some 96, 96, none, false⟩ = true
    ∧ readKind .i hostOrdered kA = some .rdcur
    ∧ ([Instr.memrd 0x1000 .i, .memrddata 0x1000 .i, .memwr 0x1000 .i data64 false, .memwrptl 0x1000 1 data64 false].all fun i =>
      still i hostOrdered) = true := by decide +kernel
def hostBusy : State := hosted (coh [] [] [(kH, txn0 none [5] false .victim)])
theorem test_host_snoop_queues : (hostBusy.txn kH).isSome = true
    ∧ (hostSnoops.all fun i => ((ran i hostBusy).queued kH).length == 1) = true := by decide +kernel
def hostShared : State := hosted (coh [] [(kH, ent none [5])])
theorem test_host_snoop_shared : (hostShared.entry kH).map (fun e => (e.owner, e.none?)) = some (none, false)
    ∧ (ran (.hostSnpcur 0x1000) hostShared).coh.net = [.toHost kH "RspVHitV"]
    ∧ (ran (.hostSnpdata 0x1000) hostShared).coh.net = [.toHost kH "RspSHitSE"] := by decide +kernel
theorem test_birsp_rests : ({ unanswered with clock := 0 } : State).hostLate kA (txn0 (some (reqOf .rdx 5)) [96, 7] false) = false
    ∧ still (.birspTimeout lineA) { unanswered with clock := 0 } = true ∧ still (.birspTimeout lineA) live = true := by decide +kernel
theorem test_host_unasked : still (.hostCacheResponse lineA .e data64 false) live = true
    ∧ still (.hostCacheResponse lineH .e data64 false) (coh [] [] [(kH, txn0 (some (reqOf .rds 5)) [] true)]) = true
    ∧ (ran (.birsp lineA .i) live).ras.queue.map (·.status) = [stBadDescriptor] := by decide +kernel
theorem test_agents_there : live.home kA ≠ 1 ∧ (ran (.dirLookup .pf 1 false 0x40) live).rd DIR_LOOKUP_DATA.VALID 1 = 1
    ∧ still .coreWritebackTimeout live = true ∧ still (.recallTimeout 1) live = true := by decide +kernel
/-- A recall that waits for core 7 in a package reset. -/
def recalling : State := resetting (4, 0) (coh [] [(kA, ent (some 7) [])] [(kA, txn0 none [7] false .recall)])
theorem test_recall_lost : recalling.rst.busy.contains (4, 0) = true
    ∧ getK false (ran (.recallTimeout 0) recalling).hbmPoison 0x40 = true := by decide +kernel

/-! ### Memory side -/

theorem test_hbm_scrub_counts : (ran (.hbmScrubRead 0 0x40 1) scrubOn).rd HBM_ERR_CORR.COUNT 0 = 1
    ∧ (ran (.hbmScrubRead 0 0x40 2) scrubOn).rd HBM_ERR_UNCORR.COUNT 0 = 1
    ∧ (ran (.hbmScrubRead 0 0x40 0) scrubOn).mem.scrubSeen = [(0x40, true)] ∧ 1 < scrubOn.hubLines 0 := by decide +kernel
theorem test_hbm_scrub_rests : hubOfPc (live.pcOfLine 0x40) ≠ 1 ∧ still (.hbmScrubRead 1 0x40 2) live = true
    ∧ live.hbmEnd ≤ 2 ^ 40 * 64 ∧ still (.hbmScrubRead 0 (2 ^ 40) 2) live = true ∧ still (.hbmScrubRead 0 0x40 1) scrubOff = true := by decide +kernel
def sleepingStacks : State := { live with mem := { live.mem with selfRef := (List.range 12).map fun k => (k, true) } }
theorem test_self_refresh_rests : getK false sleepingStacks.mem.selfRef (sleepingStacks.ctrlOf 0x40) = true
    ∧ ([Instr.hbmScrubRead 0 0x40 1, .refresh 767, .pseudoChannelPowerDown 767].all fun i => still i sleepingStacks) = true := by decide +kernel
theorem test_failed_already : still (.pseudoChannelFailed 384) (ran (.pseudoChannelFailed 384) live) = true
    ∧ still (.pseudoChannelFailed 384) (live.wr HBM_MAPOUT.OUT 1 0 6) = true := by decide +kernel
theorem test_ways_rest : still (.wayReenable .pf 0 15) live = true ∧ still (.preloadDone 0) live = true ∧ still (.wayGateClose 0 15) live = true := by decide +kernel
/-- A read is on its way to way 15, which is leaving. -/
def inFlight : State := leaving.setTxn kA { txn0 (some (anon .rdcur 97)) [] true with scWay := some 15 }
theorem test_way_in_flight : inFlight.wayInFlight 0 15 = true ∧ still (.wayGateClose 0 15) inFlight = true := by decide +kernel
theorem test_gey_rests : still (.fill .pf) (filling 2 64) = true ∧ still (.crc .pf) (filling 1 64) = true ∧ still .geyserComplete live = true
    ∧ still (.geyTestDone 0 ⟨5, 2⟩ 1 2 3) live = true ∧ live.mem.geyDone = [] ∧ (ran (.geyDone .pf) live).resp.data = zeros 8 := by decide +kernel
def geyFullQ : State := { filling 1 64 with mem := { live.mem with geyq := List.replicate 16 (gey0 1 0) } }
def geyBroke : State := ran (.fill .pf) ({ filling 1 64 with mem := { live.mem with credit := [(3, 0)] } }.wr GEY_CMD0.PART 3)
theorem test_gey_waits : still (.fill .pf) geyFullQ = true ∧ (geyBroke.mem.geyq.map (·.part)) = [3]
    ∧ geyBroke.creditFor (keysOf 0x1000 64) 3 = false
    ∧ goes .geyserComplete geyBroke (geyBroke.prepare (keysOf 0x1000 64) true).1 = true := by decide +kernel
theorem test_check_refused : (live.wr HBM_MAPOUT.OUT 1 0 0).mappedOut 0 = true
    ∧ (ran (.readCheck .pf 0 0) (live.wr HBM_MAPOUT.OUT 1 0 0)).rd GEY_TEST_CTRL.REJECT 0 = stBadDescriptor
    ∧ live.mappedOut 0 = false ∧ live.pcFailed 0 = false ∧ (ran (.writeCheck .pf 0 0 4) live).rd GEY_TEST_CTRL.REJECT 0 = stBadDescriptor
    ∧ (ran (.writeCheck .pf 0 0 5) (live.wr HBM_MAPOUT.OUT 1 0 0)).rd GEY_TEST_CTRL.REJECT 0 = stBadDescriptor
    ∧ (ran (.writeCheck .pf 0 0 4) (live.wr HBM_MAPOUT.OUT 1 0 0)).rd GEY_TEST_CTRL.BUSY 0 = 1 := by decide +kernel

/-! ### The host port and the rings -/

theorem test_no_host : ([Instr.hotReset, .hostDownTimeout, .configRequest 0 5 none, .functionLevelReset 0, .linkRetrain 9,
    .atsInvalidation 3 5 ⟨6, 1⟩, .mctpMessage [1], .perstDeassert].all fun i => still i live) = true
    ∧ linked.funcHere 3 = false ∧ still (.functionLevelReset 3) linked = true := by decide +kernel
def lostOnce : State := live.wr HOST_RESET.STATE 1
theorem test_perst_again : lostOnce.on HOST_RESET.STATE = true
    ∧ goes .perstAssert lostOnce { lostOnce with host := { lostOnce.host with perst := true } } = true := by decide +kernel
noncomputable def upAt16 : State := ran (.hostLinkUp ⟨6, 16, true, true, true⟩) live
theorem test_link_narrows : (4 : Nat) ≤ upAt16.host.trained ∧ (ran (.hostLinkUp ⟨6, 4, true, true, true⟩) upAt16).rd HOST_LINK.WIDTH = 4
    ∧ (ran (.hostLinkUp ⟨6, 5, true, true, true⟩) upAt16).rd HOST_LINK.WIDTH = 16 := by decide +kernel
theorem test_link_stays_down : (resetting (2, 0) live).rst.busy.contains (dHub, 0) = true
    ∧ (ran (.hostLinkUp ⟨6, 16, true, true, true⟩) (resetting (2, 0) live)).rd HOST_LINK.UP = 0
    ∧ (ran (.hostLinkUp ⟨6, 16, true, false, true⟩) live).host.cableB = true ∧ (ran (.hostLinkUp ⟨6, 16, true, false, true⟩) live).hostUp = false
    ∧ (ran (.hostLinkUp ⟨6, 16, true, true, true⟩) { live with host := { live.host with perst := true } }).hostUp = false := by decide +kernel
theorem test_fetch_rests : (ring 0).rd RING_HEAD.HEAD 1023 = (ring 0).rd RING_HEAD.TAIL 1023 ∧ still (.descriptorFetch 1023 .data) (ring 0) = true
    ∧ still (.descriptorFetch 1023 .data) live = true ∧ still (.descriptorFetch 1023 .data) ((rung 0).wr HOST_LINK.UP 0) = true := by decide +kernel
def ringBroke : State := { inHbm 1 with mem := { (inHbm 1).mem with credit := [(0, 0)] } }
theorem test_fetch_waits : ringBroke.ringPart 1023 = 0 ∧ ringBroke.creditFor (keysOf 0x1000 256) 0 = false
    ∧ goes (.descriptorFetch 1023 .data) ringBroke (ringBroke.prepare (keysOf 0x1000 256) false).1 = true := by decide +kernel
theorem test_drain_disabled : linked.ringSt 1023 = rDisabled ∧ (ran (.ringDrain .pf 1023) linked).rd RING_CFG.REJECT 1023 = stOK
    ∧ (ran (.ringDrain .pf 1023) linked).ringSt 1023 = rDisabled := by decide +kernel
theorem test_turn_elsewhere : ([Instr.nop 1023 1, .land 1023 0, .inline 1023 0, .exec 1023 0].all fun i => still i (fetched 0)) = true
    ∧ live.ringNext 1023 = none ∧ still (.nop 1023 0) live = true := by decide +kernel
/-- Two descriptors of ring 1023: the first has begun, the second has a Q0 word. -/
def second (q0 : Nat) : State := (fetched 0).setRing 1023 fun x =>
  { x with inflight := [⟨0, zeros 256, true⟩, ⟨1, leBytes 8 q0 ++ zeros 248, false⟩] }
theorem test_fence_order : (second 16).ringNext 1023 = none ∧ ((second 0).ringNext 1023).map (·.slot) = some 1
    ∧ ((second 6).ringNext 1023).map (·.cls) = some 6 ∧ still (.nop 1023 1) (second 16) = true := by decide +kernel
/-- An INLINE whose HBM line the host owns. -/
def inlineHeld : State := (fetched (1 + 64 * 256) 2 0x1000).setCoh fun c => { c with dir := [(kA, ent (some 96) [])] }
theorem test_inline_waits : ((inlineHeld.ringNext 1023).any fun d => inlineHeld.inlineGood 1023 d && !(inlineHeld.inlineReady 1023 d).2) = true
    ∧ (ran (.inline 1023 0) inlineHeld).rd RING_DONE.COUNT 1023 = 0 ∧ (ran (.inline 1023 0) inlineHeld).coh.net = [.bisnp kA .snpInv] := by decide +kernel

/-! ### The Cocoon site -/

theorem test_cocoon_rests : still (.d2dTransfer 14 true 0 1) live = true ∧ still (.bringup .pf disc) up = true
    ∧ live.coc.due = false ∧ still (.bringup .hawkmoth disc) live = true ∧ live.siteUp = false
    ∧ ([Instr.accept 1, .request 5, .offerTimeout, .siteRailRemoval, .cocoonLinkDown, .cocoonLinkDownTimeout, .graceExpiry].all fun i =>
      still i live) = true
    ∧ up.coc.above = false ∧ still .graceExpiry up = true ∧ still .cocoonLinkDownTimeout up = true
    ∧ still .cocoonLinkDownTimeout (ran .cocoonLinkDown up) = true := by decide +kernel
theorem test_window_rests : still (.cocoonWindowAccess .pf (cocWindow - 8) 8 none none) up = true
    ∧ still (.cocoonWindowAccess .pf (cocWindow + 0x10000000) 8 none none) up = true
    ∧ still (.windowAnswerTimeout .pf cocWindow false) up = true
    ∧ still (.windowAnswerTimeout .pf cocWindow false) { asking with clock := 0 } = true
    ∧ (ran (.cocoonWindowAccess .pf cocWindow 8 none none) live).resp.ur = true
    ∧ (ran (.cocoonWindowAccess .pf cocWindow 3 none none) up).resp = ⟨List.replicate 3 0xFF, true, false⟩
    ∧ (ran (.cocoonWindowAccess .pf (cocWindow + 4) 8 none none) up).resp.data = List.replicate 8 0xFF := by decide +kernel
theorem test_stream_rests : up.streaming = false ∧ still (.cocoonPut false 0x1000 [7] none 0) up = true ∧ still (.cocoonGet false 0x1000 2) up = true
    ∧ still (.cocoonPut false 0x1000 [] none 0) streams = true ∧ still (.cocoonPut false 0x1000 (List.replicate 257 7) none 0) streams = true
    ∧ still (.cocoonGet false 0x1000 0) streams = true := by decide +kernel
/-- The host owns line A. -/
def hostOwned : State := streams.setCoh fun c => { c with dir := [(kA, ent (some 96) [])] }
theorem test_stream_waits : (hostOwned.putReady (.hbm 0x1000) none 2).2 = false
    ∧ goes (.cocoonPut false 0x1000 [7, 7] none 0) hostOwned (hostOwned.putReady (.hbm 0x1000) none 2).1 = true
    ∧ (hostOwned.prepare (keysOf 0x1000 2) false).2 = false
    ∧ goes (.cocoonGet false 0x1000 2) hostOwned (hostOwned.prepare (keysOf 0x1000 2) false).1 = true := by decide +kernel
def spadSpoilt : State := streams.upset 5 0 0 0 3
theorem test_stream_spad_bad : (spadSpoilt.spadRead 5 0 2).bad = some 0 ∧ (ran (.cocoonGet true (5 * 2 ^ 22) 2) spadSpoilt).rd COC_ERR.STATUS = stEcc := by decide +kernel

/-! ### The Obneurn Link -/

/-- Mover 1 of cluster 5 waits for a reply of module 7. -/
def getting : State := wired.setClu 5 fun x => { x with mov1 := ⟨some (mv (desc 4 4 0 1 64 (7 * 2 ^ 48)) true), []⟩ }
def rhd : ObHdr := { obHd 3 0x1000 with reply := true }
theorem test_hdr_reply : getting.replyTo rhd = some (5, 1) ∧ wired.replyTo rhd = none
    ∧ (ran (.hdr lk rhd) getting).rxRun 2 false = some ⟨rhd, 0, false⟩ ∧ (ran (.hdr lk rhd) wired).rd OBL_DROP2.STALE = 1 := by decide +kernel
theorem test_data_size : still (.data lk []) wired = true ∧ still (.data lk (List.replicate 257 7)) wired = true
    ∧ wired.rxRun 2 false = none ∧ ((ran (.data lk [6, 7]) wired).port 2).rxSeq = 1 := by decide +kernel
/-- A run in progress at port 2, after its header. -/
def inRun (r : ObRun) (s : State := wired) : State := s.setRun 2 false r
theorem test_data_refused : (inRun ⟨obHd 3 0x1000, 0, true⟩).rxRun 2 false = some ⟨obHd 3 0x1000, 0, true⟩
    ∧ (ran (.data lk [6, 7]) (inRun ⟨obHd 3 0x1000, 0, true⟩)).rd OBL_PORT_RX.BYTES 2 = 2
    ∧ (ran (.data lk [6, 7]) (inRun ⟨obHd 9 0x1000, 0, true⟩)).rd OBL_DROP2.LOOP = 1 := by decide +kernel
/-- Poisoned, and held by the host, where the packet lands; an ADD meets the one and waits for the other. -/
def addRun : ObHdr := { obHd 3 0x1000 with add := true, efmt := 0 }
def poisonedAt : State := { inRun ⟨addRun, 0, false⟩ with hbmPoison := [(0x40, true)] }
def hostHolds : State := (inRun ⟨obHd 3 0x1000, 0, false⟩).setCoh fun c => { c with dir := [(kA, ent (some 96) [])] }
theorem test_data_lands_badly : (poisonedAt.landPacket addRun 0x1000 (zeros 4)).2 = .bad ∧ poisonedAt.dataGood addRun 0x1000 4 = true
    ∧ (ran (.data lk (zeros 4)) poisonedAt).rd OBL_NACK_LAST.STATUS = stEcc
    ∧ (hostHolds.landPacket (obHd 3 0x1000) 0x1000 [6, 7]).2 = .wait
    ∧ goes (.data lk [6, 7]) hostHolds (hostHolds.landPacket (obHd 3 0x1000) 0x1000 [6, 7]).1 = true := by decide +kernel
def replyRun (s : State) (h : ObHdr) : State := inRun ⟨h, 0, false⟩ s
theorem test_data_reply : (ran (.data lk [6, 7]) (replyRun wired rhd)).rd OBL_DROP2.STALE = 1
    ∧ ((ran (.data lk [6, 7]) (replyRun getting rhd)).mover 5 1).cur.map (·.landed) = some 2
    ∧ ((ran (.data lk [6, 7]) (replyRun getting { rhd with addr := live.hbmEnd - 1 })).mover 5 1).cur.map (·.err)
      = some (some stBadDescriptor) := by decide +kernel
def badReply : State := { replyRun getting { addRun with reply := true } with hbmPoison := [(0x40, true)] }
theorem test_data_reply_bad : (badReply.landPacket { addRun with reply := true } 0x1000 (zeros 4)).2 = .bad
    ∧ ((ran (.data lk (zeros 4)) badReply).mover 5 1).cur.map (·.lost) = some 4 := by decide +kernel
def fullGets : State := { wired with obl := { wired.obl with getq := [(0, List.replicate 256 (obHd 3 0, getDesc, 0))] } }
theorem test_get_forms : (ran (.getFrame lk (obHd 3 0) (words getDesc)) (wired.wr OBL_STATUS.QUIET 1)).rd OBL_DROP2.QUIET = 1
    ∧ (getK [] fullGets.obl.getq 0).length = 256 ∧ still (.getFrame lk (obHd 3 0) (words getDesc)) fullGets = true
    ∧ (ran (.getFrame lk (obHd 9 0 0) (words getDesc)) wired).rd OBL_DROP2.LOOP = 1 := by decide +kernel
def getsNothing : State := { wired with obl := { wired.obl with getq := [(0, [(obHd 3 0, getDesc.set 3 0, 0)])] } }
def getsHeld : State := inquired.setCoh fun c => { c with dir := [(kA, ent (some 96) [])] }
theorem test_reply_forms : still (.replyEngineStart 0) wired = true ∧ (getMove (getDesc.set 3 0)).total = 0
    ∧ wired.getBase (obHd 3 0) (getDesc.set 3 0) = some 0x1000 ∧ getK [] (ran (.replyEngineStart 0) getsNothing).obl.getq 0 = []
    ∧ (getsHeld.prepare (getKeys (getMove getDesc) 0x1000) false).2 = false
    ∧ goes (.replyEngineStart 0) getsHeld (getsHeld.prepare (getKeys (getMove getDesc) 0x1000) false).1 = true := by decide +kernel
theorem test_send_rests : still (.frameSend 2 0 false) wired = true ∧ still (.replayTimeout 2) wired = true
    ∧ live.portSt 2 ≠ pUp ∧ still (.frameSend 2 0 false) live = true ∧ still (.ctlPeriod 2) live = true
    ∧ still (.lossOfSignal 2) (portIs pDown) = true ∧ pDown ≠ pUp ∧ pDown ≠ pTraining := by decide +kernel
/-- The partner has granted no credit; sixteen packets of the run have gone, and another port's run waits behind. -/
def noCredit : State := putting.setPort 2 fun x => { x with used := (List.range 6).map fun k => (k, 60000) }
def longRun : State := (putting.setPort 2 fun x => { x with
  txRun := [(0, obHd 9 0, 16)], txq := [(0, [(0, .put (obHd 9 0) [5]), (3, .put (obHd 8 0x40) [6])])] })
theorem test_send_turns : noCredit.creditOn 2 0 (.hdr (obHd 9 0)) = false ∧ still (.frameSend 2 0 false) noCredit = true
    ∧ longRun.creditOn 2 0 (.hdr (obHd 8 0x40)) = true
    ∧ (ran (.frameSend 2 0 false) longRun).out = [.frame 2 0 0 (.hdr (obHd 8 0x40))] := by decide +kernel
/-- The put is mover 1 of cluster 5's own. -/
def ownPut : State := (wired.setClu 5 fun x => { x with mov1 := ⟨some { mv (desc 0 0 4 1 64 0 (9 * 2 ^ 48)) true with queued := 1 }, []⟩ }).setPort 2
  fun x => { x with txq := [(0, [(0, .put { obHd 9 0 with src := 3 } [5])])] }
theorem test_send_own : ownPut.ownAddr = 3
    ∧ ((ran (.frameSend 2 0 false) ownPut).mover 5 1).cur.map (·.flight) = some [0]
    ∧ ((ran (.frameSend 2 0 false) (ran (.frameSend 2 0 false) ownPut)).mover 5 1).cur.map (fun v => (v.queued, v.flight)) = some (0, [1]) := by decide +kernel
theorem test_port_rests : still (.recoveryTimeout 2) wired = true ∧ still (.recoveryTimeout 2) (portIs pRecovery) = true
    ∧ still (.ident 2 true 8 1 4) wired = true ∧ still (.trainingRetry 2) wired = true ∧ still .quietEnd wired = true := by decide +kernel

/-! ### Power and resets -/

/-- Die 6 is at its throttle point, die 2 has cooled for ten seconds, and a stack of hub 1 is hot. -/
def heated : State := { live.wr PWR_TEMP.TJ 127 0 0 6 with
  clock := 10 ^ 8, pwr := { live.pwr with cut := [(2, 15), (6, 98)], cool := [(2, 0)], hubCut := [(0, 5), (1, 10)], stackHot := [(1, true)] } }
theorem test_cuts : live.rd PWR_THERM.THROTTLE_C ≤ heated.rd PWR_TEMP.TJ 0 0 6 ∧ (heated.pwr.cool.find? (·.1 = 2)).map (·.2) = some 0
    ∧ getK false heated.pwr.stackHot 1 = true
    ∧ (let u := heated.rescaled.takeCap.thermalCuts
      getK 0 u.pwr.cut 6 = 100 ∧ getK 0 u.pwr.cut 2 = 10 ∧ getK 0 u.pwr.hubCut 1 = 15 ∧ getK 0 u.pwr.hubCut 0 = 0) := by decide +kernel
/-- The overhead leaves the classes less than their floors, and no poll has come. -/
def starved : State := (live.wr PWR_CAP.WATTS 1500).wr PWR_OVERHEAD.O 1400
theorem test_floor_bound : (let v := starved.rescaled.takeCap.thermalCuts
    v.pool (v.rd PWR_OVERHEAD.O) < ((sumOf ((List.range 5).map starved.classFloor) : Nat) : Int) ∧ v.pwr.polls = []) := by decide +kernel
theorem test_power_rests : still .currentLimit (ran .currentLimit live) = true
    ∧ still (.holdDutyStep 3 false) (ran (.holdDutyStep 3 false) (live.wr PWR_HOLD.D 9 0 0 3)) = true
    ∧ still (.ageingMeasurement [⟨5, [1, 2, 3, 4], 100, 9⟩]) (live.wr AGE_CTRL.EN 0) = true ∧ live.measureDue = true
    ∧ ({ live with age := { live.age with measured := some 0 } } : State).measureDue = false := by decide +kernel

theorem test_release : goes (.heldRelease .pf 5) holding
    (({ holding.wr RAS_CLU_HELD.HELD 0 0 0 with rst := { holding.rst with cluTimes := eraseK holding.rst.cluTimes 5 } } : State).autoReset 5) = true
    ∧ still (.heldRelease .pf 5) live = true := by decide +kernel
theorem test_hub_links_whole : ((inReset (2, 0)).formLinks [] (hubLinks 0)).failedLinks (hubLinks 0) = []
    ∧ ((inReset (3, 0)).formLinks [] [9, 10]).failedLinks [9, 10] = [] :=
  ⟨(inReset (2, 0)).formLinks_whole (fun _ => Nat.zero_le 4) _ (by decide),
   (inReset (3, 0)).formLinks_whole (fun _ => Nat.zero_le 4) _ (by decide)⟩
def deadLink : List BundleFinding := [⟨14, false, 0, 5, false⟩, ⟨14, false, 1, 5, false⟩, ⟨14, false, 2, 0, true⟩]
/-- Whatever came before, these findings leave link 14 with no bundle from its first die to its second. -/
theorem dead_link (u : State) : ((u.formDir deadLink 14 false).formDir deadLink 14 true).linkFailed 14 = true := by
  have r (b : Nat) (hb : b < 3) : ((u.formDir deadLink 14 false).formDir deadLink 14 true).role 14 false b = 0 := by
    have : b = 0 ∨ b = 1 ∨ b = 2 := by omega
    rcases this with rfl | rfl | rfl <;>
    simp [State.formDir, linkBundles, linkSpares, List.range, List.range.loop, State.role, State.setD2d, bundleKey, b2n,
        State.bundleFound, deadLink, getK_setK_ne, getK_setK_same]
  generalize (u.formDir deadLink 14 false).formDir deadLink 14 true = t at r
  simp [State.linkFailed, State.roleCount, linkRoles, linkBundles, linkSpares, List.range, List.range.loop, r]
/-- Die 2 is in a reset that a failed link began, and the link to die 3 fails again. -/
def linkReset : State := { inReset (1, 2) with rst := { (inReset (1, 2)).rst with linkResets := [(1, 2)] } }
theorem test_links_fail_again : linkReset.rst.linkResets.contains (1, 2) = true
    ∧ (linkReset.formLinks deadLink (matrixLinks 2)).failedLinks (matrixLinks 2) ≠ [] := by
  refine ⟨by decide +kernel, List.ne_nil_of_mem (a := 14) (List.mem_filter.2 ⟨by decide, ?_⟩)⟩
  rw [show matrixLinks 2 = [2, 6, 12] ++ [14] from rfl, State.formLinks_concat]
  exact beq_iff_eq.2 (State.linkSettle_failed _ _ (dead_link _))
theorem test_reset_ends : (inReset (2, 0)).coh.txns = [] ∧ (inReset (2, 0)).coh.lineq = [] ∧ (inReset (2, 0)).on TIER_CTRL.EN = false
    ∧ (inReset (4, 0)).rst.linkResets.contains (4, 0) = false := by decide +kernel
theorem test_bist_mismatched : underTest.on BIST_CMD.BUSY = true ∧ still (.bistDone none (some ⟨[]⟩)) underTest = true
    ∧ still (.bistDone none none) live = true ∧ live.on BIST_CMD.BUSY = false ∧ live.rst.rot = [] := by decide +kernel
/-- Cluster 0 is in rotation, with both tests; and a die whose every cluster is FAULTED. -/
def rotating : State := { turning with rst := { turning.rst with rot := [(0, false)] } }
theorem test_rotation_mismatched : rotating.on BIST_CMD.BUSY = false ∧ still (.bistDone none (some ⟨[]⟩)) rotating = true
    ∧ still (.bistRotation 0) (live.wr BIST_ROT.EN 0) = true
    ∧ still (.bistOverdue 5) turning = true := by decide +kernel
def allFaulted : State := (dieClusters 0).foldl (fun s c => s.wr CLU_STATUS.STATE cFaulted c) turning
theorem test_rotation_none : (dieClusters 0).find? (fun x => allFaulted.cluMayTest x false) = none ∧ still (.bistRotation 0) allFaulted = true := by decide +kernel

/-! ### Plan slots -/

/-- Slot 2 of a part of 384 pseudo-channels or fewer has an image of 4,096 bytes at 1 MiB. -/
def imaged (n : Nat) (a : Nat := 256) : State := (live.wr PLN_IMG_LEN.LEN n 2).wr PLN_IMG_ADDR.ADDR a 2
/-- The host holds the first line of that image. -/
def imageHeld (s : State) : State :=
  s.setCoh fun c => { c with dir := [(hbmKey 0x100000, ent (some 96) [])] }
theorem test_load_stopped : ((live.setBoard fun b => { b with boot := .badArea }).board.boot.stopped) = true
    ∧ still (.load .pf 2) (live.setBoard fun b => { b with boot := .badArea }) = true := by decide +kernel
theorem test_load_lengths : (2 : Nat) ^ 26 < (imaged (2 ^ 26 + 1)).imgLen 2 ∧ (ran (.load .pf 2) (imaged (2 ^ 26 + 1))).slotSt 2 = pFAILED
    ∧ (imaged 4096 (2 ^ 36 - 1)).hbmEnd < (imaged 4096 (2 ^ 36 - 1)).imgAddr 2 + 4096
    ∧ (ran (.load .pf 2) (imaged 4096 (2 ^ 36 - 1))).rd PLN_SLOT_STATUS.CHECK 2 = 1 := by decide +kernel
theorem test_load_image_held : ((imageHeld (imaged 128)).prepare (keysOf 0x100000 128) false).2 = false
    ∧ ((ran (.load .pf 2) (imageHeld (imaged 128))).slot 2).load = some ⟨false, none⟩ := by decide +kernel
theorem test_load_image_poison : (({ imaged 128 with hbmPoison := [(0x100000 / 64, true)] } : State).rangeRead 0x100000 128 97 0).poison = true
    ∧ (ran (.load .pf 2) { imaged 128 with hbmPoison := [(0x100000 / 64, true)] }).rd PLN_SLOT_STATUS.STATUS 2 = stEcc := by decide +kernel
theorem test_load_head_fails : ((imaged 128).headChecks 2 (zeros 128)).isSome = true
    ∧ (ran (.load .pf 2) (imaged 128)).rd PLN_SLOT_STATUS.STATUS 2 = stPlanCheck := by decide +kernel
theorem test_load_out : (live.wr RAS_SERVICE.OUT 1).on RAS_SERVICE.OUT = true
    ∧ (ran (.load .pf 2) (live.wr RAS_SERVICE.OUT 1)).rd PLN_SLOT_STATUS.CMD_REJECT 2 = 1 := by decide +kernel
theorem test_load_complete_none : (live.slot 2).load = none ∧ still (.loadComplete 2) live = true := by decide +kernel
def loadWaits : State := (imaged 128).setSlot 2 fun x => { x with load := some ⟨false, none⟩ }
theorem test_load_again : goes (.loadComplete 2) loadWaits (loadWaits.loadClaim 2 false) = true := by decide +kernel
def bodyFails : State := (imaged 128).setSlot 2 fun x => { x with load := some ⟨false, some (zeros 128)⟩ }
theorem test_body_fails : (bodyFails.bodyChecks 2 (zeros 128) (readPlan (zeros 128) (bodyFails.placeOf 2) 2)).isSome = true
    ∧ (ran (.loadComplete 2) bodyFails).slotSt 2 = pFAILED := by decide +kernel

def cluOfSlot (st : Nat) (f : Clu → Clu := id) (s : State) : State :=
  (s.setClu 5 fun x => f { x with owner := some 2 }).wr CLU_STATUS.STATE st 5
theorem test_unload_out : (slotSt2 pLOADED |>.wr RAS_SERVICE.OUT 1).on RAS_SERVICE.OUT = true
    ∧ goes (.unload .pf 2) (slotSt2 pLOADED |>.wr RAS_SERVICE.OUT 1) ((slotSt2 pLOADED |>.wr RAS_SERVICE.OUT 1).slotRejects 2) = true
    ∧ goes (.unload .pf 2) (slotSt2 pLOADED |>.wr DLN_SLOT_EXEC.EXEC 2 2) ((slotSt2 pLOADED |>.wr DLN_SLOT_EXEC.EXEC 2 2).slotRejects 2) = true
    ∧ swapping.slotSt 2 = pSTANDBY ∧ (swapping.slot 2).molt.isSome = true
    ∧ goes (.unload .pf 2) swapping (swapping.slotRejects 2) = true := by decide +kernel
def runningSlot : State := cluOfSlot cRunning id (slotSt2 pLOADED)
theorem test_unload_running : 5 ∈ runningSlot.owned 2 ∧ runningSlot.cluSt 5 ≠ cStopped ∧ runningSlot.cluSt 5 ≠ cFaulted
    ∧ goes (.unload .pf 2) runningSlot (runningSlot.slotRejects 2) = true := by decide +kernel
theorem test_unload_loading : (slotSt2 pLOADING).slotSt 2 = pLOADING
    ∧ (ran (.unload .pf 2) (slotSt2 pLOADING)).rd PLN_SLOT_STATUS.CMD_REJECT 2 = 1 := by decide +kernel
def succeeded : State := ((cluOfSlot cStopped id (slotSt2 pLOADED)).wr SEC_CTRL.SCRUB_ON_UNLOAD 0).wr PLN_SLOT_STATUS.STATE pSTANDBY 4
  |>.setSlot 4 fun x => { x with pred := some 2, cfg := some small }
theorem test_unload_gives : (∀ c ∈ succeeded.owned 2, succeeded.cluSt c = cStopped) ∧ succeeded.on SEC_CTRL.SCRUB_ON_UNLOAD = false
    ∧ succeeded.successors 2 = [4]
    ∧ ((ran (.unload .pf 2) succeeded).slot 4).takeover = true ∧ (ran (.unload .pf 2) succeeded).slotSt 4 = pSTANDBY := by decide +kernel
theorem test_unload_standby : (molting.slot 2).molt = none ∧ molting.slotSt 2 = pSTANDBY
    ∧ (ran (.unload .pf 2) (molting.wr SEC_CTRL.SCRUB_ON_UNLOAD 0)).slotSt 2 = pEMPTY := by decide +kernel
theorem test_takeover_rests : (live.slot 2).takeover = false ∧ still (.standbyTakeover 2) live = true
    ∧ still (.standbyTakeover 2) (takeover.setSlot 2 fun x => { x with cfg := none }) = true
    ∧ (takeover.wr CLU_STATUS.STATE cFaulted 5).cluSt 5 = cFaulted ∧ still (.standbyTakeover 2) (takeover.wr CLU_STATUS.STATE cFaulted 5) = true
    ∧ still (.standbyTakeover 2) (takeover.setClu 5 fun x => { x with bist := true }) = true := by decide +kernel
def notReady : State := cluOfSlot cRunning (fun x => { x with owner := some 3 }) swapping
theorem test_swap_rests : still (.moltSwap 2) live = true
    ∧ (swapping.wr PLN_SLOT_STATUS.STATE pLOADED 2).slotSt 2 ≠ pSTANDBY ∧ still (.moltSwap 2) (swapping.wr PLN_SLOT_STATUS.STATE pLOADED 2) = true
    ∧ notReady.moltReady 3 = false ∧ still (.moltSwap 2) notReady = true := by decide +kernel
/-- A slot whose clusters a reset held: its image, the digest that was kept of it, and the spare columns of its cluster. -/
def reapplying (img : List Byte) : State :=
  let s := (imaged img.length).setSlot 2 fun x => { x with cfg := some small, reapply := [5] }
  let s := (List.range 8).foldl (fun s j => s.wr PLN_DIGEST.DIGEST (quad (planDigest img) j) 2 j) s
  { (cluOfSlot cStopped id s).wr PLN_SLOT_STATUS.STATE pLOADED 2 with hbm := memWrite [] 0x100000 img }
theorem test_reapply : (ran (.planReapply 2) (reapplying [1, 2, 3])).slotSt 2 = pLOADED
    ∧ ((ran (.planReapply 2) (reapplying [1, 2, 3])).slot 2).reapply = []
    ∧ bit ((ran (.planReapply 2) (reapplying [1, 2, 3])).rd PLN_INT_STATUS.RELOAD) 2 = true := by decide +kernel
def changedImage : State := (reapplying [1, 2, 3]).wr PLN_DIGEST.DIGEST 0 2 7
theorem test_reapply_changed : quad (planDigest [1, 2, 3]) 7 ≠ 0 ∧ (ran (.planReapply 2) changedImage).slotSt 2 = pFAILED
    ∧ (ran (.planReapply 2) changedImage).rd PLN_SLOT_STATUS.CHECK 2 = 3 := by decide +kernel
theorem test_reapply_waits : ((imageHeld (reapplying [1, 2, 3])).prepare (keysOf 0x100000 3) false).2 = false
    ∧ (ran (.planReapply 2) (imageHeld (reapplying [1, 2, 3]))).slotSt 2 = pLOADED := by decide +kernel
theorem test_reapply_rests : (live.slot 2).reapply = [] ∧ still (.planReapply 2) live = true
    ∧ (slotSt2 pSTANDBY fun x => { x with reapply := [5] }).slotSt 2 ≠ pLOADED
    ∧ still (.planReapply 2) (slotSt2 pSTANDBY fun x => { x with reapply := [5] }) = true
    ∧ still (.planReapply 2) (cluOfSlot cResetting id (reapplying [1])) = true := by decide +kernel

/-! ### Moves and landing counters -/

theorem test_move_waits : (mv (desc 0 2 0 1 64)).op ≠ 1 ∧ still (.gather 5 1) (moving (mv (desc 0 2 0 1 64))) = true
    ∧ still (.scatter 5 1) (moving (mv (desc 0 2 0 1 64))) = true ∧ still (.scatterAdd 5 1) (moving (mv (desc 0 2 0 1 64))) = true
    ∧ still (.get 5 1) (moving (mv (desc 0 2 0 1 64))) = true
    ∧ (moving copying).mayBegin 5 copying = false ∧ still (.copy 5 1) (moving copying) = true := by decide +kernel
def unreadable : State := resolving ready3 |>.setClu 5 fun x => { x with mov1 := ⟨some { objMove with func := 64 }, []⟩ }
def beyond : Move := { objMove with objOff := 65536 }
theorem test_resolve_fails : unreadable.mayRead 64 9 = false ∧ unreadable.handleEntry h3 = some 3
    ∧ (((ran (.objectResolve 5 1) unreadable).mover 5 1).cur.map (·.err)) = some (some stBadDescriptor)
    ∧ ((65536 : Nat) : Int) < (beyond.objOff : Int) + (beyond.span false).2 + beyond.runBytes
    ∧ (((ran (.objectResolve 5 1) ((resolving ready3).setClu 5 fun x => { x with mov1 := ⟨some beyond, []⟩ })).mover 5 1).cur.map (·.err))
      = some (some stBadDescriptor) := by decide +kernel
theorem test_resolve_waits : ((resolving ready3).wr TIER_CTRL.READY 0).on TIER_CTRL.EN = true
    ∧ ((resolving ready3).wr TIER_CTRL.READY 0).tierRuns = false
    ∧ still (.objectResolve 5 1) ((resolving ready3).wr TIER_CTRL.READY 0) = true := by decide +kernel
def held5 (v : Move) : State := { moving v with hbm := [(0x1000, 9)] }
theorem test_landing_rests : still (.landing 5 1 0 ⟨false, false⟩) live = true
    ∧ still (.landing 5 1 0 ⟨false, false⟩) (held5 { copying with begun := false }) = true
    ∧ copying.runs * copying.perRun (srcState.side 5 copying true).granule ≤ 9 ∧ still (.landing 5 1 9 ⟨false, false⟩) srcState = true
    ∧ still (.landing 5 1 0 ⟨false, false⟩) landed = true
    ∧ (mv (desc 0 2 0 1 0) true).total = 0 ∧ still (.landing 5 1 0 ⟨false, false⟩) (held5 (mv (desc 0 2 0 1 0) true)) = true
    ∧ still (.landing 5 1 0 ⟨false, false⟩) (held5 { copying with err := some stEcc }) = true
    ∧ still (.landing 5 1 0 ⟨false, false⟩) (held5 { mv (desc 4 4 0 1 64 (2 ^ 48)) with begun := true }) = true := by decide +kernel
def ended5 : State := moving { copying with err := some stEcc }
theorem test_complete_forms : copying.ended = false ∧ still (.moveComplete 5 1) srcState = true
    ∧ ({ copying with err := some stEcc } : Move).ended = true ∧ ({ copying with err := some stEcc } : Move).status ≠ stOK
    ∧ (ended5.stepMove 5 1).isNone = true ∧ (ended5.nextMig 5 1).isNone = true
    ∧ ((ran (.moveComplete 5 1) ended5).mover 5 1).cur = none ∧ (ran (.moveComplete 5 1) ended5).rd MOV_ERR.STATUS 5 = stEcc := by decide +kernel
theorem test_mover_watchdog_rests : ((lateMove srcState).wr MOV_WDOG.EN 0 5).on MOV_WDOG.EN 5 = false
    ∧ still (.moverWatchdog 5 1 .package) ((lateMove srcState).wr MOV_WDOG.EN 0 5) = true
    ∧ still (.moverWatchdog 5 1 .package) srcState = true
    ∧ still (.moverWatchdog 5 1 .package) (lateMove (moving { copying with begun := false })) = true
    ∧ still (.moverWatchdog 5 1 .package) (lateMove landed) = true := by decide +kernel
def watched : State := ran (.lndWatch .pf 5 7 9) live
theorem test_watch_fires : watched.rd LND_WATCH.ARMED 5 = 1 ∧ (ran (.lndAdd .pf 5 7 9) watched).rd LND_WATCH.ARMED 5 = 0
    ∧ (ran (.lndAdd .pf 5 7 9) watched).on LND_INT_STATUS.WATCH 5 = true
    ∧ (ran (.lndAdd .pf 5 7 8) watched).rd LND_WATCH.ARMED 5 = 1
    ∧ still (.lndAdd .pf 5 7 0) live = true ∧ still (.lndClear .pf 5 7 true) (with5 Clu.rest) = true
    ∧ still (.lndClear .pf 5 7 false) (cluOfSlot cStopped id live) = true := by decide +kernel
theorem test_direct : live.direct .pf ∧ live.storesDone .pf := by
  refine ⟨⟨.inl ⟨rfl, by decide +kernel⟩, by decide +kernel⟩, ?_⟩
  intro h m e; cases e

/-! ### The tier manager -/

/-- A command fails with a status and a detail. -/
def errs (i : Instr) (s : State) (status detail : Nat) : Bool :=
  let t := ran i s
  t.rd TIER_ERR.STATUS == status && t.rd TIER_ERR.DETAIL == detail && t.rd TIER_ERR.VALID == 1
theorem test_tier_off : live.on TIER_CTRL.EN = false ∧ errs (.ctxCreate 0 8 2 100) live stBadDescriptor 3 = true
    ∧ errs (.unpin 0 9 hd) live stBadDescriptor 3 = true := by decide +kernel
theorem test_tier_waits : starting.on TIER_CTRL.EN = true ∧ starting.tierRuns = false
    ∧ (ran (.ctxCreate 0 8 2 100) starting).tier.waiting.map (·.1.cmd) = [1] := by decide +kernel
theorem test_tier_not_own : (obj3 ready3).ownsCtx 64 9 = false ∧ errs (.unpin 64 9 hd) (obj3 ready3) stNoContext 0 = true
    ∧ (obj3 Obj.free).handleEntry h3 = none ∧ (obj3 Obj.free).ownsCtx 0 9 = true
    ∧ errs (.unpin 0 9 hd) (obj3 Obj.free) stBadDescriptor 2 = true := by decide +kernel
def twoCtx : State := { obj3 ready3 with tier := { (obj3 ready3).tier with ctxs := [(8, ⟨0, 0, 1⟩), (9, ⟨0, 0, 1000⟩), (0, ⟨0, 0, 1⟩)] } }
theorem test_tier_other_ctx : twoCtx.ownsCtx 0 8 = true ∧ twoCtx.handleEntry h3 = some 3 ∧ (twoCtx.obj 3).ctx ≠ 8
    ∧ errs (.unpin 0 8 hd) twoCtx stBadDescriptor 2 = true := by decide +kernel
theorem test_ctx_fails : errs (.ctxCreate 0 0xFFFFFF 2 100) tierOn stBadDescriptor 1 = true
    ∧ twoCtx.ownsCtx 0 0 = true ∧ errs (.ctxDestroy 0 0) twoCtx stBadDescriptor 1 = true
    ∧ (twoCtx.tier.objs.any fun e => e.2.state != 0 && e.2.ctx == 9) = true
    ∧ errs (.ctxDestroy 0 9) twoCtx stBadDescriptor 5 = true := by decide +kernel
/-- As many contexts as the table holds, each of the number 9. -/
def fullCtxs : State := { tierOn with tier := { tierOn.tier with ctxs := List.replicate tierContexts (9, ⟨0, 0, 1000⟩) } }
theorem test_ctx_full : fullCtxs.ctx 8 = none ∧ tierContexts ≤ fullCtxs.tier.ctxs.length := by
  constructor
  · simp [State.ctx, fullCtxs]
  · simp [fullCtxs]

def noEntry : State := { tierOn with tier := { tierOn.tier with cursor := 2 ^ 22, tail := [] } }
def noPool : State := tierOn.wr TIER_POOL_LIMIT.LIMIT 16
def noQuota : State := { tierOn with tier := { tierOn.tier with ctxs := [(9, ⟨0, 0, 0⟩)] } }
theorem test_alloc_fails : errs (.allocOpen 0 9 0) tierOn stBadDescriptor 6 = true
    ∧ errs (.allocOpen 0 9 (BitVec.ofNat 40 (2 ^ 34 + 1))) tierOn stBadDescriptor 6 = true
    ∧ noEntry.freeEntry = none ∧ errs (.allocOpen 0 9 1) noEntry stNoObjectSlot 1 = true
    ∧ noPool.freeEntry ≠ none ∧ noPool.findExtent 1 = none ∧ errs (.allocOpen 0 9 1) noPool stNoObjectSlot 2 = true
    ∧ noQuota.findExtent 1 ≠ none ∧ noQuota.quotaFits 9 1 = false ∧ errs (.allocOpen 0 9 1) noQuota stNoObjectSlot 3 = true := by decide +kernel
theorem test_adopt_fails : errs (.adopt 0 9 0x1000 0 3 true) tierOn stBadDescriptor 6 = true
    ∧ errs (.adopt 0 9 0x1000 1 3 true) noEntry stNoObjectSlot 1 = true := by decide +kernel
theorem test_seal_fails : errs (.seal 0 9 hd 1 false) (obj3 ready3) stBadDescriptor 3 = true
    ∧ ((obj3 open3).obj 3).len < 131073 ∧ errs (.seal 0 9 hd 131073 false) (obj3 open3) stBadDescriptor 6 = true
    ∧ errs (.query 0 9 hd 0x41) (obj3 ready3) stBadDescriptor 1 = true
    ∧ errs (.query 0 9 hd (BitVec.ofNat 64 (2 ^ 50))) (obj3 ready3) stBadDescriptor 1 = true
    ∧ (obj3 ready3).metaBase % 64 = 0 ∧ errs (.query 0 9 hd (BitVec.ofNat 64 (obj3 ready3).metaBase)) (obj3 ready3) stBadDescriptor 1 = true := by decide +kernel

def inState (n : Nat) (f : Obj → Obj := id) : State := obj3 (f { ready3 with state := n })
theorem test_evict_fails : errs (.evict 0 9 hd 0x2000 0 false) (inState 1) stBadDescriptor 3 = true
    ∧ errs (.evict 0 9 hd 0x2000 0 false) (inState 2 fun o => { o with pins := 1 }) stBadDescriptor 4 = true
    ∧ errs (.evict 0 9 hd 0 0 false) (inState 2) stBadDescriptor 1 = true
    ∧ (ran (.evict 0 9 hd 0 0 false) (obj3 absent3)).tier = (obj3 absent3).tier
    ∧ ((ran (.evict 0 9 hd 0 0 false) (inState 5 fun o => { o with intentIn := true })).obj 3).intentIn = false
    ∧ ((ran (.evict 0 9 hd 0 0 false) (inState 3)).obj 3).waits.length = 1 := by decide +kernel
theorem test_fetch_fails : errs (.fetch 0 9 hd true false) (inState 2 fun o => { o with pins := 65535 }) stBadDescriptor 4 = true
    ∧ ((inState 2).obj 3).crc = none ∧ errs (.fetch 0 9 hd false true) (inState 2) stBadDescriptor 3 = true
    ∧ ((ran (.fetch 0 9 hd true false) (inState 3)).obj 3).intentIn = true
    ∧ ((ran (.fetch 0 9 hd true false) (inState 5)).obj 3).waits.length = 1
    ∧ ((obj3 absent3).wr TIER_POOL_LIMIT.LIMIT 16).findExtent 1 = none
    ∧ errs (.fetch 0 9 hd true false) ((obj3 absent3).wr TIER_POOL_LIMIT.LIMIT 16) stNoObjectSlot 2 = true
    ∧ errs (.fetch 0 9 hd true false) { obj3 absent3 with tier := { (obj3 absent3).tier with ctxs := [(9, ⟨0, 0, 0⟩)] } } stNoObjectSlot 3 = true := by decide +kernel
theorem test_handle_fails : ((inState 2).obj 3).pins = 0 ∧ errs (.unpin 0 9 hd) (inState 2) stBadDescriptor 4 = true
    ∧ errs (.free 0 9 hd) (inState 2 fun o => { o with pins := 1 }) stBadDescriptor 4 = true
    ∧ errs (.free 0 9 hd) (inState 2 fun o => { o with slotRefs := 1 }) stBadDescriptor 5 = true
    ∧ errs (.releaseT2 0 9 hd) (obj3 absent3) stBadDescriptor 3 = true
    ∧ errs (.verify 0 9 hd) (inState 1) stBadDescriptor 3 = true
    ∧ ((ran (.verify 0 9 hd) (inState 3)).obj 3).sums.length = 1 := by decide +kernel

def eviction : State := small3 3
def heldCopy (s : State) : State := s.setCoh fun c => { c with dir := [(hbmKey 0x100000, ent (some 96) [])] }
theorem test_copies_rest : ((small3 2).obj 3).state ≠ 3 ∧ still (.evictionCopyLands 3) (small3 2) = true
    ∧ still (.evictionCopyLands 3) (eviction.wr HOST_LINK.UP 0) = true
    ∧ ((heldCopy eviction).prepare (keysOf 0x100000 64) false).2 = false
    ∧ goes (.evictionCopyLands 3) (heldCopy eviction) ((heldCopy eviction).prepare (keysOf 0x100000 64) false).1 = true
    ∧ still (.fetchCopyLands 3) (small3 2) = true ∧ still (.copyFails 3 .hostLost) (small3 2) = true
    ∧ ((small3 2).obj 3).sums = [] ∧ still (.checksumComplete 3) (small3 2) = true := by decide +kernel
def tweak (f : Obj → Obj) (s : State) : State :=
  { s with tier := { s.tier with objs := s.tier.objs.map fun e => (e.1, f e.2) } }
theorem test_copies_turned : ((ran (.evictionCopyLands 3) (tweak (fun o => { o with intentIn := true }) eviction)).obj 3).state = 2
    ∧ ((ran (.fetchCopyLands 3) (small3 5)).obj 3).state = 4 ∧ ((small3 5).obj 3).intentIn = false
    ∧ ((ran (.fetchCopyLands 3) (tweak (fun o => { o with intentIn := true, verify := true }) (small3 5))).obj 3).sums.length = 1
    ∧ still (.fetchCopyLands 3) (tweak (fun o => { o with sums := [(0x07, .loader)] }) (small3 5)) = true := by decide +kernel
theorem test_verify_bad : (ran (.checksumComplete 3) (tweak (fun o => { o with sums := [(0x0B, .regs)], crc := some 0 }) (small3 2))).rd TIER_ERR.STATUS = stEcc
    ∧ crc64 (9 :: zeros 63) ≠ 0 := by decide +kernel
theorem test_control_rests : still (.tierDisable .pf) live = true ∧ still .tierReady live = true ∧ still .tierReady tierOn = true
    ∧ still .tierReady { starting with rst := { starting.rst with busy := [(2, 0)] } } = true
    ∧ ({ starting with rst := { starting.rst with busy := [(2, 0)] } } : State).hub0Reset = true := by decide +kernel
theorem test_control_writes : (ran (.tierEnableFresh .pf 0) regions).rd TIER_CTRL.REJECT = stZeroWindow
    ∧ (ran (.tierEnableRecover .pf 3) tierOn).rd TIER_CTRL.ERASE_SHARE = 3 ∧ (ran (.tierEnableRecover .pf 3) tierOn).rd TIER_CTRL.MODE = 1
    ∧ (ran (.tierEnableRecover .pf 8) (live.wr TIER_POOL_LIMIT.LIMIT (2 ^ 24 - 1))).rd TIER_CTRL.REJECT = stBadDescriptor := by decide +kernel

/-! ### Cores -/

/-- Registers of HD0, the window of cluster 5 and an address with nothing behind it, as a hart names them. -/
def ioReg : BitVec 64 := BitVec.ofNat 64 ltAddr
def ioWin : BitVec 64 := BitVec.ofNat 64 w5
def ioNone : BitVec 64 := BitVec.ofNat 64 0xFFFFFFF000
def buffered (e : List SbEnt) : State := hart fun c => { c with buf := e }
theorem test_load_io_forms : hart.rangeOf ltAddr 8 = .register ∧ hart.rangeOf w5 8 = .window ∧ hart.rangeOf ioNone.toNat 8 = .unmapped
    ∧ (ran (.coreLoad 95 3 ioReg 3 false .none) (hart.wr LND_TIMEOUT.US 9 5)).xreg 95 3 = 9
    ∧ (ran (.coreLoad 95 3 ioWin 3 false .none) (hart.setXreg 95 3 1)).xreg 95 3 = 0
    ∧ (ran (.coreLoad 95 3 ioNone 3 false .none) hart).resp ≠ live.resp
    ∧ ((buffered [⟨64, [], some (0x1000, [1]), false, false, false⟩]).core 95).ioStores = true
    ∧ still (.coreLoad 95 3 ioReg 3 false .none) (buffered [⟨64, [], some (0x1000, [1]), false, false, false⟩]) = true := by decide +kernel
theorem test_load_io_behind : still (.coreLoad 95 3 0x1000 3 false .io) (buffered [⟨64, [], some (0x1000, [1]), false, false, false⟩]) = true
    ∧ ((ran (.coreLoad 95 3 0x1000 3 false .io) hart).core 95).pend.isSome = true := by decide +kernel
def manyEntries : List SbEnt := (List.range 64).map fun i => ⟨2 * i, [(0, 1)], none, false, false, false⟩
theorem test_store_full : still (.coreStore 95 7 0x1001 0 .none) (buffered manyEntries) = true
    ∧ (64 : Nat) < ((buffered manyEntries).core 95).buf.length + ((buffered manyEntries).core 95).storeNeeds (storeParts 0x1001 (leBytes 1 0x80)) false
    ∧ still (.coreStore 95 7 ioReg 3 .none) (buffered manyEntries) = true ∧ still (.coreStore 95 7 0x1000 3 .io) (buffered manyEntries) = true
    ∧ still (.cboZero 95 0x1000) (buffered manyEntries) = true := by decide +kernel
theorem test_drain_empty : (hart.core 95).buf = [] ∧ still (.storeBufferDrain 95) hart = true := by decide +kernel
def missing : State := buffered [⟨0x2000 / 64, [(0, 1)], none, false, false, false⟩]
def ioHead (a : Nat) (b : List Byte) : State := buffered [⟨a / 64, [], some (a, b), false, false, false⟩]
def ncHead : State := buffered [⟨0x3000 / 64, [(0, 1)], none, true, false, false⟩]
/-- An ordered request of the hart's port is open. -/
def portOpen (s : State) : State :=
  s.setCoh fun c => { c with lineq := [(hbmKey 0x9000, [anon .rdcur 95])] }
theorem test_drain_heads : (missing.line (lineKey false (0x2000 / 64)) 95).st.writable = false
    ∧ ((ran (.storeBufferDrain 95) missing).line (hbmKey 0x2000) 95).st = .imD
    ∧ ((ioHead ltAddr (leBytes 8 9)).askWritable 95 |>.beginHead 95).orderedOpen 95 none = false
    ∧ (ran (.storeBufferDrain 95) (ioHead ltAddr (leBytes 8 9))).rd LND_TIMEOUT.US 5 = 9
    ∧ ((ran (.storeBufferDrain 95) (ioHead ltAddr (leBytes 8 9))).core 95).buf = []
    ∧ (ran (.storeBufferDrain 95) (ioHead ioNone.toNat [1])).on mbuserr.VALID 95 = true := by decide +kernel
theorem test_drain_uncached : memGet (ran (.storeBufferDrain 95) ncHead).hbm 0x3000 = 1
    ∧ ((ran (.storeBufferDrain 95) ncHead).core 95).buf = []
    ∧ ((portOpen ncHead).askWritable 95 |>.beginHead 95).orderedOpen 95 none = true
    ∧ ((ran (.storeBufferDrain 95) (portOpen ncHead)).core 95).buf.length = 1
    ∧ ((ran (.storeBufferDrain 95) (portOpen (ioHead ltAddr (leBytes 8 9)))).core 95).buf.length = 1
    ∧ (ncHead.setCoh fun c => { c with dir := [(hbmKey 0x3000, ent (some 96) [])] }).hostHolds (hbmKey 0x3000) true = true
    ∧ ((ran (.storeBufferDrain 95) (ncHead.setCoh fun c => { c with dir := [(hbmKey 0x3000, ent (some 96) [])] })).core 95).buf.length = 1 := by decide +kernel

theorem test_atomics_wait : still (.amo 95 .add 3 7 0x1004 2 .none) stored1 = true ∧ still (.lr 95 3 0x1004 2 .none) stored1 = true
    ∧ still (.sc 95 3 7 0x1004 2 .none) stored1 = true ∧ (stored1.core 95).buf ≠ [] := by decide +kernel
theorem test_atomics_trap : amoReserved .cas 4 3 7 = true ∧ ((ran (.amo 95 .cas 3 7 0x1000 4 .none) hart).core 95).mcause = 2
    ∧ ((ran (.amo 95 .add 3 7 ioReg 3 .none) hart).core 95).mcause = 7
    ∧ ((ran (.lr 95 3 0x1000 1 .none) hart).core 95).mcause = 2 ∧ ((ran (.sc 95 3 7 0x1000 1 .none) hart).core 95).mcause = 2
    ∧ ((ran (.lr 95 3 0x1001 2 .none) hart).core 95).mcause = 4 ∧ ((ran (.sc 95 3 7 0x1001 2 .none) hart).core 95).mcause = 6
    ∧ ((ran (.lr 95 3 ioReg 3 .none) hart).core 95).mcause = 5 ∧ ((ran (.lr 95 3 0x1000 3 .nc) hart).core 95).mcause = 5
    ∧ ((ran (.sc 95 3 7 ioReg 3 .none) hart).core 95).mcause = 7 := by decide +kernel
theorem test_atomics_poison : ((hart id .m true).line (hbmKey 0x1000) 95).poison = true
    ∧ ((ran (.amo 95 .add 3 7 0x1000 3 .none) (hart id .m true)).core 95).mcause = 7
    ∧ ((ran (.lr 95 3 0x1000 3 .none) (hart id .m true)).core 95).mcause = 5 := by decide +kernel
theorem test_atomics_uncached : ((ran (.amo 95 .add 3 7 0x1000 3 .nc) hart).core 95).pend.isSome = true
    ∧ (ran (.sc 95 3 7 0x1000 3 .nc) reserved).xreg 95 3 = 1 ∧ ((ran (.sc 95 3 7 0x1000 3 .nc) reserved).core 95).resv = none
    ∧ ((ran (.lr 95 3 0x2000 3 .none) hart).line (hbmKey 0x2000) 95).st = .imD := by decide +kernel

theorem test_fence_passes : still (.fence 95 true true) hart = true ∧ still (.fence 95 false true) stored1 = true
    ∧ still (.fence 95 true false) stored1 = true := by decide +kernel
theorem test_cbo_states : ((ran (.cboClean 95 0x1000) (hart id .e)).line (hbmKey 0x1000) 95).st = .eiA
    ∧ ((ran (.cboFlush 95 0x1000) (hart id .s)).line (hbmKey 0x1000) 95).st = .siA
    ∧ ((ran (.cboInval 95 0x1000 true 0) (hart id .o)).line (hbmKey 0x1000) 95).st = .oiA := by decide +kernel
/-- Hart 95 may neither read nor write the 4 KiB at 0x1000. -/
def shut95 : State := (hart.putCsr 95 0x3B0 0x5FF).putCsr 95 0x3A0 0x98
theorem test_cbo_rests : shut95.barred 95 0x1000 64 true = true ∧ shut95.barred 95 0x1000 64 false = true
    ∧ ((ran (.cboClean 95 0x1000) shut95).core 95).mcause = 7 ∧ ((ran (.cboZero 95 0x1000) shut95).core 95).mcause = 7
    ∧ hart.rangeOf w5 64 ≠ .main ∧ still (.cboFlush 95 ioWin) hart = true ∧ still (.cboClean 95 0x1000) stored1 = true := by decide +kernel
def otherBusy : State :=
  hart.setCoh fun c => { c with dir := [(hbmKey 0x1000, ent none [3, 95])], txns := [(hbmKey 0x1000, txn0 none [] true)] }
theorem test_cbo_other : otherBusy.otherCores (hbmKey 0x1000) 95 ≠ [] ∧ otherBusy.lineFree (hbmKey 0x1000) = false
    ∧ still (.cboFlush 95 0x1000) otherBusy = true := by decide +kernel

def pendingIrq (p : Nat) : State := hart fun c => { c with power := p, mip := 128, mie := 128 }
theorem test_wfi_rests : still (.wfi 95) (pendingIrq 0) = true ∧ live.hartFree 95 = false ∧ still (.wfi 95) live = true := by decide +kernel
theorem test_wfi_goes : ((ran (.wfi 95) (stored1.wr mcorepwr.DEEP 1 95)).core 95).going = some 1
    ∧ ((live.setCore 95 fun c => { c with power := 0 }).wr mcorepwr.DEEP 2 95).linesOf 95 = []
    ∧ ((ran (.wfi 95) ((live.setCore 95 fun c => { c with power := 0 }).wr mcorepwr.DEEP 2 95)).core 95).power = 3 := by decide +kernel
theorem test_wake_rests : still (.coreWake 95 .hawkmoth) hart = true ∧ still (.coreWake 95 .interrupt) (hart fun c => { c with power := 2 }) = true
    ∧ (hart fun c => { c with power := 3 }).wakesOff 95 .interrupt = false
    ∧ still (.coreWake 95 .interrupt) (hart fun c => { c with power := 3 }) = true
    ∧ still (.coreWake 95 .interrupt) (hart fun c => { c with power := 4 }) = true := by decide +kernel
theorem test_wake_late : ((ran (.coreWake 95 .interrupt) ((pendingIrq 0).setCore 95 fun c => { c with going := some 1 })).core 95).wakeDue = true
    ∧ (hart fun c => { c with power := 4 }).hartsReset = false
    ∧ ((ran (.coreWake 95 .hawkmoth) (hart fun c => { c with power := 4 })).core 95).power = 0
    ∧ (pendingIrq 1).interruptDue 95 = true ∧ ((ran (.coreWake 95 .interrupt) (pendingIrq 1)).core 95).power = 0 := by decide +kernel
theorem test_events_rest : hart.on mwdog.EN 95 = false ∧ still (.coreWatchdog 95) hart = true
    ∧ still (.kick 95) live = true ∧ still (.flush 95) live = true ∧ live.hartIdle 95 = false ∧ still (.debugHalt 95) live = true
    ∧ still (.interrupt 95 false (2 ^ 63 + 7)) live = true ∧ still (.interrupt 95 true 9) live = true
    ∧ bit (hart.rd SEC_STATUS.DEBUG) 1 = false ∧ still (.debugHalt 95) hart = true
    ∧ still (.imsicWrite .pf 95 .s 0) hart = true ∧ imsicTop (imsicFile 95 (.guest 6)) < 64
    ∧ still (.imsicWrite .cocoon 95 (.guest 6) 64) hart = true := by decide +kernel

/-! ### Keys and wipes -/

def romBoot : State := live.setBoard fun b => { b with boot := .romOnly }
theorem test_auth_rests : still (.installPlanKey .pf) romBoot = true ∧ romBoot.board.boot ≠ .running
    ∧ ((zeros 144).getD 0 0).toNat ≠ 1 ∧ still (.installPlanKey .pf) live = true
    ∧ goes (.installPlanKey (.core 3 false)) live (live.rasEvent stBadDescriptor 20 0 (SEC_AUTH_GO.GO.addr 0 0) .uncorr) = true := by decide +kernel
theorem test_commit_rests : still (.commitFw .pf) romBoot = true ∧ still (.wipe .pf) romBoot = true ∧ still .wipeDone live = true
    ∧ goes (.commitFw .hawkmoth) live (live.rasEvent stBadDescriptor 20 0 (SEC_CTRL.COMMIT_FW.addr 0 0) .uncorr) = true
    ∧ goes (.wipe .hawkmoth) live (live.rasEvent stBadDescriptor 20 0 (SEC_CTRL.WIPE.addr 0 0) .uncorr) = true := by decide +kernel
theorem test_key_step : step { live with pending := [.commitFw .pf] } = exec (.commitFw .pf) live := rfl

end Sys2Proof.Tests
end

section
/-! PROOFS. The part after reset, and that every command goes on. -/

namespace Sys2Proof.Machine

/-- After reset no register is listed, so that each field reads its reset value (R14). -/
theorem State.rd_reset (f : Fld) (i j r : Nat) : State.reset.rd f i j r = f.reset i j r := rfl

theorem Memory.wf_nil : Memory.wf [] = true := rfl

/-- Settles O3: the reset state lists no register and no byte. -/
theorem resetRegisters : Obligations.ResetRegisters :=
  ⟨State.rd_reset, rfl, rfl, rfl, rfl, rfl, rfl⟩

/-- Settles O4: the four memories of the reset state are empty, and an empty memory is canonical. -/
theorem resetStored : Obligations.ResetStored :=
  ⟨Memory.wf_nil, Memory.wf_nil, Memory.wf_nil, Memory.wf_nil⟩

/-- Settles O7, by cases on the command: the meaning of each computes a state and answers `.next` of it. -/
theorem everyCommandGoesOn : Obligations.EveryCommandGoesOn := by
  intro c s
  cases c
  all_goals exact ⟨_, rfl⟩

end Sys2Proof.Machine
end

section
/-! PROOFS. What a RAS event leaves in the queue and among the interrupts (R439), and the accesses that name nothing (R10). -/

namespace Sys2Proof.Machine

/-- While the RAS queue has room an event's record is its last one (R439). -/
theorem State.rasEvent_queue (s : State) (status block unit loc : Nat) (kind : RasKind) (detail : Nat)
    (hroom : s.ras.queue.length < 1024) :
    ∃ logged, (s.rasEvent status block unit loc kind detail).ras.queue
      = s.ras.queue ++ [⟨status, block, decide (kind = .uncorr), logged, unit, s.us, loc, detail⟩] := by
  unfold State.rasEvent
  extract_lets corrDue logged r full ras0 ras s1 s2 s3 s4
  have hfull : full = false := by simpa [full] using hroom
  have h1 : s1.ras.queue = s.ras.queue ++ [r] := by simp [s1, ras, hfull]
  have h3 : s3.ras = s1.ras := by simp [s3, s2, hfull]
  have h4 : s4.ras = s1.ras := by
    simp only [s4]; split
    · rw [State.raise_ras, h3]
    · exact h3
  refine ⟨logged, ?_⟩
  split
  · rw [State.raise_ras, h4, h1]
  · rw [h4, h1]

/-- A raised interrupt stands in its STATUS bit (R78). -/
theorem State.raise_on (s : State) (st : Fld) (i : Nat) (hw : st.width = 1) : (s.raise st i).on st i = true := by
  have hbit : (s.rd st i ||| 1) % 2 = 1 := by rw [Nat.mod_two_eq_one_iff_testBit_zero]; simp
  simp [State.on, State.rd_raise_same, hw, hbit]

theorem State.raise_on_ne (s : State) (st g : Fld) (i i' : Nat) (h : g.key i' 0 0 ≠ st.key i 0 0) :
    (s.raise st i).on g i' = s.on g i' := by
  simp only [State.on, s.rd_raise_ne st g i 1 i' 0 0 h]

/-- Every RAS event raises EVENT (R439). -/
theorem State.rasEvent_event (s : State) (status block unit loc : Nat) (kind : RasKind) (detail : Nat) :
    (s.rasEvent status block unit loc kind detail).on RAS_INT_STATUS.EVENT = true := by
  unfold State.rasEvent
  extract_lets corrDue logged r full ras0 ras s1 s2 s3 s4
  have h3 : s3.on RAS_INT_STATUS.EVENT = true := s2.raise_on _ _ rfl
  have h4 : s4.on RAS_INT_STATUS.EVENT = true := by
    simp only [s4]; split
    · rw [State.raise_on_ne _ _ _ _ _ (by decide)]; exact h3
    · exact h3
  split
  · rw [State.raise_on_ne _ _ _ _ _ (by decide)]; exact h4
  · exact h4

/-- The record of an unmapped access says whether it was a write. -/
def accessKind (write : Bool) : RasKind := if write then .uncorr else .info

theorem accessKind_uncorr (write : Bool) : decide (accessKind write = .uncorr) = write := by cases write <;> rfl

/-- An unmapped access is recorded and answered (R10). -/
theorem State.unmapped_eq (s : State) (o : Origin) (addr size : Nat) (write : Bool) :
    s.unmapped o addr size write
      = { s.rasEvent stBadDescriptor 17 0 addr (accessKind write) with
          resp := ⟨if write then [] else List.replicate size 0xFF, hostSide o, false⟩ } := rfl

/-- An unmapped access touches nothing beyond its record, the interrupts of it and the answer. -/
theorem State.unmapped_frame (s : State) (o : Origin) (addr size : Nat) (write : Bool) :
    let t := s.unmapped o addr size write
    t = { s with regs := t.regs, ras := t.ras, irq := t.irq, out := t.out, resp := t.resp } := by
  obtain ⟨w, h⟩ := s.rasEvent_only stBadDescriptor 17 0 addr (accessKind write) 0
  rw [s.unmapped_eq, h]
  rfl

/-- Settles O28: the record is the one rasEvent appends to a queue with room, and the answer follows it. -/
theorem unmappedAccesses : Obligations.UnmappedAccesses := by
  intro s o addr write hun
  refine ⟨s.unmapped o addr 8 write, congrArg _ (if_pos hun), rfl, rfl, fun hroom => ?_,
    s.rasEvent_event stBadDescriptor 17 0 addr (accessKind write) 0, s.unmapped_frame o addr 8 write⟩
  obtain ⟨logged, hq⟩ := s.rasEvent_queue stBadDescriptor 17 0 addr (accessKind write) 0 hroom
  simp [s.unmapped_eq, hq, accessKind_uncorr]

end Sys2Proof.Machine
end

section
/-! PROOFS. Bits of numbers, and one field of a register by its access code (R12). -/

namespace Sys2Proof.Machine

theorem bit_eq_testBit (x k : Nat) : bit x k = x.testBit k := by
  simp [bit, Nat.testBit_eq_decide_div_mod_eq, Nat.shiftRight_eq_div_pow, beq_eq_decide]

theorem bits_lt (x lo w : Nat) : bits x lo w < 2 ^ w := Nat.mod_lt _ (Nat.two_pow_pos w)

/-- What a write puts into a field fits the field. -/
theorem RegWr.put_lt (w : RegWr) (f : Fld) (r : Nat) : w.put f r < 2 ^ f.width :=
  Nat.and_lt_two_pow _ (bits_lt _ _ _)

/-- A write that covers a whole field leaves none of the field's old bits. -/
theorem RegWr.merge_full (w : RegWr) (f : Fld) (old r : Nat) (hold : old < 2 ^ f.width)
    (hm : bits w.mask (f.lo + r * f.pitch) f.width = 2 ^ f.width - 1) : w.merge f old r = w.put f r := by
  have hkept : old &&& bits w.mask (f.lo + r * f.pitch) f.width = old := by
    rw [hm, Nat.and_two_pow_sub_one_eq_mod, Nat.mod_eq_of_lt hold]
  rw [RegWr.merge, hkept, Nat.xor_self, Nat.zero_or]

/-- What a W1C field keeps: the old value without the bits that a write names. -/
theorem bit_clear (old m w k : Nat) (hold : old < 2 ^ w) :
    bit ((old ^^^ (old &&& m)) % 2 ^ w) k = (bit old k && !bit m k) := by
  have hlt : old ^^^ (old &&& m) < 2 ^ w := Nat.xor_lt_two_pow hold (Nat.and_le_left.trans_lt hold)
  rw [Nat.mod_eq_of_lt hlt]
  simp only [bit_eq_testBit, Nat.testBit_xor, Nat.testBit_and]
  cases old.testBit k <;> simp

/-- What a W1S field holds: the old value with the bits that a write names. -/
theorem bit_set (old m w k : Nat) (hold : old < 2 ^ w) (hm : m < 2 ^ w) :
    bit ((old ||| m) % 2 ^ w) k = (bit old k || bit m k) := by
  rw [Nat.mod_eq_of_lt (Nat.or_lt_two_pow hold hm)]
  simp only [bit_eq_testBit, Nat.testBit_or]

/-! ## One field by its access code (R12) -/

section
variable (s : State) (i : Nat) (w : RegWr) (p : Spot)

theorem State.setSpot_untouched (h : w.touches p.f p.r = false) : s.setSpot i w p = s := by
  simp [State.setSpot, h]

theorem State.setSpot_rw (ha : p.f.acc = .rw) (h : w.touches p.f p.r = true) :
    s.setSpot i w p = s.wr p.f (w.merge p.f (s.rd p.f i p.j p.r) p.r) i p.j p.r := by
  simp [State.setSpot, h, ha]

theorem State.setSpot_w1c (ha : p.f.acc = .w1c) (h : w.touches p.f p.r = true) :
    s.setSpot i w p = s.wr p.f (s.rd p.f i p.j p.r ^^^ (s.rd p.f i p.j p.r &&& w.put p.f p.r)) i p.j p.r := by
  simp [State.setSpot, h, ha]

theorem State.setSpot_w1s (ha : p.f.acc = .w1s) (h : w.touches p.f p.r = true) :
    s.setSpot i w p = s.wr p.f (s.rd p.f i p.j p.r ||| w.put p.f p.r) i p.j p.r := by
  simp [State.setSpot, h, ha]

theorem State.setSpot_readOnly (ha : p.f.acc = .ro ∨ p.f.acc = .wo ∨ p.f.acc = .rc) : s.setSpot i w p = s := by
  rcases ha with ha | ha | ha <;> simp [State.setSpot, ha]

/-- Setting a field writes that field or leaves the state as it is. -/
theorem State.setSpot_only : s.setSpot i w p = s ∨ ∃ v, s.setSpot i w p = s.wr p.f v i p.j p.r := by
  by_cases h : w.touches p.f p.r = true
  · cases ha : p.f.acc with
    | rw => exact .inr ⟨_, s.setSpot_rw i w p ha h⟩
    | w1c => exact .inr ⟨_, s.setSpot_w1c i w p ha h⟩
    | w1s => exact .inr ⟨_, s.setSpot_w1s i w p ha h⟩
    | ro | wo | rc => exact .inl (s.setSpot_readOnly i w p (by simp [ha]))
  · exact .inl (s.setSpot_untouched i w p (by simpa using h))

theorem State.setSpot_sameRegs : s.sameRegs (s.setSpot i w p) [p.f.key i p.j p.r] := by
  intro d k hk
  rcases s.setSpot_only i w p with h | ⟨v, h⟩ <;> rw [h]
  exact s.getK_wr_ne d p.f v i p.j p.r k (by simpa using hk)

theorem State.setSpot_frame : s.setSpot i w p = { s with regs := (s.setSpot i w p).regs } := by
  rcases s.setSpot_only i w p with h | ⟨v, h⟩ <;> rw [h]
  rfl

end

/-- The access codes of R12, one lemma a code. -/
theorem registerFields : Stated.RegisterFields := by
  intro s i w p hold old t
  refine ⟨fun ha h hm => ?_, fun ha h k => ?_, fun ha h k => ?_, fun h => ?_,
    s.setSpot_sameRegs i w p, s.setSpot_frame i w p⟩
  · simp only [t, s.setSpot_rw i w p ha h, State.rd_wr_same, w.merge_full p.f _ p.r hold hm]
    exact Nat.mod_eq_of_lt (w.put_lt p.f p.r)
  · simp only [t, s.setSpot_w1c i w p ha h, State.rd_wr_same]
    exact bit_clear _ _ _ _ hold
  · simp only [t, s.setSpot_w1s i w p ha h, State.rd_wr_same]
    exact bit_set _ _ _ _ hold (w.put_lt p.f p.r)
  · rcases h with h | h | h | h
    · exact s.setSpot_readOnly i w p (.inl h)
    · exact s.setSpot_readOnly i w p (.inr (.inl h))
    · exact s.setSpot_readOnly i w p (.inr (.inr h))
    · exact s.setSpot_untouched i w p h

end Sys2Proof.Machine
end

section
/-! PROOFS. Who reaches register space: the gate of commands (asReg, secWrite) and of accesses (onReg) by requester (R283, R340,
R344, R345, R384, R478), and what a read leaves. -/

namespace Sys2Proof.Machine

/-! ## The gate of register space -/

/-- The requesters that register space knows beside the Cocoon die: the PF, the Hawkmoth and the cores (R344, R345). -/
def reachesRegs (o : Origin) : Prop := o = .pf ∨ o = .hawkmoth ∨ ∃ h m, o = .core h m

theorem State.direct_reachesRegs (s : State) (o : Origin) (h : s.direct o) : reachesRegs o :=
  h.1.imp_left And.left

theorem State.asReg_direct (s : State) (o : Origin) (addr : Nat) (f : State → State) (h : s.direct o) :
    s.asReg o addr f = f s := by
  obtain ⟨⟨rfl, hd3⟩ | rfl | ⟨c, m, rfl⟩, hopen⟩ := h <;> simp_all [State.asReg]

theorem State.asReg_unknown (s : State) (o : Origin) (addr : Nat) (f : State → State) (h : ¬ reachesRegs o)
    (hc : o ≠ .cocoon) : s.asReg o addr f = s := by
  cases o <;> simp_all [State.asReg, reachesRegs]

theorem State.asReg_cocoon (s : State) (addr : Nat) (f : State → State) : s.asReg .cocoon addr f = s.cocRefuse addr := rfl

theorem State.asReg_inD3 (s : State) (addr : Nat) (f : State → State) (h : s.inD3 0 = true) : s.asReg .pf addr f = s := by
  simp [State.asReg, h]

theorem State.asReg_open (s : State) (o : Origin) (addr : Nat) (f : State → State) (hn : reachesRegs o)
    (h : s.orderedOpen (originStream o) none = true) : s.asReg o addr f = s := by
  obtain rfl | rfl | ⟨c, m, rfl⟩ := hn <;> simp [State.asReg, h]

/-! ## The SEC_ block (R478) -/

theorem State.secWrite_trusted (s : State) (o : Origin) (addr : Nat) (f : State → State) (h : trusted o = true) :
    s.secWrite o addr f = s.asReg o addr f := by
  cases o with
  | core c m => cases m <;> simp_all [trusted, State.secWrite]
  | pf => rfl
  | _ => simp [trusted] at h

theorem State.secWrite_unnamed (s : State) (o : Origin) (addr : Nat) (f : State → State)
    (h : o ≠ .hawkmoth) (hc : ∀ c m, o ≠ .core c m) : s.secWrite o addr f = s.asReg o addr f := by
  cases o <;> simp_all [State.secWrite]

theorem State.secWrite_untrusted (s : State) (o : Origin) (addr : Nat) (f : State → State) (hn : reachesRegs o)
    (h : trusted o = false) : s.secWrite o addr f = s.rasEvent stBadDescriptor 20 0 addr .uncorr := by
  obtain rfl | rfl | ⟨c, m, rfl⟩ := hn
  · simp [trusted] at h
  · rfl
  · simp only [trusted] at h; subst h; rfl

/-! ## Accesses that the gate lets through, answers or refuses -/

theorem State.claims_of_direct (s : State) (o : Origin) (h : s.direct o) : s.claims o = true := by
  obtain ⟨⟨rfl, hd3⟩ | rfl | ⟨c, m, rfl⟩, hopen⟩ := h <;> simp_all [State.claims]

theorem State.namedBy_direct (s : State) (o : Origin) (addr : Nat) (h : s.direct o) : s.namedBy o addr = named addr := by
  obtain ⟨⟨rfl, _⟩ | rfl | ⟨c, m, rfl⟩, _⟩ := h <;> rfl

theorem State.onReg_takes (s : State) (o : Origin) (n : Named) (addr size : Nat) (write : Bool) (f : State → State)
    (h : s.direct o) (hn : n ≠ .nothing) (ht : n.takes addr size = true) : s.onReg o n addr size write f = f s := by
  have hc := s.claims_of_direct o h
  obtain ⟨⟨rfl, _⟩ | rfl | ⟨c, m, rfl⟩, _⟩ := h <;> simp [State.onReg, hc, hn, ht]

theorem State.onReg_badSize (s : State) (o : Origin) (n : Named) (addr size : Nat) (write : Bool) (f : State → State)
    (h : s.direct o) (hn : n ≠ .nothing) (ht : n.takes addr size = false) :
    s.onReg o n addr size write f = s.badSize o addr size write := by
  have hc := s.claims_of_direct o h
  obtain ⟨⟨rfl, _⟩ | rfl | ⟨c, m, rfl⟩, _⟩ := h <;> simp [State.onReg, hc, hn, ht]

theorem State.onReg_vf (s : State) (v : Fin 64) (n : Named) (addr size : Nat) (write : Bool) (f : State → State)
    (h : s.claims (.vf v) = true) (hn : n ≠ .nothing) (ht : n.takes addr size = true) :
    s.onReg (.vf v) n addr size write f = f s := by
  simp [State.onReg, h, hn, ht]

theorem State.onReg_vf_nothing (s : State) (v : Fin 64) (addr size : Nat) (write : Bool) (f : State → State)
    (h : s.claims (.vf v) = true) :
    s.onReg (.vf v) .nothing addr size write f = s.answerWith (if write then [] else List.replicate size 0) := by
  simp [State.onReg, h]

theorem State.onReg_cocoon (s : State) (n : Named) (addr size : Nat) (write : Bool) (f : State → State)
    (hn : n.isImsic = false) : s.onReg .cocoon n addr size write f = (s.cocRefuse addr).answerWith [] true := by
  simp [State.onReg, hn]

/-- The accesses that a register of a block takes (R11). -/
theorem Named.takes_reg (b : Blk) (i off addr size : Nat) :
    (Named.reg b i off).takes addr size = true ↔ (size = 4 ∨ size = 8) ∧ addr % size = 0 := by
  simp [Named.takes]

/-! ## From the commands to the gate -/

/-- An access that names no CSR of a hart and not the Cocoon die's window goes through the gate. -/
theorem State.writeReg_block (s : State) (o : Origin) (addr size val : Nat) (n : Named) (hn : s.namedBy o addr = n)
    (hcsr : ∀ i off, n ≠ .reg .csr i off) (hcoc : n ≠ .cocoon) :
    s.writeReg o addr size val = s.onReg o n addr size true fun s => (s.writeNamed o n addr size val).answerWith [] := by
  simp only [State.writeReg, hn]

/-- What a read does when its requester may make it; `readReg_block` and `readReg_csr` tie it to the model. -/
def State.readDone (s : State) (n : Named) (addr size : Nat) : State :=
  (s.readLeaves n addr size).answerWith (s.readNamed n addr size)

theorem State.readReg_block (s : State) (o : Origin) (addr size : Nat) (n : Named) (hn : s.namedBy o addr = n)
    (hcsr : ∀ i off, n ≠ .reg .csr i off) (hcoc : n ≠ .cocoon) :
    s.readReg o addr size = s.onReg o n addr size false fun s => s.readDone n addr size := by
  simp only [State.readReg, hn]
  rfl

theorem State.writeReg_csr (s : State) (h : Fin 96) (m : Bool) (addr off val : Nat) (hn : named addr = .reg .csr h off)
    (ha : addr % 8 = 0) :
    s.writeReg (.core h m) addr 8 val = if s.csrOpen h (off / 8) m true
      then s.writeHart h (off / 8 * 8) (RegWr.of addr 8 val) else s.trap h 2 0 := by
  simp [State.writeReg, State.namedBy, hn, ha, State.onCsr, State.writeNamed, State.writeBlock]

theorem State.readReg_csr (s : State) (h : Fin 96) (m : Bool) (addr off : Nat) (hn : named addr = .reg .csr h off)
    (ha : addr % 8 = 0) :
    s.readReg (.core h m) addr 8 = if s.csrOpen h (off / 8) m false
      then s.readDone (.reg .csr h off) addr 8 else s.trap h 2 0 := by
  simp [State.readReg, State.namedBy, hn, ha, State.onCsr, State.readDone]

theorem exec_registerWrite (s : State) (o : Origin) (addr size val : Nat) (hr : inRegSpace addr = true)
    (ho : s.orderedOpen (originStream o) none = false) :
    exec (.registerWrite o addr size val) s = .next (s.writeReg o addr size val) :=
  congrArg _ (if_pos ⟨hr, by simp [ho]⟩)

theorem exec_registerReadClear (s : State) (o : Origin) (addr size : Nat) (hr : inRegSpace addr = true)
    (ho : s.orderedOpen (originStream o) none = false) :
    exec (.registerReadClear o addr size) s = .next (s.readReg o addr size) :=
  congrArg _ (if_pos ⟨hr, by simp [ho]⟩)

/-! ## What a read leaves -/

theorem foldl_resp {β : Type} (g : State → β → State) (hg : ∀ s x, (g s x).resp = s.resp) (l : List β) (s : State) :
    (l.foldl g s).resp = s.resp := by
  induction l generalizing s with
  | nil => rfl
  | cons x l ih => rw [List.foldl_cons, ih, hg]

@[simp] theorem State.clearSpot_resp (s : State) (i : Nat) (w : RegWr) (p : Spot) : (s.clearSpot i w p).resp = s.resp := by
  unfold State.clearSpot; split <;> rfl

@[simp] theorem State.geyView_resp (s : State) : s.geyView.resp = s.resp := by
  unfold State.geyView; split <;> rfl

@[simp] theorem State.geyPop_resp (s : State) : s.geyPop.resp = s.resp := by
  unfold State.geyPop
  split
  · rfl
  · rw [State.geyView_resp]; rfl

@[simp] theorem State.csrReadLeaves_resp (s : State) (n : Nat) : (s.csrReadLeaves n).resp = s.resp := by
  unfold State.csrReadLeaves; split <;> rfl

@[simp] theorem State.afterRead_resp (s : State) (b : Blk) (i off : Nat) (w : RegWr) : (s.afterRead b i off w).resp = s.resp := by
  unfold State.afterRead
  split
  · split
    · exact s.geyPop_resp
    · rfl
  · split
    · exact s.csrReadLeaves_resp _
    · exact foldl_resp _ (fun s p => s.clearSpot_resp i w p) _ _

/-- An answer changes nothing but the answer. -/
theorem State.answerWith_undone (s t : State) (d : List Byte) (ur poison : Bool) (h : t.resp = s.resp) :
    { t.answerWith d ur poison with resp := s.resp } = t := by
  rw [← h]; rfl

/-- A read answers the bytes its register shows, and leaves what afterRead leaves beside the answer. -/
theorem State.readDone_reg (s : State) (b : Blk) (i off addr size : Nat) :
    let t := s.readDone (.reg b i off) addr size
    t.resp = ⟨RegWr.bytesOf addr size (s.wordAt b i (off / 8 * 8)), false, false⟩
      ∧ { t with resp := s.resp } = s.afterRead b i (off / 8 * 8) (RegWr.of addr size 0) :=
  ⟨rfl, s.answerWith_undone _ _ _ _ (s.afterRead_resp _ _ _ _)⟩

end Sys2Proof.Machine
end

section
/-! PROOFS. Reads and writes of registers by every requester (R10 to R13, R241, R272, R345). -/

namespace Sys2Proof.Machine

/-! ## Accesses of a block's register, by requester -/

section
variable (s : State) (addr size : Nat) (b : Blk) (i off : Nat)
  (hr : inRegSpace addr = true) (hn : named addr = .reg b i off)

include hr hn

/-- A requester that reaches the registers writes one of a block. -/
theorem exec_registerWrite_direct (o : Origin) (ho : s.direct o) (hb : b ≠ .csr)
    (hg : (size = 4 ∨ size = 8) ∧ addr % size = 0) (val : Nat) :
    exec (.registerWrite o addr size val) s
      = .next ((s.writeNamed o (.reg b i off) addr size val).answerWith []) := by
  have hby := (s.namedBy_direct o addr ho).trans hn
  rw [exec_registerWrite s o addr size val hr ho.2, s.writeReg_block o addr size val _ hby (by simp [hb]) (by simp),
    s.onReg_takes o _ addr size true _ ho (by simp) ((Named.takes_reg b i off addr size).2 hg)]

/-- A requester that reaches the registers reads one of a block. -/
theorem exec_registerReadClear_direct (o : Origin) (ho : s.direct o) (hb : b ≠ .csr)
    (hg : (size = 4 ∨ size = 8) ∧ addr % size = 0) :
    exec (.registerReadClear o addr size) s = .next (s.readDone (.reg b i off) addr size) := by
  have hby := (s.namedBy_direct o addr ho).trans hn
  rw [exec_registerReadClear s o addr size hr ho.2, s.readReg_block o addr size _ hby (by simp [hb]) (by simp),
    s.onReg_takes o _ addr size false _ ho (by simp) ((Named.takes_reg b i off addr size).2 hg)]

/-- An access of another size or alignment is recorded (R11). -/
theorem exec_registerAccessBadSize_direct (o : Origin) (ho : s.direct o)
    (hg : ¬ ((size = 4 ∨ size = 8) ∧ addr % size = 0)) (hlow : addr < 0x1000000000000) (write : Bool) :
    exec (.registerAccessBadSize o addr size write) s = .next (s.badSize o addr size write) := by
  have hby := (s.namedBy_direct o addr ho).trans hn
  have ht : (Named.reg b i off).takes addr size = false := by
    rw [← Bool.not_eq_true, Named.takes_reg]; exact hg
  change execRegisterAccessBadSize o addr size write s = _
  simp only [execRegisterAccessBadSize, hby]
  rw [if_neg (by simp [hr, ht, hlow]), s.onReg_badSize o _ addr size write _ ho (by simp) ht]

omit hr in
/-- A VF's page of a ring that it has (R345) is that ring's. -/
theorem State.namedBy_vf_ring (v : Fin 64) (r : Nat) (hb : b = .ring) (hv : s.vfRing v i = some r) :
    s.namedBy (.vf v) addr = .reg .ring r off := by
  simp [State.namedBy, hn, hb, State.vfNamed, hv]

theorem exec_registerWrite_vfRing (v : Fin 64) (r : Nat) (hb : b = .ring) (hv : s.vfRing v i = some r)
    (hc : s.claims (.vf v) = true) (ho : s.orderedOpen 96 none = false)
    (hg : (size = 4 ∨ size = 8) ∧ addr % size = 0) (val : Nat) :
    exec (.registerWrite (.vf v) addr size val) s
      = .next ((s.writeNamed (.vf v) (.reg .ring r off) addr size val).answerWith []) := by
  have hby := s.namedBy_vf_ring addr b i off hn v r hb hv
  rw [exec_registerWrite s (.vf v) addr size val hr ho, s.writeReg_block _ addr size val _ hby (by simp) (by simp),
    s.onReg_vf v _ addr size true _ hc (by simp) ((Named.takes_reg _ r off addr size).2 hg)]

theorem exec_registerReadClear_vfRing (v : Fin 64) (r : Nat) (hb : b = .ring) (hv : s.vfRing v i = some r)
    (hc : s.claims (.vf v) = true) (ho : s.orderedOpen 96 none = false)
    (hg : (size = 4 ∨ size = 8) ∧ addr % size = 0) :
    exec (.registerReadClear (.vf v) addr size) s = .next (s.readDone (.reg .ring r off) addr size) := by
  have hby := s.namedBy_vf_ring addr b i off hn v r hb hv
  rw [exec_registerReadClear s (.vf v) addr size hr ho, s.readReg_block _ addr size _ hby (by simp) (by simp),
    s.onReg_vf v _ addr size false _ hc (by simp) ((Named.takes_reg _ r off addr size).2 hg)]

omit hr in
/-- A VF's BARs hold nothing but the pages of its own rings (R345). -/
theorem State.namedBy_vf_nothing (v : Fin 64) (h : b ≠ .ring ∨ s.vfRing v i = none) :
    s.namedBy (.vf v) addr = .nothing := by
  simp only [State.namedBy, hn, State.vfNamed]
  cases b with
  | ring => simp [h.resolve_left (· rfl)]
  | _ => rfl

theorem exec_registerWrite_vfNothing (v : Fin 64) (h : b ≠ .ring ∨ s.vfRing v i = none)
    (hc : s.claims (.vf v) = true) (ho : s.orderedOpen 96 none = false) (val : Nat) :
    exec (.registerWrite (.vf v) addr size val) s = .next (s.answerWith []) := by
  have hby := s.namedBy_vf_nothing addr b i off hn v h
  rw [exec_registerWrite s (.vf v) addr size val hr ho, s.writeReg_block _ addr size val _ hby (by simp) (by simp),
    s.onReg_vf_nothing v addr size true _ hc, if_pos rfl]

theorem exec_registerReadClear_vfNothing (v : Fin 64) (h : b ≠ .ring ∨ s.vfRing v i = none)
    (hc : s.claims (.vf v) = true) (ho : s.orderedOpen 96 none = false) :
    exec (.registerReadClear (.vf v) addr size) s = .next (s.answerWith (List.replicate size 0)) := by
  have hby := s.namedBy_vf_nothing addr b i off hn v h
  rw [exec_registerReadClear s (.vf v) addr size hr ho, s.readReg_block _ addr size _ hby (by simp) (by simp),
    s.onReg_vf_nothing v addr size false _ hc, if_neg Bool.false_ne_true]

/-- The Cocoon die's accesses of register space are refused (R384). -/
theorem exec_registerWrite_cocoon (hb : b ≠ .csr) (ho : s.orderedOpen 96 none = false) (val : Nat) :
    exec (.registerWrite .cocoon addr size val) s = .next ((s.cocRefuse addr).answerWith [] true) := by
  rw [exec_registerWrite s .cocoon addr size val hr ho,
    s.writeReg_block .cocoon addr size val _ hn (by simp [hb]) (by simp), s.onReg_cocoon _ addr size true _ rfl]

theorem exec_registerReadClear_cocoon (hb : b ≠ .csr) (ho : s.orderedOpen 96 none = false) :
    exec (.registerReadClear .cocoon addr size) s = .next ((s.cocRefuse addr).answerWith [] true) := by
  rw [exec_registerReadClear s .cocoon addr size hr ho,
    s.readReg_block .cocoon addr size _ hn (by simp [hb]) (by simp), s.onReg_cocoon _ addr size false _ rfl]

end

/-! ## Accesses of a hart's own CSRs -/

section
variable (s : State) (h : Fin 96) (m : Bool) (addr off : Nat) (hr : inRegSpace addr = true)
  (hn : named addr = .reg .csr h off) (ha : addr % 8 = 0) (ho : s.direct (.core h m))

include hr hn ha ho

theorem exec_registerWrite_csr (val : Nat) :
    exec (.registerWrite (.core h m) addr 8 val) s = .next (if s.csrOpen h (off / 8) m true
      then s.writeHart h (off / 8 * 8) (RegWr.of addr 8 val) else s.trap h 2 0) := by
  rw [exec_registerWrite s _ addr 8 val hr ho.2, s.writeReg_csr h m addr off val hn ha]

theorem exec_registerReadClear_csr :
    exec (.registerReadClear (.core h m) addr 8) s = .next (if s.csrOpen h (off / 8) m false
      then s.readDone (.reg .csr h off) addr 8 else s.trap h 2 0) := by
  rw [exec_registerReadClear s _ addr 8 hr ho.2, s.readReg_csr h m addr off hn ha]

end

/-! ## The SEC_ block's rule in a write -/

/-- A write that the SEC_ block's rule (R478) lets through acts on the block. -/
theorem State.writeNamed_reg (s : State) (o : Origin) (b : Blk) (i off addr size val : Nat) (ho : s.direct o)
    (hsec : b ≠ .sec ∨ trusted o = true) :
    s.writeNamed o (.reg b i off) addr size val = s.writeBlock o b i (off / 8 * 8) (RegWr.of addr size val) := by
  simp only [State.writeNamed]
  split
  · next he => rw [s.secWrite_trusted o addr _ (hsec.resolve_left (· he)), s.asReg_direct o addr _ ho]
  · rfl

theorem State.writeNamed_sec (s : State) (o : Origin) (i off addr size val : Nat) (ho : s.direct o)
    (ht : trusted o = false) :
    s.writeNamed o (.reg .sec i off) addr size val = s.rasEvent stBadDescriptor 20 0 addr .uncorr :=
  s.secWrite_untrusted o addr _ (s.direct_reachesRegs o ho) ht

/-- Every requester's accesses of a register, by the lemma of its kind. -/
theorem registerAccess : Stated.RegisterAccess := by
  intro s addr size b i off hr hn good at_
  refine ⟨fun o ho hb => ⟨fun hg hsec val => ?_, fun hg hsec ht val => ?_, fun hg => ?_, fun hg hlow write => ?_⟩,
    fun h m hb hi hsz ha ho => ?_,
    fun v hg hb hc ho val => ⟨fun r hring hv => ⟨?_, ?_⟩, fun hnone => ⟨?_, ?_⟩⟩,
    fun hb ho => ⟨fun val => ?_, ?_⟩⟩
  · rw [exec_registerWrite_direct s addr size b i off hr hn o ho hb hg,
      s.writeNamed_reg o b i off addr size val ho hsec]
  · subst hsec
    rw [exec_registerWrite_direct s addr size .sec i off hr hn o ho hb hg, s.writeNamed_sec o i off addr size val ho ht]
  · exact ⟨_, exec_registerReadClear_direct s addr size b i off hr hn o ho hb hg, s.readDone_reg b i off addr size⟩
  · exact ⟨_, exec_registerAccessBadSize_direct s addr size b i off hr hn o ho hg hlow write, rfl,
      s.answerWith_undone _ _ _ _ (s.rasEvent_resp _ _ _ _ _ _)⟩
  · subst hb hi
    have hw := exec_registerWrite_csr s h m addr off hr hn ha ho
    have hread := exec_registerReadClear_csr s h m addr off hr hn ha ho
    refine ⟨fun hopen val => ?_, fun hshut val => ?_, fun hopen => ⟨_, ?_, s.readDone_reg .csr h off addr 8⟩,
      fun hshut => ?_⟩
    · rw [hw, if_pos hopen]
    · rw [hw, hshut, if_neg Bool.false_ne_true]
    · rw [hread, if_pos hopen]
    · rw [hread, hshut, if_neg Bool.false_ne_true]
  · exact exec_registerWrite_vfRing s addr size b i off hr hn v r hring hv hc ho hg val
  · exact ⟨_, exec_registerReadClear_vfRing s addr size b i off hr hn v r hring hv hc ho hg, rfl⟩
  · exact exec_registerWrite_vfNothing s addr size b i off hr hn v hnone hc ho val
  · exact exec_registerReadClear_vfNothing s addr size b i off hr hn v hnone hc ho
  · exact exec_registerWrite_cocoon s addr size b i off hr hn hb ho val
  · exact exec_registerReadClear_cocoon s addr size b i off hr hn hb ho

end Sys2Proof.Machine
end

section
/-! PROOFS. Who may give the commands that act on registers, windows and rings (R175, R190, R195, R344, R345, R347, R478). -/

namespace Sys2Proof.Machine

/-- Who may give a command that acts on a register at an address, where `may` holds of the requesters it is stated for. -/
def State.regGated (s : State) (i : Origin → Instr) (addr : Nat) (may : Origin → Prop) : Prop :=
  (∀ o, o ≠ .pf → o ≠ .hawkmoth → o ≠ .cocoon → (∀ h m, o ≠ .core h m) → exec (i o) s = .next s)
    ∧ (s.inD3 0 = true → exec (i .pf) s = .next s)
    ∧ exec (i .cocoon) s = .next (s.cocRefuse addr)
    ∧ ∀ o, may o → reachesRegs o → s.orderedOpen (originStream o) none = true → exec (i o) s = .next s

/-- A command is gated where it acts as a register: for the requesters it is stated for, and for all but the Hawkmoth and
the cores. -/
theorem State.regGated_of_asReg (s : State) {i : Origin → Instr} {addr : Nat} {may : Origin → Prop}
    (h : ∀ o, may o ∨ (o ≠ .hawkmoth ∧ ∀ c m, o ≠ .core c m) → ∃ f, exec (i o) s = .next (s.asReg o addr f)) :
    s.regGated i addr may := by
  refine ⟨fun o hpf hhm hcoc hcore => ?_, fun hd3 => ?_, ?_, fun o hm hin hopen => ?_⟩
  · obtain ⟨f, hf⟩ := h o (.inr ⟨hhm, hcore⟩)
    rw [hf, s.asReg_unknown o addr f (by simp [reachesRegs, hpf, hhm, hcore]) hcoc]
  · obtain ⟨f, hf⟩ := h .pf (.inr (by simp))
    rw [hf, s.asReg_inD3 addr f hd3]
  · obtain ⟨f, hf⟩ := h .cocoon (.inr (by simp))
    rw [hf, s.asReg_cocoon]
  · obtain ⟨f, hf⟩ := h o (.inl hm)
    rw [hf, s.asReg_open o addr f hin hopen]

/-- A command that acts as a register whoever gives it. -/
theorem State.regGated_all (s : State) {i : Origin → Instr} {addr : Nat} {f : Origin → State → State}
    (h : ∀ o, exec (i o) s = .next (s.asReg o addr (f o))) : s.regGated i addr fun _ => True :=
  s.regGated_of_asReg fun o _ => ⟨f o, h o⟩

/-- A command that the Hawkmoth gives in a way of its own. -/
theorem State.regGated_part (s : State) {i : Origin → Instr} {addr : Nat}
    (h : ∀ o, o ≠ .hawkmoth → ∃ f, exec (i o) s = .next (s.asReg o addr f)) : s.regGated i addr (· ≠ .hawkmoth) :=
  s.regGated_of_asReg fun o ho => h o (ho.elim id And.left)

/-- A command that follows a core's earlier stores (R190, R195): stated for the cores whose buffer holds none. -/
theorem State.regGated_store (s : State) {i : Origin → Instr} {addr : Nat}
    {fs : List (Fld × Nat)} {f : State → State} (h : ∀ o, exec (i o) s = .next (s.asRegStore o addr fs f)) :
    s.regGated i addr s.storesDone := by
  refine s.regGated_of_asReg fun o ho => ⟨f, (h o).trans (congrArg _ ?_)⟩
  cases o with
  | core c m =>
    have hbuf : (s.core c).buf = [] := ho.elim (· c m rfl) fun hn => absurd rfl (hn.2 c m)
    simp [State.asRegStore, hbuf]
  | _ => rfl

/-- A command of the SEC_ block (R478): stated for the PF and the cores in M-mode. -/
theorem State.regGated_sec (s : State) {i : Origin → Instr} {addr : Nat}
    (h : ∀ o, o ≠ .hawkmoth → ∃ f, exec (i o) s = .next (s.secWrite o addr f)) :
    s.regGated i addr fun o => trusted o = true := by
  refine s.regGated_of_asReg fun o ho => ?_
  rcases ho with ht | ⟨hh, hc⟩
  · obtain ⟨f, hf⟩ := h o (by rintro rfl; simp [trusted] at ht)
    exact ⟨f, by rw [hf, s.secWrite_trusted o addr f ht]⟩
  · obtain ⟨f, hf⟩ := h o hh
    exact ⟨f, by rw [hf, s.secWrite_unnamed o addr f hh hc]⟩

/-- While the firmware runs an authorisation is a write of the SEC_ block but for the Hawkmoth's own (R469). -/
theorem State.authCmd_running (s : State) (o : Origin) (op : Nat) (hrun : s.board.boot = .running) (ho : o ≠ .hawkmoth) :
    ∃ f, s.authCmd o op = s.secWrite o (SEC_AUTH_GO.GO.addr 0 0) f := by
  refine ⟨fun s => if authOp s.authRecord = op then s.authGo else s, ?_⟩
  cases o <;> simp_all [State.authCmd]

theorem State.regGated_auth (s : State) {i : Origin → Instr} (op : Nat) (hrun : s.board.boot = .running)
    (h : ∀ o, exec (i o) s = .next (s.authCmd o op)) :
    s.regGated i (SEC_AUTH_GO.GO.addr 0 0) fun o => trusted o = true :=
  s.regGated_sec fun o ho => (s.authCmd_running o op hrun ho).imp fun _ hf => by rw [h, hf]

/-- Who may give a command of a ring: not the Cocoon die, and else whoever the ring answers (R345, R347). -/
def State.ringGated (s : State) (r : Nat) (i : Origin → Instr) (addr : Nat) : Prop :=
  exec (i .cocoon) s = .next (s.cocRefuse addr) ∧ ∀ o, o ≠ .cocoon → s.ringsFor o r = false → exec (i o) s = .next s

theorem State.onDoorbell_shut (s : State) (o : Origin) (r off : Nat) (f : State → State) (hc : o ≠ .cocoon)
    (h : s.ringsFor o r = false) : s.onDoorbell o r off f = s := by
  cases o <;> simp_all [State.onDoorbell]

theorem State.onRing_shut (s : State) (o : Origin) (r addr : Nat) (f : State → State) (hc : o ≠ .cocoon)
    (h : s.ringsFor o r = false) : s.onRing o r addr f = s := by
  cases o <;> simp_all [State.onRing]

theorem State.ringGated_doorbell (s : State) {i : Origin → Instr} (r off : Nat) {f : State → State}
    (h : ∀ o, exec (i o) s = .next (s.onDoorbell o r off f)) :
    s.ringGated r i (0xF00E000000 + r * 0x1000 + off) :=
  ⟨h .cocoon, fun o hc hr => by rw [h, s.onDoorbell_shut o r off f hc hr]⟩

theorem State.ringGated_onRing (s : State) {i : Origin → Instr} (r addr : Nat) {f : State → State}
    (h : ∀ o, exec (i o) s = .next (s.onRing o r addr f)) : s.ringGated r i addr :=
  ⟨h .cocoon, fun o hc hr => by rw [h, s.onRing_shut o r addr f hc hr]⟩

/-- Each command's arm acts as a register, after a core's stores, in the SEC_ block or on a ring; its row follows. -/
theorem otherRequesters : Stated.OtherRequesters := by
  intro s k p c n w r b v16 v32 row all part sec ring
  have reg {i : Origin → Instr} {addr : Nat} {f : Origin → State → State}
      (h : ∀ o, exec (i o) s = .next (s.asReg o addr (f o))) : row i addr all := s.regGated_all h
  have store {i : Origin → Instr} {addr : Nat} {fs : List (Fld × Nat)} {f : State → State}
      (h : ∀ o, exec (i o) s = .next (s.asRegStore o addr fs f)) : row i addr s.storesDone := s.regGated_store h
  have unlessHawkmoth {i : Origin → Instr} {addr : Nat}
      (h : ∀ o, o ≠ .hawkmoth → ∃ f, exec (i o) s = .next (s.asReg o addr f)) : row i addr part := s.regGated_part h
  have secure {i : Origin → Instr} {addr : Nat}
      (h : ∀ o, o ≠ .hawkmoth → ∃ f, exec (i o) s = .next (s.secWrite o addr f)) : row i addr sec := s.regGated_sec h
  have auth {i : Origin → Instr} (op : Nat) (hrun : s.board.boot = .running)
      (h : ∀ o, exec (i o) s = .next (s.authCmd o op)) : row i (SEC_AUTH_GO.GO.addr 0 0) sec := s.regGated_auth op hrun h
  have doorbell {i : Origin → Instr} (off : Nat) {f : State → State}
      (h : ∀ o, exec (i o) s = .next (s.onDoorbell o r off f)) : ring i (0xF00E000000 + r * 0x1000 + off) :=
    s.ringGated_doorbell r off h
  have onRing {i : Origin → Instr} {addr : Nat} {f : State → State}
      (h : ∀ o, exec (i o) s = .next (s.onRing o r addr f)) : ring i addr := s.ringGated_onRing r addr h
  clear_value row all part sec ring
  refine ⟨?slots, ?counters, ?tiers, ?directory, ?memory, ?geysers, ?events, ?site, ?windows, ?power, ?resets, ?tests,
    ?authorisations, ?trust, ?rings⟩
  case slots =>
    exact ⟨reg fun _ => rfl, reg fun _ => rfl, reg fun _ => rfl, store fun _ => rfl, store fun _ => rfl,
      store fun _ => rfl, store fun _ => rfl⟩
  case counters => exact fun _ _ => ⟨store fun _ => rfl, store fun _ => rfl, store fun _ => rfl⟩
  case tiers => exact ⟨reg fun _ => rfl, reg fun _ => rfl, reg fun _ => rfl⟩
  case directory => exact fun _ => reg fun _ => rfl
  case memory =>
    exact ⟨reg fun _ => rfl, reg fun _ => rfl, reg fun _ => rfl, reg fun _ => rfl, reg fun _ => rfl, reg fun _ => rfl⟩
  case geysers =>
    exact ⟨reg fun _ => rfl, reg fun _ => rfl, reg fun _ => rfl, reg fun _ => rfl, fun _ => reg fun _ => rfl⟩
  case events => exact fun _ => reg fun _ => rfl
  case site =>
    refine fun _ => unlessHawkmoth fun o ho => ?_
    cases o with
    | hawkmoth => exact absurd rfl ho
    | _ => exact ⟨_, rfl⟩
  case windows => exact fun _ _ _ _ => ⟨reg fun _ => rfl, fun hw => reg fun _ => congrArg _ (if_pos hw)⟩
  case power => exact fun _ _ => reg fun _ => rfl
  case resets =>
    refine ⟨reg fun _ => rfl, fun _ => reg fun _ => rfl, reg fun _ => rfl, reg fun _ => rfl,
      unlessHawkmoth fun o ho => ?_, reg fun _ => rfl, reg fun _ => rfl, reg fun _ => rfl, reg fun _ => rfl⟩
    cases o with
    | hawkmoth => exact absurd rfl ho
    | _ => exact ⟨_, rfl⟩
  case tests => exact fun _ => ⟨reg fun _ => rfl, reg fun _ => rfl, reg fun _ => rfl⟩
  case authorisations =>
    exact fun hrun => ⟨auth 1 hrun fun _ => rfl, auth 2 hrun fun _ => rfl, auth 3 hrun fun _ => rfl,
      auth 4 hrun fun _ => rfl, auth 5 hrun fun _ => rfl⟩
  case trust =>
    refine ⟨secure fun o ho => ?_, secure fun _ _ => ⟨_, rfl⟩, secure fun _ _ => ⟨_, rfl⟩⟩
    cases o with
    | hawkmoth => exact absurd rfl ho
    | _ => exact ⟨_, rfl⟩
  case rings =>
    exact fun _ => ⟨doorbell 0 fun _ => rfl, doorbell 8 fun _ => rfl, onRing fun _ => rfl, onRing fun _ => rfl⟩

/-- Settles O27: its three parts together. -/
theorem registers : Obligations.Registers := ⟨registerFields, registerAccess, otherRequesters⟩

end Sys2Proof.Machine
end

section
/-! PROOFS. Lists of updates, and the registers that an update leaves (R12). -/

namespace Sys2Proof.Machine

/-! ## Lists of updates -/

/-- What one step of a list of updates may do, the whole list may do. -/
theorem foldl_rel {β : Type} (R : State → State → Prop) (refl : ∀ s, R s s) (trans : ∀ s t u, R s t → R t u → R s u)
    (g : State → β → State) (l : List β) (h : ∀ s, ∀ x ∈ l, R s (g s x)) (s : State) : R s (l.foldl g s) := by
  induction l generalizing s with
  | nil => exact refl s
  | cons x l ih =>
    exact trans _ _ _ (h s x List.mem_cons_self) (ih (fun s y hy => h s y (List.mem_cons_of_mem x hy)) (g s x))

/-- A state with other registers. -/
def State.withRegs (s : State) (w : SMap Nat) : State := { s with regs := w }

theorem State.withRegs_base (s : State) : ∃ w, s = s.withRegs w := ⟨s.regs, rfl⟩

theorem State.withRegs_ext (s : State) (w v : SMap Nat) : ∃ u, (s.withRegs w).withRegs v = s.withRegs u := ⟨v, rfl⟩

/-- A list of updates of registers touches nothing else. -/
theorem foldl_withRegs {β : Type} (g : State → β → State) (h : ∀ s x, ∃ w, g s x = s.withRegs w) (l : List β)
    (s : State) : ∃ w, l.foldl g s = s.withRegs w :=
  foldl_only State.withRegs g State.withRegs_base State.withRegs_ext h l s

/-! ## Registers that stand -/

theorem State.sameRegs_refl (s : State) (ks : List Nat) : s.sameRegs s ks := fun _ _ _ => rfl

theorem State.sameRegs_trans (s t u : State) (ks : List Nat) (h : s.sameRegs t ks) (g : t.sameRegs u ks) :
    s.sameRegs u ks := fun d k hk => (g d k hk).trans (h d k hk)

theorem State.sameRegs_mono (s t : State) (ks js : List Nat) (h : s.sameRegs t ks) (hs : ks ⊆ js) : s.sameRegs t js :=
  fun d k hk => h d k fun hm => hk (hs hm)

theorem State.sameRegs_wr (s : State) (f : Fld) (v i j r : Nat) : s.sameRegs (s.wr f v i j r) [f.key i j r] :=
  fun d k hk => s.getK_wr_ne d f v i j r k (by simpa using hk)

theorem State.sameRegs_raise (s : State) (f : Fld) (i mask : Nat) : s.sameRegs (s.raise f i mask) [f.key i 0 0] :=
  fun d k hk => s.getK_raise_ne d f i mask k (by simpa using hk)

theorem State.rd_sameRegs (s t : State) (ks : List Nat) (h : s.sameRegs t ks) (f : Fld) (i j r : Nat)
    (hk : f.key i j r ∉ ks) : t.rd f i j r = s.rd f i j r := h _ _ hk

theorem State.on_sameRegs (s t : State) (ks : List Nat) (h : s.sameRegs t ks) (f : Fld) (i j : Nat)
    (hk : f.key i j 0 ∉ ks) : t.on f i j = s.on f i j := by
  simp only [State.on, s.rd_sameRegs t ks h f i j 0 hk]

end Sys2Proof.Machine
end

section
/-! PROOFS. The module's power-off (R22, R24, R25, R428). -/

namespace Sys2Proof.Machine

/-- The newest record stays when a full log drops its oldest. -/
theorem getLast?_drop_concat {α : Type} (l : List α) (r : α) (cap : Nat) (h : 1 ≤ cap) :
    ((l ++ [r]).drop (l.length + 1 - cap)).getLast? = some r := by
  rw [List.drop_append_of_le_length (by omega), List.getLast?_append]; rfl

section
variable (s : State) (cause source : Nat)

/-- Beyond registers, what is lost with the power, and what outlasts it (R24). -/
theorem State.withoutPower_only : ∃ (t : State) (w : SMap Nat), s.withoutPower = t.withRegs w
    ∧ (t.hbm = [] ∧ t.spad = [] ∧ t.cells = [] ∧ t.clus = [] ∧ t.slots = [] ∧ t.ras.queue = [])
    ∧ (t.flash = s.flash ∧ t.hostMem = s.hostMem ∧ t.pending = s.pending ∧ t.ras.log = s.ras.log)
    ∧ t.board.powered = false := by
  have kept (t : State) : ∃ w, offFlds.foldl (fun t f => t.wr f (s.rd f)) ((List.range 12).foldl
      (fun t j => t.wr HBM_MAPOUT.OUT (s.rd HBM_MAPOUT.OUT 0 j) 0 j) t) = t.withRegs w := by
    obtain ⟨w, hw⟩ := foldl_withRegs (fun t j => t.wr HBM_MAPOUT.OUT (s.rd HBM_MAPOUT.OUT 0 j) 0 j)
      (fun _ _ => ⟨_, rfl⟩) (List.range 12) t
    obtain ⟨v, hv⟩ := foldl_withRegs (fun t f => t.wr f (s.rd f)) (fun _ _ => ⟨_, rfl⟩) offFlds (t.withRegs w)
    rw [hw, hv]
    exact t.withRegs_ext w v
  unfold State.withoutPower
  extract_lets
  obtain ⟨w, hw⟩ := kept _
  exact ⟨_, w, hw, ⟨rfl, rfl, rfl, rfl, rfl, rfl⟩, ⟨rfl, rfl, rfl, rfl⟩, rfl⟩

/-- The record that the event log takes of a power-off (log entry 138). -/
def State.offRecord : RasRec := ⟨stOK, 18, false, true, 0, s.us, 0, cause + source * 16⟩

/-- A state with another event log. -/
def State.withLog (l : List RasRec) : State := { s with ras := { s.ras with log := l } }

theorem State.powerOff_unpowered (h : s.board.powered = false) : s.powerOff cause source = s := by
  simp [State.powerOff, h]

/-- A powered module as its power goes: the record is logged, and PWR_LAST_OFF is written once all else is lost. -/
theorem State.powerOff_powered (h : s.board.powered = true) :
    ∃ l, l.getLast? = some (s.offRecord cause source) ∧ s.powerOff cause source
      = ((s.withLog l).withoutPower.wr PWR_LAST_OFF.CAUSE cause).wr PWR_LAST_OFF.SOURCE source := by
  refine ⟨(s.ras.log ++ [s.offRecord cause source]).drop (s.ras.log.length + 1 - evlogCap),
    getLast?_drop_concat _ _ evlogCap (by norm_num [evlogCap]), ?_⟩
  simp [State.powerOff, h, State.withLog, State.offRecord]

/-- PWR_LAST_OFF after its two writes. -/
theorem State.lastOff_wr :
    let t := (s.wr PWR_LAST_OFF.CAUSE cause).wr PWR_LAST_OFF.SOURCE source
    t.rd PWR_LAST_OFF.CAUSE = cause % 8 ∧ t.rd PWR_LAST_OFF.SOURCE = source % 32 := by
  refine ⟨?_, State.rd_wr_same _ _ _ _ _ _⟩
  rw [State.rd_wr_ne _ _ _ _ _ _ _ _ _ _ (by decide), State.rd_wr_same]
  rfl

end

theorem exec_thermtrip (s : State) (x : TripSource) (h : s.board.powered = true) :
    exec (.thermtrip x) s = .next ((s.powerOff (tripCode x).1 (tripCode x).2).setBoard
      fun m => { m with vin := false, tripped := true }) := by
  change execThermtrip x s = _
  simp only [execThermtrip, h, if_true]

theorem tripCode_small (x : TripSource) : (tripCode x).1 < 8 ∧ (tripCode x).2 < 32 := by
  cases x <;> simp only [tripCode] <;> omega

/-- Settles O22: each cause of a power-off notes its terminals on what the power-off leaves, and a module that is off has
nothing to lose. -/
theorem powerLoss : Obligations.PowerLoss := by
  refine ⟨fun s hp => ?_, fun s hp => ?_⟩
  · intro off
    have goes (i : Instr) (cause source : Nat) (b : Mod → Bool) (f : Mod → Mod) (hc : cause < 8) (hs : source < 32)
        (hi : exec i s = .next ((s.powerOff cause source).setBoard f))
        (hf : ∀ m : Mod, (f m).powered = m.powered ∧ b (f m) = true) : off i cause source b := by
      obtain ⟨l, hlast, hoff⟩ := s.powerOff_powered cause source hp
      obtain ⟨t, w, ht, ⟨hhbm, hspad, hcells, hclus, hslots, hqueue⟩, ⟨hflash, hhost, hpend, hlog⟩, hpow⟩ :=
        (s.withLog l).withoutPower_only
      rw [hoff, ht] at hi
      obtain ⟨hcause, hsource⟩ := (t.withRegs w).lastOff_wr cause source
      exact ⟨_, hi, (hf _).1.trans hpow, (hf _).2, hcause.trans (Nat.mod_eq_of_lt hc),
        hsource.trans (Nat.mod_eq_of_lt hs), (congrArg List.getLast? hlog).trans hlast, hhbm, hspad, hcells, hclus,
        hslots, hqueue, hflash, hhost, hpend⟩
    clear_value off
    have trips (x : TripSource) : off (.thermtrip x) (tripCode x).1 (tripCode x).2 fun m => !m.vin && m.tripped :=
      goes _ _ _ _ _ (tripCode_small x).1 (tripCode_small x).2 (exec_thermtrip s x hp) fun _ => ⟨rfl, rfl⟩
    refine ⟨goes _ _ _ _ _ ?_ ?_ rfl fun _ => ⟨rfl, rfl⟩, goes _ _ _ _ _ ?_ ?_ rfl fun _ => ⟨rfl, rfl⟩,
      goes _ _ _ _ _ ?_ ?_ rfl fun _ => ⟨rfl, rfl⟩, fun d => trips (.die d), fun k => trips (.stack k)⟩
    all_goals decide
  · have stays (cause source : Nat) (f : Mod → Mod) :
        (.next ((s.powerOff cause source).setBoard f) : Answer) = .next (s.setBoard f) := by
      rw [s.powerOff_unpowered cause source hp]
    exact ⟨stays 1 0 _, stays 2 0 _, stays 0 0 _, fun x => congrArg _ (if_neg (by simp [hp]))⟩

end Sys2Proof.Machine
end

section
/-! PROOFS. What the ports of the Obneurn Link do as cages, addresses and enables change (R393, R398, R404). -/

namespace Sys2Proof.Machine

/-- The registers that the settling of ports writes: the counts of dropped frames, their interrupt, and the states of the
ports named. -/
def portKeys (ps : List Nat) : List Nat :=
  [OBL_DROP.LINK.key 0 0 0, OBL_DROP.NOROUTE.key 0 0 0, OBL_INT_STATUS.DROP.key 0 0 0]
    ++ ps.map fun p => OBL_PORT_STATUS.STATE.key p 0 0

theorem portKeys_subset (ps qs : List Nat) (h : ps ⊆ qs) : portKeys ps ⊆ portKeys qs :=
  List.append_subset.2 ⟨List.subset_append_left _ _,
    List.Subset.trans (List.map_subset _ h) (List.subset_append_right _ _)⟩

theorem mem_portKeys (ps : List Nat) (k : Nat) : k ∈ portKeys ps ↔ k = OBL_DROP.LINK.key 0 0 0
    ∨ k = OBL_DROP.NOROUTE.key 0 0 0 ∨ k = OBL_INT_STATUS.DROP.key 0 0 0
    ∨ ∃ p ∈ ps, k = OBL_PORT_STATUS.STATE.key p 0 0 := by
  simp [portKeys, eq_comm]

/-- What the settling of ports may change: those registers, what interrupts send, and what the ports hold but for the
device of their cage. -/
structure State.portsMoved (s t : State) (ps : List Nat) : Prop where
  only : t = { s with regs := t.regs, irq := t.irq, out := t.out, obl := t.obl }
  present : ∀ p, (t.port p).present = (s.port p).present
  regs : s.sameRegs t (portKeys ps)

section
variable (s t u : State) (ps : List Nat)

theorem State.portsMoved_refl : s.portsMoved s ps := ⟨rfl, fun _ => rfl, s.sameRegs_refl _⟩

variable {s t u ps}

theorem State.portsMoved.trans (h : s.portsMoved t ps) (g : t.portsMoved u ps) : s.portsMoved u ps := by
  refine ⟨?_, fun p => (g.present p).trans (h.present p), s.sameRegs_trans t u _ h.regs g.regs⟩
  rw [g.only, h.only]

theorem State.portsMoved.mono (h : s.portsMoved t ps) (qs : List Nat) (hs : ps ⊆ qs) : s.portsMoved t qs :=
  ⟨h.only, h.present, s.sameRegs_mono t _ _ h.regs (portKeys_subset ps qs hs)⟩

end

section
variable (s : State) (p : Nat)

theorem State.port_setPort (q : Nat) (f : ObPort → ObPort) :
    (s.setPort p f).port q = if q = p then f (s.port p) else s.port q := by
  split
  · subst_vars; exact getK_setK_same _ _ _ _
  · exact getK_setK_ne _ _ _ _ _ _ ‹_›

/-- A change of what a port holds, but for the device of its cage. -/
theorem State.setPort_moved (f : ObPort → ObPort) (hf : ∀ x, (f x).present = x.present) :
    s.portsMoved (s.setPort p f) [] := by
  refine ⟨rfl, fun q => ?_, s.sameRegs_refl _⟩
  rw [s.port_setPort]
  split
  · subst_vars; exact hf _
  · rfl

theorem State.wr_moved (f : Fld) (v i : Nat) (ps : List Nat) (hk : f.key i 0 0 ∈ portKeys ps) :
    s.portsMoved (s.wr f v i) ps :=
  ⟨rfl, fun _ => rfl, s.sameRegs_mono _ _ _ (s.sameRegs_wr f v i 0 0) (by simpa using hk)⟩

theorem State.raise_moved (f : Fld) (i mask : Nat) (ps : List Nat) (hk : f.key i 0 0 ∈ portKeys ps) :
    s.portsMoved (s.raise f i mask) ps := by
  refine ⟨?_, fun q => by simp [State.port], s.sameRegs_mono _ _ _ (s.sameRegs_raise f i mask) (by simpa using hk)⟩
  obtain ⟨w, h⟩ := s.raise_only f i mask
  rw [h]; rfl

theorem State.oblDrop_moved (f : Fld) (n : Nat) (hf : f = OBL_DROP.LINK ∨ f = OBL_DROP.NOROUTE) :
    s.portsMoved (s.oblDrop f n) [] :=
  (s.wr_moved f _ 0 [] (by rcases hf with rfl | rfl <;> decide)).trans (State.raise_moved _ _ _ _ _ (by decide))

/-- A packet is queued at an output port, or dropped for want of a route (R404). -/
theorem State.sendPkt_moved (from_ : Nat) (vc1 : Bool) (x : ObPkt) : s.portsMoved (s.sendPkt from_ vc1 x) [] := by
  unfold State.sendPkt
  split
  · exact s.oblDrop_moved _ _ (.inr rfl)
  · exact s.setPort_moved _ _ fun _ => rfl

theorem State.portFlush_moved : s.portsMoved (s.portFlush p) [] := by
  unfold State.portFlush
  extract_lets x idle s1 s2
  have h1 : s.portsMoved s1 [] := s.setPort_moved p _ fun _ => rfl
  have h2 : s1.portsMoved s2 [] := by
    simp only [s2]; split
    · exact s1.portsMoved_refl []
    · exact s1.oblDrop_moved _ _ (.inl rfl)
  have all {β : Type} (g : State → β → State) (h : ∀ s x, s.portsMoved (g s x) []) (l : List β) (s : State) :
      s.portsMoved (l.foldl g s) [] :=
    foldl_rel (State.portsMoved · · []) (State.portsMoved_refl · []) (fun _ _ _ h g => h.trans g) g l
      (fun s x _ => h s x) s
  exact (h1.trans h2).trans (all _ (fun s e => all _ (fun s q => s.sendPkt_moved _ _ _) _ s) _ _)

theorem State.portLeaves_moved (st : Nat) : s.portsMoved (s.portLeaves p st) [p] := by
  have hw := s.wr_moved OBL_PORT_STATUS.STATE st p [p] (by simp [mem_portKeys])
  unfold State.portLeaves
  extract_lets was s1
  split
  · exact hw.trans ((State.portFlush_moved s1 p).mono [p] (List.nil_subset _))
  · exact hw

theorem State.portTrains_moved : s.portsMoved (s.portTrains p) [p] := by
  have hw := s.wr_moved OBL_PORT_STATUS.STATE pTraining p [p] (by simp [mem_portKeys])
  exact hw.trans ⟨rfl, fun _ => rfl, State.sameRegs_refl _ _⟩

/-- The settling of one port touches its own state alone. -/
theorem State.portSettle_moved : s.portsMoved (s.portSettle p) [p] := by
  unfold State.portSettle
  extract_lets st
  split
  · split
    · exact s.portsMoved_refl _
    · exact s.portLeaves_moved p _
  · split
    · split
      · exact s.portsMoved_refl _
      · exact s.portLeaves_moved p _
    · split
      · exact s.portTrains_moved p
      · exact s.portsMoved_refl _

theorem State.portsSettle_moved : s.portsMoved s.portsSettle (List.range 16) :=
  foldl_rel (State.portsMoved · · _) (State.portsMoved_refl · _) (fun _ _ _ h g => h.trans g) _ _
    (fun s q hq => (s.portSettle_moved q).mono _ (by simpa using List.mem_range.1 hq)) s

/-! ## The state that a port settles in (R393) -/

theorem portKeys_state (q : Nat) (ps : List Nat) (h : q ∉ ps) : OBL_PORT_STATUS.STATE.key q 0 0 ∉ portKeys ps := by
  rw [mem_portKeys]
  simp only [Fld.key, Fld.addr, OBL_PORT_STATUS.STATE, OBL_DROP.LINK, OBL_DROP.NOROUTE, OBL_INT_STATUS.DROP, Blk.base,
    Blk.stride]
  rintro (hk | hk | hk | ⟨p, hp, hk⟩)
  · omega
  · omega
  · omega
  · exact h ((show q = p by omega) ▸ hp)

theorem State.portSt_moved {s t : State} {ps : List Nat} (h : s.portsMoved t ps) (q : Nat) (hq : q ∉ ps) :
    t.portSt q = s.portSt q := s.rd_sameRegs t _ h.regs _ q 0 0 (portKeys_state q ps hq)

/-- Whether a port may train is not for the ports to change. -/
theorem State.portMay_moved {s t : State} {ps : List Nat} (h : s.portsMoved t ps) (q : Nat) : t.portMay q = s.portMay q := by
  have en : OBL_PORT_CTRL.EN.key q 0 0 ∉ portKeys ps := by
    rw [mem_portKeys]
    simp only [Fld.key, Fld.addr, OBL_PORT_STATUS.STATE, OBL_PORT_CTRL.EN, OBL_DROP.LINK, OBL_DROP.NOROUTE,
      OBL_INT_STATUS.DROP, Blk.base, Blk.stride]
    rintro (hk | hk | hk | ⟨p, _, hk⟩) <;> omega
  have other (f : Fld) (hf : f = OBL_STATUS.ADDR ∨ f = RAS_SERVICE.OUT) : f.key 0 0 0 ∉ portKeys ps := by
    rw [mem_portKeys]
    rcases hf with rfl | rfl <;>
    · simp only [Fld.key, Fld.addr, OBL_PORT_STATUS.STATE, OBL_STATUS.ADDR, RAS_SERVICE.OUT, OBL_DROP.LINK,
        OBL_DROP.NOROUTE, OBL_INT_STATUS.DROP, Blk.base, Blk.stride]
      rintro (hk | hk | hk | ⟨p, _, hk⟩) <;> omega
  unfold State.portMay State.ownAddr
  rw [s.on_sameRegs t _ h.regs _ q 0 en, s.rd_sameRegs t _ h.regs _ 0 0 0 (other _ (.inl rfl)),
    s.on_sameRegs t _ h.regs _ 0 0 (other _ (.inr rfl))]

theorem State.portSt_portLeaves (st : Nat) : (s.portLeaves p st).portSt p = st % 8 := by
  have hw : (s.wr OBL_PORT_STATUS.STATE st p).portSt p = st % 8 := State.rd_wr_same _ _ _ _ _ _
  unfold State.portLeaves
  extract_lets was s1
  split
  · exact (State.portSt_moved (s1.portFlush_moved p) p (List.not_mem_nil)).trans hw
  · exact hw

/-- A port whose cage holds no device that can run it is EMPTY. -/
theorem State.portSettle_absent (h : (s.port p).present = false) : (s.portSettle p).portSt p = pEmpty := by
  simp only [State.portSettle, h, Bool.false_eq_true, not_false_eq_true, if_true]
  split
  · assumption
  · exact s.portSt_portLeaves p pEmpty

/-- An EMPTY port whose cage holds a device trains where it may, and is DISABLED where it may not. -/
theorem State.portSettle_empty (h : (s.port p).present = true) (he : s.portSt p = pEmpty) :
    (s.portSettle p).portSt p = if s.portMay p then pTraining else pDisabled := by
  by_cases hm : s.portMay p = true
  · simp only [State.portSettle, h, he, hm, not_true, if_false, true_or, if_true]
    exact State.rd_wr_same s OBL_PORT_STATUS.STATE pTraining p 0 0
  · have hne : ¬ pEmpty = pDisabled := by decide
    simp only [State.portSettle, h, he, hm, not_true, if_false, if_true, hne]
    exact s.portSt_portLeaves p pDisabled

end

end Sys2Proof.Machine
end

section
/-! PROOFS. Power-on, cages and their ports, the chain's tail and PMBus writes (R22, R25, R26, R29, R30, R32, R393). -/

namespace Sys2Proof.Machine

/-! ## The two ports of a cage (R29, R30) -/

section
variable (s : State) (c : Nat) (good : Bool)

/-- A port notes whether its cage holds a device that can run it. -/
def State.portNotes (p : Nat) : State := s.setPort p fun x => { x with present := good }

theorem State.portNotes_present (p q : Nat) :
    ((s.portNotes good p).port q).present = if q = p then good else (s.port q).present := by
  rw [State.portNotes, s.port_setPort]
  split <;> rfl

theorem State.portNotes_port (p q : Nat) (h : q ≠ p) : (s.portNotes good p).port q = s.port q := by
  rw [State.portNotes, s.port_setPort, if_neg h]

/-- One port of a cage, and it settles where the module has power. -/
def State.cagePort (p : Nat) : State :=
  if s.board.powered then (s.portNotes good p).portSettle p else s.portNotes good p

theorem State.cage_eq : s.cage c good = (s.cagePort good (2 * c)).cagePort good (2 * c + 1) := rfl

theorem State.cage_unpowered (hp : s.board.powered = false) :
    s.cage c good = (s.portNotes good (2 * c)).portNotes good (2 * c + 1) := by
  have one (t : State) (ht : t.board.powered = false) (p : Nat) : t.cagePort good p = t.portNotes good p :=
    if_neg (by simp [ht])
  rw [s.cage_eq, one s hp]
  exact one (s.portNotes good (2 * c)) hp _

theorem State.cage_powered (hp : s.board.powered = true) :
    s.cage c good = (((s.portNotes good (2 * c)).portSettle (2 * c)).portNotes good (2 * c + 1)).portSettle (2 * c + 1) := by
  have hboard : ((s.portNotes good (2 * c)).portSettle (2 * c)).board = s.board := by
    rw [((s.portNotes good (2 * c)).portSettle_moved (2 * c)).only]; rfl
  have one (t : State) (ht : t.board.powered = true) (p : Nat) : t.cagePort good p = (t.portNotes good p).portSettle p :=
    if_pos ht
  rw [s.cage_eq, one s hp, one _ ((congrArg Mod.powered hboard).trans hp)]

/-- Without power the ports of a cage only take up its device. -/
theorem State.cage_noted (hp : s.board.powered = false) :
    let t := s.cage c good
    (t.port (2 * c)).present = good ∧ (t.port (2 * c + 1)).present = good
      ∧ (∀ p, p ≠ 2 * c → p ≠ 2 * c + 1 → t.port p = s.port p) ∧ t = { s with obl := t.obl } := by
  rw [s.cage_unpowered c good hp]
  refine ⟨?_, ?_, fun p h0 h1 => ?_, rfl⟩
  · rw [State.portNotes_present, if_neg (by omega), State.portNotes_present, if_pos rfl]
  · rw [State.portNotes_present, if_pos rfl]
  · rw [State.portNotes_port _ _ _ _ h1, State.portNotes_port _ _ _ _ h0]

/-- With power the ports of a cage settle one after the other, and touch nothing beyond the ports. -/
theorem State.cage_only (hp : s.board.powered = true) :
    let t := s.cage c good
    t = { s with regs := t.regs, irq := t.irq, out := t.out, obl := t.obl } := by
  rw [s.cage_powered c good hp]
  generalize hu : (s.portNotes good (2 * c)).portSettle (2 * c) = u
  have h1 := ((s.portNotes good (2 * c)).portSettle_moved (2 * c)).only
  have h2 := ((u.portNotes good (2 * c + 1)).portSettle_moved (2 * c + 1)).only
  rw [hu] at h1
  intro t
  change t = _ at h2
  rw [h2, State.portNotes, State.setPort, h1, State.portNotes, State.setPort]

/-- What the two ports of a powered module's cage come to: each notes the device and settles as if it were alone. -/
theorem State.cage_ports (hp : s.board.powered = true) (p : Nat) (h : p = 2 * c ∨ p = 2 * c + 1) :
    ∃ u : State, (u.port p).present = good ∧ u.portSt p = s.portSt p ∧ u.portMay p = s.portMay p
      ∧ (s.cage c good).portSt p = (u.portSettle p).portSt p ∧ ((s.cage c good).port p).present = good := by
  rw [s.cage_powered c good hp]
  have m1 := (s.portNotes good (2 * c)).portSettle_moved (2 * c)
  have m2 := (((s.portNotes good (2 * c)).portSettle (2 * c)).portNotes good (2 * c + 1)).portSettle_moved (2 * c + 1)
  rcases h with rfl | rfl
  · refine ⟨s.portNotes good (2 * c), ?_, rfl, rfl, State.portSt_moved m2 _ (by simp), ?_⟩
    · rw [State.portNotes_present, if_pos rfl]
    · rw [m2.present, State.portNotes_present, if_neg (by omega), m1.present, State.portNotes_present, if_pos rfl]
  · refine ⟨((s.portNotes good (2 * c)).portSettle (2 * c)).portNotes good (2 * c + 1), ?_, ?_, ?_, rfl, ?_⟩
    · rw [State.portNotes_present, if_pos rfl]
    · exact State.portSt_moved m1 _ (by simp)
    · exact State.portMay_moved m1 _
    · rw [m2.present, State.portNotes_present, if_pos rfl]

/-- Ports of a cage without a device that can run them are EMPTY. -/
theorem State.cage_gone (hp : s.board.powered = true) (p : Nat) (h : p = 2 * c ∨ p = 2 * c + 1) :
    (s.cage c false).portSt p = pEmpty := by
  obtain ⟨u, hpres, _, _, hst, _⟩ := s.cage_ports c false hp p h
  rw [hst, u.portSettle_absent p hpres]

/-- An EMPTY port of a cage that takes a good device trains where it may, and is DISABLED where it may not. -/
theorem State.cage_trains (hp : s.board.powered = true) (p : Nat) (h : p = 2 * c ∨ p = 2 * c + 1)
    (he : s.portSt p = pEmpty) : (s.cage c true).portSt p = if s.portMay p then pTraining else pDisabled := by
  obtain ⟨u, hpres, hsame, hmay, hst, _⟩ := s.cage_ports c true hp p h
  rw [hst, u.portSettle_empty p hpres (hsame.trans he), hmay]

/-- What a powered module keeps as a cage changes. -/
theorem State.cage_frame (hp : s.board.powered = true) :
    s.sameStore (s.cage c good) ∧ (s.cage c good).clus = s.clus ∧ (s.cage c good).slots = s.slots
      ∧ (s.cage c good).board = s.board := by
  rw [s.cage_only c good hp]
  exact ⟨⟨rfl, rfl, rfl, rfl⟩, rfl, rfl, rfl⟩

end

/-- The cages of a powered module, each port by itself. -/
theorem cagePorts : Stated.CagePorts := by
  intro s cage hp gone
  have empty : gone (.cageRemove cage) := ⟨s.cage cage false, rfl, s.cage_gone _ hp _ (.inl rfl),
    s.cage_gone _ hp _ (.inr rfl), s.cage_frame cage false hp⟩
  refine ⟨empty, empty, s.cage cage true, rfl, fun p h => ⟨?_, s.cage_trains _ hp p h⟩, s.cage_frame cage true hp⟩
  obtain ⟨_, _, _, _, _, hpres⟩ := s.cage_ports cage true hp p h
  exact hpres

/-! ## Power-on and the terminals (R22, R25, R26, R32) -/

/-- POWER_ON and ENABLE_HIGH by whether the other condition holds; cages without power; the tail. -/
theorem powerOnAndConnectors : Stated.PowerOnAndConnectors := by
  intro s r vin en
  have hin : vin.board.enable = s.board.enable ∧ vin.board.powered = s.board.powered := ⟨rfl, rfl⟩
  have hen : en.board.vin = s.board.vin ∧ en.board.powered = s.board.powered := ⟨rfl, rfl⟩
  have on : exec (.powerOn r) s = .next (if vin.board.enable ∧ ¬ vin.board.powered then vin.powerUp r else vin) := rfl
  have high : exec (.enableHigh r) s = .next (if en.board.vin ∧ ¬ en.board.powered then en.powerUp r else en) := rfl
  rw [on, high, hin.1, hin.2, hen.1, hen.2]
  clear_value vin en
  refine ⟨fun hoff he => by simp [hoff, he], fun h => by rcases h with h | h <;> simp [h],
    fun hoff hv => by simp [hoff, hv], fun h => by rcases h with h | h <;> simp [h],
    fun cage good hp => ⟨s.cage cage good, rfl, s.cage_noted cage good hp⟩,
    fun cage hp => ⟨s.cage cage false, rfl, s.cage_noted cage false hp⟩,
    fun low => ⟨s.wr CHN_LINK.TAIL (b2n !low), rfl, ?_, s.sameRegs_wr _ _ 0 0 0, rfl⟩, fun _ _ => rfl⟩
  rw [State.rd_wr_same]
  cases low <;> rfl

/-- Settles O23: its two parts together. -/
theorem connectors : Obligations.Connectors := ⟨powerOnAndConnectors, cagePorts⟩

end Sys2Proof.Machine
end

section
/-! PROOFS. The outcomes of boot (R36, R38, R463 to R466). -/

namespace Sys2Proof.Machine

/-! ## The flash is read, not written -/

section
variable (s : State)

theorem foldl_flash {β : Type} (g : State → β → State) (h : ∀ s x, (g s x).flash = s.flash) (l : List β) (s : State) :
    (l.foldl g s).flash = s.flash :=
  foldl_rel (fun s t => t.flash = s.flash) (fun _ => rfl) (fun _ _ _ h g => g.trans h) g l (fun s x _ => h s x) s

theorem State.ageView_flash : s.ageView.flash = s.flash := by
  unfold State.ageView
  extract_lets s1 s2 w worn
  have h1 : s1.flash = s.flash := by
    refine foldl_flash _ ?_ _ s
    exact fun _ _ => rfl
  have h2 : s2.flash = s1.flash := by
    refine foldl_flash _ ?_ _ s1
    exact fun _ _ => rfl
  simp only [State.wr_flash, h2, h1]

theorem State.restoreHistory_flash : s.restoreHistory.flash = s.flash := State.ageView_flash _

theorem State.retireView_flash (c : Nat) : (s.retireView c).flash = s.flash := by
  simp only [State.retireView, State.wr_flash]

theorem State.reenable_flash (n way : Nat) : (s.reenable n way).flash = s.flash := by
  unfold State.reenable
  split <;> rfl

theorem State.dropRecord_flash (r : HistRec) : (s.dropRecord r).flash = s.flash := by
  cases r with
  | unit u => exact State.restoreHistory_flash _
  | cells c => exact State.retireView_flash _ _
  | vmin d => exact State.restoreHistory_flash _
  | guard g => exact State.restoreHistory_flash _
  | lanes k => rfl
  | way k => exact s.reenable_flash _ _

theorem State.discard_flash (b : BootIn) : (s.discard b).flash = s.flash := by
  unfold State.discard
  extract_lets s1 keep lost ras s2
  have h1 : s1.flash = s.flash :=
    foldl_flash _ (fun s x => (State.rasEvent_flash _ _ _ _ _ _ _).trans (s.dropRecord_flash x)) _ s
  have h2 : s2.flash = s1.flash := rfl
  rw [← h1, ← h2]
  exact foldl_flash _ (fun s _ => State.rasEvent_flash _ _ _ _ _ _ _) _ s2

theorem State.secView_flash : s.secView.flash = s.flash := by
  unfold State.secView
  simp only [State.wr_flash]

/-- Opening the protected area changes registers, the log and what ageing records gave, and no byte of the flash. -/
theorem State.openArea_flash (b : BootIn) : (s.openArea b).flash = s.flash := by
  unfold State.openArea
  extract_lets s1 e
  have h1 : s1.flash = s.flash := (State.secView_flash _).trans (s.discard_flash b)
  clear_value s1
  rw [← h1]
  refine foldl_flash _ ?_ _ s1
  exact fun _ _ => rfl

end

/-! ## The firmware starts (R463 order 6) -/

/-- The registers that a RAS event writes. -/
def rasEventKeys : List Nat :=
  [RAS_EVT_STATUS.LOST.key 0 0 0, RAS_INT_STATUS.LOST.key 0 0 0, RAS_INT_STATUS.EVENT.key 0 0 0,
    RAS_INT_STATUS.UNCORR.key 0 0 0, RAS_INT_STATUS.RESET.key 0 0 0]

theorem State.rasEvent_sameRegs (s : State) (status block unit loc : Nat) (kind : RasKind) (detail : Nat) :
    s.sameRegs (s.rasEvent status block unit loc kind detail) rasEventKeys := by
  unfold State.rasEvent
  extract_lets corrDue logged r full ras0 ras s1 s2 s3 s4
  have raised (t : State) (f : Fld) (hf : f.key 0 0 0 ∈ rasEventKeys) : t.sameRegs (t.raise f) rasEventKeys :=
    t.sameRegs_mono _ _ _ (t.sameRegs_raise f 0 1) (by simpa using hf)
  have h2 : s.sameRegs s2 rasEventKeys := by
    simp only [s2]; split
    · exact State.sameRegs_trans s1 (s1.bump RAS_EVT_STATUS.LOST 1) _ _
        (s1.sameRegs_mono _ _ _ (s1.sameRegs_wr _ _ 0 0 0) (by decide)) (raised _ _ (by decide))
    · exact s.sameRegs_refl _
  have h3 := s.sameRegs_trans s2 s3 _ h2 (raised s2 RAS_INT_STATUS.EVENT (by decide))
  have h4 : s.sameRegs s4 rasEventKeys := by
    simp only [s4]; split
    · exact s.sameRegs_trans _ _ _ h3 (raised s3 _ (by decide))
    · exact h3
  split
  · exact s.sameRegs_trans _ _ _ h4 (raised s4 _ (by decide))
  · exact h4

section
variable (s : State)

theorem State.releaseHarts_only : ∃ w, s.releaseHarts = { s with cores := w } := by
  unfold State.releaseHarts
  refine foldl_only (fun s w => { s with cores := w }) _ (fun s => ⟨s.cores, rfl⟩) (fun _ _ v => ⟨v, rfl⟩) ?_ _ s
  exact fun s h => ⟨_, rfl⟩

/-- The registers that show the running image (R463, R478). -/
def State.imageShown (slotB fellBack : Bool) (i : FwImage) : State :=
  (((s.setTrust fun t => { t with fwDigest := i.digest, fwKey := i.key }).wr SEC_STATUS.BOOT_SLOT (b2n slotB)).wr
    SEC_STATUS.FALLBACK (b2n fellBack)).wr SEC_STATUS.FW_SVN i.svn

theorem State.imageShown_shows (slotB fellBack : Bool) (i : FwImage) :
    let t := s.imageShown slotB fellBack i
    t.rd SEC_STATUS.BOOT_SLOT = b2n slotB ∧ t.rd SEC_STATUS.FALLBACK = b2n fellBack
      ∧ t.rd SEC_STATUS.FW_SVN = i.svn % 2 ^ 32 := by
  have hb (b : Bool) : b2n b % 2 ^ 1 = b2n b := by cases b <;> rfl
  refine ⟨?_, ?_, State.rd_wr_same _ _ _ _ _ _⟩
  · rw [State.imageShown, State.rd_wr_ne _ _ _ _ _ _ _ _ _ _ (by decide), State.rd_wr_ne _ _ _ _ _ _ _ _ _ _ (by decide),
      State.rd_wr_same]
    exact hb slotB
  · rw [State.imageShown, State.rd_wr_ne _ _ _ _ _ _ _ _ _ _ (by decide), State.rd_wr_same]
    exact hb fellBack

/-- The running firmware: its slot, SVN and digest show, a fallback also raises its interrupt, and the flash stands. -/
theorem State.startImage_starts (slotB fellBack : Bool) (i : FwImage) :
    let t := s.startImage slotB fellBack i
    (t.board.boot = .running ∧ t.rd SEC_STATUS.BOOT_SLOT = b2n slotB ∧ t.rd SEC_STATUS.FALLBACK = b2n fellBack
      ∧ t.rd SEC_STATUS.FW_SVN = i.svn % 2 ^ 32 ∧ t.trust.fwDigest = i.digest ∧ t.flash = s.flash)
      ∧ (fellBack = true → t.on SEC_INT_STATUS.FALLBACK = true) := by
  obtain ⟨hslot, hfell, hsvn⟩ := s.imageShown_shows slotB fellBack i
  obtain ⟨u, hu⟩ : ∃ u, u = if fellBack then ((s.imageShown slotB fellBack i).raise SEC_INT_STATUS.FALLBACK).rasEvent
      stOK 20 0 0 .note else s.imageShown slotB fellBack i := ⟨_, rfl⟩
  obtain ⟨w, hw⟩ := (u.setBoard fun b => { b with boot := .running }).releaseHarts_only
  have ht : s.startImage slotB fellBack i = { u.setBoard fun b => { b with boot := .running } with cores := w } := by
    rw [← hw, hu]; rfl
  rw [ht]
  have hkeep : u.rd SEC_STATUS.BOOT_SLOT = b2n slotB ∧ u.rd SEC_STATUS.FALLBACK = b2n fellBack
      ∧ u.rd SEC_STATUS.FW_SVN = i.svn % 2 ^ 32 ∧ u.trust.fwDigest = i.digest ∧ u.flash = s.flash := by
    rw [hu]
    split
    · have old (f : Fld) (hr : f.key 0 0 0 ∉ rasEventKeys) (hi : f.key 0 0 0 ≠ SEC_INT_STATUS.FALLBACK.key 0 0 0) :=
        (State.rd_sameRegs _ _ _ (State.rasEvent_sameRegs ((s.imageShown slotB fellBack i).raise SEC_INT_STATUS.FALLBACK)
          stOK 20 0 0 .note 0) f 0 0 0 hr).trans (State.rd_raise_ne _ _ f 0 1 0 0 0 hi)
      refine ⟨(old _ (by decide) (by decide)).trans hslot, (old _ (by decide) (by decide)).trans hfell,
        (old _ (by decide) (by decide)).trans hsvn, ?_, ?_⟩
      · rw [State.rasEvent_trust, State.raise_trust]; rfl
      · rw [State.rasEvent_flash, State.raise_flash]; rfl
    · exact ⟨hslot, hfell, hsvn, rfl, rfl⟩
  refine ⟨⟨rfl, hkeep⟩, fun hf => ?_⟩
  have hraise := ((s.imageShown slotB fellBack i).raise_on SEC_INT_STATUS.FALLBACK 0 rfl)
  have hevent := State.on_sameRegs _ _ _ (State.rasEvent_sameRegs ((s.imageShown slotB fellBack i).raise
    SEC_INT_STATUS.FALLBACK) stOK 20 0 0 .note 0) SEC_INT_STATUS.FALLBACK 0 0 (by decide)
  rw [if_pos hf] at hu
  change u.on SEC_INT_STATUS.FALLBACK = true
  rw [hu, hevent, hraise]

end

/-! ## The choice of the image (R463 orders 4 and 5) -/

section
variable (s : State) (i : FwImage)

theorem State.selectImage_selected (h : s.fwImage (imageBase s.trust.selectB) = some i) :
    s.selectImage = s.startImage s.trust.selectB false i := by
  simp only [State.selectImage, h]

theorem State.selectImage_other (h : s.fwImage (imageBase s.trust.selectB) = none)
    (ho : s.fwImage (imageBase !s.trust.selectB) = some i) : s.selectImage = s.startImage (!s.trust.selectB) true i := by
  simp only [State.selectImage, h, ho]

theorem State.selectImage_none (h : s.fwImage (imageBase s.trust.selectB) = none)
    (ho : s.fwImage (imageBase !s.trust.selectB) = none) :
    s.selectImage = s.setBoard fun m => { m with boot := .romOnly } := by
  simp only [State.selectImage, h, ho]

/-- SEC_STATUS tells whether the identity is there. -/
def State.identity (valid status : Nat) : State := (s.wr SEC_STATUS.ID_VALID valid).wr SEC_STATUS.ID_STATUS status

theorem State.identity_shows (valid status : Nat) :
    (s.identity valid status).rd SEC_STATUS.ID_VALID = valid % 2
      ∧ (s.identity valid status).rd SEC_STATUS.ID_STATUS = status % 256 := by
  refine ⟨?_, State.rd_wr_same _ _ _ _ _ _⟩
  rw [State.identity, State.rd_wr_ne _ _ _ _ _ _ _ _ _ _ (by decide), State.rd_wr_same]
  rfl

end

/-- The part once the seed is there (R463 order 2). -/
def State.seeded (s : State) (seed : Nat) : State :=
  (s.setTrust fun t => { t with seed := some seed }).identity 1 stOK

/-- A boot that is due: by the seed and the area. -/
theorem exec_boot_due (s : State) (b : BootIn) (hp : s.board.powered = true) (hb : s.board.boot = .pending)
    (hbusy : s.rst.busy.contains (dPackage, 0) = false) :
    exec (.boot b) s = .next (match b.seed with
      | none => (s.identity 0 stEcc).setBoard fun m => { m with boot := .noSeed }
      | some seed => if b.areaAuthentic then ((s.seeded seed.toNat).openArea b).selectImage
        else (s.seeded seed.toNat).setBoard fun m => { m with boot := .badArea }) := by
  refine congrArg _ (if_neg ?_)
  rintro (h | h | h)
  · exact h hp
  · exact h hb
  · rw [hbusy] at h; exact Bool.false_ne_true h

/-- Settles O24: by the seed, the area, and which of the two images verifies. -/
theorem booting : Obligations.Booting := by
  refine ⟨fun s b h => congrArg _ (if_pos ?_), fun s b hp hb hbusy => ?_⟩
  · simpa using h
  have due := exec_boot_due s b hp hb hbusy
  refine ⟨fun hs => ?_, fun seed hs harea => ?_, fun seed hs harea => ?_⟩
  · rw [hs] at due
    obtain ⟨hvalid, hstatus⟩ := s.identity_shows 0 stEcc
    exact ⟨_, due, rfl, hvalid, hstatus, rfl⟩
  · simp only [hs, harea, Bool.false_eq_true, if_false] at due
    obtain ⟨hvalid, hstatus⟩ := (s.setTrust fun t => { t with seed := some seed.toNat }).identity_shows 1 stOK
    exact ⟨_, due, rfl, hvalid, hstatus, rfl, rfl⟩
  · simp only [hs, harea, if_true] at due
    intro u sel
    have hflash : u.flash = s.flash := State.openArea_flash _ b
    change exec (.boot b) s = .next u.selectImage at due
    clear_value u
    refine ⟨fun i hi => ?_, fun i hi ho => ?_, fun hi ho => ?_⟩
    · rw [u.selectImage_selected i hi] at due
      obtain ⟨⟨hrun, hslot, hfell, hsvn, hdigest, hkeep⟩, _⟩ := u.startImage_starts sel false i
      exact ⟨_, due, hrun, hslot, hfell, hsvn, hdigest, hkeep.trans hflash⟩
    · rw [u.selectImage_other i hi ho] at due
      obtain ⟨⟨hrun, hslot, hfell, _, hdigest, hkeep⟩, hint⟩ := u.startImage_starts (!sel) true i
      exact ⟨_, due, hrun, hslot, hfell, hint rfl, hdigest, hkeep.trans hflash⟩
    · rw [u.selectImage_none hi ho] at due
      exact ⟨_, due, rfl, hflash⟩

end Sys2Proof.Machine
end

section
/-! PROOFS. ASSIGN on the management chain (R32, R406, R407, R480). -/

namespace Sys2Proof.Machine

/-! ## A frame arrives (R406) -/

section
variable (s : State) (h : ChainHdr)

theorem State.chainIn_good (f : State → State) (hp : s.board.powered = true) (hc : h.crcOk = true) :
    s.chainIn h f = f (s.wr CHN_LINK.UPSTREAM 1) := by
  simp [State.chainIn, hp, hc]

/-- What a frame with a bad CRC leaves. -/
def State.chainError : State :=
  ((s.wr CHN_LINK.UPSTREAM 1).bump CHN_LINK.ERRORS 1).setBoard fun b => { b with chainErrAt := some s.us }

theorem State.chainIn_bad (f : State → State) (hp : s.board.powered = true) (hc : h.crcOk = false) :
    s.chainIn h f = s.chainError := by
  simp only [State.chainIn, hp, hc, not_true, if_false, Bool.false_eq_true, not_false_eq_true, if_true]
  rfl

/-- A frame with a bad CRC is counted, and nothing leaves the module. -/
theorem State.chainError_counts : s.counted1 s.chainError CHN_LINK.ERRORS 1 0 ∧ s.chainError.rd CHN_LINK.UPSTREAM = 1
    ∧ s.chainError.out = s.out ∧ s.chainError = { s with regs := s.chainError.regs, board := s.chainError.board } := by
  refine ⟨?_, ?_, rfl, rfl⟩
  · have hb := (s.wr CHN_LINK.UPSTREAM 1).rd_bump_same CHN_LINK.ERRORS 1 0 0
    rwa [State.rd_wr_ne _ _ _ _ _ _ _ _ _ _ (by decide)] at hb
  · exact (State.rd_wr_ne (s.wr CHN_LINK.UPSTREAM 1) CHN_LINK.ERRORS CHN_LINK.UPSTREAM _ 0 0 0 0 0 0 (by decide)).trans
      (s.rd_wr_same CHN_LINK.UPSTREAM 1 0 0 0)

/-- A module that has seen its upstream neighbour and counted a frame. -/
def State.chainSeen : State := (s.wr CHN_LINK.UPSTREAM 1).bump CHN_FRAMES.COUNT 1

theorem State.chainSeen_regs : s.sameRegs s.chainSeen [CHN_LINK.UPSTREAM.key 0 0 0, CHN_FRAMES.COUNT.key 0 0 0] := by
  intro d k hk
  simp only [List.mem_cons, List.not_mem_nil, or_false, not_or] at hk
  exact (State.getK_wr_ne _ d _ _ 0 0 0 k hk.2).trans (s.getK_wr_ne d _ 1 0 0 0 k hk.1)

theorem State.rd_chainSeen (f : Fld) (hk : f.key 0 0 0 ∉ [CHN_LINK.UPSTREAM.key 0 0 0, CHN_FRAMES.COUNT.key 0 0 0]) :
    s.chainSeen.rd f = s.rd f := s.rd_sameRegs _ _ s.chainSeen_regs f 0 0 0 hk

theorem State.chainSeen_store (t : State) : s.chainSeen.sameStore t ↔ s.sameStore t := Iff.rfl

@[simp] theorem State.chainSeen_addr : s.chainSeen.rd CHN_ADDR.ADDR = s.rd CHN_ADDR.ADDR := s.rd_chainSeen _ (by decide)

@[simp] theorem State.chainSeen_tail : s.chainSeen.on CHN_LINK.TAIL = s.on CHN_LINK.TAIL := by
  simp only [State.on, s.rd_chainSeen CHN_LINK.TAIL (by decide)]

theorem State.chainSeen_counts : s.counted1 s.chainSeen CHN_FRAMES.COUNT 1 0 := by
  have hb := (s.wr CHN_LINK.UPSTREAM 1).rd_bump_same CHN_FRAMES.COUNT 1 0 0
  rwa [State.rd_wr_ne _ _ _ _ _ _ _ _ _ _ (by decide)] at hb

end

/-! ## ASSIGN (R407) -/

section
variable (s : State) (h : ChainHdr) (n : Nat)

theorem State.assignNext_only : ∃ o, s.assignNext h n = { s with out := o } := by
  unfold State.assignNext
  split
  · exact ⟨s.out, rfl⟩
  · exact ⟨_, rfl⟩

theorem State.assignNext_store (u : State) (hu : u.sameStore s) : u.sameStore (s.assignNext h n) := by
  obtain ⟨o, ho⟩ := s.assignNext_only h n
  rw [ho]; exact hu

theorem State.rd_assignNext (f : Fld) : (s.assignNext h n).rd f = s.rd f := by
  obtain ⟨o, ho⟩ := s.assignNext_only h n
  rw [ho]; rfl

/-- A module that is not the tail passes the next number on, with its own address as the source. -/
theorem State.assignNext_last (ht : s.on CHN_LINK.TAIL = false) :
    (s.assignNext h n).out.getLast? = some (.chain 0 (s.rd CHN_ADDR.ADDR) 1 h.tag.toNat (leBytes 2 n)) := by
  simp [State.assignNext, ht, State.send]

/-- A module without an address takes the number as its two addresses and says so. -/
theorem State.takeAddr_takes (hn : n < 65536) :
    let t := s.takeAddr n
    (t.rd CHN_ADDR.ADDR = n ∧ t.rd CHN_ADDR.STATUS = (if 8192 < n then stRouteFull else stOK) ∧ t.rd OBL_STATUS.ADDR = n
      ∧ t.on CHN_INT_STATUS.ASSIGNED = true)
      ∧ t.on CHN_LINK.TAIL = s.on CHN_LINK.TAIL ∧ s.sameStore t := by
  unfold State.takeAddr
  extract_lets s1 t
  have hmoved : ((s1.wr OBL_STATUS.ADDR n).raise CHN_INT_STATUS.ASSIGNED).portsMoved t (List.range 16) :=
    ((s1.wr OBL_STATUS.ADDR n).raise CHN_INT_STATUS.ASSIGNED).portsSettle_moved
  have hrd (f : Fld) (hk : f.key 0 0 0 ∉ portKeys (List.range 16)) := State.rd_sameRegs _ _ _ hmoved.regs f 0 0 0 hk
  have hraise (f : Fld) (hk : f.key 0 0 0 ∉ portKeys (List.range 16))
      (hi : f.key 0 0 0 ≠ CHN_INT_STATUS.ASSIGNED.key 0 0 0) :=
    (hrd f hk).trans (State.rd_raise_ne _ _ _ _ _ _ _ _ hi)
  have hst : (if 8192 < n then stRouteFull else stOK) < 256 := by split <;> decide
  refine ⟨⟨?_, ?_, ?_, ?_⟩, ?_, ?_⟩
  · rw [hraise _ (by decide) (by decide), State.rd_wr_ne _ _ _ _ _ _ _ _ _ _ (by decide),
      State.rd_wr_ne _ _ _ _ _ _ _ _ _ _ (by decide), State.rd_wr_same]
    exact Nat.mod_eq_of_lt hn
  · rw [hraise _ (by decide) (by decide), State.rd_wr_ne _ _ _ _ _ _ _ _ _ _ (by decide), State.rd_wr_same]
    exact Nat.mod_eq_of_lt hst
  · rw [hraise _ (by decide) (by decide), State.rd_wr_same]
    exact Nat.mod_eq_of_lt hn
  · exact (State.on_sameRegs _ _ _ hmoved.regs _ 0 0 (by decide)).trans (State.raise_on _ _ _ rfl)
  · simp only [State.on, hraise CHN_LINK.TAIL (by decide) (by decide), s1]
    rw [State.rd_wr_ne _ _ _ _ _ _ _ _ _ _ (by decide), State.rd_wr_ne _ _ _ _ _ _ _ _ _ _ (by decide),
      State.rd_wr_ne _ _ _ _ _ _ _ _ _ _ (by decide)]
  · rw [hmoved.only]
    simp [State.sameStore, s1]

/-- A module with another address reports the mismatch. -/
theorem State.mismatch_reports :
    let t := (s.wr CHN_ADDR.MISMATCH 1).raise CHN_INT_STATUS.MISMATCH
    t.rd CHN_ADDR.MISMATCH = 1 ∧ t.on CHN_INT_STATUS.MISMATCH = true ∧ t.rd CHN_ADDR.ADDR = s.rd CHN_ADDR.ADDR
      ∧ t.on CHN_LINK.TAIL = s.on CHN_LINK.TAIL ∧ s.quiet t := by
  have ne (f : Fld) (hi : f.key 0 0 0 ≠ CHN_INT_STATUS.MISMATCH.key 0 0 0) :=
    State.rd_raise_ne (s.wr CHN_ADDR.MISMATCH 1) CHN_INT_STATUS.MISMATCH f 0 1 0 0 0 hi
  have old (f : Fld) (hi : f.key 0 0 0 ≠ CHN_INT_STATUS.MISMATCH.key 0 0 0)
      (hw : f.key 0 0 0 ≠ CHN_ADDR.MISMATCH.key 0 0 0) :=
    (ne f hi).trans (s.rd_wr_ne CHN_ADDR.MISMATCH f 1 0 0 0 0 0 0 hw)
  refine ⟨(ne _ (by decide)).trans (s.rd_wr_same CHN_ADDR.MISMATCH 1 0 0 0), State.raise_on _ _ _ rfl,
    old _ (by decide) (by decide), ?_, ?_⟩
  · simp only [State.on, old CHN_LINK.TAIL (by decide) (by decide)]
  · obtain ⟨w, hw⟩ := (s.wr CHN_ADDR.MISMATCH 1).raise_only CHN_INT_STATUS.MISMATCH 0 1
    rw [hw]; rfl

end

/-- A good ASSIGN: by the address that the module has. -/
theorem exec_assign_good (s : State) (h : ChainHdr) (n : BitVec 16) (hp : s.board.powered = true) (hc : h.crcOk = true) :
    exec (.assign h n) s = .next (
      let a := s.rd CHN_ADDR.ADDR
      let seen := s.chainSeen
      if a = 0 then (if 1 ≤ n.toNat ∧ n.toNat ≤ 65534 then (seen.takeAddr n.toNat).assignNext h (n.toNat + 1) else seen)
      else if a = n.toNat then seen.assignNext h (a + 1)
      else ((seen.wr CHN_ADDR.MISMATCH 1).raise CHN_INT_STATUS.MISMATCH).assignNext h (a + 1)) := by
  change execAssign h n s = _
  simp only [execAssign, s.chainIn_good h _ hp hc, State.rd_wr_ne s CHN_LINK.UPSTREAM CHN_ADDR.ADDR 1 0 0 0 0 0 0 (by decide)]
  rfl

/-- Settles O25, by the address that the module has when the frame comes. -/
theorem chainAddress : Obligations.ChainAddress := by
  intro s h n hp a next
  have good (hc : h.crcOk = true) := exec_assign_good s h n hp hc
  refine ⟨fun hc ha h1 h2 => ?_, fun hc ha hn => ?_, fun hc ha hn => ?_, fun hc ha hn => ?_, fun hc => ?_⟩
  · obtain ⟨⟨haddr, hst, hobl, hint⟩, htail, hstore⟩ := s.chainSeen.takeAddr_takes n.toNat n.isLt
    refine ⟨_, (good hc).trans (congrArg _ ((if_pos ha).trans (if_pos ⟨h1, h2⟩))), ?_, ?_, ?_, ?_, fun ht => ?_, ?_⟩
    · rw [State.rd_assignNext, haddr]
    · rw [State.rd_assignNext, hst]
    · rw [State.rd_assignNext, hobl]
    · rw [State.on, State.rd_assignNext]; exact hint
    · rw [State.assignNext_last _ _ _ (by rw [htail, State.chainSeen_tail, ht]), haddr]
    · exact State.assignNext_store _ h _ _ ((s.chainSeen_store _).1 hstore)
  · have hno : ¬ (1 ≤ n.toNat ∧ n.toNat ≤ 65534) := by omega
    exact ⟨_, (good hc).trans (congrArg _ ((if_pos ha).trans (if_neg hno))), s.chainSeen_addr.trans ha, rfl, rfl⟩
  · refine ⟨_, (good hc).trans (congrArg _ ((if_neg ha).trans (if_pos hn))), ?_, fun ht => ?_, ?_⟩
    · rw [State.rd_assignNext, State.chainSeen_addr]
    · rw [State.assignNext_last _ _ _ (by rw [State.chainSeen_tail, ht]), State.chainSeen_addr]
    · obtain ⟨o, ho⟩ := s.chainSeen.assignNext_only h (a + 1)
      rw [ho]; rfl
  · obtain ⟨hmis, hint, haddr, htail, hquiet⟩ := s.chainSeen.mismatch_reports
    refine ⟨_, (good hc).trans (congrArg _ ((if_neg ha).trans (if_neg hn))), ?_, ?_, ?_, fun ht => ?_, ?_⟩
    · rw [State.rd_assignNext, haddr, State.chainSeen_addr]
    · rw [State.rd_assignNext, hmis]
    · rw [State.on, State.rd_assignNext]; exact hint
    · rw [State.assignNext_last _ _ _ (by rw [htail, State.chainSeen_tail, ht]), haddr, State.chainSeen_addr]
    · obtain ⟨o, ho⟩ := ((s.chainSeen.wr CHN_ADDR.MISMATCH 1).raise CHN_INT_STATUS.MISMATCH).assignNext_only h (a + 1)
      rw [ho, hquiet]; rfl
  · obtain ⟨hcount, hup, hout, honly⟩ := s.chainError_counts
    exact ⟨s.chainError, congrArg Host.Outcome.next (s.chainIn_bad h _ hp hc), hcount, hup, hout, honly⟩

end Sys2Proof.Machine
end

section
/-! PROOFS. The commands of the management chain (R32, R37, R38, R406, R408, R463). -/

namespace Sys2Proof.Machine

/-! ## A good frame, repeated, counted and served (R32, R406, R463) -/

section
variable (s : State) (h : ChainHdr) (cmd : Nat) (p : List Byte)

/-- What a module that is not the tail repeats of a frame (log entry 161). -/
def State.repeats : List Out :=
  if s.on CHN_LINK.TAIL then [] else [.chain h.dest.toNat h.src.toNat cmd h.tag.toNat p]

theorem State.chainRepeat_eq : s.chainRepeat h cmd p = { s with out := s.out ++ s.repeats h cmd p } := by
  unfold State.chainRepeat State.repeats
  split
  · rw [List.append_nil]
  · rfl

/-- A good frame that is not for this module is repeated. -/
def State.framePassed : State := { s.wr CHN_LINK.UPSTREAM 1 with out := s.out ++ s.repeats h cmd p }

/-- A good frame for this module is repeated and counted. -/
def State.frameTaken : State := { s.chainSeen with out := s.out ++ s.repeats h cmd p }

theorem State.framePassed_eq : s.framePassed h cmd p = (s.wr CHN_LINK.UPSTREAM 1).chainRepeat h cmd p := by
  have htail : (s.wr CHN_LINK.UPSTREAM 1).on CHN_LINK.TAIL = s.on CHN_LINK.TAIL :=
    State.on_sameRegs _ _ _ (s.sameRegs_wr CHN_LINK.UPSTREAM 1 0 0 0) _ 0 0 (by decide)
  rw [State.chainRepeat_eq, State.repeats, htail]
  rfl

theorem State.frameTaken_eq :
    s.frameTaken h cmd p = ((s.wr CHN_LINK.UPSTREAM 1).chainRepeat h cmd p).bump CHN_FRAMES.COUNT 1 := by
  rw [← s.framePassed_eq]; rfl

theorem State.chainMine_iff (all : Bool) : s.chainMine h all = true
    ↔ (h.dest.toNat = 0 ∧ all = true) ∨ (h.dest.toNat ≠ 0 ∧ h.dest.toNat = s.rd CHN_ADDR.ADDR) := by
  simp [State.chainMine]

theorem State.chainMine_passed (all : Bool) : (s.framePassed h cmd p).chainMine h all = s.chainMine h all := by
  have haddr : (s.framePassed h cmd p).rd CHN_ADDR.ADDR = s.rd CHN_ADDR.ADDR :=
    s.rd_wr_ne CHN_LINK.UPSTREAM CHN_ADDR.ADDR 1 0 0 0 0 0 0 (by decide)
  simp only [State.chainMine, haddr]

theorem State.chainMine_taken (all : Bool) : (s.frameTaken h cmd p).chainMine h all = s.chainMine h all := by
  have haddr : (s.frameTaken h cmd p).rd CHN_ADDR.ADDR = s.rd CHN_ADDR.ADDR := s.chainSeen_addr
  simp only [State.chainMine, haddr]

/-- Whether the module serves a command of a frame: the firmware serves each, the ROM some (R463). -/
def State.serves (all rom : Bool) : Bool :=
  s.chainMine h all && (s.board.boot == .running || (rom && s.board.boot == .romOnly))

/-- A good frame: passed on, and counted and served where it names this module. -/
theorem State.chainFor_good (all rom : Bool) (f : State → State) (hp : s.board.powered = true) (hc : h.crcOk = true) :
    s.chainFor h cmd p all rom f = if s.chainMine h true then
      (if s.serves h all rom then f (s.frameTaken h cmd p) else s.frameTaken h cmd p) else s.framePassed h cmd p := by
  unfold State.chainFor
  rw [s.chainIn_good h _ hp hc, ← s.framePassed_eq]
  change (if ¬ (s.framePassed h cmd p).chainMine h true = true then s.framePassed h cmd p
    else if ((s.frameTaken h cmd p).chainMine h all && (s.board.boot == .running || (rom && s.board.boot == .romOnly))) = true
      then f (s.frameTaken h cmd p) else s.frameTaken h cmd p) = _
  rw [s.chainMine_passed, s.chainMine_taken, ite_not]
  rfl

theorem State.chainMine_weaken (all : Bool) (hm : s.chainMine h all = true) : s.chainMine h true = true := by
  rw [s.chainMine_iff] at hm ⊢
  exact hm.imp_left fun hd => ⟨hd.1, rfl⟩

theorem State.chainFor_served (all rom : Bool) (f : State → State) (hp : s.board.powered = true) (hc : h.crcOk = true)
    (hs : s.serves h all rom = true) : s.chainFor h cmd p all rom f = f (s.frameTaken h cmd p) := by
  have hm := s.chainMine_weaken h all (Bool.and_elim_left hs)
  rw [s.chainFor_good h cmd p all rom f hp hc, if_pos hm, if_pos hs]

/-- The module's answer to a frame that was not sent to every module. -/
def State.answers (cmd : Nat) (p : List Byte) : List Out :=
  if h.dest.toNat = 0 then [] else [.chain h.src.toNat (s.rd CHN_ADDR.ADDR) cmd h.tag.toNat p]

theorem State.chainAnswer_eq : s.chainAnswer h cmd p = { s with out := s.out ++ s.answers h cmd p } := by
  unfold State.chainAnswer State.answers
  split
  · rw [List.append_nil]
  · rfl

/-- A served frame that is answered: it goes on, it is counted once, and the answer follows. -/
theorem State.taken_answered (u : State) (q : List Byte) (hregs : u.regs = s.chainSeen.regs)
    (hout : u.out = s.out ++ s.repeats h cmd q) :
    (u.chainAnswer h cmd p).out = s.out ++ s.repeats h cmd q ++ s.answers h cmd p
      ∧ s.counted1 (u.chainAnswer h cmd p) CHN_FRAMES.COUNT 1 0 := by
  have haddr : u.rd CHN_ADDR.ADDR = s.rd CHN_ADDR.ADDR := (congrArg (getK _ · _) hregs).trans s.chainSeen_addr
  have hans : u.answers h cmd p = s.answers h cmd p := by simp only [State.answers, haddr]
  rw [u.chainAnswer_eq, hans, hout]
  exact ⟨rfl, (congrArg (getK _ · _) hregs).trans s.chainSeen_counts⟩

/-- A frame that was served and answered: it went on, was counted once, and the answer followed. -/
def State.chainTold (t : State) (q p : List Byte) : Prop :=
  t.out = s.out ++ s.repeats h cmd q ++ s.answers h cmd p ∧ s.counted1 t CHN_FRAMES.COUNT 1 0

/-- A frame that is not served: it goes on, it is counted where it names this module, and no more. -/
theorem State.chainFor_rests (all rom : Bool) (f : State → State) (hp : s.board.powered = true) (hc : h.crcOk = true)
    (hs : s.serves h all rom = false) :
    let t := s.chainFor h cmd p all rom f
    t.out = s.out ++ s.repeats h cmd p ∧ s.counted1 t CHN_FRAMES.COUNT (if s.chainMine h true then 1 else 0) 0
      ∧ t = { s with regs := t.regs, out := t.out } := by
  have hno : ¬ s.serves h all rom = true := Bool.eq_false_iff.1 hs
  rw [s.chainFor_good h cmd p all rom f hp hc, if_neg hno]
  by_cases hm : s.chainMine h true = true
  · simp only [hm, if_true]
    exact ⟨rfl, s.chainSeen_counts, rfl⟩
  · simp only [hm, if_false, Bool.false_eq_true]
    exact ⟨rfl, s.rd_wr_ne CHN_LINK.UPSTREAM CHN_FRAMES.COUNT 1 0 0 0 0 0 0 (by decide), rfl⟩

/-- A frame with a bad CRC, whatever its command (R406). -/
theorem State.chainFor_bad (all rom : Bool) (f : State → State) (hp : s.board.powered = true) (hc : h.crcOk = false) :
    let t := s.chainFor h cmd p all rom f
    s.counted1 t CHN_LINK.ERRORS 1 0 ∧ t.out = s.out ∧ t = { s with regs := t.regs, board := t.board } := by
  unfold State.chainFor
  rw [s.chainIn_bad h _ hp hc]
  obtain ⟨hcount, _, hout, honly⟩ := s.chainError_counts
  exact ⟨hcount, hout, honly⟩

end

/-! ## TELEMETRY and IDENTIFY (R39, R408) -/

section
variable (s : State) (h : ChainHdr) (hp : s.board.powered = true) (hc : h.crcOk = true)

/-- What TELEMETRY tells lies outside the chain's registers. -/
theorem State.frameTaken_telemetry (cmd : Nat) (p : List Byte) : (s.frameTaken h cmd p).telemetry = s.telemetry := by
  have tj (d : Nat) : s.chainSeen.rd PWR_TEMP.TJ 0 0 d = s.rd PWR_TEMP.TJ 0 0 d :=
    s.rd_sameRegs _ _ s.chainSeen_regs _ 0 0 d (by
      simp only [List.mem_cons, List.not_mem_nil, or_false, Fld.key, Fld.addr, PWR_TEMP.TJ, CHN_LINK.UPSTREAM,
        CHN_FRAMES.COUNT, Blk.base, Blk.stride]
      omega)
  change s.chainSeen.telemetry = s.telemetry
  simp only [State.telemetry, tj, s.rd_chainSeen PWR_INPUT.PIN (by decide), s.rd_chainSeen PWR_COOLANT.INLET (by decide),
    s.rd_chainSeen PWR_COOLANT.OUTLET (by decide), s.rd_chainSeen RAS_SERVICE.OUT (by decide),
    s.rd_chainSeen RAS_SERVICE.CAUSE (by decide), s.rd_chainSeen SEC_STATUS.FW_SVN (by decide)]

include hp hc

theorem exec_telemetry_served (hs : s.serves h false false = true) : ∃ t, exec (.telemetry h) s = .next t
    ∧ s.chainTold h 2 t [] ((List.range 128).map fun i => BitVec.ofNat 8 (Config.telemetryByte s.telemetry i))
    ∧ t = { s with regs := t.regs, out := t.out } := by
  refine ⟨_, congrArg Host.Outcome.next (s.chainFor_served h 2 [] false false _ hp hc hs), ?_, ?_⟩
  · rw [s.frameTaken_telemetry]
    exact s.taken_answered h 2 _ _ [] rfl rfl
  · rw [State.chainAnswer_eq]; rfl

theorem exec_identify_served (hs : s.serves h true false = true) (on : Bool) : ∃ t, exec (.identify h on) s = .next t
    ∧ t.board = { s.board with identify := on }
    ∧ s.chainTold h 3 t [BitVec.ofNat 8 (b2n on)] [BitVec.ofNat 8 stOK]
    ∧ t = { s with regs := t.regs, out := t.out, board := t.board } := by
  refine ⟨_, congrArg Host.Outcome.next (s.chainFor_served h 3 _ true false _ hp hc hs), ?_,
    s.taken_answered h 3 _ _ _ rfl rfl, ?_⟩
  · rw [State.chainStatus, State.chainAnswer_eq]; rfl
  · rw [State.chainStatus, State.chainAnswer_eq]; rfl

/-! ## STAGE (R35, R408) -/

theorem exec_stage_served (hs : s.serves h true true = true) (payload : List Byte) (hlen : 4 ≤ payload.length)
    (hfit : leNat (payload.take 4) + (payload.drop 4).length ≤ imageSize) : ∃ t, exec (.stage h payload) s = .next t
    ∧ t.flash = memWrite s.flash (stagingBase + leNat (payload.take 4)) (payload.drop 4)
    ∧ s.chainTold h 5 t payload [BitVec.ofNat 8 stOK]
    ∧ t = { s with regs := t.regs, out := t.out, flash := t.flash } := by
  have hno : ¬ (payload.length < 4 ∨ imageSize < leNat (payload.take 4) + (payload.drop 4).length) := by omega
  refine ⟨_, congrArg Host.Outcome.next ((s.chainFor_served h 5 payload true true _ hp hc hs).trans (if_neg hno)), ?_,
    s.taken_answered h 5 _ _ _ rfl rfl, ?_⟩
  · rw [State.chainStatus, State.chainAnswer_eq]; rfl
  · rw [State.chainStatus, State.chainAnswer_eq]; rfl

theorem exec_stage_refused (hs : s.serves h true true = true) (payload : List Byte)
    (hbad : payload.length < 4 ∨ imageSize < leNat (payload.take 4) + (payload.drop 4).length) :
    ∃ t, exec (.stage h payload) s = .next t ∧ s.chainTold h 5 t payload [BitVec.ofNat 8 stBadDescriptor]
      ∧ t = { s with regs := t.regs, out := t.out } := by
  refine ⟨_, congrArg Host.Outcome.next ((s.chainFor_served h 5 payload true true _ hp hc hs).trans (if_pos hbad)),
    s.taken_answered h 5 _ _ _ rfl rfl, ?_⟩
  rw [State.chainStatus, State.chainAnswer_eq]; rfl

end

/-! ## ACTIVATE (R37, R408) -/

/-- Whether a flash region holds an image that verifies is for the flash and the trust state to say. -/
theorem State.fwImage_congr (s t : State) (hf : t.flash = s.flash) (ht : t.trust = s.trust) (base : Nat) :
    t.fwImage base = s.fwImage base := by
  simp only [State.fwImage, hf, ht]

theorem foldl_memSet_flash (base : Nat) (l : List (Nat × Byte)) (s : State) :
    l.foldl (fun (s : State) e => { s with flash := memSet s.flash (base + e.1) e.2 }) s
      = { s with flash := l.foldl (fun m e => memSet m (base + e.1) e.2) s.flash } := by
  induction l generalizing s with
  | nil => rfl
  | cons e l ih => exact ih _

/-- Copying the staged image into an image region reads and writes the flash alone. -/
theorem State.copyImage_congr (s t : State) (hf : t.flash = s.flash) (b : Bool) (wrong : List (Nat × Byte)) :
    t.copyImage b wrong = { t with flash := (s.copyImage b wrong).flash } := by
  simp only [State.copyImage, foldl_memSet_flash, hf]

section
variable (s : State) (h : ChainHdr) (hp : s.board.powered = true) (hc : h.crcOk = true)

theorem State.frameTaken_fwImage (cmd : Nat) (p : List Byte) (base : Nat) :
    (s.frameTaken h cmd p).fwImage base = s.fwImage base := s.fwImage_congr _ rfl rfl base

include hp hc

theorem exec_activate_refused (hs : s.serves h true true = true) (wrong : List (Nat × Byte))
    (hbad : s.fwImage stagingBase = none) : ∃ t, exec (.activate h wrong) s = .next t
    ∧ s.chainTold h 6 t [] [BitVec.ofNat 8 stPlanSignature] ∧ t = { s with regs := t.regs, out := t.out } := by
  refine ⟨(s.frameTaken h 6 []).chainStatus h 6 stPlanSignature,
    congrArg Host.Outcome.next ((s.chainFor_served h 6 [] true true _ hp hc hs).trans ?_),
    s.taken_answered h 6 _ _ [] rfl rfl, ?_⟩
  · simp only [s.frameTaken_fwImage, hbad]
  · rw [State.chainStatus, State.chainAnswer_eq]; rfl

theorem exec_activate_served (hs : s.serves h true true = true) (wrong : List (Nat × Byte))
    (hgood : (s.fwImage stagingBase).isSome = true) : ∃ t, exec (.activate h wrong) s = .next t
    ∧ t.flash = (s.copyImage (!s.trust.selectB) wrong).flash ∧ t.out = s.out ++ s.repeats h 6 []
    ∧ t.board = { s.board with activating := some h } ∧ s.counted1 t CHN_FRAMES.COUNT 1 0
    ∧ t = { s with regs := t.regs, out := t.out, flash := t.flash, board := t.board } := by
  obtain ⟨i, hi⟩ := Option.isSome_iff_exists.1 hgood
  refine ⟨{ s.frameTaken h 6 [] with flash := (s.copyImage (!s.trust.selectB) wrong).flash
                                     board := { s.board with activating := some h } },
    congrArg Host.Outcome.next ((s.chainFor_served h 6 [] true true _ hp hc hs).trans ?_), rfl, rfl, rfl,
    s.chainSeen_counts, rfl⟩
  simp only [s.frameTaken_fwImage, hi]
  rw [s.copyImage_congr (s.frameTaken h 6 []) rfl]
  rfl

/-! ## MCTP and RESET (R406, R408, R443) -/

theorem exec_mctp_served (hs : s.serves h false true = true) (packet : List Byte) :
    ∃ t, exec (.mctp h packet) s = .next t ∧ t.host.mctp = s.host.mctp ++ [packet]
      ∧ s.chainTold h 7 t packet (mctpAnswer packet)
      ∧ t = { s with regs := t.regs, out := t.out, host := t.host, flash := t.flash, board := t.board }
      ∧ t.board = { s.board with identify := (Config.mctpIdentify (packet.map BitVec.toNat)).getD s.board.identify }
      ∧ t.flash = s.firmwarePiece packet := by
  refine ⟨_, congrArg Host.Outcome.next (s.chainFor_served h 7 packet false true _ hp hc hs), ?_,
    s.taken_answered h 7 _ _ _ rfl rfl, ?_, ?_, ?_⟩
  all_goals rw [State.chainAnswer_eq]
  all_goals rfl

/-- RESET that names no domain raises its interrupt and is refused. -/
theorem exec_reset_refused (hs : s.serves h false false = true) (which : Byte) (hno : chainDomain which = none) :
    ∃ t, exec (.reset h which) s = .next t ∧ t.on CHN_INT_STATUS.RESET_CMD = true ∧ s.quiet t := by
  refine ⟨((s.frameTaken h 4 [which]).raise CHN_INT_STATUS.RESET_CMD).chainStatus h 4 stBadDescriptor,
    congrArg Host.Outcome.next ((s.chainFor_served h 4 [which] false false _ hp hc hs).trans ?_), ?_, ?_⟩
  · simp only [hno]
  · rw [State.chainStatus, State.chainAnswer_eq]
    exact State.raise_on (s.frameTaken h 4 [which]) CHN_INT_STATUS.RESET_CMD 0 rfl
  · rw [State.chainStatus, State.chainAnswer_eq]
    obtain ⟨w, hw⟩ := (s.frameTaken h 4 [which]).raise_only CHN_INT_STATUS.RESET_CMD 0 1
    rw [hw]; rfl

/-- RESET raises its interrupt and answers before the reset that it names starts. -/
theorem exec_reset_served (hs : s.serves h false false = true) (which : Byte) (x : Nat × Nat)
    (hx : chainDomain which = some x) : exec (.reset h which) s
      = .next ((((s.frameTaken h 4 [which]).raise CHN_INT_STATUS.RESET_CMD).chainStatus h 4 stOK).startReset x 4 stOK) := by
  refine congrArg Host.Outcome.next ((s.chainFor_served h 4 [which] false false _ hp hc hs).trans ?_)
  simp only [hx]

end

end Sys2Proof.Machine
end

section
/-! PROOFS. What the part's own work leaves of the module: its trust state, its terminals, its flash and the commands that
wait; and what it has sent stays sent. Registers, interrupts, RAS events and the harts. -/

namespace Sys2Proof.Machine

/-- The module's trust state, terminals, flash and queue stand, and the messages sent before are still there. -/
structure State.moduleKept (s t : State) : Prop where
  trust : t.trust = s.trust
  board : t.board = s.board
  flash : t.flash = s.flash
  queue : t.pending = s.pending
  sent : s.out <+: t.out

section
variable {s t u : State}

theorem State.moduleKept.refl (s : State) : s.moduleKept s := ⟨rfl, rfl, rfl, rfl, List.prefix_rfl⟩

theorem State.moduleKept.trans (h : s.moduleKept t) (g : t.moduleKept u) : s.moduleKept u :=
  ⟨g.trust.trans h.trust, g.board.trans h.board, g.flash.trans h.flash, g.queue.trans h.queue, h.sent.trans g.sent⟩

theorem State.moduleKept.ite {c : Prop} [Decidable c] (h : s.moduleKept t) (g : s.moduleKept u) :
    s.moduleKept (if c then t else u) := by
  split
  · exact h
  · exact g

/-- Each step of a list of updates keeps the module, so the list does. -/
theorem foldl_moduleKept {β : Type} (g : State → β → State) (h : ∀ (s : State) x, s.moduleKept (g s x)) (l : List β)
    (s : State) : s.moduleKept (l.foldl g s) :=
  foldl_rel State.moduleKept .refl (fun _ _ _ => .trans) g l (fun s x _ => h s x) s

/-- The same for a list of updates of a state and what comes with it. -/
theorem foldl_moduleKept_of {α β : Type} (π : α → State) (g : α → β → α) (h : ∀ a x, (π a).moduleKept (π (g a x)))
    (l : List β) (a : α) : (π a).moduleKept (π (l.foldl g a)) := by
  induction l generalizing a with
  | nil => exact .refl _
  | cons x l ih => exact (h a x).trans (ih (g a x))

end

section
variable (s : State)

/-! ## Registers and interrupts -/

theorem State.wr_moduleKept (f : Fld) (v i j r : Nat) : s.moduleKept (s.wr f v i j r) :=
  ⟨rfl, rfl, rfl, rfl, List.prefix_rfl⟩

theorem State.bump_moduleKept (f : Fld) (n i j : Nat) : s.moduleKept (s.bump f n i j) := s.wr_moduleKept f _ i j 0

theorem State.send_moduleKept (o : Out) : s.moduleKept (s.send o) := ⟨rfl, rfl, rfl, rfl, List.prefix_append _ _⟩

theorem State.imsicSet_moduleKept (f i : Nat) : s.moduleKept (s.imsicSet f i) :=
  .ite (.refl s) ⟨rfl, rfl, rfl, rfl, List.prefix_rfl⟩

theorem State.setAplicPending_moduleKept (d i : Nat) (b : Bool) : s.moduleKept (s.setAplicPending d i b) :=
  ⟨rfl, rfl, rfl, rfl, List.prefix_rfl⟩

theorem State.aplicForward_moduleKept (d i : Nat) : s.moduleKept (s.aplicForward d i) := by
  have h := s.setAplicPending_moduleKept d i false
  exact .ite (.ite h (h.trans (State.imsicSet_moduleKept _ _ _))) (.refl s)

theorem State.rectified_moduleKept (i : Nat) (up : Bool) : s.moduleKept (s.rectified i up) :=
  .ite ((s.setAplicPending_moduleKept _ _ _).trans (State.aplicForward_moduleKept _ _ _))
    (.ite (s.setAplicPending_moduleKept _ _ _) (.refl s))

theorem State.aplicInput_moduleKept (i : Nat) (up : Bool) : s.moduleKept (s.aplicInput i up) := by
  unfold State.aplicInput
  split
  · exact s.rectified_moduleKept i up
  · exact s.rectified_moduleKept i up
  · exact s.rectified_moduleKept i !up
  · exact s.rectified_moduleKept i !up
  · exact .refl s

theorem State.msix_moduleKept (f v : Nat) : s.moduleKept (s.msix f v) :=
  .ite (.refl s) (.ite (.ite (.refl s) ⟨rfl, rfl, rfl, rfl, List.prefix_rfl⟩) (s.send_moduleKept _))

theorem State.sourceRise_moduleKept (i : Nat) : s.moduleKept (s.sourceRise i) :=
  .trans (.ite (s.msix_moduleKept _ _) (.refl s)) (State.aplicInput_moduleKept _ i true)

theorem State.followSources_moduleKept (before : State) (b : Blk) (i : Nat) : s.moduleKept (s.followSources before b i) :=
  foldl_moduleKept _ (fun s x => .ite (s.sourceRise_moduleKept x) (.ite (s.aplicInput_moduleKept x false) (.refl s))) _ s

theorem State.raise_moduleKept (st : Fld) (i mask : Nat) : s.moduleKept (s.raise st i mask) :=
  (s.wr_moduleKept st _ i 0 0).trans (State.followSources_moduleKept _ s st.blk i)

theorem State.ras_moduleKept (r : Ras) : s.moduleKept { s with ras := r } := ⟨rfl, rfl, rfl, rfl, List.prefix_rfl⟩

theorem State.rasEvent_moduleKept (status block unit loc : Nat) (kind : RasKind) (detail : Nat) :
    s.moduleKept (s.rasEvent status block unit loc kind detail) := by
  unfold State.rasEvent
  extract_lets corrDue logged r full ras0 ras s1 s2 s3 s4
  have h1 : s.moduleKept s1 := s.ras_moduleKept ras
  have h2 : s1.moduleKept s2 := .ite ((s1.bump_moduleKept _ _ _ _).trans (State.raise_moduleKept _ _ _ _)) (.refl s1)
  have h3 : s2.moduleKept s3 := s2.raise_moduleKept _ _ _
  have h4 : s3.moduleKept s4 := .ite (s3.raise_moduleKept _ _ _) (.refl s3)
  exact (((h1.trans h2).trans h3).trans h4).trans (.ite (s4.raise_moduleKept _ _ _) (.refl s4))

/-! ## The harts' counters -/

theorem State.cores_moduleKept (w : Cores) : s.moduleKept { s with cores := w } := ⟨rfl, rfl, rfl, rfl, List.prefix_rfl⟩

theorem State.setCore_moduleKept (h : Nat) (f : Core → Core) : s.moduleKept (s.setCore h f) :=
  s.cores_moduleKept _

theorem State.setHpm_moduleKept (h n v : Nat) : s.moduleKept (s.setHpm h n v) := s.cores_moduleKept _

theorem State.hpmAdd_moduleKept (h n k : Nat) : s.moduleKept (s.hpmAdd h n k) := by
  unfold State.hpmAdd
  extract_lets v e s1 s2 x
  have h1 : s.moduleKept s1 := s.setHpm_moduleKept h n v
  exact .ite (.refl s) (.ite ((h1.trans (s1.setHpm_moduleKept _ _ _)).trans (s2.cores_moduleKept _)) h1)

theorem State.hpmEvent_moduleKept (h ev k : Nat) : s.moduleKept (s.hpmEvent h ev k) :=
  foldl_moduleKept _ (fun s _ => .ite (s.hpmAdd_moduleKept _ _ _) (.refl s)) _ s

theorem State.tickCore_moduleKept (h : Nat) : s.moduleKept (s.tickCore h) := by
  have dog (t : State) : t.moduleKept (t.tickDog h) := .ite (t.cores_moduleKept _) (.refl t)
  have event (t : State) (c : Prop) [Decidable c] (ev n : Nat) : t.moduleKept (if c then t.hpmEvent h ev n else t) :=
    .ite (t.hpmEvent_moduleKept h ev n) (.refl t)
  have run : s.moduleKept (if (getK Core.held s.cores.core h).power = 0 then s.tickDog h else s) := .ite (dog s) (.refl s)
  exact .ite (((run.trans (State.hpmAdd_moduleKept _ _ _ _)).trans (event _ _ _ _)).trans (event _ _ _ _)) (.refl s)

end

end Sys2Proof.Machine
end

section
/-! PROOFS. What the memory side and the homes leave of the module (R274 to R330). -/

namespace Sys2Proof.Machine

section
variable (s : State)

/-! ## Memory, its tables, the coherent domain -/

theorem State.mem_moduleKept (w : MemSys) : s.moduleKept { s with mem := w } := ⟨rfl, rfl, rfl, rfl, List.prefix_rfl⟩

theorem State.setCoh_moduleKept (f : Coh → Coh) : s.moduleKept (s.setCoh f) := ⟨rfl, rfl, rfl, rfl, List.prefix_rfl⟩

theorem State.post_moduleKept (m : Msg) : s.moduleKept (s.post m) := s.setCoh_moduleKept _

theorem State.take_moduleKept (m : Msg) : s.moduleKept (s.take m) := s.setCoh_moduleKept _

theorem State.setPoison_moduleKept (line : Nat) (b : Bool) : s.moduleKept (s.setPoison line b) :=
  ⟨rfl, rfl, rfl, rfl, List.prefix_rfl⟩

theorem State.putLine_moduleKept (line : Nat) (data : List Byte) (p : Bool) : s.moduleKept (s.putLine line data p) :=
  ⟨rfl, rfl, rfl, rfl, List.prefix_rfl⟩

theorem State.setErr_moduleKept (line v : Nat) : s.moduleKept (s.setErr line v) := s.mem_moduleKept _

theorem State.setSc_moduleKept (m : SMap ScLine) : s.moduleKept (s.setSc m) := s.mem_moduleKept _

theorem State.stamped_moduleKept : s.moduleKept s.stamped := s.mem_moduleKept _

theorem State.wakePc_moduleKept (pc : Nat) : s.moduleKept (s.wakePc pc) := s.mem_moduleKept _

theorem State.scPut_moduleKept (hub set way : Nat) (l : ScLine) : s.moduleKept (s.scPut hub set way l) :=
  s.setSc_moduleKept _

theorem State.charge_moduleKept (line p : Nat) : s.moduleKept (s.charge line p) :=
  .ite (.refl s) ((s.bump_moduleKept _ _ _ _).trans (State.mem_moduleKept _ _))

/-! ## HBM (R311, R314) -/

theorem State.hbmUncorr_moduleKept (line : Nat) : s.moduleKept (s.hbmUncorr line) := by
  unfold State.hbmUncorr
  extract_lets p n s1 s2 s3
  have h1 : s.moduleKept s1 := (s.bump_moduleKept _ _ _ _).trans (State.wr_moduleKept _ _ _ _ _ _)
  have h2 : s1.moduleKept s2 := ((s1.wr_moduleKept _ _ _ _ _).trans (State.wr_moduleKept _ _ _ _ _ _)).trans
    (State.wr_moduleKept _ _ _ _ _ _)
  have h3 : s2.moduleKept s3 := (s2.wr_moduleKept _ _ _ _ _).trans (State.raise_moduleKept _ _ _ _)
  exact ((h1.trans h2).trans h3).trans (.ite ⟨rfl, rfl, rfl, rfl, List.prefix_rfl⟩ (.refl s3))

theorem State.hbmRead_moduleKept (line upset : Nat) : s.moduleKept (s.hbmRead line upset).st := by
  unfold State.hbmRead
  split
  · exact .refl s
  · extract_lets e n s1 s2
    have h1 : s.moduleKept s1 := s.wakePc_moduleKept _
    split
    · exact (h1.trans (s1.setErr_moduleKept line 2)).trans (State.hbmUncorr_moduleKept _ line)
    · exact h1.trans (.ite ((s1.setErr_moduleKept line 0).trans (State.bump_moduleKept _ _ _ _ _)) (.refl s1))

theorem State.hbmStore_moduleKept (line : Nat) : s.moduleKept (s.hbmStore line) :=
  .ite (s.rasEvent_moduleKept _ _ _ _ _ _) ((s.wakePc_moduleKept _).trans (State.setErr_moduleKept _ _ _))

/-! ## The system caches (R321 to R330) -/

theorem State.wayDisabled_moduleKept (hub way : Nat) : s.moduleKept (s.wayDisabled hub way) := by
  unfold State.wayDisabled
  extract_lets s1 s2 k m s3
  have h1 : s.moduleKept s1 := s.wr_moduleKept _ _ _ _ _
  have h2 : s1.moduleKept s2 := s1.wr_moduleKept _ _ _ _ _
  have h3 : s2.moduleKept s3 := s2.mem_moduleKept _
  exact ((h1.trans h2).trans h3).trans ((s3.raise_moduleKept _ _ _).trans (State.rasEvent_moduleKept _ _ _ _ _ _ _))

theorem State.disableWay_moduleKept (hub way : Nat) : s.moduleKept (s.disableWay hub way) :=
  .ite (s.wayDisabled_moduleKept hub way) (.ite (.refl s) ((s.wr_moduleKept _ _ _ _ _).trans (State.mem_moduleKept _ _)))

theorem State.scCorrected_moduleKept (hub way : Nat) : s.moduleKept (s.scCorrected hub way) := by
  unfold State.scCorrected
  extract_lets s1 k times m s2 th
  have h1 : s.moduleKept s1 := s.bump_moduleKept _ _ _ _
  have h2 : s1.moduleKept s2 := s1.mem_moduleKept _
  exact (h1.trans h2).trans (.ite (s2.disableWay_moduleKept hub way) (.refl s2))

theorem State.scUncorrected_moduleKept (hub way : Nat) : s.moduleKept (s.scUncorrected hub way) := by
  unfold State.scUncorrected
  extract_lets k again m s1
  have h1 : s.moduleKept s1 := s.mem_moduleKept _
  exact h1.trans (.ite (s1.disableWay_moduleKept hub way) (.refl s1))

theorem State.scDirtyBad_moduleKept (hub way line : Nat) : s.moduleKept (s.scDirtyBad hub way line) := by
  unfold State.scDirtyBad
  extract_lets s1
  have h1 : s.moduleKept s1 := ((s.setPoison_moduleKept line true).trans (State.bump_moduleKept _ _ _ _ _)).trans
    (State.raise_moduleKept _ _ _ _)
  exact (h1.trans (s1.hbmStore_moduleKept line)).trans (State.scUncorrected_moduleKept _ hub way)

theorem State.scWriteBack_moduleKept (hub way line : Nat) : s.moduleKept (s.scWriteBack hub way line) := by
  unfold State.scWriteBack
  split
  · exact s.hbmStore_moduleKept line
  · exact (s.scCorrected_moduleKept hub way).trans (State.hbmStore_moduleKept _ line)
  · exact s.scDirtyBad_moduleKept hub way line

theorem State.scEvict_moduleKept (hub set way : Nat) : s.moduleKept (s.scEvict hub set way) := by
  unfold State.scEvict
  split
  · exact .refl s
  · exact .trans (.ite (s.scWriteBack_moduleKept hub way _) (.refl s)) (State.setSc_moduleKept _ _)

theorem State.scInstall_moduleKept (line way : Nat) (dirty pf : Bool) : s.moduleKept (s.scInstall line way dirty pf) := by
  unfold State.scInstall
  extract_lets hub set s1 through s2
  have h1 : s.moduleKept s1 := (s.scEvict_moduleKept hub set way).trans (State.stamped_moduleKept _)
  have h2 : s1.moduleKept s2 := .ite (s1.hbmStore_moduleKept line) (.refl s1)
  exact .ite (.ite (s.hbmStore_moduleKept line) (.refl s)) ((h1.trans h2).trans (s2.scPut_moduleKept _ _ _ _))

theorem State.prefetchLine_moduleKept (hub part line : Nat) : s.moduleKept (s.prefetchLine hub part line) := by
  unfold State.prefetchLine
  extract_lets set ws age r s1
  clear_value ws
  split
  · exact .refl s
  · split
    · exact .refl s
    · have hr : s.moduleKept r.st := (s.charge_moduleKept line part).trans (State.hbmRead_moduleKept _ line 0)
      have h1 : r.st.moduleKept s1 := .ite (r.st.setPoison_moduleKept line true) (.refl r.st)
      exact ((hr.trans h1).trans (s1.scInstall_moduleKept line _ false true)).trans (State.bump_moduleKept _ _ _ _ _)

theorem State.train_moduleKept (stream part line : Nat) : s.moduleKept (s.train stream part line) := by
  unfold State.train
  refine .ite (.refl s) (foldl_moduleKept _ (fun s hub => ?_) _ s)
  refine .ite ?_ (.refl s)
  extract_lets s1 ts mine r others oldest others' m s2
  have h1 : s.moduleKept s1 := s.stamped_moduleKept
  have h2 : s1.moduleKept s2 := s1.mem_moduleKept _
  exact (h1.trans h2).trans (.ite (foldl_moduleKept _
    (fun s k => .ite (s.prefetchLine_moduleKept hub part _) (.refl s)) _ s2) (.refl s2))

theorem State.scMiss_moduleKept (line stream part : Nat) : s.moduleKept (s.scMiss line stream part).st :=
  (s.bump_moduleKept _ _ _ _).trans (State.train_moduleKept _ stream part line)

theorem State.scHit_moduleKept (line way : Nat) (l : ScLine) : s.moduleKept (s.scHit line way l).st := by
  unfold State.scHit
  extract_lets hub s1 s2
  have h1 : s.moduleKept s1 := (s.bump_moduleKept _ _ _ _).trans (State.stamped_moduleKept _)
  have h2 : s1.moduleKept s2 := .ite (s1.bump_moduleKept _ _ _ _) (.refl s1)
  exact (h1.trans h2).trans (s2.scPut_moduleKept _ _ _ _)

theorem State.scLookup_moduleKept (line stream part : Nat) (err : Option Nat) :
    s.moduleKept (s.scLookup line stream part err).st := by
  unfold State.scLookup
  extract_lets hub again
  have hagain (t : State) : t.moduleKept (again t).st := by
    simp only [again]
    split
    · exact t.scHit_moduleKept line _ _
    · exact t.scMiss_moduleKept line stream part
  split
  · exact s.scMiss_moduleKept line stream part
  · split
    · exact s.scHit_moduleKept line _ _
    · exact (s.scCorrected_moduleKept hub _).trans (hagain _)
    · split
      · exact ((s.scPut_moduleKept _ _ _ _).trans (State.scDirtyBad_moduleKept _ hub _ line)).trans (hagain _)
      · exact (((s.setSc_moduleKept _).trans (State.bump_moduleKept _ _ _ _ _)).trans
          (State.scUncorrected_moduleKept _ hub _)).trans (State.scMiss_moduleKept _ line stream part)

/-! ## A home's reads and writes of HBM lines -/

theorem State.homeFetch_moduleKept (line stream part upset : Nat) (way : Option Nat) :
    s.moduleKept (s.homeFetch line stream part upset way).st := by
  unfold State.homeFetch
  split
  · exact .refl s
  · split
    · exact .refl s
    · extract_lets r
      have hr : s.moduleKept r.st := (s.charge_moduleKept line part).trans (State.hbmRead_moduleKept _ line upset)
      split
      · exact hr
      · exact (hr.trans (.ite (r.st.setPoison_moduleKept line true) (.refl r.st))).trans
          (State.scInstall_moduleKept _ line _ false false)

theorem State.homeWrite_moduleKept (line stream part : Nat) (data : List Byte) (poison : Bool) :
    s.moduleKept (s.homeWrite line stream part data poison) := by
  unfold State.homeWrite
  extract_lets hub set s1
  have h1 : s.moduleKept s1 := s.putLine_moduleKept line data poison
  have store : s1.moduleKept ((s1.charge line part).hbmStore line) :=
    (s1.charge_moduleKept line part).trans (State.hbmStore_moduleKept _ line)
  refine .ite (s.rasEvent_moduleKept _ _ _ _ _ _) (h1.trans (.ite (.refl s1) ?_))
  split
  · refine (s1.stamped_moduleKept).trans (.ite ?_ (State.scPut_moduleKept _ _ _ _ _))
    exact ((State.charge_moduleKept _ line part).trans (State.hbmStore_moduleKept _ line)).trans
      (State.scPut_moduleKept _ _ _ _ _)
  · split
    · exact s1.scInstall_moduleKept line _ true false
    · exact store

/-! ## The homes' tables and snoops (R285 to R303) -/

theorem State.dirStats_moduleKept (n : Nat) : s.moduleKept (s.dirStats n) := by
  unfold State.dirStats
  extract_lets mine busy s1
  have h1 : s.moduleKept s1 := (s.wr_moduleKept _ _ _ _ _).trans (State.wr_moduleKept _ _ _ _ _ _)
  exact h1.trans (.ite (s1.wr_moduleKept _ _ _ _ _) (.refl s1))

theorem State.setEntry_moduleKept (k : Nat) (e : Option DirEnt) : s.moduleKept (s.setEntry k e) :=
  (s.setCoh_moduleKept _).trans (State.dirStats_moduleKept _ _)

theorem State.setTxn_moduleKept (k : Nat) (t : Txn) : s.moduleKept (s.setTxn k t) :=
  (s.setCoh_moduleKept _).trans (State.dirStats_moduleKept _ _)

theorem State.snoopAgent_moduleKept (k : Nat) (p : Nat × SnpKind) : s.moduleKept (s.snoopAgent k p) :=
  .ite ((s.bump_moduleKept _ _ _ _).trans (State.setCoh_moduleKept _ _))
    ((s.bump_moduleKept _ _ _ _).trans (State.setCoh_moduleKept _ _))

theorem State.snoopAll_moduleKept (k : Nat) (t : Txn) (l : List (Nat × SnpKind)) : s.moduleKept (s.snoopAll k t l) := by
  unfold State.snoopAll
  extract_lets l' s1 who early puts t' s2
  have h1 : s.moduleKept s1 := foldl_moduleKept _ (fun s p => s.snoopAgent_moduleKept k p) _ s
  have h2 : s1.moduleKept s2 := .ite (.refl s1) ((s1.bump_moduleKept _ _ _ _).trans (State.setCoh_moduleKept _ _))
  exact (h1.trans h2).trans (s2.setTxn_moduleKept k t')

theorem State.putHostLine_moduleKept (k : Nat) (data : List Byte) (p : Bool) : s.moduleKept (s.putHostLine k data p) :=
  ⟨rfl, rfl, rfl, rfl, List.prefix_rfl⟩

theorem State.homeStore_moduleKept (k stream : Nat) (data : List Byte) (p : Bool) :
    s.moduleKept (s.homeStore k stream data p) :=
  .ite ((s.putHostLine_moduleKept k data p).trans (State.setCoh_moduleKept _ _)) (s.homeWrite_moduleKept _ _ _ _ _)

theorem State.giveBack_moduleKept (k : Nat) : s.moduleKept (s.giveBack k) :=
  .ite (.ite (.refl s) ((s.setCoh_moduleKept _).trans (State.setCoh_moduleKept _ _))) (.refl s)

theorem State.leaveEntry_moduleKept (k : Nat) (e : DirEnt) : s.moduleKept (s.leaveEntry k e) :=
  .ite ((s.setEntry_moduleKept k none).trans (State.giveBack_moduleKept _ k)) (s.setEntry_moduleKept k (some e))

/-! ## The lines of the cores (R288) -/

theorem State.setLine_moduleKept (k a : Nat) (l : CLine) : s.moduleKept (s.setLine k a l) := s.setCoh_moduleKept _

theorem State.lineTaken_moduleKept (k h : Nat) : s.moduleKept (s.lineTaken k h) :=
  .trans (.ite (s.setCore_moduleKept h _) (.refl s)) (.ite (State.setCore_moduleKept _ h _) (.refl _))

theorem State.snooped_moduleKept (k h : Nat) (kind : SnpKind) : s.moduleKept (s.snooped k h kind).1 := by
  unfold State.snooped
  extract_lets l r s1 s2
  have h1 : s.moduleKept s1 := s.setLine_moduleKept k h _
  have h2 : s1.moduleKept s2 := by
    simp only [s2]
    split
    · exact s1.lineTaken_moduleKept k h
    · exact s1.lineTaken_moduleKept k h
    · exact .refl s1
  split
  · exact s.setLine_moduleKept k h _
  · exact h1.trans h2

theorem State.snoopNow_moduleKept (k h : Nat) (kind : SnpKind) : s.moduleKept (s.snoopNow k h kind).1 := by
  unfold State.snoopNow
  extract_lets s1 r
  have h1 : s.moduleKept s1 := (s.bump_moduleKept _ _ _ _).trans (State.hpmEvent_moduleKept _ h 6 1)
  have hr : s.moduleKept r.1 := h1.trans (s1.snooped_moduleKept k h kind)
  clear_value r
  split
  · exact hr
  · exact hr
  · split
    · exact ((hr.trans (r.1.take_moduleKept _)).trans (State.bump_moduleKept _ _ _ _ _)).trans (State.post_moduleKept _ _)
    · exact hr

/-! ## The engines' accesses (R274, R282, R284, R292) -/

theorem State.touchFar_moduleKept (k stream : Nat) : s.moduleKept (s.touchFar k stream) :=
  .ite (.refl s) ⟨rfl, rfl, rfl, rfl, List.prefix_rfl⟩

theorem State.engineInv_moduleKept (k stream : Nat) : s.moduleKept (s.engineInv k stream).1 := by
  unfold State.engineInv
  extract_lets s1
  have h1 : s.moduleKept s1 := s.touchFar_moduleKept k stream
  clear_value s1
  split
  · exact h1
  · extract_lets r
    have hr : s1.moduleKept r.1 := by
      simp only [r]
      generalize DirEnt.holders _ = l
      refine foldl_moduleKept_of Prod.fst _ ?_ l (s1, none)
      intro p a
      split
      · exact .refl p.1
      · dsimp only
        exact p.1.snoopNow_moduleKept k a .snpInv
    clear_value r
    exact (h1.trans hr).trans (r.1.setEntry_moduleKept k none)

/-- A line of memory as an engine reads it through the system cache. -/
theorem State.memRead_moduleKept (line stream part : Nat) :
    let l := s.scLookup line stream part none
    s.moduleKept (l.st.homeFetch line stream part 0 l.way).st :=
  (s.scLookup_moduleKept line stream part none).trans (State.homeFetch_moduleKept _ line stream part 0 _)

theorem State.engineMerge_moduleKept (k stream part : Nat) (full : Bool) (f : List Byte → List Byte) :
    s.moduleKept (s.engineMerge k stream part full f) := by
  unfold State.engineMerge
  extract_lets r l old
  have hr : s.moduleKept r.1 := s.engineInv_moduleKept k stream
  have hold : r.1.moduleKept old.st := by
    simp only [old]
    split
    · exact .refl r.1
    · exact r.1.memRead_moduleKept (keyAddr k) stream part
  clear_value r old
  exact .ite ((hr.trans (State.bump_moduleKept _ _ _ _ _)).trans (State.homeWrite_moduleKept _ _ _ _ _ _))
    ((hr.trans hold).trans (State.homeWrite_moduleKept _ _ _ _ _ _))

theorem State.engineRead_moduleKept (k stream part : Nat) : s.moduleKept (s.engineRead k stream part).st := by
  unfold State.engineRead
  extract_lets s1 mem
  have h1 : s.moduleKept s1 := (s.setCoh_moduleKept _).trans (State.touchFar_moduleKept _ k stream)
  have hmem (t : State) : t.moduleKept (mem t).st := t.memRead_moduleKept (keyAddr k) stream part
  refine h1.trans ?_
  clear_value mem s1
  split
  · split
    · split
      · exact hmem s1
      · extract_lets r st gone s2
        have h2 : s1.moduleKept s2 := s1.snoopNow_moduleKept k _ .snpCur
        refine h2.trans ?_
        clear_value r s2
        split
        · exact .ite (.trans (.ite (s2.homeStore_moduleKept k stream _ _) (.refl s2))
            (State.leaveEntry_moduleKept _ k _)) (.refl s2)
        · exact .trans (.ite (s2.leaveEntry_moduleKept k _) (.refl s2)) (hmem _)
    · exact hmem s1
  · exact hmem s1

theorem State.prepare_moduleKept (ks : List Nat) (write : Bool) : s.moduleKept (s.prepare ks write).1 := by
  unfold State.prepare
  split
  · exact .refl s
  · extract_lets held
    split
    · exact .refl s
    · exact foldl_moduleKept _ (fun s k => s.snoopAll_moduleKept k _ _) _ s

theorem State.rangeRead_moduleKept (addr n stream part : Nat) : s.moduleKept (s.rangeRead addr n stream part).st := by
  unfold State.rangeRead
  split
  · exact .refl s
  · refine foldl_moduleKept_of LineRead.st _ (fun p k => ?_) _ ⟨s, [], false⟩
    exact p.st.engineRead_moduleKept k stream part

theorem State.rangeWrite_moduleKept (stream part addr : Nat) (bytes : List Byte) :
    s.moduleKept (s.rangeWrite stream part addr bytes) := by
  unfold State.rangeWrite
  split
  · exact .refl s
  · refine foldl_moduleKept _ ?_ _ s
    exact fun t k => t.engineMerge_moduleKept k stream part _ _

end

end Sys2Proof.Machine
end

section
/-! PROOFS. What 10 ns leave of the module: the movers' read-ahead, the rings' records, the Cocoon site and the time bases
(R155, R156, R194, R357, R382), and the end of an activation (R37). -/

namespace Sys2Proof.Machine

section
variable (s : State)

/-! ## Scratchpads (R62, R71, R72) -/

theorem State.setClu_moduleKept (c : Nat) (f : Clu → Clu) : s.moduleKept (s.setClu c f) :=
  ⟨rfl, rfl, rfl, rfl, List.prefix_rfl⟩

theorem State.setBankPwr_moduleKept (c b v : Nat) : s.moduleKept (s.setBankPwr c b v) :=
  .ite (s.wr_moduleKept _ _ _ _ _) (s.wr_moduleKept _ _ _ _ _)

theorem State.allBanksOn_moduleKept (c : Nat) : s.moduleKept (s.allBanksOn c) :=
  (s.wr_moduleKept _ _ _ _ _).trans (foldl_moduleKept _ (fun s b => s.setBankPwr_moduleKept c b 0) _ _)

theorem State.cancelOff_moduleKept (c : Nat) : s.moduleKept (s.cancelOff c) :=
  .ite ((s.wr_moduleKept _ _ _ _ _).trans (State.allBanksOn_moduleKept _ c)) (.refl s)

theorem State.spadEvent_moduleKept (c off : Nat) : s.moduleKept (s.spadEvent c off) := s.rasEvent_moduleKept _ _ _ _ _ _

theorem State.countWake_moduleKept (c b : Nat) : s.moduleKept (s.countWake c b) :=
  ((s.bump_moduleKept _ _ _ _).trans (State.raise_moduleKept _ _ _ _)).trans (State.rasEvent_moduleKept _ _ _ _ _ _ _)

theorem State.execUpdate_moduleKept (k : Nat) : s.moduleKept (s.execUpdate k) := by
  unfold State.execUpdate
  extract_lets cl s1 s2 g old isIdle
  have h1 : s.moduleKept s1 := s.wr_moduleKept _ _ _ _ _
  have h2 : s1.moduleKept s2 := s1.wr_moduleKept _ _ _ _ _
  exact (h1.trans h2).trans (.ite (.refl s2) (.ite (.ite ((s2.wr_moduleKept _ _ _ _ _).trans
    (State.raise_moduleKept _ _ _ _)) (.refl s2)) (s2.wr_moduleKept _ _ _ _ _)))

theorem State.execFollow_moduleKept (c : Nat) : s.moduleKept (s.execFollow c) := by
  unfold State.execFollow
  split
  · exact s.execUpdate_moduleKept _
  · exact .refl s

theorem State.wakeCluster_moduleKept (c : Nat) : s.moduleKept (s.wakeCluster c) :=
  ((((s.wr_moduleKept _ _ _ _ _).trans (State.wr_moduleKept _ _ _ _ _ _)).trans (State.allBanksOn_moduleKept _ c)).trans
    ((State.bump_moduleKept _ _ _ _ _).trans (State.raise_moduleKept _ _ _ _))).trans (State.execFollow_moduleKept _ c)

theorem State.touchBank_moduleKept (c b : Nat) : s.moduleKept (s.touchBank c b) :=
  .ite ((s.wakeCluster_moduleKept c).trans (State.countWake_moduleKept _ c b))
    (.ite (((s.setBankPwr_moduleKept c b 0).trans (State.cancelOff_moduleKept _ c)).trans
      (State.countWake_moduleKept _ c b)) (.refl s))

theorem State.touch_moduleKept (c off n : Nat) : s.moduleKept (s.touch c off n) :=
  foldl_moduleKept _ (fun s _ => s.touchBank_moduleKept c _) _ s

theorem State.countCorrected_moduleKept (c off syn : Nat) : s.moduleKept (s.countCorrected c off syn) := by
  unfold State.countCorrected
  extract_lets s1 s2 th s3 row
  have h1 : s.moduleKept s1 := s.bump_moduleKept _ _ _ _
  have h2 : s1.moduleKept s2 := ((((s1.wr_moduleKept _ _ _ _ _).trans (State.wr_moduleKept _ _ _ _ _ _)).trans
    (State.wr_moduleKept _ _ _ _ _ _)).trans (State.wr_moduleKept _ _ _ _ _ _)).trans (State.wr_moduleKept _ _ _ _ _ _)
  have h3 : s2.moduleKept s3 := .ite (s2.raise_moduleKept _ _ _) (.refl s2)
  exact ((h1.trans h2).trans h3).trans (s3.setClu_moduleKept c _)

theorem State.readWords_moduleKept (c : Nat) (offs : List Nat) : s.moduleKept (s.readWords c offs).st := by
  induction offs generalizing s with
  | nil => exact .refl s
  | cons off rest ih =>
    unfold State.readWords
    extract_lets w s1 r
    have h1 : s.moduleKept s1 := by
      simp only [s1]
      split
      · exact s.countCorrected_moduleKept c off _
      · exact .refl s
    split
    · exact .refl s
    · exact h1.trans (ih s1)

theorem State.spadRead_moduleKept (c off n : Nat) : s.moduleKept (s.spadRead c off n).st := by
  unfold State.spadRead
  split
  · exact .refl s
  · exact (s.touch_moduleKept c off n).trans (State.readWords_moduleKept _ c _)

/-! ## Host memory (R348 to R350) -/

theorem State.host_moduleKept (w : HostPort) : s.moduleKept { s with host := w } := ⟨rfl, rfl, rfl, rfl, List.prefix_rfl⟩

theorem State.hostMem_moduleKept (w : List (Nat × Byte)) : s.moduleKept { s with hostMem := w } :=
  ⟨rfl, rfl, rfl, rfl, List.prefix_rfl⟩

theorem State.translated_moduleKept (func pasid addr n : Nat) : s.moduleKept (s.translated func pasid addr n) := by
  have page (t : State) (p : Nat) : t.moduleKept (t.pageIn func pasid p) := .ite (.refl t) (t.host_moduleKept _)
  exact .ite (foldl_moduleKept _ (fun t _ => page t _) _ s) (.refl s)

theorem State.hostRefuses_moduleKept (func pasid addr : Nat) : s.moduleKept (s.hostRefuses func pasid addr) :=
  (((s.wr_moduleKept _ _ _ _ _).trans (State.wr_moduleKept _ _ _ _ _ _)).trans (State.wr_moduleKept _ _ _ _ _ _)).trans
    (((State.wr_moduleKept _ _ _ _ _ _).trans (State.wr_moduleKept _ _ _ _ _ _)).trans (State.raise_moduleKept _ _ _ _))

theorem State.hostRead_moduleKept (func pasid addr n : Nat) : s.moduleKept (s.hostRead func pasid addr n).1 :=
  (s.translated_moduleKept func pasid addr n).trans (State.bump_moduleKept _ _ _ _ _)

theorem State.hostWrite_moduleKept (func pasid addr : Nat) (bytes : List Byte) :
    s.moduleKept (s.hostWrite func pasid addr bytes) :=
  ((s.translated_moduleKept func pasid addr _).trans (State.bump_moduleKept _ _ _ _ _)).trans
    (State.hostMem_moduleKept _ _)

/-! ## The movers read ahead (R194) -/

theorem State.setMover_moduleKept (c m : Nat) (f : Mover → Mover) : s.moduleKept (s.setMover c m f) :=
  s.setClu_moduleKept c _

theorem State.setMove_moduleKept (c m : Nat) (f : Move → Move) : s.moduleKept (s.setMove c m f) :=
  s.setMover_moduleKept c m _

theorem State.moveErr_moduleKept (c m st : Nat) : s.moduleKept (s.moveErr c m st) := s.setMove_moduleKept c m _

theorem State.readSource_moduleKept (c m : Nat) (v : Move) (sd : Side2) (off : Int) (n : Nat) (denied : Bool) :
    s.moduleKept (s.readSource c m v sd off n denied).1 := by
  cases sd with
  | spad d base =>
    simp only [State.readSource]
    split
    · exact .refl s
    · have h := s.spadRead_moduleKept d ((base : Int) + off).toNat n
      split
      · exact h.trans (State.spadEvent_moduleKept _ _ _)
      · exact h
  | hbm base =>
    simp only [State.readSource]
    have h := s.prepare_moduleKept (keysOf ((base : Int) + off).toNat n) false
    split
    · exact h
    · have hr := h.trans (State.rangeRead_moduleKept _ ((base : Int) + off).toNat n (moverStream c m)
        (s.partOf (moverStream c m)))
      split
      · exact hr
      · exact hr
  | host base =>
    simp only [State.readSource]
    split
    · exact .refl s
    · split
      · split
        · exact s.hostRefuses_moduleKept _ _ _
        · exact s.hostRefuses_moduleKept _ _ _
      · exact s.hostRead_moduleKept _ _ _ _
  | peer mod spad base => exact .refl s
  | none => exact .refl s

theorem State.readAheadUnit_moduleKept (c m k : Nat) : s.moduleKept (s.readAheadUnit c m k) := by
  unfold State.readAheadUnit
  split
  · exact .refl s
  · extract_lets dst r d u held rd
    have h : s.moduleKept rd.1 := s.readSource_moduleKept c m _ _ _ _ _
    clear_value rd
    split
    · exact .refl s
    · split
      · exact h
      · exact h.trans (rd.1.moveErr_moduleKept c m _)
      · exact h.trans (rd.1.setMove_moduleKept c m _)

theorem State.readAhead_moduleKept (c m : Nat) : s.moduleKept (s.readAhead c m) := by
  unfold State.readAhead
  split
  · exact .refl s
  · extract_lets isHbm units first
    exact .ite (.refl s) (foldl_moduleKept _ (fun s k => s.readAheadUnit_moduleKept c m _) _ s)

theorem State.tickMovers_moduleKept : s.moduleKept s.tickMovers :=
  foldl_moduleKept _ (fun s c => (s.readAhead_moduleKept c 0).trans (State.readAhead_moduleKept _ c 1)) _ s

/-! ## The rings' records (R357, R358, R360) -/

theorem State.setRing_moduleKept (r : Nat) (f : Ring → Ring) : s.moduleKept (s.setRing r f) := s.host_moduleKept _

theorem State.ringDisabled_moduleKept (r : Nat) : s.moduleKept (s.ringDisabled r) := by
  unfold State.ringDisabled
  extract_lets s1 s2
  have h1 : s.moduleKept s1 := ((s.wr_moduleKept _ _ _ _ _).trans (State.wr_moduleKept _ _ _ _ _ _)).trans
    (State.wr_moduleKept _ _ _ _ _ _)
  have h2 : s1.moduleKept s2 := ((s1.wr_moduleKept _ _ _ _ _).trans (State.wr_moduleKept _ _ _ _ _ _)).trans
    (State.wr_moduleKept _ _ _ _ _ _)
  exact (h1.trans h2).trans ((s2.wr_moduleKept _ _ _ _ _).trans (State.raise_moduleKept _ _ _ _))

theorem State.ringSettle_moduleKept (r : Nat) : s.moduleKept (s.ringSettle r) :=
  .ite (s.ringDisabled_moduleKept r) (.refl s)

theorem State.ringDue_moduleKept (r : Nat) : s.moduleKept (s.ringDue r) :=
  .ite (.refl s) (.ite (s.msix_moduleKept _ _) (s.setRing_moduleKept r _))

theorem State.recordNext_moduleKept (r : Nat) : s.moduleKept (s.recordNext r) :=
  .ite ((s.wr_moduleKept _ _ _ _ _).trans (State.wr_moduleKept _ _ _ _ _ _)) (s.wr_moduleKept _ _ _ _ _)

theorem State.recordDone_moduleKept (c : RingRec) : s.moduleKept (s.recordDone c) := by
  unfold State.recordDone
  extract_lets s1 s2 s3
  have h1 : s.moduleKept s1 := s.setRing_moduleKept _ _
  have h2 : s1.moduleKept s2 := s1.wr_moduleKept _ _ _ _ _
  have h3 : s2.moduleKept s3 := (s2.bump_moduleKept _ _ _ _).trans (State.ringSettle_moduleKept _ _)
  exact ((h1.trans h2).trans h3).trans (.ite (s3.ringDue_moduleKept _) (.refl s3))

theorem State.writeRecord_moduleKept (c : RingRec) : s.moduleKept (s.writeRecord c).1 := by
  have written (t : State) (h : s.moduleKept t) : s.moduleKept ((t.recordNext c.ring).recordDone c) :=
    (h.trans (t.recordNext_moduleKept c.ring)).trans (State.recordDone_moduleKept _ c)
  unfold State.writeRecord
  split
  · exact s.recordDone_moduleKept c
  · extract_lets a bytes p
    have hp : s.moduleKept p.1 := s.prepare_moduleKept _ true
    split
    · split
      · exact written _ (hp.trans (p.1.rangeWrite_moduleKept _ _ _ _))
      · exact hp
    · exact written _ (s.hostWrite_moduleKept _ _ _ _)

theorem State.flushRecords_moduleKept (held l : List RingRec) : s.moduleKept (s.flushRecords held l) := by
  induction l generalizing s held with
  | nil => exact s.host_moduleKept _
  | cons c rest ih =>
    unfold State.flushRecords
    exact .ite (ih s _) ((s.writeRecord_moduleKept c).trans (ih _ _))

theorem State.flushAll_moduleKept : s.moduleKept s.flushAll := .ite (.refl s) (s.flushRecords_moduleKept _ _)

/-! ## The Cocoon site (R382, R386) -/

theorem State.setCoc_moduleKept (f : Coc → Coc) : s.moduleKept (s.setCoc f) := ⟨rfl, rfl, rfl, rfl, List.prefix_rfl⟩

theorem State.cocErr_moduleKept (status source addr : Nat) : s.moduleKept (s.cocErr status source addr) :=
  (((s.wr_moduleKept _ _ _ _ _).trans (State.wr_moduleKept _ _ _ _ _ _)).trans (State.wr_moduleKept _ _ _ _ _ _)).trans
    ((State.wr_moduleKept _ _ _ _ _ _).trans (State.raise_moduleKept _ _ _ _))

theorem State.offer_moduleKept (limit : Nat) : s.moduleKept (s.offer limit) :=
  ((s.wr_moduleKept _ _ _ _ _).trans (State.wr_moduleKept _ _ _ _ _ _)).trans (State.send_moduleKept _ _)

theorem State.siteAgree_moduleKept (d : List Byte) : s.moduleKept (s.siteAgree d) := by
  unfold State.siteAgree
  extract_lets s1 s2
  have h1 : s.moduleKept s1 := (s.wr_moduleKept _ _ _ _ _).trans (State.wr_moduleKept _ _ _ _ _ _)
  have h2 : s1.moduleKept s2 := (s1.wr_moduleKept _ _ _ _ _).trans (State.wr_moduleKept _ _ _ _ _ _)
  exact (h1.trans h2).trans (s2.wr_moduleKept _ _ _ _ _)

theorem State.siteTrained_moduleKept (d : List Byte) : s.moduleKept (s.siteTrained d) := by
  unfold State.siteTrained
  extract_lets s1 s2
  have h1 : s.moduleKept s1 := s.setCoc_moduleKept _
  have h2 : s1.moduleKept s2 := foldl_moduleKept _ (fun s j => s.wr_moduleKept _ _ _ _ _) _ s1
  refine (h1.trans h2).trans (.ite ?_ ?_)
  · exact (((s2.setCoc_moduleKept _).trans (State.wr_moduleKept _ _ _ _ _ _)).trans
      (State.wr_moduleKept _ _ _ _ _ _)).trans (State.cocErr_moduleKept _ _ _ _)
  · exact ((s2.siteAgree_moduleKept d).trans (State.wr_moduleKept _ _ _ _ _ _)).trans (State.offer_moduleKept _ _)

theorem State.siteSettle_moduleKept : s.moduleKept s.siteSettle := by
  unfold State.siteSettle
  split
  · exact s.siteTrained_moduleKept _
  · exact .refl s

/-! ## The time bases (R155, R156, R389) -/

theorem State.tickTimers_moduleKept : s.moduleKept s.tickTimers :=
  foldl_moduleKept _ (fun s _ => s.wr_moduleKept _ _ _ _ _) _ s

theorem State.beatMeasure_moduleKept (d : Nat) : s.moduleKept (s.beatMeasure d) :=
  ((s.wr_moduleKept _ _ _ _ _).trans (State.wr_moduleKept _ _ _ _ _ _)).trans (State.wr_moduleKept _ _ _ _ _ _)

theorem State.linkRates_moduleKept : s.moduleKept s.linkRates :=
  foldl_moduleKept _ (fun s _ => s.wr_moduleKept _ _ _ _ _) _ s

theorem State.cluBeats_moduleKept (n c : Nat) : s.moduleKept (s.cluBeats n c) := by
  unfold State.cluBeats
  split
  · extract_lets s1 xs
    have h1 : s.moduleKept s1 := s.bump_moduleKept _ _ _ _
    split
    · exact h1
    · extract_lets s2
      have h2 : s1.moduleKept s2 := .ite (s1.bump_moduleKept _ _ _ _) (.refl s1)
      exact (h1.trans h2).trans (.ite (s2.bump_moduleKept _ _ _ _) (.refl s2))
  · exact .refl s

theorem State.tickBeats_moduleKept (d : Nat) : s.moduleKept (s.tickBeats d) := by
  unfold State.tickBeats
  extract_lets was now b s1 n
  have h1 : s.moduleKept s1 := ⟨rfl, rfl, rfl, rfl, List.prefix_rfl⟩
  exact h1.trans (.ite (.refl s1) (foldl_moduleKept _ (fun s _ => s.cluBeats_moduleKept _ _) _ s1))

theorem State.clock_moduleKept (n : Nat) : s.moduleKept { s with clock := n } := ⟨rfl, rfl, rfl, rfl, List.prefix_rfl⟩

/-- Beyond the end of an activation, 10 ns leave the module's trust state, terminals and flash as they are. -/
theorem State.idle_moduleKept (hp : s.board.powered = true) : s.activateEnd.moduleKept s.idle := by
  unfold State.idle
  rw [if_neg (not_not_intro hp)]
  extract_lets s1 s2 c s3 s4 s5 s6
  have h2 : s1.moduleKept s2 := (s1.clock_moduleKept _).trans (State.tickTimers_moduleKept _)
  have h3 : s2.moduleKept s3 := s2.cores_moduleKept _
  have h4 : s3.moduleKept s4 := .ite
    ((foldl_moduleKept _ (fun s d => s.beatMeasure_moduleKept d) _ _).trans (State.linkRates_moduleKept _)) (.refl s3)
  have h5 : s4.moduleKept s5 := foldl_moduleKept _ (fun s d => s.tickBeats_moduleKept d) _ _
  have h6 : s5.moduleKept s6 := foldl_moduleKept _ (fun s c => s.tickCore_moduleKept c) _ _
  exact ((h2.trans h3).trans ((h4.trans h5).trans h6)).trans ((s6.tickMovers_moduleKept.trans
    (State.flushAll_moduleKept _)).trans (State.siteSettle_moduleKept _))

end

end Sys2Proof.Machine
end
section
/-! PROOFS. The end of an activation, and the commands of the management chain together (R37, R38, R408, R463). -/

namespace Sys2Proof.Machine

/-! ## The end of an activation (R37 orders 3 and 4) -/

section
variable (s : State) (h : ChainHdr)

/-- The copied image is checked; the selector names it where it is whole, and the ACTIVATE is answered. -/
theorem State.activateEnd_eq (ha : s.board.activating = some h) :
    let whole := (s.fwImage (imageBase !s.trust.selectB)).isSome
    s.activateEnd = { s with
      trust := { s.trust with selectB := if whole then !s.trust.selectB else s.trust.selectB }
      board := { s.board with activating := none }
      out := s.out ++ s.answers h 6 [BitVec.ofNat 8 (if whole then stOK else stEcc)] } := by
  have himage (b : Nat) : (s.setBoard fun m => { m with activating := none }).fwImage b = s.fwImage b :=
    s.fwImage_congr _ rfl rfl b
  simp only [State.activateEnd, ha, himage, State.chainStatus, State.chainAnswer_eq]
  cases s.fwImage (imageBase !s.trust.selectB) <;> rfl

theorem step_idle (hq : s.pending = []) : step s = .next s.idle := by
  unfold step
  rw [hq]

/-- With an empty queue an activation ends: image, selector and answer, and the 10 ns that pass leave them. -/
theorem step_activateEnd (hp : s.board.powered = true) (hq : s.pending = []) (ha : s.board.activating = some h) :
    let whole := (s.fwImage (imageBase !s.trust.selectB)).isSome
    ∃ t, step s = .next t ∧ t.trust = { s.trust with selectB := if whole then !s.trust.selectB else s.trust.selectB }
      ∧ t.board = { s.board with activating := none } ∧ t.flash = s.flash
      ∧ s.answers h 6 [BitVec.ofNat 8 (if whole then stOK else stEcc)] ⊆ t.out := by
  intro whole
  have kept := s.idle_moduleKept hp
  rw [s.activateEnd_eq h ha] at kept
  exact ⟨s.idle, step_idle s hq, kept.trust, kept.board, kept.flash,
    fun o ho => kept.sent.subset (List.mem_append_right _ ho)⟩

end

/-! ## The firmware that an MCTP message carries (R35) -/

section
variable (s : State) (msg : List Byte)

theorem State.firmwarePiece_none (hn : Config.mctpFirmware (msg.map BitVec.toNat) = none) :
    s.firmwarePiece msg = s.flash := by
  simp only [State.firmwarePiece, hn]

theorem State.firmwarePiece_some (off : Nat) (bytes : List Nat)
    (hm : Config.mctpFirmware (msg.map BitVec.toNat) = some (off, bytes)) (hfit : off + bytes.length ≤ imageSize) :
    s.firmwarePiece msg = memWrite s.flash (stagingBase + off) (bytes.map (BitVec.ofNat 8)) := by
  simp only [State.firmwarePiece, hm, if_pos hfit]

end

/-! ## Commands that have no effect here -/

section
variable (s : State) (h : ChainHdr)

theorem State.serves_iff (all rom : Bool) : s.serves h all rom = true ↔ s.chainMine h all = true
    ∧ (s.board.boot = .running ∨ (rom = true ∧ s.board.boot = .romOnly)) := by
  simp [State.serves]

/-- What a frame with an empty effect does, by its checksum. -/
def State.chainIdle (cmd : Nat) (q : List Byte) (served : Bool) (answer : Host.Outcome State Fault Refusal) : Prop :=
  (h.crcOk = true → served = false → ∃ t, answer = .next t ∧ t.out = s.out ++ s.repeats h cmd q
    ∧ s.counted1 t CHN_FRAMES.COUNT (if s.chainMine h true = true then 1 else 0) 0
    ∧ t = { s with regs := t.regs, out := t.out })
  ∧ (¬ h.crcOk = true → ∃ t, answer = .next t ∧ s.counted1 t CHN_LINK.ERRORS 1 0 ∧ t.out = s.out
    ∧ t = { s with regs := t.regs, board := t.board })

theorem State.chainFor_idle (hp : s.board.powered = true) (cmd : Nat) (q : List Byte) (all rom : Bool)
    (f : State → State) : s.chainIdle h cmd q (s.serves h all rom) (.next (s.chainFor h cmd q all rom f)) :=
  ⟨fun hc hs => ⟨_, rfl, s.chainFor_rests h cmd q all rom f hp hc hs⟩,
    fun hc => ⟨_, rfl, s.chainFor_bad h cmd q all rom f hp (Bool.eq_false_iff.2 hc)⟩⟩

end

/-- Settles O26, by the command of the frame and whether the module serves it; at the end of an activation by what 10 ns
leave of the module. Frames go on as they came, IDENTIFY's payload as one byte (log entry 161). -/
theorem chainCommands : Obligations.ChainCommands := by
  intro s h hp mine all run rom good repeated told status
  have mineTrue : s.chainMine h true = true ↔ all := by
    rw [s.chainMine_iff]; simp only [and_true]; exact Iff.rfl
  have mineFalse : s.chainMine h false = true ↔ mine := by
    rw [s.chainMine_iff]; simp only [Bool.false_eq_true, and_false, false_or]; exact Iff.rfl
  have oneRun : s.serves h false false = true ↔ mine ∧ run := by simp [s.serves_iff, mineFalse, run]
  have oneRom : s.serves h false true = true ↔ mine ∧ rom := by simp [s.serves_iff, mineFalse, rom, run]
  have allRun : s.serves h true false = true ↔ all ∧ run := by simp [s.serves_iff, mineTrue, run]
  have allRom : s.serves h true true = true ↔ all ∧ rom := by simp [s.serves_iff, mineTrue, rom, run]
  refine ⟨fun hc hm hr => exec_telemetry_served s h hp hc (oneRun.2 ⟨hm, hr⟩),
    fun hc hm hr => exec_identify_served s h hp hc (allRun.2 ⟨hm, hr⟩),
    fun hc hm hr => exec_stage_served s h hp hc (allRom.2 ⟨hm, hr⟩),
    fun hc hm hr => exec_stage_refused s h hp hc (allRom.2 ⟨hm, hr⟩),
    fun hc hm hr => exec_activate_refused s h hp hc (allRom.2 ⟨hm, hr⟩),
    fun hc hm hr => exec_activate_served s h hp hc (allRom.2 ⟨hm, hr⟩), ?activated, ?mctp,
    fun hc hm hr => exec_reset_refused s h hp hc (oneRun.2 ⟨hm, hr⟩), ?reset, ?idle⟩
  case activated =>
    intro hq ha whole
    obtain ⟨t, ht, htrust, hboard, hflash, hout⟩ := step_activateEnd s h hp hq ha
    refine ⟨t, ht, htrust, hboard, hflash, fun hd => hout ?_⟩
    rw [State.answers, if_neg hd]
    exact List.mem_singleton.2 rfl
  case mctp =>
    intro hc hm hr packet
    obtain ⟨t, ht, hhost, htold, honly, hboard, hflash⟩ := exec_mctp_served s h hp hc (oneRom.2 ⟨hm, hr⟩) packet
    exact ⟨t, ht, hhost, htold, honly, hboard, fun hn => hflash.trans (s.firmwarePiece_none packet hn),
      fun off bytes hb hfit => hflash.trans (s.firmwarePiece_some packet off bytes hb hfit)⟩
  case reset =>
    intro hc hm hr which x hx u
    rw [exec_reset_served s h hp hc (oneRun.2 ⟨hm, hr⟩) which x hx, State.frameTaken_eq]
  case idle =>
    intro on payload wrong packet which f hf
    have count : (if s.chainMine h true = true then 1 else 0) = (if all then 1 else 0) := if_congr mineTrue rfl rfl
    have served (b c : Bool) (p : Prop) [Decidable p] (q : Prop) [Decidable q] (hs : s.serves h b c = true ↔ p ∧ q) :
        (decide p && decide q) = s.serves h b c := by
      rw [Bool.eq_iff_iff, hs, Bool.and_eq_true, decide_eq_true_iff, decide_eq_true_iff]
    have idle : s.chainIdle h f.2.1 f.2.2.1 f.2.2.2 (exec f.1 s) := by
      rw [served false false mine run oneRun, served false true mine rom oneRom, served true false all run allRun,
        served true true all rom allRom] at hf
      simp only [List.mem_cons, List.not_mem_nil, or_false] at hf
      obtain rfl | rfl | rfl | rfl | rfl | rfl := hf
      all_goals exact s.chainFor_idle h hp _ _ _ _ _
    rwa [State.chainIdle, count] at idle

end Sys2Proof.Machine
end


section
/-! PROOFS. One cluster's record and one cell changed, and all else left (R119, R152). -/

namespace Sys2Proof.Machine

section
variable (s : State) (c : Nat)

/-! ## One cluster -/

theorem State.clu_setClu (f : Clu → Clu) : (s.setClu c f).clu c = f (s.clu c) := getK_setK_same _ _ _ _

theorem State.clu_setClu_ne (f : Clu → Clu) (d : Nat) (h : d ≠ c) : (s.setClu c f).clu d = s.clu d :=
  getK_setK_ne _ _ _ _ _ _ h

/-- A cluster's record became `x`, and nothing else of the part changed. -/
structure State.cluBecame (s t : State) (c : Nat) (x : Clu) : Prop where
  rec_ : t.clu c = x
  others : s.sameClus t c
  frame : t = { s with clus := t.clus }

theorem State.cluBecame_setClu (f : Clu → Clu) : s.cluBecame (s.setClu c f) c (f (s.clu c)) :=
  ⟨s.clu_setClu c f, fun d h => s.clu_setClu_ne c f d h, rfl⟩

theorem State.cluBecame_progress : s.cluBecame (s.progress c) c { s.clu c with lastProgress := s.timer c } :=
  s.cluBecame_setClu c _

variable {s c}

theorem State.cluBecame.trans {t u : State} {x y : Clu} (h : s.cluBecame t c x) (g : t.cluBecame u c y) :
    s.cluBecame u c y :=
  ⟨g.rec_, fun d hd => (g.others d hd).trans (h.others d hd), by rw [g.frame, h.frame]⟩

theorem State.cluBecame.setClu {t : State} {x : Clu} (h : s.cluBecame t c x) (f : Clu → Clu) :
    s.cluBecame (t.setClu c f) c (f x) :=
  h.trans (h.rec_ ▸ t.cluBecame_setClu c f)

end

/-! ## One cell -/

section
variable (s : State) (c row col : Nat)

theorem State.cell_setCell (f : Cell → Cell) : (s.setCell c row col f).cell c row col = f (s.cell c row col) :=
  getK_setK_same _ _ _ _

theorem State.setCell_sameCells (f : Cell → Cell) : s.sameCells (s.setCell c row col f) (cellKey c row col) :=
  fun _ h => getK_setK_ne _ _ _ _ _ _ h

/-- A cell became `y`; every other cell and what the clusters hold beside their cells stand, and nothing else of the part
changed. -/
def State.cellBecame (s t : State) (c row col : Nat) (y : Cell) : Prop :=
  t.cell c row col = y ∧ s.sameCells t (cellKey c row col) ∧ (∀ d, t.clu d = s.clu d)
    ∧ t = { s with cells := t.cells, clus := t.clus }

theorem State.cellBecame_setCell (f : Cell → Cell) :
    s.cellBecame (s.setCell c row col f) c row col (f (s.cell c row col)) :=
  ⟨s.cell_setCell c row col f, s.setCell_sameCells c row col f, fun _ => rfl, rfl⟩

variable {s c row col}

theorem State.cellBecame.setCell {t : State} {y : Cell} (h : s.cellBecame t c row col y) (f : Cell → Cell) :
    s.cellBecame (t.setCell c row col f) c row col (f y) := by
  obtain ⟨hcell, hcells, hclu, hframe⟩ := h
  refine ⟨by rw [t.cell_setCell, hcell], fun j hj => (t.setCell_sameCells c row col f j hj).trans (hcells j hj), hclu, ?_⟩
  conv_lhs => rw [State.setCell, hframe]
  rfl

/-- A change of a cluster that leaves its record as it is. -/
theorem State.cellBecame.setClu_id {t : State} {y : Cell} (h : s.cellBecame t c row col y) (f : Clu → Clu)
    (hf : ∀ x, f x = x) : s.cellBecame (t.setClu c f) c row col y := by
  obtain ⟨hcell, hcells, hclu, hframe⟩ := h
  refine ⟨hcell, hcells, fun d => ?_, ?_⟩
  · by_cases hd : d = c
    · subst hd; rw [t.clu_setClu, hf, hclu]
    · rw [t.clu_setClu_ne c f d hd, hclu]
  · conv_lhs => rw [State.setClu, hframe]
    rfl

end

end Sys2Proof.Machine
end

section
/-! PROOFS. The vector unit's address and loop registers and the end of its program (R130). -/

namespace Sys2Proof.Machine

section
variable (s : State) (c op w : Nat)

theorem State.flushStt_none (hv : (s.clu c).vst = none) : s.flushStt c = s := by
  simp [State.flushStt, hv]

/-- With no earlier STT still to be written, an instruction's effect is all that running it does beside the progress stamp. -/
theorem State.vecRun_at (f : State → Nat → State) (hv : (s.clu c).vst = none) (hw : s.vecAt c op = some w) :
    s.vecRun c op f = f (s.progress c) w := by
  simp [State.vecRun, s.flushStt_none c hv, hw]

end

/-- Settles O10: each instruction is one change of the cluster's record, after the progress stamp. -/
theorem vectorControl : Obligations.VectorControl := by
  intro c s w hv x n now
  have does {i : Instr} {op : Nat} {f : State → Nat → State} {z y : Clu} (hw : s.vecAt c op = some w)
      (hi : exec i s = .next (s.vecRun c op f)) (hb : s.cluBecame (f (s.progress c) w) c z)
      (hz : z = { y with lastProgress := z.lastProgress }) : now i y := by
    refine ⟨_, hi.trans (congrArg _ (s.vecRun_at c op w f hv hw)), ?_, hb.others, hb.frame⟩
    rw [hb.rec_]; exact hz
  have stamped := s.cluBecame_progress c
  refine ⟨fun hw => ?seta, fun hw => ?adda, fun hw => ?setl, fun hw hl => ?loops, fun hw hl => ?falls, fun hw => ?ends⟩
  case seta => exact does hw rfl ((stamped.setClu _).setClu _) rfl
  case adda => exact does hw rfl ((stamped.setClu _).setClu _) (by rw [stamped.rec_])
  case setl => exact does hw rfl ((stamped.setClu _).setClu _) rfl
  case loops =>
    have hl' : ¬ getK 0 ((s.progress c).clu c).lreg (VecW.vd w % 8) = 0 := by rw [stamped.rec_]; exact hl
    refine does hw rfl (Eq.subst (motive := fun t => s.cluBecame t c _) (if_neg hl').symm (stamped.setClu _)) ?_
    rw [stamped.rec_]
  case falls =>
    have hl' : getK 0 ((s.progress c).clu c).lreg (VecW.vd w % 8) = 0 := by rw [stamped.rec_]; exact hl
    exact does hw rfl (Eq.subst (motive := fun t => s.cluBecame t c _) (if_pos hl').symm (stamped.setClu _)) rfl
  case ends => exact does hw rfl (stamped.setClu _) rfl

end Sys2Proof.Machine
end


section
/-! PROOFS. A cell begins its operations and ends its sequence (R121, R123, R124). -/

namespace Sys2Proof.Machine

section
variable (s : State) (c row col : Nat) (g : CluCfg) (w : Nat)

theorem State.opAt_op (h : s.opAt c row col = some (g, w)) : g.ops[(s.cell c row col).op]? = some w := by
  unfold State.opAt at h
  split at h
  · cases h
  · next g' r _ =>
    dsimp only at h
    split at h
    · obtain ⟨v, hv, he⟩ := Option.map_eq_some_iff.1 h
      cases he
      exact hv
    · cases h

/-! ## The first patch (R50, R94) -/

/-- While the caldera set drains, a cell stands before its patch. -/
theorem State.openPatch_busy (h : (s.cell c row col).curSet.busy = true) : s.openPatch c row col g = s := by
  simp [State.openPatch, h]

/-- A claim of no tile is no claim. -/
theorem Clu.claim_nil (x : Clu) (who : Claimant) : x.claim who [] = x := by simp [Clu.claim]

/-- A patch without preload opens with a fresh set once its caldera set is free; it claims no tile. -/
theorem State.openPatch_fresh (hphase : (s.cell c row col).phase = .inOp) (hopened : (s.cell c row col).opened = false)
    (hbusy : (s.cell c row col).curSet.busy = false) (hw : g.ops[(s.cell c row col).op]? = some w)
    (hopc : OpW.opc w = 1 ∨ OpW.opc w = 2) (hpre : OpW.pre w = 0) :
    s.openPatch c row col g = (s.setClu c fun q => q.claim (.cell row col (s.cell c row col).cur) []).setCell c row col
      fun y => { y.putSet y.cur (freshSet w) with opened := true, k := 0, pre := [] } := by
  have hword : g.ops.getD (s.cell c row col).op 0 = w := by simp [List.getD, hw]
  have hready : ¬ ((s.cell c row col).phase ≠ .inOp ∨ (s.cell c row col).opened = true
      ∨ (s.cell c row col).curSet.busy = true ∨ (OpW.opc w ≠ 1 ∧ OpW.opc w ≠ 2)) := by
    simp only [hphase, hopened, hbusy]
    rcases hopc with h | h <;> simp [h]
  have hplain : ¬ OpW.pre w = 2 := by omega
  simp only [State.openPatch, hword, if_neg hready, if_neg hplain, if_pos hpre, Clu.tryClaim]

end

/-- Settles O12, by the operation the cell stands at and, for a patch, by whether its caldera set is free. -/
theorem cellSequence : Obligations.CellSequence := by
  intro c row col s g w hat x fresh first_ did
  have hw := s.opAt_op c row col g w hat
  have does {i : Instr} {t : State} {y : Cell} (hi : exec i s = .next t) (h : s.cellBecame t c row col y) : did i y :=
    ⟨t, hi, h⟩
  have mac (h : OpW.opc w = 1) : exec (.mac c row col) s = .next (s.beginOp c row col g w) := by
    change execMac c row col s = _
    simp [execMac, hat, h]
  have red (h : OpW.opc w = 2) : exec (.red c row col) s = .next (s.beginOp c row col g w) := by
    change execRed c row col s = _
    simp [execRed, hat, h]
  have fwd (h : OpW.opc w = 3) : exec (.fwd c row col) s = .next (s.setCell c row col fun x =>
      if opAllBlocks w = 0 then { x with op := x.op + 1 } else { x with phase := .inOp, k := 0, opened := false }) := by
    change execFwd c row col s = _
    simp [execFwd, hat, h]
  have ends (h : OpW.opc w = 0) : exec (.cellEnd c row col) s
      = .next (s.setCell c row col fun x => { x with phase := .ended }) := by
    change execCellEnd c row col s = _
    simp [execCellEnd, hat, h]
  have passes (h : OpW.patches w = 0) : s.cellBecame (s.beginOp c row col g w) c row col { x with op := x.op + 1 } := by
    rw [State.beginOp, if_pos h]
    exact s.cellBecame_setCell c row col _
  have begins (h : OpW.patches w ≠ 0) : s.beginOp c row col g w = (s.setCell c row col fresh).openPatch c row col g := by
    rw [State.beginOp, if_neg h]
  have stands (h : OpW.patches w ≠ 0) (hb : x.curSet.busy = true) :
      s.cellBecame (s.beginOp c row col g w) c row col (fresh x) := by
    rw [begins h, State.openPatch_busy _ _ _ _ _ (by rw [s.cell_setCell]; exact hb)]
    exact s.cellBecame_setCell c row col fresh
  have opens (h : OpW.patches w ≠ 0) (hopc : OpW.opc w = 1 ∨ OpW.opc w = 2) (hb : x.curSet.busy = false)
      (hpre : OpW.pre w = 0) : s.cellBecame (s.beginOp c row col g w) c row col (first_ x) := by
    have hcell := s.cell_setCell c row col fresh
    rw [begins h, State.openPatch_fresh _ c row col g w (by rw [hcell]) (by rw [hcell]) (by rw [hcell]; exact hb)
      (by rw [hcell]; exact hw) hopc hpre]
    have := ((s.cellBecame_setCell c row col fresh).setClu_id _ fun q => q.claim_nil
      (.cell row col ((s.setCell c row col fresh).cell c row col).cur)).setCell
      fun y => { y.putSet y.cur (freshSet w) with opened := true, k := 0, pre := [] }
    have same : { (fresh x).putSet (fresh x).cur (freshSet w) with opened := true, k := 0, pre := [] } = first_ x := by
      simp only [first_, Cell.putSet]
      split <;> rfl
    exact same ▸ this
  refine ⟨fun h => does (ends h) (s.cellBecame_setCell c row col _), fun h hn => ?_, fun h hn => ?_,
    fun h hp => does (mac h) (passes hp), fun h hp => does (red h) (passes hp),
    fun h hp hb => does (mac h) (stands hp hb), fun h hp hb => does (red h) (stands hp hb),
    fun h hp hb hpre => does (mac h) (opens hp (.inl h) hb hpre), fun h hp hb hpre => does (red h) (opens hp (.inr h) hb hpre),
    fun h hp => (mac h).trans (congrArg _ (begins hp)), fun h hp => (red h).trans (congrArg _ (begins hp))⟩
  · have := does (fwd h) (s.cellBecame_setCell c row col _)
    rwa [if_pos hn] at this
  · have := does (fwd h) (s.cellBecame_setCell c row col _)
    rwa [if_neg hn] at this

end Sys2Proof.Machine
end


section
/-! PROOFS. The end of a step, and the migration entries that it makes ready (R128, R133, R166). -/

namespace Sys2Proof.Machine

section
variable (s t : State) (c next : Nat)

/-- The entries that makeReady makes ready; `makeReady_became` ties it to the model. -/
def State.readied (p : Nat → Bool) : List Nat :=
  ((s.migsOf c).filter fun e => p (migAfter e.2) && !(s.clu c).migSeen.contains e.1).map (·.1)

theorem State.makeReady_became (p : Nat → Bool) : s.cluBecame (s.makeReady c p) c
    { s.clu c with migReady := (s.clu c).migReady ++ s.readied c p, migSeen := (s.clu c).migSeen ++ s.readied c p } :=
  s.cluBecame_setClu c fun x =>
    { x with migReady := x.migReady ++ s.readied c p, migSeen := x.migSeen ++ s.readied c p }

/-- The entries hang on a cluster's configuration, on those it has had this pass and on the slots' plans alone. -/
theorem State.readied_congr (p : Nat → Bool) (hact : (t.clu c).act = (s.clu c).act)
    (hseen : (t.clu c).migSeen = (s.clu c).migSeen) (hslots : t.slots = s.slots) : t.readied c p = s.readied c p := by
  simp only [State.readied, State.migsOf, State.planOf, State.slot, hact, hseen, hslots]

/-- What the end of a step makes of a cluster's record; `stepDone_became` ties it to the model. -/
def State.stepped : Clu :=
  let x := s.clu c
  let es := s.readied c (· == x.pc)
  { x with pc := next, waitFrom := none, late := false, migReady := x.migReady ++ es, migSeen := x.migSeen ++ es,
           lastProgress := s.timer c }

theorem State.stepDone_became : s.cluBecame (s.stepDone c next) c (s.stepped c next) := by
  have moved := s.cluBecame_setClu c fun x => { x with pc := next, waitFrom := none, late := false }
  have same (p : Nat → Bool) : (s.setClu c fun x => { x with pc := next, waitFrom := none, late := false }).readied c p
      = s.readied c p := State.readied_congr s _ c p (by rw [moved.rec_]) (by rw [moved.rec_]) rfl
  have ready := moved.trans (State.makeReady_became _ c (· == (s.clu c).pc))
  have done := ready.trans (State.cluBecame_progress _ c)
  refine ⟨done.rec_.trans ?_, done.others, done.frame⟩
  rw [ready.rec_, same, moved.rec_]
  rfl

/-- The end of a step is what wentOn says. -/
theorem State.stepDone_wentOn : s.wentOn (s.stepDone c next) c next :=
  ⟨(s.stepDone_became c next).rec_, (s.stepDone_became c next).others⟩

end

end Sys2Proof.Machine
end


section
/-! PROOFS. The start of a RUN: its admission by the release tree and its cells (R121, R157, R158). -/

namespace Sys2Proof.Machine

/-- What one entry of a list of updates makes true, and every entry keeps, holds at the list's end. -/
theorem foldl_reaches {β : Type} (P : State → Prop) (g : State → β → State) (l : List β) (x : β) (hx : x ∈ l)
    (makes : ∀ s, P (g s x)) (keeps : ∀ s, ∀ y ∈ l, P s → P (g s y)) (s : State) : P (l.foldl g s) := by
  induction l generalizing s with
  | nil => cases hx
  | cons y l ih =>
    have rest : ∀ u, P u → P (l.foldl g u) := fun u hu =>
      List.foldlRecOn l g hu fun v hv z hz => keeps v z (List.mem_cons_of_mem y hz) hv
    rcases List.mem_cons.1 hx with rfl | hx
    · exact rest _ (makes s)
    · exact ih hx (fun s z hz => keeps s z (List.mem_cons_of_mem y hz)) _

/-! ## The cells of a RUN -/

section
variable (s : State) (c seqOff : Nat) (g : CluCfg)

/-- The start of one cell; `startCells_eq` ties it to the model. -/
def State.startCell (row col : Nat) : State :=
  s.setCell c row col fun x =>
    if CellW.forward (g.cells.getD (row * 32 + col) 1) then { Cell.rest with set0 := x.set0, set1 := x.set1 }
    else { x with aq := [], bq := [], phase := .atOp, op := CellW.seq (g.cells.getD (row * 32 + col) 1) + seqOff, patch := 0,
                  k := 0, opened := false, pre := [], cubes := 0 }

theorem State.startCells_eq : s.startCells c seqOff g = (List.range g.rows).foldl (fun s row =>
    (List.range g.cols).foldl (fun s col => s.startCell c seqOff g row col) s) s := rfl

theorem State.startCells_frame : s.startCells c seqOff g = { s with cells := (s.startCells c seqOff g).cells } := by
  refine foldl_rel (fun s t => t = { s with cells := t.cells }) (fun _ => rfl) (fun _ _ _ h k => by rw [k, h]) _ _
    (fun s row _ => ?_) s
  exact foldl_rel (fun s t => t = { s with cells := t.cells }) (fun _ => rfl) (fun _ _ _ h k => by rw [k, h]) _ _
    (fun _ _ _ => rfl) s

/-- An ACTIVE cell at the start of its sequence, with empty queues (R121). -/
def State.cellStarted (row col : Nat) : Prop :=
  let x := s.cell c row col
  x.phase = .atOp ∧ x.op = CellW.seq (g.cells.getD (row * 32 + col) 1) + seqOff ∧ x.aq = [] ∧ x.bq = []

variable (row col : Nat) (hactive : CellW.forward (g.cells.getD (row * 32 + col) 1) = false)

include hactive

theorem State.startCell_starts : (s.startCell c seqOff g row col).cellStarted c seqOff g row col := by
  simp only [State.cellStarted, State.startCell, State.cell_setCell, hactive, Bool.false_eq_true, if_false, and_self]

theorem State.startCell_keeps (row' col' : Nat) (hcol : col < 32) (hcol' : col' < 32)
    (h : s.cellStarted c seqOff g row col) : (s.startCell c seqOff g row' col').cellStarted c seqOff g row col := by
  by_cases hk : row' = row ∧ col' = col
  · obtain ⟨rfl, rfl⟩ := hk
    exact s.startCell_starts c seqOff g _ _ hactive
  · have hother : (s.startCell c seqOff g row' col').cell c row col = s.cell c row col :=
      s.setCell_sameCells c row' col' _ _ (by simp only [cellKey]; omega)
    simp only [State.cellStarted, hother]
    exact h

theorem State.startCells_starts (hrow : row < g.rows) (hcol : col < g.cols) (hcols : g.cols ≤ 32) :
    (s.startCells c seqOff g).cellStarted c seqOff g row col := by
  have keeps (u : State) (row' : Nat) : ∀ col' ∈ List.range g.cols, u.cellStarted c seqOff g row col →
      (u.startCell c seqOff g row' col').cellStarted c seqOff g row col := fun col' hm hu =>
    u.startCell_keeps c seqOff g row col hactive row' col' (by omega) (by have := List.mem_range.1 hm; omega) hu
  rw [s.startCells_eq]
  refine foldl_reaches (·.cellStarted c seqOff g row col) _ _ row (List.mem_range.2 hrow) (fun u => ?_) (fun u row' _ hu => ?_) s
  · exact foldl_reaches (·.cellStarted c seqOff g row col) _ _ col (List.mem_range.2 hcol) (fun u => u.startCell_starts c seqOff g row col hactive)
      (fun u => keeps u row) u
  · exact List.foldlRecOn (motive := (·.cellStarted c seqOff g row col)) _ _ hu fun v hv col' hm => keeps v row' col' hm hv

end

end Sys2Proof.Machine
end


section
/-! PROOFS. The commands of the steps RUN, VEC, MOVE, SYNC and JUMP, and what they wait for (R128, R157, R158, R182). -/

namespace Sys2Proof.Machine

section
variable (s : State)

/-! ## The release tree -/

/-- The release tree counts a start that it admits; `exec_runAdmit` ties it to the model. -/
def State.startCounted (d asked : Nat) : State :=
  let t := { s with beats := { s.beats with admits := insK s.beats.admits d (s.beatOf d :: s.recentAdmits d) } }
  if s.beatOf d - asked = 0 then t
  else (t.bump DLN_ADMIT.DELAYED 1 d).wr DLN_ADMIT.MAX_WAIT
    (max (t.rd DLN_ADMIT.MAX_WAIT d) (min (s.beatOf d - asked) 65535)) d

theorem State.startCounted_frame (d asked : Nat) : ∃ w, s.startCounted d asked =
    { s with regs := w, beats := { s.beats with admits := insK s.beats.admits d (s.beatOf d :: s.recentAdmits d) } } := by
  unfold State.startCounted
  split
  · exact ⟨s.regs, rfl⟩
  · exact ⟨_, rfl⟩

/-- The cluster whose start is admitted; `exec_runAdmit` ties it to the model. -/
def State.runStarts (d asked e : Nat) (r : RunSt) : State :=
  (s.startCounted d asked).setClu e fun x => { x with run := some { r with admitted := true, start := s.beatOf d } }

/-- The state after the release tree has admitted a start; `exec_runAdmit` ties it to the model. -/
def State.runAdmitted (d asked e : Nat) (g : CluCfg) (r : RunSt) : State :=
  ((s.runStarts d asked e r).startCells e r.seqOff g).stepDone e (((s.runStarts d asked e r).clu e).pc + 1)

variable (d : Fin 4) (e asked : Nat) (g : CluCfg) (r : RunSt) (hf : firstAsked (s.waitingRuns d) = some (e, asked))
  (ha : (s.clu e).act = some g) (hr : (s.clu e).run = some r)

include hf

theorem exec_runAdmit_full (hroom : s.rd DLN_ADMIT.GROUP d ≤ (s.recentAdmits d).length) :
    exec (.runAdmit d) s = .next s := by
  change execRunAdmit d s = _
  simp only [execRunAdmit, hf]
  split <;> simp [hroom]

include ha hr

theorem exec_runAdmit (hroom : (s.recentAdmits d).length < s.rd DLN_ADMIT.GROUP d) :
    exec (.runAdmit d) s = .next (s.runAdmitted d asked e g r) := by
  change execRunAdmit d s = _
  simp only [execRunAdmit, hf, ha, hr, if_neg (Nat.not_le.2 hroom)]
  rfl

omit hf ha hr in
/-- An admitted start: the cluster goes on, its ACTIVE cells start, and the tree counts it. -/
theorem State.runAdmitted_done :
    let t := s.runAdmitted d asked e g r
    (t.clu e).run = some { r with admitted := true, start := s.beatOf d } ∧ (t.clu e).pc = (s.clu e).pc + 1
      ∧ t.cells = ((s.runStarts d asked e r).startCells e r.seqOff g).cells
      ∧ getK [] t.beats.admits d = s.beatOf d :: s.recentAdmits d ∧ s.sameClus t e
      ∧ t = { s with regs := t.regs, clus := t.clus, cells := t.cells,
                     beats := { s.beats with admits := t.beats.admits } } := by
  intro t
  obtain ⟨w, hw⟩ := s.startCounted_frame d asked
  have hclus : (s.startCounted d asked).clus = s.clus := by rw [hw]
  have admitted := (s.startCounted d asked).cluBecame_setClu e
    fun x => { x with run := some { r with admitted := true, start := s.beatOf d } }
  have cells := (s.runStarts d asked e r).startCells_frame e r.seqOff g
  have hcells (c : Nat) : ((s.runStarts d asked e r).startCells e r.seqOff g).clu c = (s.runStarts d asked e r).clu c := by
    rw [cells]; rfl
  have hadmitted : (s.runStarts d asked e r).clu e
      = { s.clu e with run := some { r with admitted := true, start := s.beatOf d } } := by
    rw [State.runStarts, admitted.rec_]; simp only [State.clu, hclus]
  have went : ((s.runStarts d asked e r).startCells e r.seqOff g).cluBecame t e _ := State.stepDone_became _ e _
  have frame : t = { s with
      regs := w, clus := t.clus, cells := ((s.runStarts d asked e r).startCells e r.seqOff g).cells,
      beats := { s.beats with admits := insK s.beats.admits d (s.beatOf d :: s.recentAdmits d) } } :=
    went.frame.trans <| (congrArg (fun u : State => { u with clus := t.clus }) cells).trans
      (congrArg (fun u : State => {
        u with clus := t.clus, cells := ((s.runStarts d asked e r).startCells e r.seqOff g).cells }) hw)
  refine ⟨?_, ?_, by rw [frame], ?_, fun c hc => ?_, by rw [frame]⟩
  · rw [went.rec_]
    simp only [State.stepped, hcells, hadmitted]
  · rw [went.rec_]
    simp only [State.stepped, hadmitted]
  · rw [frame]
    exact getK_insK_same _ _ _ _
  · rw [went.others c hc, hcells, State.runStarts, admitted.others c hc]
    simp only [State.clu, hclus]

end

end Sys2Proof.Machine
end

section
/-! PROOFS. What each step does, and where it waits (R128, R182). -/

namespace Sys2Proof.Machine

/-- Settles O20, by the step the cluster stands at and whether what it asks for is free. -/
theorem stepUnits : Obligations.StepUnits := by
  intro c s w x
  refine ⟨fun hw hr => ?run, fun hw hv => ?vec, fun h => ?runStands, fun h => ?vecStands, fun h => ?moveStands,
    fun h => ?syncStands, fun h => ?jumpStands, fun v hw hm hf => ?move, fun hw hmet => ?sync, fun hw => ?jump,
    fun g r hg ho => ?runOver, fun g r hg ho => ?overStands, fun hg => ?noRun, fun d h => ?admitStands,
    fun d e asked g r hf ha hr hroom => ?starts⟩
  case run =>
    have became := s.cluBecame_setClu c fun x =>
      { x with run := some ⟨StepW.fset w, StepW.seqOff w, false, s.beatOf (dieOf c), [], s.beatOf (dieOf c), x.place⟩ }
    refine ⟨_, ?_, became.rec_, became.others, became.frame⟩
    change execRun c s = _
    have hrun : (s.clu c).run.isSome = false := by rw [hr]; rfl
    simp [execRun, hw, hrun]
  case vec =>
    have started := s.cluBecame_setClu c fun x => { x with vact := true, vplace := x.place, vpc := StepW.vpc w }
    have went := started.trans (State.stepDone_became _ c (((s.setClu c fun x =>
      { x with vact := true, vplace := x.place, vpc := StepW.vpc w }).clu c).pc + 1))
    have hv' : (s.clu c).vact = false := hv
    refine ⟨_, ?_, ?_, ?_, ?_, ?_, went.others, went.frame⟩
    · change execVec c s = _
      simp [execVec, hw, hv', started.rec_]
    all_goals
      rw [went.rec_]
      simp [State.stepped, started.rec_, x]
  case runStands =>
    change execRun c s = _
    unfold execRun
    rcases h with h | h
    · rw [h]
    · split <;> simp [show (s.clu c).run.isSome = true from h]
  case vecStands =>
    change execVec c s = _
    unfold execVec
    rcases h with h | h
    · rw [h]
    · split <;> simp [show (s.clu c).vact = true from h]
  case moveStands =>
    change execMove c s = _
    rcases h with h | ⟨h, hb⟩ <;> simp [execMove, State.dispatch, *]
  case syncStands =>
    change execSync c s = _
    rcases h with h | ⟨h, hb⟩ <;> simp [execSync, *]
  case jumpStands =>
    change execJump c s = _
    simp [execJump, h]
  case move =>
    change execMove c s = _
    simp [execMove, State.dispatch, hw, hm, hf, x]
  case sync =>
    refine ⟨_, ?_, s.stepDone_wentOn c _, (s.stepDone_became c _).frame⟩
    change execSync c s = _
    simp [execSync, hw, hmet, x]
  case jump =>
    refine ⟨_, ?_, s.stepDone_wentOn c _, (s.stepDone_became c _).frame⟩
    change execJump c s = _
    simp [execJump, hw]
  case runOver =>
    have became := State.cluBecame_setClu { s with cells := abandonAll c s.cells } c fun x => { x with run := none }
    refine ⟨_, ?_, by rw [became.rec_], rfl, became.others, rfl⟩
    change execRunComplete c s = _
    simp [execRunComplete, hg, ho]
  case overStands =>
    change execRunComplete c s = _
    simp [execRunComplete, hg, ho]
  case noRun =>
    change execRunComplete c s = _
    simp [execRunComplete, hg]
  case admitStands =>
    cases hf : firstAsked (s.waitingRuns d) with
    | none =>
      change execRunAdmit d s = _
      simp only [execRunAdmit, hf]
    | some p => exact exec_runAdmit_full s d p.1 p.2 hf (h.resolve_left (by simp [hf]))
  case starts =>
    obtain ⟨hrun, hpc, hcells, hadmits, hothers, hframe⟩ := s.runAdmitted_done d e asked g r
    refine ⟨_, exec_runAdmit s d e asked g r hf ha hr hroom, hrun, hpc, fun row col hrow hcol _ _ hc hactive => ?_, hadmits,
      hothers, hframe⟩
    have := (s.runStarts d asked e r).startCells_starts e r.seqOff g row col hactive hrow hcol hc
    simp only [State.cellStarted, State.cell] at this
    simp only [State.cell, hcells]
    exact this

end Sys2Proof.Machine
end


section
/-! PROOFS. Where the statement about waits fails: an STT held beyond the scratchpad (R68, R71, R130, R162, R191). -/

namespace Sys2Proof.Machine

/-- The state after a command. -/
def State.result (s : State) (i : Instr) : State :=
  match exec i s with
  | .next t => t
  | _ => s

theorem State.result_eq {s t : State} {i : Instr} (h : exec i s = .next t) : s.result i = t := by
  rw [State.result, h]

/-- The number of a bank far beyond the 48 of a scratchpad, whose power field has the key of LND_TIMEOUT_LAST.VALID. -/
def strayBank : Nat := (LND_TIMEOUT_LAST.VALID.key 0 0 0 - CLU_BANK_PWR_AP.PWR.key 0 0 0) / 2 + 24

/-- A WAIT for counter 0 to reach 1, as the only step of a configuration whose counter 0 has its LND_EXT bit set. -/
def waitWord : Nat := 1 + 2 ^ 12
def waitCfg : CluCfg := ⟨0, 0, 0, 0, 0, 1, [], [], [], [waitWord], [], 0⟩

/-- Cluster 0 has stood at the WAIT for two seconds, and holds an STT that no command issues: of a byte of strayBank. -/
def strayStt : State :=
  ((State.reset.setClu 0 fun x =>
    { x with act := some waitCfg, inPass := true, waitFrom := some 0
             vst := some ⟨0, strayBank * 65536 - pmBase, [0]⟩ }).wr CLU_STATUS.STATE cRunning 0).wr
    DLN_TIMER.NS 2000000000 0

theorem strayStt_stands : strayStt.stepAt 0 1 = some waitWord := by decide +kernel

theorem strayStt_due : (strayStt.clu 0).waitFrom = some 0 ∧ strayStt.lndExt 0 (StepW.cnt waitWord) = true
    ∧ ¬ (StepW.target waitWord = 0 ∧ StepW.perpass waitWord = 0)
    ∧ reached (strayStt.cnt 0 (StepW.cnt waitWord)) (waitTarget waitWord (strayStt.clu 0).pass) = false
    ∧ max 0 (getK 0 (strayStt.clu 0).cntAdv (StepW.cnt waitWord)) + strayStt.rdMax LND_TIMEOUT.US 60000000 0 * 1000
      ≤ strayStt.timer 0 := by decide +kernel

/-- The fault writes the STT's byte, the write wakes strayBank, and the wake clears the bit just set. -/
theorem strayStt_timeout : (strayStt.result (.counterWaitTimeout 0)).rd LND_TIMEOUT_LAST.VALID 0 = 0 := by decide +kernel

/-- Refutes O19: the statement takes any STT that a cluster still holds. One whose offset lies beyond the scratchpad, which
R130 lets no cluster issue, reaches a bank that does not exist, whose power field has the key of another register: here
LND_TIMEOUT_LAST.VALID, which the fault of the counter-wait timeout then leaves 0. -/
theorem not_stepWaits : ¬ Obligations.StepWaits := by
  intro h
  obtain ⟨atWait, -⟩ := h 0 strayStt waitWord
  obtain ⟨-, -, timesOut, -⟩ := atWait strayStt_stands
  obtain ⟨hfrom, hext, hsome, hshort, hlate⟩ := strayStt_due
  obtain ⟨t, ht, -, -, -, hvalid, -⟩ := timesOut 0 hfrom hext hsome hshort hlate
  have hcleared := strayStt_timeout
  rw [State.result_eq ht] at hcleared
  exact absurd (hvalid.symm.trans hcleared) (by decide)

end Sys2Proof.Machine
end

section
/-! PROOFS. Where the statement about the release of slots fails: a cluster number beyond the 512 (R4, R119, R167). -/

namespace Sys2Proof.Machine

/-- A plan with no cluster and no preload. -/
def noPlan : PlanCfg := ⟨[], [], [], [], [], [], [], none⟩

/-- Slot 0 is STANDBY and to be molted in from slot 1, which owns no cluster; a record of a pass of slot 0 is listed under
the number 768, at which CLU_STATUS.STATE has the key of PLN_SLOT_STATUS.STATE of slot 0. -/
def strayClu : State :=
  ((State.reset.setClu 768 fun x => { x with owner := some 0, inPass := true }).wr PLN_SLOT_STATUS.STATE pSTANDBY 0).setSlot 0
    fun x => { x with molt := some 1, cfg := some noPlan }

theorem strayClu_same : CLU_STATUS.STATE.key 768 0 0 = PLN_SLOT_STATUS.STATE.key 0 0 0 := by decide +kernel

theorem strayClu_molts : (strayClu.slot 0).molt = some 1 ∧ (strayClu.slot 0).cfg = some noPlan ∧ strayClu.slotSt 0 = pSTANDBY
    ∧ strayClu.moltReady 1 = true ∧ (strayClu.slot 0).firstGrant < 2 ^ 48
    ∧ strayClu.orderedOpen (originStream .hawkmoth) none = false := by decide +kernel

/-- The grant of the swapped-in slot shows the record's cluster STOPPING, which stands in the slot's own STATE. -/
theorem strayClu_swapped : (strayClu.result (.moltSwap 0)).slotSt 0 = pSTANDBY := by decide +kernel

/-- Refutes O31: the statement takes states that list clusters beyond the 512 of the part. The register of such a number can
be a slot's: here the first grant after MOLT_SWAP writes the state of cluster 768, which is PLN_SLOT_STATUS.STATE of slot 0. -/
theorem not_slotReleases : ¬ Obligations.SlotReleases := by
  intro h
  obtain ⟨hmolt, hcfg, hst, hready, hfirst, hopen⟩ := strayClu_molts
  obtain ⟨-, -, -, -, -, -, -, -, -, -, -, swaps, -⟩ := h strayClu .hawkmoth 0 ⟨.inr (.inl rfl), hopen⟩
  obtain ⟨t, ht, hloaded, -⟩ := swaps 1 noPlan [] hmolt hcfg hst (by decide) (by decide) hready
    (fun e he => absurd he List.not_mem_nil) rfl hfirst
  have hstandby := strayClu_swapped
  rw [State.result_eq ht] at hstandby
  exact absurd (hloaded.symm.trans hstandby) (by decide)

end Sys2Proof.Machine
end


section
/-! PROOFS. The registers of a plan slot: what each update of them writes, and what it leaves (R138, R141, R172). -/

namespace Sys2Proof.Machine

section
variable {s t u : State}

theorem State.sameRegs.append {ks js : List Nat} (h : s.sameRegs t ks) (g : t.sameRegs u js) : s.sameRegs u (ks ++ js) :=
  s.sameRegs_trans t u _ (s.sameRegs_mono t ks _ h (List.subset_append_left ks js))
    (t.sameRegs_mono u js _ g (List.subset_append_right ks js))

theorem State.sameRegs.wr {ks : List Nat} (h : s.sameRegs t ks) (f : Fld) (v i j r : Nat) :
    s.sameRegs (t.wr f v i j r) (ks ++ [f.key i j r]) := h.append (t.sameRegs_wr f v i j r)

end

section
variable (s : State) (k : Nat)

/-- The keys of what slotOutcome, slotView, slotInfo and freshGrant write. -/
def outcomeKeys : List Nat :=
  [PLN_SLOT_STATUS.STATUS, PLN_SLOT_STATUS.CHECK, PLN_SLOT_STATUS.SECTION, PLN_SLOT_STATUS.ITEM].map (·.key k 0 0)
def viewKeys : List Nat := (List.range 8).map fun j => PLN_CLUSTERS.OWNED.key k j 0
def grantKeys : List Nat :=
  [DLN_GRANT.G, DLN_STARTED.BEGUN, DLN_DONE.DONE, DLN_SLOT_EXEC.EXEC, DLN_SLOT_EXEC.CONT, DLN_SLOT_EXEC.HALT_STATUS,
    DLN_SLOT_EXEC.HALT_CLUSTER].map (·.key k 0 0)

theorem State.slotOutcome_sameRegs (f : PlanFail) : s.sameRegs (s.slotOutcome k f) (outcomeKeys k) :=
  ((((s.sameRegs_refl []).wr _ _ _ _ _).wr _ _ _ _ _).wr _ _ _ _ _).wr _ _ _ _ _

theorem State.freshGrant_sameRegs : s.sameRegs (s.freshGrant k) (grantKeys k) :=
  (((((((s.sameRegs_refl []).wr _ _ _ _ _).wr _ _ _ _ _).wr _ _ _ _ _).wr _ _ _ _ _).wr _ _ _ _ _).wr _ _ _ _ _).wr
    _ _ _ _ _

theorem State.slotView_only : ∃ w, s.slotView k = s.withRegs w :=
  foldl_withRegs _ (fun _ _ => ⟨_, rfl⟩) _ s

theorem State.slotView_sameRegs : s.sameRegs (s.slotView k) (viewKeys k) :=
  foldl_rel (fun s t => s.sameRegs t (viewKeys k)) (fun s => s.sameRegs_refl _)
    (fun s t u => s.sameRegs_trans t u _) _ _ (fun t j hj => t.sameRegs_mono _ _ _ (t.sameRegs_wr _ _ _ _ _) fun x hx => by
      rw [List.mem_singleton.1 hx]; exact List.mem_map_of_mem hj) s

end

/-! ## The outcome of a slot's command (R138, R141) -/

section
variable (s : State) (k : Fin 16)

/-- A slot's bit in a STATUS field of the plan interrupts. -/
theorem State.raise_slotBit (f : Fld) (hw : f.width = 16) : bit ((s.raise f 0 (2 ^ k.val)).rd f) k = true := by
  rw [s.rd_raise_same, hw, bit_eq_testBit, Nat.testBit_mod_two_pow]
  simp [Nat.testBit_two_pow_self]

/-- Two fields of one register are written apart. -/
theorem State.rd_wr_beside (f g : Fld) (v i : Nat) (h : g.blk = f.blk ∧ g.off = f.off ∧ g.lo ≠ f.lo) :
    (s.wr f v i).rd g i = s.rd g i := by
  obtain ⟨hblk, hoff, hlo⟩ := h
  refine s.rd_wr_ne f g v i 0 0 i 0 0 fun hk => hlo ?_
  simp only [Fld.key, Fld.addr, hblk, hoff] at hk
  omega

theorem State.slotOutcome_rd (f : PlanFail) :
    (s.slotOutcome k f).rd PLN_SLOT_STATUS.STATUS k = f.status % 2 ^ PLN_SLOT_STATUS.STATUS.width
      ∧ (s.slotOutcome k f).rd PLN_SLOT_STATUS.CHECK k = f.check % 2 ^ PLN_SLOT_STATUS.CHECK.width := by
  unfold State.slotOutcome
  constructor
  · rw [State.rd_wr_beside _ _ _ _ _ (by decide), State.rd_wr_beside _ _ _ _ _ (by decide),
      State.rd_wr_beside _ _ _ _ _ (by decide), State.rd_wr_same]
  · rw [State.rd_wr_beside _ _ _ _ _ (by decide), State.rd_wr_beside _ _ _ _ _ (by decide), State.rd_wr_same]

/-- A command that completes says so (R141). -/
theorem State.slotDone_rd : (s.slotDone k).rd PLN_SLOT_STATUS.STATUS k = stOK
    ∧ bit ((s.slotDone k).rd PLN_INT_STATUS.DONE) k = true := by
  refine ⟨?_, State.raise_slotBit _ k _ rfl⟩
  have hk : PLN_SLOT_STATUS.STATUS.key k 0 0 ≠ PLN_INT_STATUS.DONE.key 0 0 0 := by revert k; decide
  rw [State.slotDone, State.rd_raise_ne _ _ _ _ _ _ _ _ hk, (s.slotOutcome_rd k _).1]
  rfl

theorem State.slotDone_sameRegs : s.sameRegs (s.slotDone k) (outcomeKeys k ++ [PLN_INT_STATUS.DONE.key 0 0 0]) :=
  (s.slotOutcome_sameRegs k _).append (State.sameRegs_raise _ _ _ _)

end

end Sys2Proof.Machine
end


section
/-! PROOFS. A load that fails: everything the slot holds is released, and the slot says why (R138, R141). -/

namespace Sys2Proof.Machine

theorem State.sameStore_refl (s : State) : s.sameStore s := ⟨rfl, rfl, rfl, rfl⟩

theorem State.sameStore.trans {s t u : State} (h : s.sameStore t) (g : t.sameStore u) : s.sameStore u := by
  obtain ⟨hhbm, hspad, hhost, hflash⟩ := h
  obtain ⟨ghbm, gspad, ghost, gflash⟩ := g
  exact ⟨ghbm.trans hhbm, gspad.trans hspad, ghost.trans hhost, gflash.trans hflash⟩

/-- A list of updates that each keep the memories. -/
theorem foldl_sameStore {β : Type} (g : State → β → State) (h : ∀ (s : State) x, s.sameStore (g s x)) (l : List β) (s : State) :
    s.sameStore (l.foldl g s) :=
  foldl_rel State.sameStore State.sameStore_refl (fun _ _ _ => State.sameStore.trans) g l (fun s x _ => h s x) s

section
variable (s : State)

theorem State.dropRefs_sameStore (k : Nat) : s.sameStore (s.dropRefs k) := by
  unfold State.dropRefs
  split
  · exact s.sameStore_refl
  · refine foldl_sameStore _ (fun s i => ?_) _ s
    exact ⟨rfl, rfl, rfl, rfl⟩

theorem State.slotView_sameStore (k : Nat) : s.sameStore (s.slotView k) := by
  obtain ⟨w, hw⟩ := s.slotView_only k
  rw [hw]
  exact s.sameStore_refl

theorem State.wr_sameStore (f : Fld) (v i j r : Nat) : s.sameStore (s.wr f v i j r) := ⟨rfl, rfl, rfl, rfl⟩

theorem State.setSlot_sameStore (k : Nat) (f : Slot → Slot) : s.sameStore (s.setSlot k f) := ⟨rfl, rfl, rfl, rfl⟩

theorem State.clearShadow_sameStore (k : Nat) : s.sameStore (s.clearShadow k) := ⟨rfl, rfl, rfl, rfl⟩

theorem State.releaseClu_sameStore (c : Nat) : s.sameStore (s.releaseClu c) := by
  simp [State.sameStore, State.releaseClu, State.clearCfg]

theorem State.slotOutcome_sameStore (k : Nat) (f : PlanFail) : s.sameStore (s.slotOutcome k f) :=
  (((s.wr_sameStore _ _ _ _ _).trans (State.wr_sameStore _ _ _ _ _ _)).trans (State.wr_sameStore _ _ _ _ _ _)).trans
    (State.wr_sameStore _ _ _ _ _ _)

theorem State.releaseSlot_sameStore (k : Nat) : s.sameStore (s.releaseSlot k) := by
  have shadows := (s.dropRefs_sameStore k).trans (State.clearShadow_sameStore _ k)
  have clusters := shadows.trans (foldl_sameStore State.releaseClu (fun s c => s.releaseClu_sameStore c)
    (((s.dropRefs k).clearShadow k).owned k) _)
  exact (clusters.trans (State.setSlot_sameStore _ k fun _ => Slot.empty)).trans (State.slotView_sameStore _ k)

theorem State.raise_sameStore (f : Fld) (i mask : Nat) : s.sameStore (s.raise f i mask) := by
  obtain ⟨w, hw⟩ := s.raise_only f i mask
  rw [hw]
  exact ⟨rfl, rfl, rfl, rfl⟩

variable (k : Fin 16) (f : PlanFail)

/-- What a load that fails leaves: the slot's state and outcome with the check, FAIL raised, and the memories. -/
structure State.loadFailed (s t : State) (k : Fin 16) (status check : Nat) : Prop where
  state : t.slotSt k = pFAILED
  status : t.rd PLN_SLOT_STATUS.STATUS k = status % 2 ^ PLN_SLOT_STATUS.STATUS.width
  check : t.rd PLN_SLOT_STATUS.CHECK k = check % 2 ^ PLN_SLOT_STATUS.CHECK.width
  raised : bit (t.rd PLN_INT_STATUS.FAIL) k = true
  store : s.sameStore t

theorem slotState_notOutcome : PLN_SLOT_STATUS.STATE.key k 0 0 ∉ outcomeKeys k := by revert k; decide

theorem slotFields_notFail : ∀ g ∈ [PLN_SLOT_STATUS.STATE, PLN_SLOT_STATUS.STATUS, PLN_SLOT_STATUS.CHECK],
    g.key k 0 0 ≠ PLN_INT_STATUS.FAIL.key 0 0 0 := by revert k; decide

theorem State.loadFails_eq : s.loadFails k f
    = (((s.releaseSlot k).wr PLN_SLOT_STATUS.STATE pFAILED k).slotOutcome k f).raise PLN_INT_STATUS.FAIL 0 (2 ^ k.val) := rfl

theorem State.loadFails_failed : s.loadFailed (s.loadFails k f) k f.status f.check := by
  rw [s.loadFails_eq]
  generalize hr : s.releaseSlot k = r
  have before (g : Fld) (hg : g ∈ [PLN_SLOT_STATUS.STATE, PLN_SLOT_STATUS.STATUS, PLN_SLOT_STATUS.CHECK]) :=
    State.rd_raise_ne ((r.wr PLN_SLOT_STATUS.STATE pFAILED k).slotOutcome k f) PLN_INT_STATUS.FAIL g 0 (2 ^ k.val) k 0 0
      (slotFields_notFail k g hg)
  obtain ⟨hstatus, hcheck⟩ := (r.wr PLN_SLOT_STATUS.STATE pFAILED k).slotOutcome_rd k f
  refine ⟨?_, (before _ (by simp)).trans hstatus, (before _ (by simp)).trans hcheck, State.raise_slotBit _ k _ rfl, ?_⟩
  · rw [State.slotSt, before _ (by simp),
      State.rd_sameRegs _ _ _ (State.slotOutcome_sameRegs _ k f) _ _ _ _ (slotState_notOutcome k)]
    exact State.rd_wr_same _ _ _ _ _ _
  · have released := s.releaseSlot_sameStore k
    rw [hr] at released
    exact ((released.trans (State.wr_sameStore _ _ _ _ _ _)).trans (State.slotOutcome_sameStore _ k f)).trans
      (State.raise_sameStore _ _ _ _)

end

end Sys2Proof.Machine
end


section
/-! PROOFS. The end of a load: its checks, its preloads and what a slot that is loaded shows (R138 to R141, R172). -/

namespace Sys2Proof.Machine

/-! ## Registers and what their interrupts send -/

section
variable {s t u : State}

theorem State.quiet_refl (s : State) : s.quiet s := rfl

theorem State.quiet.trans (h : s.quiet t) (g : t.quiet u) : s.quiet u := by
  unfold State.quiet at *
  rw [g, h]

theorem State.wr_quiet (s : State) (f : Fld) (v i j r : Nat) : s.quiet (s.wr f v i j r) := rfl

theorem State.quiet.wr (h : s.quiet t) (f : Fld) (v i j r : Nat) : s.quiet (t.wr f v i j r) :=
  h.trans (t.wr_quiet f v i j r)

theorem State.raise_quiet (s : State) (f : Fld) (i mask : Nat) : s.quiet (s.raise f i mask) := by
  obtain ⟨w, hw⟩ := s.raise_only f i mask
  rw [hw]
  rfl

theorem foldl_quiet {β : Type} (g : State → β → State) (h : ∀ (s : State) x, s.quiet (g s x)) (l : List β) (s : State) :
    s.quiet (l.foldl g s) :=
  foldl_rel State.quiet State.quiet_refl (fun _ _ _ => State.quiet.trans) g l (fun s x _ => h s x) s

theorem State.quiet.slots (h : s.quiet t) : t.slots = s.slots := by rw [h]
theorem State.quiet.spad (h : s.quiet t) : t.spad = s.spad := by rw [h]
theorem State.quiet.clus (h : s.quiet t) : t.clus = s.clus := by rw [h]

end

section
variable (s : State)

/-! ## A slot that is loaded -/

/-- What a load whose image has passed leaves; `loadBody_written` ties it to the model. -/
def State.loadDone (k : Nat) (standby : Bool) (img : List Byte) (p : PlanRead) : State :=
  ((((((s.setSlot k fun x => { x with load := none }).slotInfo k img p).wr PLN_SLOT_STATUS.STATE
    (if standby then pSTANDBY else pLOADED) k).freshGrant k).slotView k).slotDone k)

theorem State.slotInfo_quiet (k : Nat) (img : List Byte) (p : PlanRead) : s.quiet (s.slotInfo k img p) := by
  have digest : s.quiet ((List.range 8).foldl (fun s j => s.wr PLN_DIGEST.DIGEST (quad (planDigest img) j) k j) s) :=
    foldl_quiet _ (fun s j => s.wr_quiet _ _ _ _ _) _ s
  exact (((digest.wr _ _ _ _ _).wr _ _ _ _ _).wr _ _ _ _ _).wr _ _ _ _ _

theorem State.slotView_quiet (k : Nat) : s.quiet (s.slotView k) := foldl_quiet _ (fun s _ => s.wr_quiet _ _ _ _ _) _ s

theorem State.slotOutcome_quiet (k : Nat) (f : PlanFail) : s.quiet (s.slotOutcome k f) :=
  (((s.wr_quiet _ _ _ _ _).wr _ _ _ _ _).wr _ _ _ _ _).wr _ _ _ _ _

theorem State.slotDone_quiet (k : Nat) : s.quiet (s.slotDone k) := (s.slotOutcome_quiet k _).trans (State.raise_quiet _ _ _ _)

theorem State.freshGrant_quiet (k : Nat) : s.quiet (s.freshGrant k) :=
  ((((((s.wr_quiet _ _ _ _ _).wr _ _ _ _ _).wr _ _ _ _ _).wr _ _ _ _ _).wr _ _ _ _ _).wr _ _ _ _ _).wr _ _ _ _ _

/-- A load that is done changes the slot's record and registers, and sends the interrupt. -/
theorem State.loadDone_quiet (k : Nat) (standby : Bool) (img : List Byte) (p : PlanRead) :
    (s.setSlot k fun x => { x with load := none }).quiet (s.loadDone k standby img p) :=
  (((((State.slotInfo_quiet _ k img p).wr _ _ _ _ _).trans (State.freshGrant_quiet _ k)).trans
    (State.slotView_quiet _ k)).trans (State.slotDone_quiet _ k))

theorem slotState_notDone (k : Fin 16) : PLN_SLOT_STATUS.STATE.key k 0 0 ∉
    grantKeys k ++ viewKeys k ++ (outcomeKeys k ++ [PLN_INT_STATUS.DONE.key 0 0 0]) := by revert k; decide

theorem slotGrant_notDone (k : Fin 16) : ∀ f ∈ [DLN_GRANT.G, DLN_SLOT_EXEC.EXEC], f.key k 0 0 ∉
    viewKeys k ++ (outcomeKeys k ++ [PLN_INT_STATUS.DONE.key 0 0 0]) := by revert k; decide

theorem State.slot_setSlot (k : Nat) (f : Slot → Slot) : (s.setSlot k f).slot k = f (s.slot k) := getK_setK_same _ _ _ _

/-- No further work of the slot is granted, and it does not execute (R172). -/
theorem State.freshGrant_rd (k : Fin 16) : (s.freshGrant k).rd DLN_GRANT.G k = 0
    ∧ (s.freshGrant k).rd DLN_SLOT_EXEC.EXEC k = 0 := by
  unfold State.freshGrant
  constructor
  · iterate 6 rw [State.rd_wr_ne _ _ _ _ _ _ _ _ _ _ (by revert k; decide)]
    exact State.rd_wr_same _ _ _ _ _ _
  · rw [State.rd_wr_beside _ _ _ _ _ (by decide), State.rd_wr_beside _ _ _ _ _ (by decide),
      State.rd_wr_beside _ _ _ _ _ (by decide)]
    exact State.rd_wr_same _ _ _ _ _ _

/-- What the slot shows once its load is done (R138, R141, R172). -/
theorem State.loadDone_shows (k : Fin 16) (standby : Bool) (img : List Byte) (p : PlanRead) :
    (s.loadDone k standby img p).slotSt k = (if standby then pSTANDBY else pLOADED)
      ∧ (s.loadDone k standby img p).rd DLN_GRANT.G k = 0 ∧ (s.loadDone k standby img p).rd DLN_SLOT_EXEC.EXEC k = 0 := by
  unfold State.loadDone
  generalize State.slotInfo _ _ _ _ = u
  generalize hst : (if standby then pSTANDBY else pLOADED) = st
  have small : st % 2 ^ PLN_SLOT_STATUS.STATE.width = st := by cases standby <;> subst hst <;> rfl
  generalize hv : u.wr PLN_SLOT_STATUS.STATE st k = v
  have shown : v.slotSt k = st := by subst hv; exact (State.rd_wr_same _ _ _ _ _ _).trans small
  have viewed := ((v.freshGrant k).slotView_sameRegs k).append (State.slotDone_sameRegs _ k)
  have all := (v.freshGrant_sameRegs k).append viewed
  obtain ⟨grant, exe⟩ := v.freshGrant_rd k
  refine ⟨?_, ?_, ?_⟩
  · exact (v.rd_sameRegs _ _ all _ _ _ _ (by simpa only [List.append_assoc] using slotState_notDone k)).trans shown
  · exact (State.rd_sameRegs _ _ _ viewed _ _ _ _ (slotGrant_notDone k _ (by simp))).trans grant
  · exact (State.rd_sameRegs _ _ _ viewed _ _ _ _ (slotGrant_notDone k _ (by simp))).trans exe


end

/-! ## The branches of a load's end -/

section
variable (s : State) (k : Nat) (standby : Bool) (img : List Byte)

/-- The plan a load reads; with its preloads' bytes (or what they fail with), and its clusters and scratchpads written. The
`loadBody_` lemmas tie the three to the model. -/
def State.loadPlan : PlanRead := readPlan img (s.placeOf k) k

def State.loadGather : State × Except PreRead (List (Nat × Nat × List Byte)) :=
  if standby then (s, .ok []) else s.gather (s.planCfg k img (s.loadPlan k img)).preloads

def State.loadWritten (l : List (Nat × Nat × List Byte)) : State × Bool :=
  let cfg := s.planCfg k img (s.loadPlan k img)
  let u := ((s.loadGather k standby img).1.setSlot k fun x => { x with cfg := some cfg }).takeRefs k cfg.objs
  ((s.loadPlan k img).clus.foldl (fun s e =>
    if standby then s.setClu e.1 fun x => { x with shadow := some e.2 } else s.configure e.1 e.2) u).putPreloads l

/-! Each branch of a load's end. -/

variable {s k standby img}

theorem State.loadBody_badBody {f : PlanFail} (h : s.bodyChecks k img (s.loadPlan k img) = some f) :
    s.loadBody k standby img = s.loadFails k f := by
  unfold State.loadPlan at h
  simp only [State.loadBody, h]

variable (good : s.bodyChecks k img (s.loadPlan k img) = none)
include good

theorem State.loadBody_tested (h : ((s.loadPlan k img).clus.any fun e => (s.clu e.1).bist) = true) :
    s.loadBody k standby img = s := by
  unfold State.loadPlan at good h
  simp only [State.loadBody, good, h, if_true]

variable (free : ((s.loadPlan k img).clus.any fun e => (s.clu e.1).bist) = false)
include free

theorem State.loadBody_waits (h : (s.loadGather k standby img).2 = .error .wait) :
    s.loadBody k standby img = (s.loadGather k standby img).1 := by
  unfold State.loadGather State.loadPlan at *
  simp only [State.loadBody, good, free, h]
  rfl

theorem State.loadBody_badObject {st : Nat} (h : (s.loadGather k standby img).2 = .error (.fail st)) :
    s.loadBody k standby img = (s.loadGather k standby img).1.loadFails k
      ⟨st, 0, sectIdx (s.loadPlan k img).sects tPreload, 0⟩ := by
  unfold State.loadGather State.loadPlan at *
  simp only [State.loadBody, good, free, h]
  rfl

variable {l : List (Nat × Nat × List Byte)} (read : (s.loadGather k standby img).2 = .ok l)
include read

theorem State.loadBody_badWord (h : (s.loadWritten k standby img l).2 = false) :
    s.loadBody k standby img = (s.loadWritten k standby img l).1.loadFails k
      ⟨stEcc, 0, sectIdx (s.loadPlan k img).sects tPreload, 0⟩ := by
  unfold State.loadWritten at *
  unfold State.loadGather State.loadPlan at *
  simp only [State.loadBody, good, free, read, h]
  rfl

variable (written : (s.loadWritten k standby img l).2 = true)
include written

theorem State.loadBody_badSignature {f : PlanFail} (h : (s.loadWritten k standby img l).1.sigCheck img = some f) :
    s.loadBody k standby img = (s.loadWritten k standby img l).1.loadFails k f := by
  unfold State.loadWritten at *
  unfold State.loadGather State.loadPlan at *
  simp only [State.loadBody, good, free, read, written, h]
  rfl

theorem State.loadBody_done (h : (s.loadWritten k standby img l).1.sigCheck img = none) :
    s.loadBody k standby img = (s.loadWritten k standby img l).1.loadDone k standby img (s.loadPlan k img) := by
  unfold State.loadWritten at *
  unfold State.loadGather State.loadPlan at *
  simp only [State.loadBody, good, free, read, written, h]
  rfl

end

/-! ## LOAD_COMPLETE -/

theorem exec_loadComplete {s : State} {slot : Fin 16} {standby : Bool} {img : List Byte}
    (h : (s.slot slot).load = some ⟨standby, some img⟩) :
    exec (.loadComplete slot) s = .next (s.loadBody slot standby img) := by
  change execLoadComplete slot s = _
  simp only [execLoadComplete, h]

theorem slotLoaded : Stated.SlotLoaded := by
  refine ⟨fun s slot h => ?_, fun s slot standby h => ?_, fun s slot standby img h => ?_⟩
  · change execLoadComplete slot s = _
    simp only [execLoadComplete, h]
  · change execLoadComplete slot s = _
    simp only [execLoadComplete, h]
  intro p cfg g fails tested
  have ends {t : State} (ht : s.loadBody slot standby img = t) : exec (.loadComplete slot) s = .next t :=
    (exec_loadComplete h).trans (congrArg _ ht)
  have failing {u : State} {f : PlanFail} (hf : s.loadBody slot standby img = u.loadFails slot f) :
      fails u f.status f.check := by
    obtain ⟨hstate, hstatus, hcheck, hraised, hstore⟩ := u.loadFails_failed slot f
    exact ⟨_, ends hf, hstate, hstatus, hcheck, hraised, hstore⟩
  refine ⟨fun f hf => failing (State.loadBody_badBody hf), fun good ht => ends (State.loadBody_tested good ht),
    fun good free => ⟨fun hw => ends (State.loadBody_waits good free hw),
      fun st hst => failing (State.loadBody_badObject good free hst)⟩, fun l good free read => ?_⟩
  intro u v w
  refine ⟨fun hw => failing (State.loadBody_badWord good free read hw),
    fun f hw hf => failing (State.loadBody_badSignature good free read hw hf), fun hw hs => ?_⟩
  have quiet := w.1.loadDone_quiet slot standby img p
  obtain ⟨state, grant, exe⟩ := w.1.loadDone_shows slot standby img p
  have outcome : (w.1.loadDone slot standby img p).rd PLN_SLOT_STATUS.STATUS slot = stOK
      ∧ bit ((w.1.loadDone slot standby img p).rd PLN_INT_STATUS.DONE) slot = true := State.slotDone_rd _ slot
  obtain ⟨status, done⟩ := outcome
  have loaded : ((w.1.loadDone slot standby img p).slot slot).load = none := by
    rw [State.slot, quiet.slots]
    exact congrArg Slot.load (w.1.slot_setSlot slot _)
  exact ⟨_, ends (State.loadBody_done good free read hw hs), state, loaded, status, done, grant, exe, quiet.spad,
    quiet.clus⟩

end Sys2Proof.Machine
end


section
/-! PROOFS. The claim of a load's clusters: each free one is brought up and owned, and the slot's registers stand (R72, R138). -/

namespace Sys2Proof.Machine

/-! ## Registers of clusters, which lie below those of the plan slots -/

/-- The memories, the records and the registers from the plan slots' on stand. -/
structure State.cluRegs (s t : State) : Prop where
  only : ∃ w, t = s.withRegs w
  above : ∀ d key, PLN_SLOT_STATUS.STATE.blk.base * 64 ≤ key → getK d t.regs key = getK d s.regs key

section
variable {s t u : State}

theorem State.cluRegs.refl (s : State) : s.cluRegs s := ⟨⟨_, rfl⟩, fun _ _ _ => rfl⟩

theorem State.cluRegs.trans (h : s.cluRegs t) (g : t.cluRegs u) : s.cluRegs u := by
  obtain ⟨⟨w, rfl⟩, habove⟩ := h
  obtain ⟨⟨x, rfl⟩, gabove⟩ := g
  exact ⟨⟨x, rfl⟩, fun d key hk => (gabove d key hk).trans (habove d key hk)⟩

theorem State.cluRegs.clus (h : s.cluRegs t) : t.clus = s.clus := by
  obtain ⟨⟨w, rfl⟩, -⟩ := h
  rfl

theorem State.cluRegs.slots (h : s.cluRegs t) : t.slots = s.slots := by
  obtain ⟨⟨w, rfl⟩, -⟩ := h
  rfl

end

section
variable (s : State) (c : Nat) (hc : c < 512)
include hc

/-- A field of a cluster lies below the plan slots. -/
theorem State.wr_cluRegs (f : Fld) (v r : Nat) (hblk : f.blk = .clu) (hoff : f.off ≤ 0x30) (hr : f.lo + r * f.pitch < 64) :
    s.cluRegs (s.wr f v c 0 r) := by
  refine ⟨⟨_, rfl⟩, fun d key hk => s.getK_wr_ne d f v c 0 r key ?_⟩
  have base : PLN_SLOT_STATUS.STATE.blk.base = 0xF003000000 := rfl
  have cluBase : Blk.clu.base = 0xF000000000 := rfl
  have stride : Blk.clu.stride = 0x10000 := rfl
  simp only [Fld.key, Fld.addr, hblk, cluBase, stride]
  rw [base] at hk
  omega

theorem State.setBankPwr_cluRegs (b v : Nat) (hb : b < 48) : s.cluRegs (s.setBankPwr c b v) := by
  unfold State.setBankPwr
  split
  case isTrue h => exact s.wr_cluRegs c hc _ _ _ rfl (by decide) (by simp only [CLU_BANK_PWR_WM.PWR]; omega)
  case isFalse h => exact s.wr_cluRegs c hc _ _ _ rfl (by decide) (by simp only [CLU_BANK_PWR_AP.PWR]; omega)

theorem State.allBanksOn_cluRegs : s.cluRegs (s.allBanksOn c) :=
  (s.wr_cluRegs c hc _ _ _ rfl (by decide) (by decide)).trans
    (foldl_rel State.cluRegs .refl (fun _ _ _ => .trans) _ _
      (fun s b hb => s.setBankPwr_cluRegs c hc b 0 (List.mem_range.1 hb)) _)

theorem State.bringUp_cluRegs : s.cluRegs (s.bringUp c) := by
  have low (t : State) (f : Fld) (hf : f = CLU_STATUS.STATE ∨ f = CLU_POWER.OFF_REQ) (v : Nat) : t.cluRegs (t.wr f v c) := by
    rcases hf with rfl | rfl <;> exact t.wr_cluRegs c hc _ v 0 rfl (by decide) (by decide)
  unfold State.bringUp State.cancelOff
  split
  · exact ((low s _ (.inl rfl) _).trans (low _ _ (.inr rfl) _)).trans (State.allBanksOn_cluRegs _ c hc)
  · split
    · exact (low s _ (.inr rfl) _).trans (State.allBanksOn_cluRegs _ c hc)
    · exact .refl s

end

/-! ## The claim -/

section
variable (s : State) (k : Nat)

/-- The claim of one cluster; `loadClaim_claims` ties it to the model. -/
def State.claimClu (c : Nat) : State :=
  if (s.clu c).owner.isNone then (s.bringUp c).setClu c fun x => { x with owner := some k } else s

/-- A claim gives a cluster that has no owner to the slot, and leaves every other cluster's owner. -/
theorem State.claimClu_owner (c : Nat) (hc : c < 512) (x : Nat) :
    ((s.claimClu k c).clu x).owner = if x = c ∧ (s.clu c).owner = none then some k else (s.clu x).owner := by
  have clus := (s.bringUp_cluRegs c hc).clus
  unfold State.claimClu
  simp only [Option.isNone_iff_eq_none]
  split
  case isFalse h => rw [if_neg fun hx => h hx.2]
  case isTrue h =>
    by_cases hx : x = c
    · subst hx
      rw [if_pos ⟨rfl, h⟩, State.clu_setClu]
    · rw [if_neg fun hxc => hx hxc.1, State.clu_setClu_ne _ _ _ _ hx, State.clu, clus]
      rfl

theorem State.claims_owner (l : List Nat) (hl : ∀ c ∈ l, c < 512) (c : Nat) (hc : c ∈ l) (free : (s.clu c).owner = none) :
    ((l.foldl (fun s c => s.claimClu k c) s).clu c).owner = some k := by
  induction l generalizing s with
  | nil => cases hc
  | cons y l ih =>
    have hy := hl y List.mem_cons_self
    have rest (z : Nat) (hz : z ∈ l) := hl z (List.mem_cons_of_mem y hz)
    by_cases hcy : c = y
    · subst hcy
      refine List.foldlRecOn (motive := fun t : State => (t.clu c).owner = some k) l _ ?_ fun t ht z hz => ?_
      · rw [s.claimClu_owner k c hy, if_pos ⟨rfl, free⟩]
      · rw [t.claimClu_owner k z (rest z hz), ht, ite_self]
    · refine ih _ rest ((List.mem_cons.1 hc).resolve_left hcy) ?_
      rw [s.claimClu_owner k y hy, if_neg fun h => hcy h.1, free]

/-- What the claims leave of the slots: their records and their registers. -/
structure State.slotsKept (s t : State) : Prop where
  slots : t.slots = s.slots
  above : ∀ d key, PLN_SLOT_STATUS.STATE.blk.base * 64 ≤ key → getK d t.regs key = getK d s.regs key

theorem State.claimClu_slotsKept (c : Nat) (hc : c < 512) : s.slotsKept (s.claimClu k c) := by
  have up := s.bringUp_cluRegs c hc
  unfold State.claimClu
  split
  · exact ⟨up.slots, up.above⟩
  · exact ⟨rfl, fun _ _ _ => rfl⟩

theorem State.claims_slotsKept (l : List Nat) (hl : ∀ c ∈ l, c < 512) :
    s.slotsKept (l.foldl (fun s c => s.claimClu k c) s) :=
  foldl_rel State.slotsKept (fun _ => ⟨rfl, fun _ _ _ => rfl⟩)
    (fun _ _ _ h g => ⟨g.slots.trans h.slots, fun d key hk => (g.above d key hk).trans (h.above d key hk)⟩) _ l
    (fun s c hc => s.claimClu_slotsKept k c (hl c hc)) s

/-- A placed cluster is one of the 512 (R118). -/
theorem Place.at_lt (p : Place) (j : Nat) : p.at j < 512 := by
  unfold Place.at Place.cluster
  dsimp only
  split
  case isTrue h => simp only [Option.getD_some]; omega
  case isFalse h => decide

theorem State.placed_lt (img : List Byte) (c : Nat) (hc : c ∈ s.placed k img) : c < 512 := by
  unfold State.placed at hc
  split at hc
  · cases hc
  · obtain ⟨j, -, rfl⟩ := List.mem_map.1 hc
    exact Place.at_lt _ j

end

end Sys2Proof.Machine
end


section
/-! PROOFS. LOAD and LOAD_STANDBY: the read of the image, its checks and the claim (R138 to R141, R450). -/

namespace Sys2Proof.Machine

/-! ## The branches of a load's begin -/

section
variable (s : State) (k : Nat)

/-- The lines of a slot's image fetched from the caches; and the image read. The `loadClaim_` lemmas tie both to the model. -/
def State.imgReady : State × Bool := s.prepare (keysOf (s.imgAddr k) (s.imgLen k)) false

def State.imgRead : LineRead := (s.imgReady k).1.rangeRead (s.imgAddr k) (s.imgLen k) 97 (s.partOf 97)

/-- What a claim of the image's clusters leaves. -/
def State.claimed (standby : Bool) (img : List Byte) : State :=
  (((s.placed k img).foldl (fun s c => s.claimClu k c) s).setSlot k fun x =>
    { x with load := some ⟨standby, some img⟩ }).slotView k

variable {s k} {p : Option Nat}

theorem State.loadClaim_badLength (h : s.imgLen k = 0 ∨ 2 ^ 26 < s.imgLen k ∨ s.hbmEnd < s.imgAddr k + s.imgLen k)
    (standby : Bool) : s.loadClaim k standby = s.loadFails k ⟨stPlanCheck, 1, 0, 0⟩ := by
  unfold State.loadClaim
  exact if_pos h

variable (len : ¬ (s.imgLen k = 0 ∨ 2 ^ 26 < s.imgLen k ∨ s.hbmEnd < s.imgAddr k + s.imgLen k))
include len

theorem State.loadClaim_held (h : (s.imgReady k).2 = false) (standby : Bool) :
    s.loadClaim k standby = (s.imgReady k).1 := by
  unfold State.imgReady at *
  simp only [State.loadClaim, len, h]
  rfl

variable (ready : (s.imgReady k).2 = true)
include ready

theorem State.loadClaim_poison (h : (s.imgRead k).poison = true) (standby : Bool) :
    s.loadClaim k standby = (s.imgRead k).st.loadFails k ⟨stEcc, 0, 0, 0⟩ := by
  unfold State.imgRead at *
  unfold State.imgReady at *
  simp only [State.loadClaim, len, ready, h]
  rfl

variable (clean : (s.imgRead k).poison = false)
include clean

theorem State.loadClaim_badHead {f : PlanFail} (h : (s.imgRead k).st.headChecks k (s.imgRead k).data = some f)
    (standby : Bool) : s.loadClaim k standby = (s.imgRead k).st.loadFails k f := by
  unfold State.imgRead at *
  unfold State.imgReady at *
  simp only [State.loadClaim, len, ready, clean, h]
  rfl

variable (head : (s.imgRead k).st.headChecks k (s.imgRead k).data = none) (pred : ((s.imgRead k).st.slot k).pred = p)
include head pred

theorem State.loadClaim_badClaim {f : PlanFail}
    (h : (s.imgRead k).st.claimCheck k p ((s.imgRead k).st.placed k (s.imgRead k).data)
      (sectIdx (imgTable (s.imgRead k).data) tRegion) = some f) :
    s.loadClaim k p.isSome = (s.imgRead k).st.loadFails k f := by
  have named : (if p.isSome then ((s.imgRead k).st.slot k).pred else none) = p := by cases p <;> simp [pred]
  unfold State.imgRead at *
  unfold State.imgReady at *
  simp only [State.loadClaim, len, ready, clean, head, named, h]
  rfl

theorem State.loadClaim_claimed
    (h : (s.imgRead k).st.claimCheck k p ((s.imgRead k).st.placed k (s.imgRead k).data)
      (sectIdx (imgTable (s.imgRead k).data) tRegion) = none) :
    s.loadClaim k p.isSome = (s.imgRead k).st.claimed k p.isSome (s.imgRead k).data := by
  have named : (if p.isSome then ((s.imgRead k).st.slot k).pred else none) = p := by cases p <;> simp [pred]
  unfold State.imgRead at *
  unfold State.imgReady at *
  simp only [State.loadClaim, len, ready, clean, head, named, h]
  rfl

end

/-! ## What a claim leaves -/

theorem slotState_notView (k : Fin 16) : PLN_SLOT_STATUS.STATE.key k 0 0 ∉ viewKeys k := by revert k; decide

theorem slotState_above (k : Nat) : PLN_SLOT_STATUS.STATE.blk.base * 64 ≤ PLN_SLOT_STATUS.STATE.key k 0 0 := by
  simp only [Fld.key, Fld.addr]
  omega

/-- The slot awaits the rest of its load with the image read, its free clusters are owned, and its state stands. -/
theorem State.claimed_shows (s : State) (k : Fin 16) (standby : Bool) (img : List Byte) :
    ((s.claimed k standby img).slot k).load = some ⟨standby, some img⟩
      ∧ (∀ c ∈ s.placed k img, (s.clu c).owner = none → ((s.claimed k standby img).clu c).owner = some k.val)
      ∧ (s.claimed k standby img).slotSt k = s.slotSt k := by
  unfold State.claimed
  have placed := s.placed_lt k img
  have owners := s.claims_owner k _ placed
  have kept := s.claims_slotsKept k _ placed
  generalize (s.placed k img).foldl (fun s c => s.claimClu k c) s = u at *
  generalize hv : (u.setSlot k fun x => { x with load := some ⟨standby, some img⟩ }) = v
  have vclus : v.clus = u.clus := by subst hv; rfl
  have vregs : v.regs = u.regs := by subst hv; rfl
  have vslot : (v.slot k).load = some ⟨standby, some img⟩ := by
    subst hv
    exact congrArg Slot.load (u.slot_setSlot k _)
  have viewed := v.slotView_quiet k
  refine ⟨?_, fun c hc free => ?_, ?_⟩
  · rw [State.slot, viewed.slots]
    exact vslot
  · rw [State.clu, viewed.clus, vclus]
    exact owners c hc free
  · calc
      (v.slotView k).slotSt k = v.slotSt k := v.rd_sameRegs _ _ (v.slotView_sameRegs k) _ _ _ _ (slotState_notView k)
      _ = u.slotSt k := by rw [State.slotSt, State.slotSt, State.rd, State.rd, vregs]
      _ = s.slotSt k := kept.above _ _ (slotState_above k)

/-! ## LOAD and LOAD_STANDBY -/

section
variable (s : State) (k : Nat) (p : Option Nat)

/-- The slot once its load is accepted; `startLoad_accepted` ties it to the model. -/
def State.loadAccepted : State :=
  ((s.slotOutcome k ⟨stOK, 0, 0, 0⟩).wr PLN_SLOT_STATUS.STATE pLOADING k).setSlot k
    fun _ => { Slot.empty with load := some ⟨p.isSome, none⟩, pred := p }

variable {s k p}

theorem State.startLoad_stopped (h : s.board.boot.stopped = true) : s.startLoad k p = s := by
  unfold State.startLoad
  exact if_pos h

variable (runs : s.board.boot.stopped = false)
include runs

theorem State.startLoad_accepted (idle : s.slotSt k = pEMPTY ∨ s.slotSt k = pFAILED) (serves : s.on RAS_SERVICE.OUT = false) :
    s.startLoad k p = (s.loadAccepted k p).loadClaim k p.isSome := by
  unfold State.startLoad State.loadAccepted
  simp only [runs, idle, serves]
  rfl

theorem State.startLoad_rejected
    (h : (s.slotSt k ≠ pEMPTY ∧ s.slotSt k ≠ pFAILED) ∨ s.on RAS_SERVICE.OUT = true) : s.startLoad k p = s.slotRejects k := by
  have refused : ¬ ((s.slotSt k = pEMPTY ∨ s.slotSt k = pFAILED) ∧ ¬ s.on RAS_SERVICE.OUT) := by
    rintro ⟨idle, serves⟩
    obtain ⟨hempty, hfailed⟩ | out := h
    · exact idle.elim hempty hfailed
    · exact serves out
  unfold State.startLoad
  simp only [runs, refused]
  rfl

end

/-- A load is read and claimed as R138 gives, for either command: `v` is the state once the command's register is written. -/
theorem slotLoading : Stated.SlotLoading := by
  intro s o slot pred hd go
  have does (i : Instr) (v : State) (p : Option Nat) (hi : exec i s = .next (v.startLoad slot p)) : go i v p := by
    unfold go
    intro u n q r fails
    refine ⟨fun stopped => hi.trans (congrArg _ (State.startLoad_stopped stopped)), fun runs idle serves => ?_, fun runs h => ?_⟩
    · have begins {t : State} (ht : u.loadClaim slot p.isSome = t) : exec i s = .next t :=
        hi.trans (congrArg _ ((State.startLoad_accepted runs idle serves).trans ht))
      have failing {x : State} {f : PlanFail} (hf : u.loadClaim slot p.isSome = x.loadFails slot f) :
          fails f.status f.check := by
        obtain ⟨hstate, hstatus, hcheck, hraised, -⟩ := x.loadFails_failed slot f
        exact ⟨_, begins hf, hstate, hstatus, hcheck, hraised⟩
      have good (h0 : n ≠ 0) (hmax : n ≤ 2 ^ 26) (hend : u.imgAddr slot + n ≤ u.hbmEnd) :
          ¬ (n = 0 ∨ 2 ^ 26 < n ∨ u.hbmEnd < u.imgAddr slot + n) := by omega
      refine ⟨fun bad => failing (State.loadClaim_badLength bad _), fun h0 hmax hend => ?_,
        fun h0 hmax hend ready clean head claim hpred => ?_⟩
      · have len := good h0 hmax hend
        exact ⟨fun held => begins (State.loadClaim_held len held _),
          fun ready poison => failing (State.loadClaim_poison len ready poison _),
          fun f ready clean head => failing (State.loadClaim_badHead len ready clean head _),
          fun f ready clean head hpred claim => failing (State.loadClaim_badClaim len ready clean head hpred claim)⟩
      · have claims := State.loadClaim_claimed (good h0 hmax hend) ready clean head hpred claim
        exact ⟨_, begins claims, r.st.claimed_shows slot p.isSome r.data⟩
    · exact ⟨_, hi.trans (congrArg _ (State.startLoad_rejected runs h)), State.rd_wr_same _ _ _ _ _ _,
        v.sameRegs_wr _ _ _ _ _, rfl⟩
  constructor
  · refine does _ _ _ ?_
    change execLoad o slot s = _
    rw [execLoad, s.asReg_direct o _ _ hd]
  · refine does _ _ _ ?_
    change execLoadStandby o slot pred s = _
    rw [execLoadStandby, s.asReg_direct o _ _ hd]

/-- Settles O30: a load either fails with its check, waits, or leaves its clusters claimed and, once complete, the slot
loaded. -/
theorem slotLoads : Obligations.SlotLoads := ⟨slotLoading, slotLoaded⟩

end Sys2Proof.Machine
end


section
/-! PROOFS. Commands that are stores: one acts at once, or goes behind the earlier stores of its core (R190, R195, R250). -/

namespace Sys2Proof.Machine

theorem State.core_setCore (s : State) (h : Nat) (f : Core → Core) : (s.setCore h f).core h = f (s.core h) :=
  getK_setK_same _ _ _ _

section
variable {s : State} {o : Origin} {addr : Nat} {fs : List (Fld × Nat)} {f : State → State}

/-- A command that is the store of a register's word waits behind the stores in its core's buffer. -/
theorem State.asRegStore_goesBehind {i : Instr} {word : Nat} (hi : exec i s = .next (s.asRegStore o addr fs f))
    (hword : wordOfFields fs = word) : s.goesBehind o i addr word := by
  subst hword
  rintro h m rfl waits room
  have behind : s.asRegStore (.core h m) addr fs f = s.setCore h fun c => { c with
      buf := c.buf ++ [⟨addr / 64, [], some (addr, leBytes 8 (wordOfFields fs)), false, false, false⟩] } := by
    simp [State.asRegStore, State.storeIo, waits, Nat.not_le.2 room]
  exact ⟨_, hi.trans (congrArg _ behind), by rw [State.core_setCore], rfl⟩

/-- It acts at once where no earlier store waits. -/
theorem State.asRegStore_direct (hd : s.direct o) (hs : s.storesDone o) : s.asRegStore o addr fs f = f s := by
  have gate := s.asReg_direct o addr f hd
  cases o with
  | core h m =>
    have empty : (s.core h).buf.isEmpty = true := by rw [hs h m rfl]; rfl
    rw [State.asRegStore, if_pos empty, gate]
  | _ => exact gate

end

/-- The word of DLN_SLOT_CMD (R150). -/
theorem wordOfFields_slotCmd (cmd passes : Nat) (cont : Bool) (hcmd : cmd < 8) (hp : passes < 2 ^ 32) :
    wordOfFields [(DLN_SLOT_CMD.CMD, cmd), (DLN_SLOT_CMD.CONT, b2n cont), (DLN_SLOT_CMD.PASSES, passes)]
      = cmd + (if cont then 8 else 0) + passes * 2 ^ 8 := by
  have hc : cmd % 2 ^ DLN_SLOT_CMD.CMD.width = cmd := Nat.mod_eq_of_lt hcmd
  have hpasses : passes % 2 ^ DLN_SLOT_CMD.PASSES.width = passes := Nat.mod_eq_of_lt hp
  have hcont : b2n cont % 2 ^ DLN_SLOT_CMD.CONT.width * 2 ^ DLN_SLOT_CMD.CONT.lo = if cont then 8 else 0 := by
    cases cont <;> rfl
  simp only [wordOfFields, List.foldl_cons, List.foldl_nil, hc, hpasses, hcont]
  simp [DLN_SLOT_CMD.CMD, DLN_SLOT_CMD.PASSES]

end Sys2Proof.Machine
end


section
/-! PROOFS. What a change of a slot's grant writes, and what it leaves (R150 to R153). -/

namespace Sys2Proof.Machine

/-! ## EXEC, DLN_STARTED and DLN_DONE follow (R153) -/

section
variable (s : State) (k : Nat)

/-- The keys of what execUpdate writes, and with them of the cluster states that a grant sets. -/
def execKeys : List Nat :=
  [DLN_STARTED.BEGUN, DLN_DONE.DONE, DLN_SLOT_EXEC.EXEC, DLN_INT_STATUS.IDLE].map (·.key k 0 0)
def followKeys (cs : List Nat) : List Nat := cs.map (CLU_STATUS.STATE.key · 0 0) ++ execKeys k

/-- DLN_STARTED and DLN_DONE are written; EXEC then stands, becomes IDLE with its interrupt, or becomes ACTIVE. -/
theorem State.execUpdate_cases : ∃ begun done, let u := (s.wr DLN_STARTED.BEGUN begun k).wr DLN_DONE.DONE done k
    s.execUpdate k = u ∨ s.execUpdate k = (u.wr DLN_SLOT_EXEC.EXEC 0 k).raise DLN_INT_STATUS.IDLE k
      ∨ s.execUpdate k = u.wr DLN_SLOT_EXEC.EXEC 1 k := by
  generalize ht : s.execUpdate k = t
  unfold State.execUpdate at ht
  extract_lets cl begun u g old isIdle at ht
  refine ⟨_, _, show t = u ∨ t = (u.wr DLN_SLOT_EXEC.EXEC 0 k).raise DLN_INT_STATUS.IDLE k
    ∨ t = u.wr DLN_SLOT_EXEC.EXEC 1 k from ?_⟩
  subst ht
  by_cases halted : 2 ≤ old
  · exact .inl (if_pos halted)
  rw [if_neg halted]
  by_cases idle : isIdle = true
  · rw [if_pos idle]
    by_cases active : old = 1
    · exact .inr (.inl (if_pos active))
    · exact .inl (if_neg active)
  · exact .inr (.inr (if_neg idle))

theorem State.execUpdate_quiet : s.quiet (s.execUpdate k) := by
  obtain ⟨b, d, h | h | h⟩ := s.execUpdate_cases k <;> rw [h]
  · exact (s.wr_quiet _ _ _ _ _).wr _ _ _ _ _
  · exact (((s.wr_quiet _ _ _ _ _).wr _ _ _ _ _).wr _ _ _ _ _).trans (State.raise_quiet _ _ _ _)
  · exact ((s.wr_quiet _ _ _ _ _).wr _ _ _ _ _).wr _ _ _ _ _

theorem State.execUpdate_sameRegs : s.sameRegs (s.execUpdate k) (execKeys k) := by
  obtain ⟨b, d, h | h | h⟩ := s.execUpdate_cases k <;> rw [h]
  all_goals have counts := ((s.sameRegs_refl []).wr DLN_STARTED.BEGUN b k 0 0).wr DLN_DONE.DONE d k 0 0
  · exact State.sameRegs_mono _ _ _ _ counts (by simp [execKeys])
  · exact State.sameRegs_mono _ _ _ _ ((counts.wr DLN_SLOT_EXEC.EXEC 0 k 0 0).append
      (State.sameRegs_raise _ DLN_INT_STATUS.IDLE k 1)) (by simp [execKeys])
  · exact State.sameRegs_mono _ _ _ _ (counts.wr DLN_SLOT_EXEC.EXEC 1 k 0 0) (by simp [execKeys])

/-! ## A grant is set (R150, R152) -/

/-- The clusters that run a pass take the state that the grant gives; `setGrant_eq` ties it to the model. -/
def State.followGrant (g : Nat) : State :=
  (s.owned k).foldl (fun s c =>
    if s.running c ∧ (s.clu c).inPass then s.wr CLU_STATUS.STATE (passState (s.clu c).pass g) c else s) s

theorem State.setGrant_eq (g : Nat) : s.setGrant k g
    = (((s.wr DLN_GRANT.G g k).wr DLN_SLOT_EXEC.CONT (b2n (g == gCont)) k).followGrant k g).execUpdate k := rfl

theorem State.followGrant_quiet (g : Nat) : s.quiet (s.followGrant k g) :=
  foldl_quiet _ (fun s c => by
    split
    · exact s.wr_quiet _ _ _ _ _
    · exact s.quiet_refl) _ s

theorem State.followGrant_sameRegs (g : Nat) :
    s.sameRegs (s.followGrant k g) ((s.owned k).map (CLU_STATUS.STATE.key · 0 0)) := by
  refine foldl_rel (fun s t => s.sameRegs t _) (fun s => s.sameRegs_refl _) (fun s t u => s.sameRegs_trans t u _) _ _
    (fun t c hc => ?_) s
  split
  · exact State.sameRegs_mono _ _ _ _ (t.sameRegs_wr _ _ _ _ _) fun x hx => by
      rw [List.mem_singleton.1 hx]; exact List.mem_map_of_mem hc
  · exact t.sameRegs_refl _

theorem State.setGrant_quiet (g : Nat) : s.quiet (s.setGrant k g) := by
  rw [s.setGrant_eq]
  exact (((s.wr_quiet _ _ _ _ _).wr _ _ _ _ _).trans (State.followGrant_quiet _ k g)).trans (State.execUpdate_quiet _ k)

theorem State.stopGrant_quiet : s.quiet (s.stopGrant k) := s.setGrant_quiet k _

end

/-- No number of a cluster gives its state the key of a slot's grant or CONT. -/
theorem slotGrant_notFollowed (k : Fin 16) (cs : List Nat) :
    ∀ f ∈ [DLN_GRANT.G, DLN_SLOT_EXEC.CONT], f.key k 0 0 ∉ followKeys k cs := by
  have own : ∀ f ∈ [DLN_GRANT.G, DLN_SLOT_EXEC.CONT], f.key k 0 0 ∉ execKeys k := by revert k; decide
  have apart (c : Nat) : DLN_GRANT.G.key k 0 0 ≠ CLU_STATUS.STATE.key c 0 0
      ∧ DLN_SLOT_EXEC.CONT.key k 0 0 ≠ CLU_STATUS.STATE.key c 0 0 := by
    simp only [Fld.key, Fld.addr, DLN_GRANT.G, DLN_SLOT_EXEC.CONT, CLU_STATUS.STATE, Blk.base, Blk.stride]
    omega
  intro f hf hmem
  rcases List.mem_append.1 hmem with hclu | hexec
  · obtain ⟨c, -, hc⟩ := List.mem_map.1 hclu
    obtain ⟨grant, cont⟩ := apart c
    simp only [List.mem_cons, List.not_mem_nil, or_false] at hf
    rcases hf with rfl | rfl
    · exact grant hc.symm
    · exact cont hc.symm
  · exact own f hf hexec

section
variable (s : State) (k : Fin 16)

/-- DLN_GRANT shows the grant, and CONT whether it is continuous (R150). -/
theorem State.setGrant_rd (g : Nat) : (s.setGrant k g).rd DLN_GRANT.G k = g % 2 ^ 48
    ∧ (s.setGrant k g).rd DLN_SLOT_EXEC.CONT k = b2n (g == gCont) := by
  have written : DLN_GRANT.G.key k 0 0 ≠ DLN_SLOT_EXEC.CONT.key k 0 0 := by revert k; decide
  rw [s.setGrant_eq]
  generalize hu : (s.wr DLN_GRANT.G g k).wr DLN_SLOT_EXEC.CONT (b2n (g == gCont)) k = u
  have follows := (u.followGrant_sameRegs k g).append (State.execUpdate_sameRegs _ k)
  have stands (f : Fld) (hf : f ∈ [DLN_GRANT.G, DLN_SLOT_EXEC.CONT]) :=
    u.rd_sameRegs _ _ follows f k 0 0 (slotGrant_notFollowed k _ f hf)
  constructor
  · rw [stands _ (by simp), ← hu, State.rd_wr_ne _ _ _ _ _ _ _ _ _ _ written]
    exact State.rd_wr_same _ _ _ _ _ _
  · rw [stands _ (by simp), ← hu, State.rd_wr_same]
    cases g == gCont <;> rfl

end

/-- More passes leave a grant of 48 bits (R150). -/
theorem addPasses_lt {g : Nat} (hg : g < 2 ^ 48) (p : Nat) : addPasses g p < 2 ^ 48 := by
  unfold addPasses
  split <;> omega

/-! ## The tests that a pass abandons (R452) -/

section
variable (s : State)

theorem State.abandonTest_regs (kind target : Nat) : ∃ w, s.abandonTest kind target = s.withRegs w := by
  unfold State.abandonTest
  split
  · exact ⟨_, rfl⟩
  · exact s.withRegs_base

/-- The memories and the records of the slots stand. -/
structure State.storeAndSlots (s t : State) : Prop where
  store : s.sameStore t
  slots : t.slots = s.slots

theorem State.storeAndSlots.trans {s t u : State} (h : s.storeAndSlots t) (g : t.storeAndSlots u) : s.storeAndSlots u :=
  ⟨h.store.trans g.store, g.slots.trans h.slots⟩

theorem State.abandonCluTests_kept (c : Nat) : s.storeAndSlots (s.abandonCluTests c) := by
  unfold State.abandonCluTests
  split
  · obtain ⟨w, hw⟩ := s.abandonTest_regs 0 c
    rw [hw]
    exact ⟨⟨rfl, rfl, rfl, rfl⟩, rfl⟩
  · exact ⟨s.sameStore_refl, rfl⟩

theorem State.abandonSlotTests_kept (k : Nat) : s.storeAndSlots (s.abandonSlotTests k) :=
  foldl_rel State.storeAndSlots (fun s => ⟨s.sameStore_refl, rfl⟩) (fun _ _ _ => .trans) _ _
    (fun s c _ => s.abandonCluTests_kept c) s

theorem State.setGrant_kept (k : Fin 16) (g : Nat) : s.storeAndSlots (s.setGrant k g) :=
  ⟨by rw [s.setGrant_quiet k g]; exact s.sameStore_refl, (s.setGrant_quiet k g).slots⟩

end

end Sys2Proof.Machine
end


section
/-! PROOFS. PASS_START, PASS_STOP and MOLT: each branch, and the statement about grants (R150, R167). -/

namespace Sys2Proof.Machine

/-! ## The branches of the commands -/

section
variable {s : State} {k : Nat} (takes : s.execTakes k = true) (refuses : s.execTakes k = false)

section
include takes

theorem State.passStart_taken {p : Nat} (hp : p ≠ 0) :
    s.passStart k p = (s.abandonSlotTests k).setGrant k (addPasses (s.rd DLN_GRANT.G k) p) := by
  simp [State.passStart, takes, hp]

theorem State.passStart_none : s.passStart k 0 = s := by simp [State.passStart, takes]

theorem State.passStartCont_taken : s.passStartCont k = (s.abandonSlotTests k).setGrant k gCont := by
  simp [State.passStartCont, takes]

theorem State.execTakes_loaded : s.slotSt k = pLOADED := by
  unfold State.execTakes at takes
  exact beq_iff_eq.1 (Bool.and_eq_true_iff.1 takes).1

end

section
include refuses

theorem State.passStart_rejected (p : Nat) : s.passStart k p = s.execRejects k := by simp [State.passStart, refuses]

theorem State.passStartCont_rejected : s.passStartCont k = s.execRejects k := by simp [State.passStartCont, refuses]

end

theorem State.passStop_idle (h : s.rd DLN_SLOT_EXEC.EXEC k = 0) : s.passStop k = s := by simp only [State.passStop, h]

theorem State.passStop_active (h : s.rd DLN_SLOT_EXEC.EXEC k = 1) : s.passStop k = s.stopGrant k := by
  simp only [State.passStop, h]

theorem State.passStop_rejected (h : 2 ≤ s.rd DLN_SLOT_EXEC.EXEC k) : s.passStop k = s.execRejects k := by
  unfold State.passStop
  split
  case h_1 h0 => omega
  case h_2 h1 => omega
  case h_3 => rfl

end

/-! ## MOLT (R167) -/

section
variable (s : State) (k q : Nat)

/-- The two slots of a molt are bound to each other, MOLTING; `startMolt_taken` ties it to the model. -/
def State.bindMolt (first : Nat) : State :=
  ((((s.wr DLN_SLOT_EXEC.EXEC 2 q).wr DLN_SLOT_EXEC.EXEC 2 k).setSlot q fun x => { x with molt := some k }).setSlot k
    fun x => { x with molt := some q, firstGrant := first })

theorem State.startMolt_taken (p : Nat) (cont : Bool) (hpred : (s.slot k).pred = some q) (hst : s.slotSt k = pSTANDBY)
    (hmolt : (s.slot k).molt = none) (takes : s.execTakes q = true) : s.startMolt k p cont =
      (if s.rd DLN_SLOT_EXEC.EXEC q = 1 then s.stopGrant q else s).bindMolt k q (if cont then gCont else p) := by
  have standby : s.rd PLN_SLOT_STATUS.STATE k = 3 := hst
  simp only [State.startMolt, hpred, standby, hmolt, takes, and_self, if_true]
  rfl

theorem State.startMolt_rejected (p : Nat) (cont : Bool) (hpred : (s.slot k).pred = none) :
    s.startMolt k p cont = s.execRejects k := by
  simp [State.startMolt, hpred]

theorem State.slot_setSlot_ne (f : Slot → Slot) (h : q ≠ k) : (s.setSlot k f).slot q = s.slot q :=
  getK_setK_ne _ _ _ _ _ _ h

/-- What a molt leaves in the two slots. -/
theorem State.bindMolt_shows (first : Nat) (hne : q ≠ k) :
    (s.bindMolt k q first).rd DLN_SLOT_EXEC.EXEC q = 2 ∧ (s.bindMolt k q first).rd DLN_SLOT_EXEC.EXEC k = 2
      ∧ ((s.bindMolt k q first).slot q).molt = some k ∧ ((s.bindMolt k q first).slot k).molt = some q
      ∧ ((s.bindMolt k q first).slot k).firstGrant = first ∧ (s.bindMolt k q first).clus = s.clus := by
  have own : ((s.wr DLN_SLOT_EXEC.EXEC 2 q).wr DLN_SLOT_EXEC.EXEC 2 k).rd DLN_SLOT_EXEC.EXEC k = 2 :=
    State.rd_wr_same _ _ _ _ _ _
  have other : ((s.wr DLN_SLOT_EXEC.EXEC 2 q).wr DLN_SLOT_EXEC.EXEC 2 k).rd DLN_SLOT_EXEC.EXEC q = 2 := by
    rw [State.rd_wr_ne _ _ _ _ _ _ _ _ _ _ (by simp only [Fld.key, Fld.addr, DLN_SLOT_EXEC.EXEC, Blk.stride]; omega)]
    exact State.rd_wr_same _ _ _ _ _ _
  refine ⟨other, own, ?_, ?_, ?_, rfl⟩
  · rw [State.bindMolt, State.slot_setSlot_ne _ _ _ _ hne, State.slot_setSlot]
  · rw [State.bindMolt, State.slot_setSlot]
  · rw [State.bindMolt, State.slot_setSlot]

/-- A molt that is taken binds the two slots, with its first grant, and leaves the clusters (R150, R167 order 1). -/
theorem State.startMolt_shows (p : Nat) (cont : Bool) (hpred : (s.slot k).pred = some q) (hst : s.slotSt k = pSTANDBY)
    (hmolt : (s.slot k).molt = none) (takes : s.execTakes q = true) :
    let t := s.startMolt k p cont
    t.rd DLN_SLOT_EXEC.EXEC q = 2 ∧ t.rd DLN_SLOT_EXEC.EXEC k = 2 ∧ (t.slot q).molt = some k ∧ (t.slot k).molt = some q
      ∧ (t.slot k).firstGrant = (if cont then gCont else p) ∧ t.clus = s.clus := by
  have hne : q ≠ k := by
    rintro rfl
    exact absurd (hst.symm.trans (State.execTakes_loaded takes)) (by decide)
  intro t
  have ht : t = _ := s.startMolt_taken k q p cont hpred hst hmolt takes
  rw [ht]
  split
  · obtain ⟨other, own, otherMolt, ownMolt, first, clus⟩ :=
      (s.stopGrant q).bindMolt_shows k q (if cont then gCont else p) hne
    exact ⟨other, own, otherMolt, ownMolt, first, clus.trans (s.stopGrant_quiet q).clus⟩
  · exact s.bindMolt_shows k q _ hne

end

/-! ## The statement -/

/-- A command that is rejected sets CMD_REJECT and does nothing else (R150). -/
theorem State.execRejects_only (s : State) (k : Nat) : (s.execRejects k).rd DLN_SLOT_EXEC.CMD_REJECT k = 1
    ∧ s.sameRegs (s.execRejects k) [DLN_SLOT_EXEC.CMD_REJECT.key k 0 0]
    ∧ s.execRejects k = { s with regs := (s.execRejects k).regs } :=
  ⟨State.rd_wr_same _ _ _ _ _ _, s.sameRegs_wr _ _ _ _ _, rfl⟩

/-- Settles O32, by the command and by whether the slot takes it. -/
theorem grants : Obligations.Grants := by
  intro s o slot g cmd rejects
  have behind (i : Instr) (n passes : Nat) (cont : Bool) (f : State → State)
      (hi : exec i s = .next (s.slotStore o slot n cont passes f)) (hn : n < 8) (hp : passes < 2 ^ 32) :
      s.goesBehind o i cmd (n + (if cont then 8 else 0) + passes * 2 ^ 8) :=
    State.asRegStore_goesBehind hi (wordOfFields_slotCmd n passes cont hn hp)
  refine ⟨fun p => behind _ 1 _ false _ rfl (by decide) p.isLt, behind _ 1 0 true _ rfl (by decide) (by decide),
    behind _ 2 0 false _ rfl (by decide) (by decide), fun p cont => behind _ 3 _ cont _ rfl (by decide) p.isLt,
    fun hd hs => ?_⟩
  have acts {i : Instr} {n passes : Nat} {cont : Bool} {f : State → State} {t : State}
      (hi : exec i s = .next (s.slotStore o slot n cont passes f)) (hf : f s = t) : exec i s = .next t :=
    hi.trans (congrArg _ ((State.asRegStore_direct hd hs).trans hf))
  have rejected {i : Instr} (hi : exec i s = .next (s.execRejects slot)) : rejects i := ⟨_, hi, s.execRejects_only slot⟩
  have granted (n : Nat) := (s.abandonSlotTests_kept slot).trans ((s.abandonSlotTests slot).setGrant_kept slot n)
  refine ⟨fun p takes hp hg => ?_, fun takes => acts rfl (State.passStart_none takes),
    fun p refuses => rejected (acts rfl (State.passStart_rejected refuses _)), fun takes => ?_,
    fun refuses => rejected (acts rfl (State.passStartCont_rejected refuses)), fun active => ?_,
    fun idle => acts rfl (State.passStop_idle idle), fun h => rejected (acts rfl (State.passStop_rejected h)),
    fun p cont q hpred hst hmolt takes => ?_, fun p cont hpred => rejected (acts rfl (s.startMolt_rejected _ _ _ hpred))⟩
  · have positive : p.toNat ≠ 0 := fun h => hp (BitVec.eq_of_toNat_eq h)
    obtain ⟨hgrant, -⟩ := (s.abandonSlotTests slot).setGrant_rd slot (addPasses g p.toNat)
    obtain ⟨store, slots⟩ := granted (addPasses g p.toNat)
    exact ⟨_, acts rfl (State.passStart_taken takes positive),
      hgrant.trans (Nat.mod_eq_of_lt (addPasses_lt hg _)), store, slots⟩
  · obtain ⟨hgrant, hcont⟩ := (s.abandonSlotTests slot).setGrant_rd slot gCont
    obtain ⟨store, slots⟩ := granted gCont
    exact ⟨_, acts rfl (State.passStartCont_taken takes), hgrant.trans rfl, hcont.trans rfl, store, slots⟩
  · have quiet := s.stopGrant_quiet slot
    obtain ⟨hgrant, -⟩ := s.setGrant_rd slot (min g ((s.owned slot).foldl (fun m c => max m (s.clu c).begun) 0))
    exact ⟨_, acts rfl (State.passStop_active active), hgrant, quiet.clus, quiet.slots, (s.setGrant_kept slot _).store⟩
  · exact ⟨_, acts rfl rfl, s.startMolt_shows slot q _ cont hpred hst hmolt takes⟩

end Sys2Proof.Machine
end

section
/-! PROOFS. Where the statement about counters' targets fails: a counter beyond the 256 of a cluster (R186, R187). -/

namespace Sys2Proof.Machine

/-- The number of a counter beyond the 256 of a cluster, at which LND_CNT.COUNT has the key of LND_INT_STATUS.WATCH. -/
def strayCounter : Nat := (LND_INT_STATUS.WATCH.off - LND_CNT.COUNT.off) / LND_CNT.COUNT.step

theorem strayCounter_same : LND_CNT.COUNT.key 0 strayCounter 0 = LND_INT_STATUS.WATCH.key 0 0 0 := by decide

/-- The watch of cluster 0 is armed for strayCounter, which its register of 8 bits cannot name, to reach 0. -/
def strayWatch : State :=
  { State.reset with regs := [(LND_WATCH.CNT.key 0 0 0, strayCounter), (LND_WATCH.ARMED.key 0 0 0, 1)] }

/-- An advance by 2 fires the watch, and WATCH, which is set, stands in the counter. -/
theorem strayWatch_advanced : strayWatch.cnt 0 strayCounter = 0 ∧ (strayWatch.advance 0 strayCounter 2).cnt 0 strayCounter = 1 := by
  decide +kernel

/-- Refutes O37: its third part takes every number of a counter and every watch. At a number beyond the 256 counters of R186 the
counter's key can be that of another register: here the watch, armed for that number, fires and its STATUS bit takes the
place of the count. The 256 counters do count so, by `State.cnt_advance`. -/
theorem not_counterTargets : ¬ Obligations.CounterTargets := by
  intro h
  obtain ⟨-, -, counts, -⟩ := h
  obtain ⟨before, after⟩ := strayWatch_advanced
  have counted := counts strayWatch 0 strayCounter 2
  rw [after, before] at counted
  exact absurd counted (by decide)

end Sys2Proof.Machine
end

section
/-! PROOFS. A mover's record and its registers: what each update of them changes, and what it leaves (R182, R204). -/

namespace Sys2Proof.Machine

/-! ## The move of a mover -/

section
variable (s : State) (c : Nat)

theorem State.mover_setMover (m : Nat) (f : Mover → Mover) : (s.setMover c m f).mover c m = f (s.mover c m) := by
  unfold State.mover State.setMover
  rw [s.clu_setClu]
  by_cases hm : m = 0 <;> simp [hm]

theorem State.mover_setMover_other (m : Fin 2) (f : Mover → Mover) :
    (s.setMover c m f).mover c (1 - m) = s.mover c (1 - m) := by
  unfold State.mover State.setMover
  rw [s.clu_setClu]
  match m with
  | 0 => rfl
  | 1 => rfl

theorem State.setMover_sameClus (m : Nat) (f : Mover → Mover) : s.sameClus (s.setMover c m f) c :=
  fun d hd => s.clu_setClu_ne c _ d hd

variable {s c} {m : Nat} {v : Move}

theorem State.cur_setMove (hv : (s.mover c m).cur = some v) (f : Move → Move) :
    ((s.setMove c m f).mover c m).cur = some (f v) := by
  rw [State.setMove, s.mover_setMover, hv]
  rfl

theorem State.hostq_setMove (f : Move → Move) : ((s.setMove c m f).mover c m).hostq = (s.mover c m).hostq := by
  rw [State.setMove, s.mover_setMover]

/-- A mover that has a move takes no other (R182). -/
theorem State.dispatch_busy (hv : (s.mover c m).cur = some v) : s.dispatch c m = s := by
  simp [State.dispatch, hv]

end

/-! ## MOV_STATE -/

/-- The registers whose keys are `b` or more stand. -/
def State.regsFrom (s t : State) (b : Nat) : Prop := ∀ d k, b ≤ k → getK d t.regs k = getK d s.regs k

/-- The first key behind MOV_STATE of a cluster: the cluster's other mover registers, and all its landing registers, are at
this key or above. -/
def moverFloor (c : Nat) : Nat := (Blk.mov.base + c * Blk.mov.stride + 8) * 64

section
variable {s t u : State} {b : Nat}

theorem State.regsFrom.trans (h : s.regsFrom t b) (g : t.regsFrom u b) : s.regsFrom u b :=
  fun d k hk => (g d k hk).trans (h d k hk)

theorem State.regsFrom.rd (h : s.regsFrom t b) (f : Fld) (i j r : Nat) (hk : b ≤ f.key i j r) : t.rd f i j r = s.rd f i j r :=
  h _ _ hk

theorem State.regsFrom.wr (h : s.regsFrom t b) (f : Fld) (v i j r : Nat) (hk : f.key i j r < b) :
    s.regsFrom (t.wr f v i j r) b :=
  h.trans fun d k hb => t.getK_wr_ne d f v i j r k (by omega)

end

section
variable (c : Nat)

/-- A field of MOV_STATE lies below the floor. -/
theorem movState_below (f : Fld) (h : f.blk = .mov ∧ f.off = 0 ∧ f.lo < 64) : f.key c 0 0 < moverFloor c := by
  obtain ⟨hblk, hoff, hlo⟩ := h
  simp only [Fld.key, Fld.addr, moverFloor, hblk, hoff]
  omega

/-- A mover register of a cluster behind MOV_STATE is above the floor. -/
theorem moverFloor_le_mov (f : Fld) (h : f.blk = .mov ∧ 8 ≤ f.off) (j r : Nat) : moverFloor c ≤ f.key c j r := by
  obtain ⟨hblk, hoff⟩ := h
  simp only [Fld.key, Fld.addr, moverFloor, hblk]
  omega

/-- The landing registers of a cluster are above the floor. -/
theorem moverFloor_le_lnd (f : Fld) (h : f.blk = .lnd) (j r : Nat) : moverFloor c ≤ f.key c j r := by
  have movBase : Blk.mov.base = 0xF005000000 := rfl
  have lndBase : Blk.lnd.base = 0xF006000000 := rfl
  have movStride : Blk.mov.stride = 0x1000 := rfl
  have lndStride : Blk.lnd.stride = 0x1000 := rfl
  simp only [Fld.key, Fld.addr, moverFloor, h, movBase, lndBase, movStride, lndStride]
  omega

variable (s : State) (m : Nat)

/-- MOV_STATE alone shows a mover's move. -/
theorem State.moverView_only : (∃ w, s.moverView c m = s.withRegs w) ∧ s.regsFrom (s.moverView c m) (moverFloor c) := by
  have below := movState_below c
  have base : s.regsFrom s (moverFloor c) := fun _ _ _ => rfl
  unfold State.moverView
  split
  · exact ⟨⟨_, rfl⟩, (((base.wr _ _ _ _ _ (below _ (by decide))).wr _ _ _ _ _ (below _ (by decide))).wr _ _ _ _ _
      (below _ (by decide))).wr _ _ _ _ _ (below _ (by decide))⟩
  · exact ⟨⟨_, rfl⟩, (((base.wr _ _ _ _ _ (below _ (by decide))).wr _ _ _ _ _ (below _ (by decide))).wr _ _ _ _ _
      (below _ (by decide))).wr _ _ _ _ _ (below _ (by decide))⟩

theorem State.moverView_clus : (s.moverView c m).clus = s.clus := by
  obtain ⟨⟨w, hw⟩, -⟩ := s.moverView_only c m
  rw [hw]
  rfl

theorem State.mover_moverView (m' : Nat) : (s.moverView c m).mover c m' = s.mover c m' := by
  simp only [State.mover, State.clu, s.moverView_clus c m]

variable {s c} {m : Fin 2}

/-- A mover without a move shows 0 (R204). -/
theorem State.moverView_free (hfree : (s.mover c m).cur = none) :
    (s.moverView c m).rd (if m = 0 then MOV_STATE.STATE0 else MOV_STATE.STATE1) c = 0 := by
  simp only [State.moverView, hfree]
  match m with
  | 0 =>
    simp only [Fin.val_zero, if_true]
    rw [State.rd_wr_beside _ _ _ _ _ (by decide), State.rd_wr_beside _ _ _ _ _ (by decide),
      State.rd_wr_beside _ _ _ _ _ (by decide), State.rd_wr_same]
    rfl
  | 1 =>
    simp only [Fin.val_one, if_false, one_ne_zero]
    rw [State.rd_wr_beside _ _ _ _ _ (by decide), State.rd_wr_beside _ _ _ _ _ (by decide),
      State.rd_wr_beside _ _ _ _ _ (by decide), State.rd_wr_same]
    rfl

end

end Sys2Proof.Machine
end

section
/-! PROOFS. The operations begin the move a mover holds, and what makes them wait (R177, R181, R196, R400). -/

namespace Sys2Proof.Machine

section
variable {s : State} {c : Nat} {m : Nat} {v : Move} (hv : (s.mover c m).cur = some v)

/-- A move that begins now. -/
def Move.beginAt (v : Move) (us : Nat) : Move := { v with begun := true, since := us }

include hv

theorem State.beginMove_waits {op : Nat} (h : v.op ≠ op ∨ s.mayBegin c v = false) : s.beginMove c m op = s := by
  rw [State.beginMove, State.dispatch_busy hv, hv]
  rcases h with h | h <;> simp [h]

theorem State.beginMove_begins {op : Nat} (hop : v.op = op) (hb : s.mayBegin c v = true) :
    s.beginMove c m op = s.setMove c m fun v => v.beginAt s.us := by
  rw [State.beginMove, State.dispatch_busy hv, hv]
  exact if_pos ⟨hop, hb⟩

end

theorem State.mayBegin_begun {s : State} {c : Nat} {v : Move} (hb : s.mayBegin c v = true) : v.begun = false := by
  unfold State.mayBegin at hb
  simp only [Bool.and_eq_true, Bool.not_eq_true'] at hb
  obtain ⟨⟨⟨notBegun, -⟩, -⟩, -⟩ := hb
  exact notBegun

section
variable {s : State} {c : Fin 512} {m : Fin 2} {v : Move} (hv : (s.mover c m).cur = some v)
include hv

theorem exec_get_waits (h : v.op ≠ 4 ∨ s.mayBegin c v = false) : exec (.get c m) s = .next s := by
  change execGet c m s = _
  have still : ¬ (v.op = 4 ∧ v.begun = true ∧ ¬ v.begun = true ∧ v.total ≠ 0) :=
    fun ⟨_, begun, notBegun, _⟩ => notBegun begun
  simp only [execGet, State.beginMove_waits hv h, State.dispatch_busy hv, hv, if_neg still]

variable (hop : v.op = 4) (hb : s.mayBegin c v = true)
include hop hb

/-- A GET that begins sends its descriptor where its bytes lie in another module, and else is a local copy (R400). -/
theorem exec_get_begins : exec (.get c m) s = .next (
    let u := s.setMove c m fun v => v.beginAt s.us
    if v.total = 0 then u else match s.side c v false with
      | .peer mod _ _ => u.sendPkt 0 false (.get
        { u.moverHdr c m (v.beginAt s.us) mod false 0 with repoch := u.ownEpoch } v.desc)
      | _ => u) := by
  change execGet c m s = _
  have notBegun := State.mayBegin_begun hb
  have hbegun : (v.op = 4 ∧ true = true ∧ ¬ v.begun = true ∧ v.total ≠ 0) ↔ v.total ≠ 0 := by simp [hop, notBegun]
  simp only [execGet, State.beginMove_begins hv hop hb, State.dispatch_busy hv, State.cur_setMove hv, hv]
  change Host.Outcome.next (if v.op = 4 ∧ true = true ∧ ¬ v.begun = true ∧ v.total ≠ 0 then _ else _) = _
  rw [if_congr hbegun rfl rfl, ite_not]
  rfl

end

/-- The five operations begin the move a mover holds, by whether it may begin. -/
theorem moveBegins : Stated.MoveBegins := by
  refine ⟨fun c m s v hv => ?_, fun c m s v hv hb => ?_⟩
  · have waits {op : Nat} {i : Instr} (hi : exec i s = .next (s.beginMove c m op))
        (h : v.op ≠ op ∨ s.mayBegin c v = false) : exec i s = .next s := hi.trans (congrArg _ (State.beginMove_waits hv h))
    exact ⟨waits rfl, waits rfl, waits rfl, waits rfl, exec_get_waits hv⟩
  · intro begins
    have became {i : Instr} (hi : exec i s = .next (s.setMove c m fun v => v.beginAt s.us)) : begins i :=
      ⟨_, hi, State.cur_setMove hv _, State.hostq_setMove _, s.mover_setMover_other c m _, s.setMover_sameClus c m _, rfl⟩
    have acts {op : Nat} {i : Instr} (hi : exec i s = .next (s.beginMove c m op)) (hop : v.op = op) : begins i :=
      became (hi.trans (congrArg _ (State.beginMove_begins hv hop hb)))
    refine ⟨acts rfl, acts rfl, acts rfl, acts rfl, fun hop here => became ?_, fun mod spad base hop ht hside => ?_⟩
    · rw [exec_get_begins hv hop hb]
      refine congrArg _ ?_
      rcases here with empty | notFar
      · exact if_pos empty
      · dsimp only
        split
        · rfl
        · split
          · rename_i far
            simp [far, Side2.remote] at notFar
          · rfl
    · rw [exec_get_begins hv hop hb]
      simp only [if_neg ht, hside]
      rfl

end Sys2Proof.Machine
end

section
/-! PROOFS. OBJECT_RESOLVE: the object of a move's source is found, or the move ends (R181, R215, R231). -/

namespace Sys2Proof.Machine

section
variable (s : State) (c m : Nat)

theorem State.obj_setObj (i : Nat) (f : Obj → Obj) : (s.setObj i f).obj i = f (s.obj i) := getK_setK_same _ _ _ _

/-- A move ends with BAD_DESCRIPTOR before its first byte; `resolve` and `execObjectResolve` answer it. -/
def State.badSource : State := (s.setMove c m fun v => { v with err := some stBadDescriptor }).moverView c m

/-- A move's object is found. -/
def State.foundSource (loc : ObjLoc) : State := (s.setMove c m fun v => { v with obj := some loc }).moverView c m

variable {s c m} {v : Move}

/-- A change of a mover's move, shown in MOV_STATE. -/
theorem State.shown_setMove (f : Move → Move) (hv : (s.mover c m).cur = some v) :
    let t := (s.setMove c m f).moverView c m
    (t.mover c m).cur = some (f v) ∧ t = { s with regs := t.regs, clus := t.clus } := by
  intro t
  obtain ⟨⟨w, hw⟩, -⟩ := (s.setMove c m f).moverView_only c m
  have ht : t = (s.setMove c m f).withRegs w := hw
  refine ⟨?_, by rw [ht]; rfl⟩
  rw [(s.setMove c m f).mover_moverView, State.cur_setMove hv]

end

section
variable {s : State} {c : Fin 512} {m : Fin 2} {v : Move} (hv : (s.mover c m).cur = some v) (hspace : v.sspace = 5)
  (ht : v.total ≠ 0) (hobj : v.obj = none) (herr : v.err = none)
include hv hspace ht hobj herr

theorem exec_objectResolve_off (off : s.on TIER_CTRL.EN = false) :
    exec (.objectResolve c m) s = .next (s.badSource c m) := by
  change execObjectResolve c m s = _
  simp [execObjectResolve, hv, hspace, ht, hobj, herr, off, State.badSource]

variable (on : s.on TIER_CTRL.EN = true)
include on

theorem exec_objectResolve_waits (stopped : s.tierRuns = false) : exec (.objectResolve c m) s = .next s := by
  change execObjectResolve c m s = _
  simp [execObjectResolve, hv, hspace, ht, hobj, herr, on, stopped]

theorem exec_objectResolve_runs (runs : s.tierRuns = true) :
    exec (.objectResolve c m) s = .next (s.resolve c m v) := by
  change execObjectResolve c m s = _
  simp [execObjectResolve, hv, hspace, ht, hobj, herr, on, runs]

end

/-- Whether the runs of an OBJECT source leave the object of length `len` (R181); those of a GATHER are checked row by row. -/
def Move.outside (v : Move) (len : Nat) : Prop :=
  v.op ≠ 1 ∧ ((v.objOff : Int) + (v.span false).1 < 0 ∨ (len : Int) < (v.objOff : Int) + (v.span false).2 + v.runBytes)

section
variable {s : State} {c m : Nat} {v : Move}

theorem State.resolve_noEntry (h : s.handleEntry (v.saddr / 2 ^ 32) = none) : s.resolve c m v = s.badSource c m := by
  simp only [State.resolve, h, State.badSource]

variable {i : Nat} (h : s.handleEntry (v.saddr / 2 ^ 32) = some i)
include h

theorem State.resolve_bad (bad : s.mayRead v.func (s.obj i).ctx = false ∨ v.outside (s.obj i).len) :
    s.resolve c m v = s.badSource c m := by
  simp only [State.resolve, h]
  rcases bad with bad | bad
  · rw [if_pos (by simp [bad])]
    rfl
  · split
    · rfl
    · exact if_pos bad

variable (may : s.mayRead v.func (s.obj i).ctx = true) (inside : ¬ v.outside (s.obj i).len)
include may inside

/-- An object in T1 is read there, and its T1 place keeps a reference. -/
theorem State.resolve_t1 (hst : (s.obj i).state ≤ 3) : s.resolve c m v
    = (s.setObj i fun o => { o with t1refs := o.t1refs + 1 }).foundSource c m (.t1 i (s.obj i).t1 (s.obj i).len) := by
  simp only [State.resolve, h]
  rw [if_neg (by simp [may])]
  exact (if_neg inside).trans (if_pos hst)

/-- An object in T2 alone is read there, and its T2 place keeps a reference. -/
theorem State.resolve_t2 (hst : 3 < (s.obj i).state) : s.resolve c m v
    = (s.setObj i fun o => { o with t2refs := o.t2refs + 1 }).foundSource c m
      (.t2 i (s.obj i).t2addr (s.obj i).pasid (s.obj i).pv (s.obj i).len) := by
  simp only [State.resolve, h]
  rw [if_neg (by simp [may])]
  exact (if_neg inside).trans (if_neg (Nat.not_le.2 hst))

end

/-- A found object's place stands in the move, and its entry is what the reference made it. -/
theorem State.foundSource_found {s : State} {c m i : Nat} {v : Move} (f : Obj → Obj) (loc : ObjLoc)
    (hv : (s.mover c m).cur = some v) : let t := (s.setObj i f).foundSource c m loc
    (t.mover c m).cur = some { v with obj := some loc } ∧ t.obj i = f (s.obj i)
      ∧ t = { s with regs := t.regs, clus := t.clus, tier := t.tier } := by
  intro t
  obtain ⟨cur, frame⟩ := State.shown_setMove (s := s.setObj i f) (fun v => { v with obj := some loc }) hv
  have ht : t = { s.setObj i f with regs := t.regs, clus := t.clus } := frame
  refine ⟨cur, ?_, ht.trans ?_⟩
  · rw [State.obj, ht]
    exact s.obj_setObj i f
  · have tier : t.tier = (s.setObj i f).tier := by rw [ht]
    rw [tier]
    rfl

/-- OBJECT_RESOLVE, by the tier manager's state, the handle and the range. -/
theorem moveObjects : Stated.MoveObjects := by
  intro c m s v hv hspace ht hobj herr fails
  have failing (hi : exec (.objectResolve c m) s = .next (s.badSource c m)) : fails := by
    obtain ⟨cur, frame⟩ := State.shown_setMove (fun v => { v with err := some stBadDescriptor }) hv
    exact ⟨_, hi, cur, frame⟩
  have runs (on : s.on TIER_CTRL.EN = true) (run : s.tierRuns = true) :=
    exec_objectResolve_runs hv hspace ht hobj herr on run
  refine ⟨fun off => failing (exec_objectResolve_off hv hspace ht hobj herr off),
    fun on stopped => exec_objectResolve_waits hv hspace ht hobj herr on stopped,
    fun i on run hi bad => failing ((runs on run).trans (congrArg _ (State.resolve_bad hi bad))),
    fun on run none => failing ((runs on run).trans (congrArg _ (State.resolve_noEntry none))),
    fun i on run hi may range => ?_⟩
  have inside : ¬ v.outside (s.obj i).len := by
    rintro ⟨hop, hout⟩
    rcases range with hgather | ⟨low, high⟩
    · exact hop hgather
    · omega
  refine ⟨fun hst => ?_, fun hst => ?_⟩
  · obtain ⟨cur, entry, frame⟩ := State.foundSource_found (i := i) (fun o => { o with t1refs := o.t1refs + 1 })
      (.t1 i (s.obj i).t1 (s.obj i).len) hv
    exact ⟨_, (runs on run).trans (congrArg _ (State.resolve_t1 hi may inside hst)), cur, congrArg Obj.t1refs entry, frame⟩
  · obtain ⟨cur, entry, frame⟩ := State.foundSource_found (i := i) (fun o => { o with t2refs := o.t2refs + 1 })
      (.t2 i (s.obj i).t2addr (s.obj i).pasid (s.obj i).pv (s.obj i).len) hv
    exact ⟨_, (runs on run).trans (congrArg _ (State.resolve_t2 hi may inside hst)), cur, congrArg Obj.t2refs entry, frame⟩

/-- Settles O33: its two parts. -/
theorem movesBegin : Obligations.MovesBegin := ⟨moveBegins, moveObjects⟩

end Sys2Proof.Machine
end

section
/-! PROOFS. A landing counter advances, and its watch fires (R186, R187): the registers it touches, and the count. -/

namespace Sys2Proof.Machine

/-- Only register fields, what their interrupts send, and clusters' records changed. -/
def State.cluQuiet (s t : State) : Prop := t = { s with regs := t.regs, clus := t.clus, irq := t.irq, out := t.out }

section
variable {s t u : State}

theorem State.cluQuiet.trans (h : s.cluQuiet t) (g : t.cluQuiet u) : s.cluQuiet u := by
  unfold State.cluQuiet at *
  rw [g, h]

theorem State.quiet.cluQuiet (h : s.quiet t) : s.cluQuiet t := by
  unfold State.quiet at h
  unfold State.cluQuiet
  rw [h]

end

/-- The keys that the watch of a cluster writes where it fires. -/
def watchKeys (c : Nat) : List Nat := [LND_WATCH.ARMED.key c 0 0, LND_INT_STATUS.WATCH.key c 0 0]

section
variable (s : State) (c n : Nat)

theorem State.watchFire_sameRegs : s.sameRegs (s.watchFire c n) (watchKeys c) := by
  unfold State.watchFire
  split
  · exact (s.sameRegs_wr _ _ _ _ _).append (State.sameRegs_raise _ _ _ _)
  · exact s.sameRegs_refl _

theorem State.watchFire_quiet : s.quiet (s.watchFire c n) := by
  unfold State.watchFire
  split
  · exact (s.wr_quiet _ _ _ _ _).trans (State.raise_quiet _ _ _ _)
  · exact s.quiet_refl

variable (a : Nat)

/-- What an advance writes before the watch looks at it; `advance_eq` ties it to the model. -/
def State.counting : State :=
  (s.wr LND_CNT.COUNT (s.cnt c n + a) c n).setClu c fun x => { x with cntAdv := insK x.cntAdv n (s.timer c) }

theorem State.advance_eq : s.advance c n a = (s.counting c n a).watchFire c n := rfl

theorem State.advance_sameRegs : s.sameRegs (s.advance c n a) (LND_CNT.COUNT.key c n 0 :: watchKeys c) :=
  State.sameRegs.append (s.sameRegs_wr LND_CNT.COUNT (s.cnt c n + a) c n 0) ((s.counting c n a).watchFire_sameRegs c n)

theorem State.advance_clus : (s.advance c n a).clus = (s.counting c n a).clus :=
  ((s.counting c n a).watchFire_quiet c n).clus

/-- Of its cluster an advance stamps the counter. -/
theorem State.advance_clu : (s.advance c n a).clu c = { s.clu c with cntAdv := insK (s.clu c).cntAdv n (s.timer c) }
    ∧ s.sameClus (s.advance c n a) c := by
  have stamped := (s.wr LND_CNT.COUNT (s.cnt c n + a) c n).cluBecame_setClu c
    fun x => { x with cntAdv := insK x.cntAdv n (s.timer c) }
  have same (d : Nat) : (s.advance c n a).clu d = (s.counting c n a).clu d := by
    simp only [State.clu, s.advance_clus]
  exact ⟨(same c).trans stamped.rec_, fun d hd => (same d).trans (stamped.others d hd)⟩

theorem State.advance_cluQuiet : s.cluQuiet (s.advance c n a) := by
  have counted : s.cluQuiet (s.counting c n a) := rfl
  exact counted.trans ((s.counting c n a).watchFire_quiet c n).cluQuiet

/-- The counters of a cluster do not share their keys with the registers of its watch. -/
theorem count_notWatch (k : Nat) (hk : k < 256) : LND_CNT.COUNT.key c k 0 ∉ watchKeys c := by
  simp only [watchKeys, List.mem_cons, List.not_mem_nil, or_false, not_or, Fld.key, Fld.addr, LND_CNT.COUNT,
    LND_WATCH.ARMED, LND_INT_STATUS.WATCH]
  omega

theorem count_key_inj {k : Nat} (h : LND_CNT.COUNT.key c k 0 = LND_CNT.COUNT.key c n 0) : k = n := by
  simp only [Fld.key, Fld.addr, LND_CNT.COUNT] at h
  omega

/-- A counter counts modulo 2^48, and the others stand (R187). -/
theorem State.cnt_advance (k : Nat) (hk : k < 256) :
    (s.advance c n a).cnt c k = if n = k then (s.cnt c k + a) % 2 ^ 48 else s.cnt c k := by
  have fired := State.rd_sameRegs _ _ _ ((s.counting c n a).watchFire_sameRegs c n) LND_CNT.COUNT c k 0 (count_notWatch c k hk)
  refine fired.trans ?_
  split
  case isTrue same => subst same; exact s.rd_wr_same _ _ _ _ _
  case isFalse other => exact s.rd_wr_ne _ _ _ _ _ _ _ _ _ fun h => other (count_key_inj c n h).symm

end

end Sys2Proof.Machine
end

section
/-! PROOFS. The end of a move (R183, R204): the record of one that failed, the counters of one that landed, and a mover that
comes to rest. -/

namespace Sys2Proof.Machine

/-! ## MOV_ERR -/

/-- An array of registers is written: each of the listed ones holds its value. -/
theorem State.rd_foldl_wr (f : Fld) (c : Nat) (g : Nat → Nat) (i : Nat) (apart : ∀ j, f.key c i 0 = f.key c j 0 → j = i)
    (l : List Nat) (s : State) (h : i ∈ l ∨ s.rd f c i = g i % 2 ^ f.width) :
    (l.foldl (fun s j => s.wr f (g j) c j) s).rd f c i = g i % 2 ^ f.width := by
  induction l generalizing s with
  | nil => exact h.resolve_left List.not_mem_nil
  | cons j l ih =>
    refine ih _ ?_
    by_cases hj : j = i
    · subst hj
      exact .inr (s.rd_wr_same _ _ _ _ _)
    · refine h.imp (fun hm => (List.mem_cons.1 hm).resolve_left (Ne.symm hj)) fun hr => ?_
      rw [s.rd_wr_ne _ _ _ _ _ _ _ _ _ fun hk => hj (apart j hk), hr]

section
variable (s : State) (c m : Nat) (v : Move) (st : Nat)

/-- MOV_ERR of a failed move; `recordMoveErr_eq` ties it to the model. -/
def State.errWritten : State :=
  ((((s.wr MOV_ERR.STATUS st c).wr MOV_ERR.MOVER m c).wr MOV_ERR.SRC v.src.code c).wr MOV_ERR.VALID 1 c).wr
    MOV_ERR.LANDED v.landed c

/-- MOV_ERR_DESC of a failed move; `recordMoveErr_eq` ties it to the model. -/
def State.descWritten : State := (List.range 8).foldl (fun s i => s.wr MOV_ERR_DESC.Q (v.q i) c i) s

theorem State.recordMoveErr_eq :
    s.recordMoveErr c m v st = ((s.errWritten c m v st).descWritten c v).raise MOV_INT_STATUS.ERR c := rfl

/-- The descriptor's registers lie behind MOV_ERR, and before MOV_INT_STATUS. -/
theorem State.descWritten_rd (f : Fld) (hf : f.blk = .mov ∧ f.off < 0x030 ∧ f.lo < 64) :
    (s.descWritten c v).rd f c = s.rd f c := by
  refine foldl_rel (fun s t : State => t.rd f c = s.rd f c) (fun _ => rfl) (fun _ _ _ h g => g.trans h) _ _ (fun s i _ => ?_) s
  refine s.rd_wr_ne _ _ _ _ _ _ _ _ _ ?_
  obtain ⟨hblk, hoff, hlo⟩ := hf
  simp only [Fld.key, Fld.addr, hblk, MOV_ERR_DESC.Q]
  omega

/-- The descriptor's registers hold its quadwords. -/
theorem State.descWritten_q (i : Nat) (hi : i < 8) :
    (s.descWritten c v).rd MOV_ERR_DESC.Q c i = v.q i % 2 ^ MOV_ERR_DESC.Q.width := by
  refine State.rd_foldl_wr _ _ v.q i (fun j hk => ?_) _ _ (.inl (List.mem_range.2 hi))
  simp only [Fld.key, Fld.addr, MOV_ERR_DESC.Q] at hk
  omega

/-- The record of a failed move (R204). -/
structure State.moveFailed (t : State) (c m : Nat) (v : Move) (st : Nat) : Prop where
  status : t.rd MOV_ERR.STATUS c = st % 2 ^ MOV_ERR.STATUS.width
  mover : t.rd MOV_ERR.MOVER c = m
  valid : t.rd MOV_ERR.VALID c = 1
  landed : t.rd MOV_ERR.LANDED c = v.landed % 2 ^ MOV_ERR.LANDED.width
  raised : t.on MOV_INT_STATUS.ERR c = true
  desc : ∀ i, i < 8 → t.rd MOV_ERR_DESC.Q c i = v.q i % 2 ^ MOV_ERR_DESC.Q.width

/-- Two registers of one block have their own keys. -/
theorem Fld.key_apart (f g : Fld) (c j : Nat) (h : g.blk = f.blk ∧ g.off + j * g.step < f.off ∧ g.lo < 64) :
    g.key c j 0 ≠ f.key c 0 0 := by
  obtain ⟨hblk, hoff, hlo⟩ := h
  simp only [Fld.key, Fld.addr, hblk]
  omega

theorem State.errWritten_rd (hm : m < 2) :
    let t := s.errWritten c m v st
    t.rd MOV_ERR.STATUS c = st % 2 ^ MOV_ERR.STATUS.width ∧ t.rd MOV_ERR.MOVER c = m ∧ t.rd MOV_ERR.VALID c = 1
      ∧ t.rd MOV_ERR.LANDED c = v.landed % 2 ^ MOV_ERR.LANDED.width := by
  have beside (s : State) (f g : Fld) (n : Nat) (h : g.blk = f.blk ∧ g.off = f.off ∧ g.lo ≠ f.lo) :=
    s.rd_wr_beside f g n c h
  refine ⟨?_, ?_, ?_, State.rd_wr_same _ _ _ _ _ _⟩
  · rw [State.errWritten, beside _ _ _ _ (by decide), beside _ _ _ _ (by decide), beside _ _ _ _ (by decide),
      beside _ _ _ _ (by decide), State.rd_wr_same]
  · rw [State.errWritten, beside _ _ _ _ (by decide), beside _ _ _ _ (by decide), beside _ _ _ _ (by decide),
      State.rd_wr_same]
    exact Nat.mod_eq_of_lt hm
  · rw [State.errWritten, beside _ _ _ _ (by decide), State.rd_wr_same]
    rfl

theorem State.recordMoveErr_failed (hm : m < 2) : (s.recordMoveErr c m v st).moveFailed c m v st := by
  rw [s.recordMoveErr_eq]
  obtain ⟨status, mover, valid, landed⟩ := s.errWritten_rd c m v st hm
  generalize s.errWritten c m v st = r at *
  have kept (f : Fld) (hf : f.blk = .mov ∧ f.off < 0x030 ∧ f.lo < 64)
      (hi : f.blk = MOV_INT_STATUS.ERR.blk ∧ f.off + 0 * f.step < MOV_INT_STATUS.ERR.off ∧ f.lo < 64) :
      ((r.descWritten c v).raise MOV_INT_STATUS.ERR c).rd f c = r.rd f c :=
    ((r.descWritten c v).rd_raise_ne _ _ _ _ _ _ _ (Fld.key_apart _ f c 0 hi)).trans (r.descWritten_rd c v f hf)
  refine ⟨(kept _ (by decide) (by decide)).trans status, (kept _ (by decide) (by decide)).trans mover,
    (kept _ (by decide) (by decide)).trans valid, (kept _ (by decide) (by decide)).trans landed,
    State.raise_on _ _ _ rfl, fun i hi => ?_⟩
  have apart : MOV_ERR_DESC.Q.key c i 0 ≠ MOV_INT_STATUS.ERR.key c 0 0 :=
    Fld.key_apart _ _ c i ⟨rfl, by simp only [MOV_ERR_DESC.Q, MOV_INT_STATUS.ERR]; omega, by decide⟩
  exact ((r.descWritten c v).rd_raise_ne _ _ _ _ _ _ _ apart).trans (r.descWritten_q c v i hi)

theorem State.recordMoveErr_quiet : s.quiet (s.recordMoveErr c m v st) := by
  have err : s.quiet (s.errWritten c m v st) := ((((s.wr_quiet _ _ _ _ _).wr _ _ _ _ _).wr _ _ _ _ _).wr _ _ _ _ _).wr _ _ _ _ _
  exact (err.trans (foldl_quiet _ (fun s i => s.wr_quiet _ _ _ _ _) _ _)).trans (State.raise_quiet _ _ _ _)

end

/-! ## A mover comes to rest -/

section
variable (s : State) (c m : Nat)

/-- A mover with nothing to take shows it, and its cluster's halt may be over; `finishMove_` lemmas tie it to the model. -/
def State.moverRests : State := ((s.moverView c m).moverView c m).settleHalt c

theorem State.settleHalt_cur : ((s.settleHalt c).mover c m).cur = (s.mover c m).cur := by
  unfold State.settleHalt
  split
  · simp only [State.mover, State.clu, State.wr_clus]
    change (if m = 0 then ((s.setClu c _).clu c).mov0 else ((s.setClu c _).clu c).mov1).cur = _
    rw [s.clu_setClu]
    rfl
  · rfl

theorem State.settleHalt_sameClus : s.sameClus (s.settleHalt c) c := by
  unfold State.settleHalt
  split
  · exact fun d hd => s.clu_setClu_ne c (fun x => { x with halting := false }) d hd
  · exact fun _ _ => rfl

theorem State.settleHalt_cluQuiet : s.cluQuiet (s.settleHalt c) := by
  unfold State.settleHalt
  split
  · exact rfl
  · exact rfl

theorem State.moverView_cluQuiet : s.cluQuiet (s.moverView c m) := by
  obtain ⟨⟨w, hw⟩, -⟩ := s.moverView_only c m
  rw [hw]
  rfl

theorem State.settleHalt_regsFrom (hc : c < 512) : s.regsFrom (s.settleHalt c) (Blk.mov.base * 64) := by
  unfold State.settleHalt
  split
  · intro d k hk
    have movBase : PLN_SLOT_STATUS.STATE.blk.base * 64 ≤ Blk.mov.base * 64 := by decide
    exact (State.wr_cluRegs _ c hc CLU_STATUS.STATE cStopped 0 rfl (by decide) (by decide)).above d k (movBase.trans hk)
  · exact fun _ _ _ => rfl

/-- What a mover that rests leaves as it was. -/
structure State.restLeaves (s t : State) (c m : Nat) : Prop where
  cur : (t.mover c m).cur = (s.mover c m).cur
  others : s.sameClus t c
  regs : s.regsFrom t (moverFloor c)
  frame : s.cluQuiet t

theorem State.moverRests_leaves (hc : c < 512) : s.restLeaves (s.moverRests c m) c m := by
  obtain ⟨-, first⟩ := s.moverView_only c m
  obtain ⟨-, second⟩ := (s.moverView c m).moverView_only c m
  have below : Blk.mov.base * 64 ≤ moverFloor c := by unfold moverFloor; omega
  refine ⟨?_, fun d hd => ?_, (first.trans second).trans fun d k hk =>
    State.settleHalt_regsFrom _ c hc d k (below.trans hk),
    ((s.moverView_cluQuiet c m).trans (State.moverView_cluQuiet _ c m)).trans (State.settleHalt_cluQuiet _ c)⟩
  · rw [State.moverRests, State.settleHalt_cur, State.mover_moverView, State.mover_moverView]
  · rw [State.moverRests, State.settleHalt_sameClus _ c d hd]
    simp only [State.clu, State.moverView_clus]

end

theorem State.moverRests_free {s : State} {c : Fin 512} {m : Fin 2} (hfree : (s.mover c m).cur = none) :
    (s.moverRests c m).rd (if m = 0 then MOV_STATE.STATE0 else MOV_STATE.STATE1) c = 0 := by
  have shown := State.moverView_free (s := s.moverView c m) (c := c) (m := m) (by rw [State.mover_moverView, hfree])
  refine ((State.settleHalt_regsFrom _ c c.isLt).rd _ c 0 0 ?_).trans shown
  match m with
  | 0 => simp only [Fld.key, Fld.addr, MOV_STATE.STATE0, if_true]; omega
  | 1 => simp only [Fld.key, Fld.addr, MOV_STATE.STATE1, one_ne_zero, if_false]; omega

/-! ## The end of a move of a step that reads no object and nothing waits for -/

section
variable {s : State} {c m : Nat}

/-- A free mover for which nothing waits takes nothing (R182). -/
theorem State.dispatch_idle (hfree : (s.mover c m).cur = none) (hstep : s.stepMove c m = none) (hmig : s.nextMig c m = none)
    (hq : (s.mover c m).hostq = []) : s.dispatch c m = s.moverView c m := by
  simp [State.dispatch, hfree, hstep, hmig, hq]

/-- What waits for a mover hangs on the plans, and on its cluster's configuration and place in its pass. -/
theorem State.waiting_congr {t : State} (hslots : t.slots = s.slots) (hact : (t.clu c).act = (s.clu c).act)
    (hpass : (t.clu c).inPass = (s.clu c).inPass) (hpc : (t.clu c).pc = (s.clu c).pc)
    (hready : (t.clu c).migReady = (s.clu c).migReady) :
    t.stepMove c m = s.stepMove c m ∧ t.nextMig c m = s.nextMig c m := by
  constructor
  · simp only [State.stepMove, State.curStep, State.stepWord, State.planOf, State.slot, hslots, hact, hpass, hpc]
  · simp only [State.nextMig, State.migsOf, State.planOf, State.slot, hslots, hact, hready]

/-- A mover's move is over; the `finishMove_` lemmas tie it to the model. -/
def State.freed (s : State) (c m : Nat) : State := s.setMover c m fun x => { x with cur := none }

theorem State.freed_mover : ((s.freed c m).mover c m).cur = none ∧ ((s.freed c m).mover c m).hostq = (s.mover c m).hostq := by
  rw [State.freed, s.mover_setMover]
  exact ⟨rfl, rfl⟩

/-- A move of an OBJECT holds references; one of another source has none to drop. -/
theorem State.dropObj_none {v : Move} (hobj : v.obj = none) : s.dropObj v = s := by
  simp only [State.dropObj, hobj]

/-- SCNT advances by the total of a move that landed; `finishMove_landed` ties it to the model. -/
def State.scntAdvanced (s : State) (c : Nat) (v : Move) : State := if v.scntEn then s.advance c v.scnt v.total else s

/-- A free mover's cluster as a source counter's advance leaves it, with nothing that waits for the mover. -/
theorem State.scntAdvanced_waiting (v : Move) :
    ((s.scntAdvanced c v).mover c m) = s.mover c m ∧ (s.scntAdvanced c v).stepMove c m = s.stepMove c m
      ∧ (s.scntAdvanced c v).nextMig c m = s.nextMig c m := by
  unfold State.scntAdvanced
  split
  · obtain ⟨clu, -⟩ := s.advance_clu c v.scnt v.total
    have waiting := State.waiting_congr (s := s) (c := c) (m := m) (t := s.advance c v.scnt v.total)
      (by rw [s.advance_cluQuiet c v.scnt v.total]) (by rw [clu]) (by rw [clu]) (by rw [clu]) (by rw [clu])
    exact ⟨by simp only [State.mover, clu], waiting⟩
  · exact ⟨rfl, rfl, rfl⟩

theorem State.scntAdvanced_sameClus (v : Move) : s.sameClus (s.scntAdvanced c v) c := by
  unfold State.scntAdvanced
  split
  · exact (s.advance_clu c _ _).2
  · exact fun _ _ => rfl

theorem State.scntAdvanced_cluQuiet (v : Move) : s.cluQuiet (s.scntAdvanced c v) := by
  unfold State.scntAdvanced
  split
  · exact s.advance_cluQuiet c _ _
  · rfl

variable {v : Move} (hobj : v.obj = none) (hsrc : v.src = .step) (hop : v.op = 0) (hq : (s.mover c m).hostq = [])
include hobj hsrc hop hq

theorem State.finishMove_failed (hst : v.status ≠ stOK)
    (hstep : ((s.recordMoveErr c m v v.status).freed c m).stepMove c m = none)
    (hmig : ((s.recordMoveErr c m v v.status).freed c m).nextMig c m = none) :
    s.finishMove c m v = ((s.recordMoveErr c m v v.status).freed c m).moverRests c m := by
  obtain ⟨free, queue⟩ := (s.recordMoveErr c m v v.status).freed_mover (c := c) (m := m)
  have rest := State.dispatch_idle free hstep hmig (queue.trans (by
    simp only [State.mover, State.clu, (s.recordMoveErr_quiet c m v v.status).clus]; exact hq))
  have ends : s.finishMove c m v
      = ((((s.recordMoveErr c m v v.status).freed c m).dispatch c m).moverView c m).settleHalt c := by
    simp [State.finishMove, State.freed, State.dropObj_none hobj, hst, hop, hsrc]
  rw [ends, rest]
  rfl

theorem State.finishMove_landed (hst : v.status = stOK) {done : Fld}
    (hdone : done = if m = 0 then MOV_DONE0.MOVES else MOV_DONE1.MOVES)
    (hstep : ((s.bump done 1 c).freed c m).stepMove c m = none)
    (hmig : ((s.bump done 1 c).freed c m).nextMig c m = none) :
    s.finishMove c m v = (((s.bump done 1 c).freed c m).scntAdvanced c v).moverRests c m := by
  obtain ⟨free, queue⟩ := (s.bump done 1 c).freed_mover (c := c) (m := m)
  obtain ⟨mover, step, mig⟩ := ((s.bump done 1 c).freed c m).scntAdvanced_waiting (c := c) (m := m) v
  have rest := State.dispatch_idle (mover ▸ free) (step.trans hstep) (mig.trans hmig) (by rw [mover, queue]; exact hq)
  have ends : s.finishMove c m v
      = (((((s.bump done 1 c).freed c m).scntAdvanced c v).dispatch c m).moverView c m).settleHalt c := by
    simp [State.finishMove, State.freed, State.scntAdvanced, State.dropObj_none hobj, hst, hop, hsrc, ← hdone]
  rw [ends, rest]
  rfl

end

end Sys2Proof.Machine
end

section
/-! PROOFS. The watchdog of a mover (R185): when it acts, and the move that it ends. -/

namespace Sys2Proof.Machine

theorem Side2.isHost_iff (x : Side2) : x.isHost = true ↔ ∃ b, x = .host b := by
  cases x <;> simp [Side2.isHost]

/-- The status that the watchdog gives a move, by what has not answered; `exec_moverWatchdog` ties it to the model. -/
def wdogStatus : WdogTarget → Nat
  | .peer => stPeerTimeout
  | .host => stHostLost
  | .package => stCounterTimeout

/-- Whether a move has a transaction with a target; `exec_moverWatchdog` ties it to the model. -/
def State.wdogFits (s : State) (c : Nat) (v : Move) : WdogTarget → Bool
  | .peer => (s.side c v false).remote || (s.side c v true).remote
  | .host => (s.side c v false).isHost || (s.side c v true).isHost
  | .package => !((s.side c v false).remote && v.op == 4) && !((s.side c v false).isHost && (s.side c v true).isHost)

/-- The state after the watchdog has ended a move; `exec_moverWatchdog` ties it to the model. -/
def State.wdogEnds (s : State) (c m st : Nat) : State :=
  (((s.moveErr c m st).withdraw c m).setMove c m fun v => { v with flight := [], ahead := [] }).raise MOV_INT_STATUS.WDOG c

section
variable {s : State} {c : Fin 512} {m : Fin 2} {v : Move} (hv : (s.mover c m).cur = some v) (target : WdogTarget)
include hv

theorem exec_moverWatchdog : exec (.moverWatchdog c m target) s = .next (
    if s.on MOV_WDOG.EN c ∧ v.begun ∧ ¬ v.ended ∧ s.wdogFits c v target ∧ s.wdogDue c v then
      s.wdogEnds c m (wdogStatus target)
    else s) := by
  change execMoverWatchdog c m target s = _
  simp only [execMoverWatchdog, hv]
  cases target
  case peer => rfl
  case host => rfl
  case package => rfl

end

/-- Only register fields, what their interrupts send, clusters' records and the ports of the link changed. -/
def State.portsQuiet (s t : State) : Prop :=
  t = { s with regs := t.regs, clus := t.clus, irq := t.irq, out := t.out, obl := { s.obl with ports := t.obl.ports } }

theorem State.portsQuiet.trans {s t u : State} (h : s.portsQuiet t) (g : t.portsQuiet u) : s.portsQuiet u := by
  unfold State.portsQuiet at *
  rw [g, h]

theorem State.cluQuiet.portsQuiet {s t : State} (h : s.cluQuiet t) : s.portsQuiet t := by
  unfold State.cluQuiet at h
  unfold State.portsQuiet
  rw [h]

section
variable (s : State) (c m : Nat)

/-- No packet of a put of the mover is left to send. -/
theorem State.withdraw_clean : ∀ e ∈ (s.withdraw c m).obl.ports, ∀ q ∈ e.2.txq, ∀ x ∈ q.2, s.putOf c m x = false := by
  intro e he q hq x hx
  obtain ⟨he, -⟩ := List.mem_filter.1 he
  obtain ⟨p, -, rfl⟩ := List.mem_map.1 he
  obtain ⟨hq, -⟩ := List.mem_filter.1 hq
  obtain ⟨r, -, rfl⟩ := List.mem_map.1 hq
  simpa using (List.mem_filter.1 hx).2

theorem State.cur_withdraw {v : Move} (hv : (s.mover c m).cur = some v) :
    ((s.withdraw c m).mover c m).cur = some { v with queued := 0 } :=
  State.cur_setMove (s := { s with obl := _ }) hv _

theorem State.setMove_cluQuiet (f : Move → Move) : s.cluQuiet (s.setMove c m f) := rfl

/-- The withdrawal of a put touches the ports and its move. -/
theorem State.withdraw_portsQuiet : s.portsQuiet (s.withdraw c m) := by
  unfold State.withdraw
  extract_lets clean obl t
  have ports : s.portsQuiet t := rfl
  exact ports.trans (t.setMove_cluQuiet c m _).portsQuiet

/-- The watchdog touches the move, the ports and its interrupt alone. -/
theorem State.wdogEnds_portsQuiet (st : Nat) : s.portsQuiet (s.wdogEnds c m st) :=
  (((s.setMove_cluQuiet c m _).portsQuiet.trans (State.withdraw_portsQuiet _ c m)).trans
    (State.setMove_cluQuiet _ c m _).portsQuiet).trans (State.raise_quiet _ _ _ _).cluQuiet.portsQuiet

variable {s c m} {v : Move} (hv : (s.mover c m).cur = some v) (st : Nat)
include hv

/-- A move keeps the error that it met first (R183). -/
theorem State.cur_moveErr : ((s.moveErr c m st).mover c m).cur
    = some { v with err := some (v.err.getD st), ahead := if st = stEcc then v.ahead else [] } := by
  rw [State.moveErr, State.cur_setMove hv]
  cases v.err <;> rfl

/-- The move ends with the status unless it met an error before, and nothing of it waits; the watchdog's bit is set. -/
theorem State.wdogEnds_move : let t := s.wdogEnds c m st
    (t.mover c m).cur = some { v with err := some (v.err.getD st), ahead := [], queued := 0, flight := [] }
      ∧ t.on MOV_INT_STATUS.WDOG c = true
      ∧ (∀ e ∈ t.obl.ports, ∀ q ∈ e.2.txq, ∀ x ∈ q.2, s.putOf c m x = false)
      ∧ s.portsQuiet t := by
  intro t
  have ended := State.cur_setMove (State.cur_withdraw _ c m (State.cur_moveErr hv st))
    fun v => { v with flight := [], ahead := [] }
  refine ⟨?_, State.raise_on _ _ _ rfl, ?_, s.wdogEnds_portsQuiet c m st⟩
  · simp only [t, State.wdogEnds, State.mover, State.clu, State.raise_clus]
    exact ended
  · simp only [t, State.wdogEnds, State.raise_obl]
    exact (s.moveErr c m st).withdraw_clean c m

end

end Sys2Proof.Machine
end

section
/-! PROOFS. MOVE_COMPLETE and MOVER_WATCHDOG (R182, R183, R185, R204). -/

namespace Sys2Proof.Machine

section
variable {s : State} {c : Fin 512} {m : Fin 2} {v : Move}

/-- MOVE_COMPLETE ends a move that has ended, and no other. -/
theorem exec_moveComplete (hv : (s.mover c m).cur = some v) :
    exec (.moveComplete c m) s = .next (if v.ended then s.finishMove c m v else s) := by
  change execMoveComplete c m s = _
  simp only [execMoveComplete, hv]

variable (s c m v)

/-- What a failed move leaves once its mover has come to rest. -/
theorem State.failed_shown (st : Nat) : let t := ((s.recordMoveErr c m v st).freed c m).moverRests c m
    (t.mover c m).cur = none ∧ t.moveFailed c m v st ∧ s.sameClus t c
      ∧ t = { s with regs := t.regs, clus := t.clus, irq := t.irq, out := t.out } := by
  intro t
  obtain ⟨cur, others, regs, frame⟩ := ((s.recordMoveErr c m v st).freed c m).moverRests_leaves c m c.isLt
  obtain ⟨status, mover, valid, landed, raised, desc⟩ := s.recordMoveErr_failed c m v st m.isLt
  have quiet := s.recordMoveErr_quiet c m v st
  have kept (f : Fld) (hf : f.blk = .mov ∧ 8 ≤ f.off) (j : Nat) : t.rd f c j = (s.recordMoveErr c m v st).rd f c j :=
    regs.rd f c j 0 (moverFloor_le_mov c f hf j 0)
  refine ⟨cur.trans ((s.recordMoveErr c m v st).freed_mover).1, ⟨?_, ?_, ?_, ?_, ?_, fun i hi => ?_⟩, fun d hd => ?_, ?_⟩
  · exact (kept _ (by decide) 0).trans status
  · exact (kept _ (by decide) 0).trans mover
  · exact (kept _ (by decide) 0).trans valid
  · exact (kept _ (by decide) 0).trans landed
  · rw [State.on, kept _ (by decide) 0]
    exact raised
  · exact (kept _ (by decide) i).trans (desc i hi)
  · rw [others d hd, State.freed, State.setMover_sameClus _ c m _ d hd]
    simp only [State.clu, quiet.clus]
  · have freed : (s.recordMoveErr c m v st).cluQuiet ((s.recordMoveErr c m v st).freed c m) := rfl
    exact (quiet.cluQuiet.trans freed).trans frame

/-- What the end of a move that landed counts: the move, and its total on SCNT. -/
theorem State.landed_counts (done : Fld) (hdone : done = MOV_DONE0.MOVES ∨ done = MOV_DONE1.MOVES) :
    let w := ((s.bump done 1 c).freed c m).scntAdvanced c v
    w.rd done c = satAdd (s.rd done c) 1 done.width
      ∧ ∀ n, n < 256 → w.cnt c n = if v.scntEn = true ∧ v.scnt = n then (s.cnt c n + v.total) % 2 ^ 48 else s.cnt c n := by
  intro w
  have below (f : Fld) (hf : f.blk = .lnd) (j : Nat) : done.key c 0 0 < f.key c j 0 := by
    obtain ⟨hblk, hoff, hlo⟩ : done.blk = .mov ∧ done.off < 0x1000 ∧ done.lo < 64 := by
      rcases hdone with rfl | rfl <;> decide
    have movBase : Blk.mov.base = 0xF005000000 := rfl
    have lndBase : Blk.lnd.base = 0xF006000000 := rfl
    have movStride : Blk.mov.stride = 0x1000 := rfl
    have lndStride : Blk.lnd.stride = 0x1000 := rfl
    simp only [Fld.key, Fld.addr, hblk, hf, movBase, lndBase, movStride, lndStride]
    omega
  have counted : ((s.bump done 1 c).freed c m).rd done c = satAdd (s.rd done c) 1 done.width := s.rd_bump_same done 1 c 0
  have stood (n : Nat) : ((s.bump done 1 c).freed c m).cnt c n = s.cnt c n :=
    s.rd_wr_ne _ _ _ _ _ _ _ _ _ (below _ rfl n).ne'
  by_cases hen : v.scntEn = true
  · have hw : w = ((s.bump done 1 c).freed c m).advance c v.scnt v.total := if_pos hen
    refine ⟨?_, fun n hn => ?_⟩
    · rw [hw, State.rd_sameRegs _ _ _ (State.advance_sameRegs _ c v.scnt v.total), counted]
      simp only [watchKeys, List.mem_cons, List.not_mem_nil, or_false, not_or]
      exact ⟨(below _ rfl _).ne, (below _ rfl 0).ne, (below _ rfl 0).ne⟩
    · rw [hw, State.cnt_advance _ c v.scnt v.total n hn, stood]
      simp only [hen, true_and]
  · have hw : w = (s.bump done 1 c).freed c m := if_neg hen
    rw [hw]
    exact ⟨counted, fun n _ => by rw [stood, if_neg (fun h => hen h.1)]⟩

/-- What a move that landed leaves once its mover has come to rest. -/
theorem State.landed_shown (done : Fld) (hdone : done = MOV_DONE0.MOVES ∨ done = MOV_DONE1.MOVES) :
    let t := (((s.bump done 1 c).freed c m).scntAdvanced c v).moverRests c m
    (t.mover c m).cur = none ∧ s.counted1 t done 1 c
      ∧ t.rd (if m = 0 then MOV_STATE.STATE0 else MOV_STATE.STATE1) c = 0
      ∧ (∀ n, n < 256 → t.cnt c n = if v.scntEn = true ∧ v.scnt = n then (s.cnt c n + v.total) % 2 ^ 48 else s.cnt c n)
      ∧ s.sameClus t c ∧ t = { s with regs := t.regs, clus := t.clus, irq := t.irq, out := t.out } := by
  intro t
  obtain ⟨counted, counters⟩ := s.landed_counts c m v done hdone
  obtain ⟨mover, -, -⟩ := ((s.bump done 1 c).freed c m).scntAdvanced_waiting (c := c) (m := m) v
  have free : ((((s.bump done 1 c).freed c m).scntAdvanced c v).mover c m).cur = none := by
    rw [mover]; exact (s.bump done 1 c).freed_mover.1
  have floor := moverFloor_le_mov c done (by rcases hdone with rfl | rfl <;> decide) 0 0
  obtain ⟨cur, others, regs, frame⟩ := (((s.bump done 1 c).freed c m).scntAdvanced c v).moverRests_leaves c m c.isLt
  refine ⟨cur.trans free, ?_, State.moverRests_free free, fun n hn => ?_, fun d hd => ?_, ?_⟩
  · exact (regs.rd done c 0 0 floor).trans counted
  · exact (regs.rd LND_CNT.COUNT c n 0 (moverFloor_le_lnd c _ rfl n 0)).trans (counters n hn)
  · rw [others d hd, State.scntAdvanced_sameClus _ d hd, State.freed, State.setMover_sameClus _ c m _ d hd]
    rfl
  · have freed : s.cluQuiet ((s.bump done 1 c).freed c m) := rfl
    exact (freed.trans (State.scntAdvanced_cluQuiet v)).trans frame

end

/-- Settles O35, by whether the move has ended and how, and by whether its watchdog is due. -/
theorem moveEnds : Obligations.MoveEnds := by
  intro c m s v hv
  have completes := exec_moveComplete (c := c) (m := m) hv
  have ends (h : v.ended = true) : exec (.moveComplete c m) s = .next (s.finishMove c m v) :=
    completes.trans (by rw [if_pos h])
  have watched (target : WdogTarget) := exec_moverWatchdog (c := c) (m := m) hv target
  refine ⟨ends, fun h => completes.trans (by simp [h]), fun h hst hobj hsrc hop hq hstep hmig => ?failed,
    fun h hst hobj hsrc hop hq hstep hmig => ?landed, fun target on begun notEnded due fits => ?expires,
    fun target h => ?stands⟩
  case failed =>
    obtain ⟨cur, ⟨status, mover, valid, landed, raised, desc⟩, others, frame⟩ := s.failed_shown c m v v.status
    exact ⟨_, (ends h).trans (congrArg _ (State.finishMove_failed hobj hsrc hop hq hst hstep hmig)), cur, status, mover,
      valid, landed, raised, desc, others, frame⟩
  case landed =>
    have hdone : (if m = 0 then MOV_DONE0.MOVES else MOV_DONE1.MOVES)
        = if (m : Nat) = 0 then MOV_DONE0.MOVES else MOV_DONE1.MOVES := if_congr Fin.ext_iff rfl rfl
    obtain ⟨cur, counted, shown, counters, others, frame⟩ :=
      s.landed_shown c m v (if m = 0 then MOV_DONE0.MOVES else MOV_DONE1.MOVES) (by split <;> simp)
    exact ⟨_, (ends h).trans (congrArg _ (State.finishMove_landed hobj hsrc hop hq hst hdone hstep hmig)), cur, counted,
      shown, counters, others, frame⟩
  case expires =>
    have fits' : s.wdogFits c v target = true := by
      cases target
      case peer => simpa [State.wdogFits] using fits
      case host => simpa [State.wdogFits, Side2.isHost_iff] using fits
      case package =>
        simp only [← Side2.isHost_iff] at fits
        simpa [State.wdogFits, -not_and, not_and_or] using fits
    obtain ⟨cur, raised, ports, frame⟩ := State.wdogEnds_move hv (wdogStatus target)
    refine ⟨_, (watched target).trans (congrArg _ (if_pos ⟨on, begun, by simp [notEnded], fits', decide_eq_true due⟩)), ?_,
      raised, ports, frame⟩
    cases target <;> exact cur
  case stands =>
    refine (watched target).trans (congrArg _ (if_neg ?_))
    rintro ⟨on, begun, notEnded, -, due⟩
    have due' : v.since + min (s.rd MOV_WDOG.PERIOD_US c) 60000000 ≤ s.us := of_decide_eq_true due
    rcases h with early | off | notBegun | ended
    · omega
    · simp [on] at off
    · simp [begun] at notBegun
    · exact notEnded ended

end Sys2Proof.Machine
end

section
/-! PROOFS. Where the statement about copies fails: a FETCH whose completion record goes to HBM (R228, R354, R357). -/

namespace Sys2Proof.Machine

/-- A descriptor of class TIER with tag 1, begun in slot 0 of a ring and not QUIET: FETCH of entry 0 at generation 1 for context 0,
with neither PIN nor VERIFY. -/
def fetchDesc : RingDesc :=
  ⟨0, leBytes 8 0x2004 ++ leBytes 8 1 ++ List.replicate 48 0 ++ leBytes 8 (0x07 + 2 ^ 54) ++ List.replicate 184 0, true⟩

/-- The object of context 0 in entry 0 comes from T2 into the pool's first unit; the FETCH was given in slot 0 of ring 0. -/
def fetchedObj : Obj :=
  { Obj.free with
    state := 5, gen := 1, len := 64, units := 1, t1 := 2 ^ 29, intentIn := true, t2valid := true
    waits := [⟨0x07, .ring 0 0, false, false⟩] }

/-- The tier manager runs with a pool of 512 MiB below 1 GiB; ring 0 is enabled, and its completion ring lies in HBM, from
1 GiB on. -/
def ringFetch : State :=
  let s := (State.reset.wr TIER_CTRL.EN 1).wr TIER_CTRL.READY 1
  let s := ((s.wr TIER_POOL_BASE.BASE (2 ^ 13)).wr TIER_POOL_LIMIT.LIMIT (2 ^ 14)).wr HOST_LINK.UP 1
  let s := ((s.wr RING_CFG.EN 1 0).wr RING_CFG.SPACE 1 0).wr RING_STATUS.STATE 1 0
  let s := ((s.wr RING_SIZE.ENTRIES 16 0).wr RING_CQ_BASE.BASE (2 ^ 18) 0).setRing 0 fun x => { x with inflight := [fetchDesc] }
  (s.setTier fun t => { t with ctxs := [(0, ⟨0, 0, 2 ^ 40 - 1⟩)] }).setObj 0 fun _ => fetchedObj

theorem ringFetch_due : ringFetch.tierRuns = true ∧ ringFetch.hostUp = true ∧ (ringFetch.obj 0).state = 5
    ∧ (ringFetch.obj 0).intentIn = true ∧ (ringFetch.obj 0).verify = false ∧ (ringFetch.obj 0).sums = []
    ∧ (ringFetch.prepare (keysOf (2 ^ 29) 64) true).2 = true := by decide +kernel

/-- What the statement says HBM holds: the copy, and nothing else new. -/
def ringFetchCopied : State :=
  let r := (ringFetch.prepare (keysOf (2 ^ 29) 64) true).1.hostRead 0 0 0 64
  r.1.rangeWrite 98 0 (2 ^ 29) r.2

theorem ringFetchCopied_blank : memGet ringFetchCopied.hbm (2 ^ 30 + 8) = 0 := by decide +kernel

/-- The FETCH's record has the descriptor's tag in its second quadword. -/
theorem ringFetch_recorded : memGet (ringFetch.result (.fetchCopyLands 0)).hbm (2 ^ 30 + 8) = 1 := by decide +kernel

/-- Refutes O40: a fetch copy that lands completes the FETCH that waits for it. Where that was given on a ring whose completion
ring lies in HBM, its record is written there too, and HBM holds more than the copy: the clause on a fetch copy that lands
without VERIFY, unlike those on eviction copies, does not leave such a FETCH out. -/
theorem not_tierCopies : ¬ Obligations.TierCopies := by
  intro h
  obtain ⟨runs, up, fetching, inwards, unverified, noSums, free⟩ := ringFetch_due
  obtain ⟨-, -, -, -, -, -, -, -, -, -, lands, -⟩ := h ringFetch 0 runs
  obtain ⟨t, ht, -, hhbm⟩ := lands fetching up inwards unverified (by simp [noSums]) free
  have recorded := ringFetch_recorded
  rw [State.result_eq ht, hhbm] at recorded
  exact absurd (ringFetchCopied_blank.symm.trans recorded) (by decide)

end Sys2Proof.Machine
end

section
/-! PROOFS. The tier manager's tables, and the registers that show them (R210, R216, R230, R239). -/

namespace Sys2Proof.Machine

/-! ## Entries of the object table -/

section
variable (s : State)

@[simp] theorem State.setTier_tier (f : Tier → Tier) : (s.setTier f).tier = f s.tier := rfl

theorem State.obj_setObj_ne (i j : Nat) (f : Obj → Obj) (h : j ≠ i) : (s.setObj i f).obj j = s.obj j :=
  getK_setK_ne _ _ _ _ _ _ h

theorem State.obj_congr {t : State} (h : t.tier.objs = s.tier.objs) (i : Nat) : t.obj i = s.obj i := by
  rw [State.obj, State.obj, h]

theorem State.setObj_rd (i : Nat) (f : Obj → Obj) (g : Fld) (j k r : Nat) : (s.setObj i f).rd g j k r = s.rd g j k r := rfl

@[simp] theorem State.setObj_exts (i : Nat) (f : Obj → Obj) : (s.setObj i f).tier.exts = s.tier.exts := rfl
@[simp] theorem State.setObj_tail (i : Nat) (f : Obj → Obj) : (s.setObj i f).tier.tail = s.tier.tail := rfl

/-! ## The head of the free queue (R501) -/

@[simp] theorem State.takeEntry_objs (i : Nat) : (s.takeEntry i).tier.objs = s.tier.objs := by
  rw [State.takeEntry, State.setTier_tier]
  split <;> rfl

@[simp] theorem State.takeEntry_obj (i j : Nat) : (s.takeEntry i).obj j = s.obj j := s.obj_congr (s.takeEntry_objs i) j

/-- A new object stands in its entry at the entry's generation, at least 1 (R216). -/
theorem State.newObj_obj (i : Nat) (o : Obj) :
    (s.newObj i o).obj i = { o with gen := if (s.obj i).gen = 0 then 1 else (s.obj i).gen } := by
  rw [State.newObj, State.obj_setObj, State.takeEntry_obj]

theorem State.newObj_obj_ne (i j : Nat) (o : Obj) (h : j ≠ i) : (s.newObj i o).obj j = s.obj j := by
  rw [State.newObj, State.obj_setObj_ne _ _ _ _ h, State.takeEntry_obj]

/-! ## Released extents (R230) -/

/-- What is released of an entry's extent is the last extent listed. -/
theorem State.release_some (i addr units : Nat) (h : units ≠ 0) : s.release i addr units
    = s.setTier fun t => { t with
        exts := t.exts ++ [⟨addr, units, some i, (s.obj i).ctx, (s.obj i).t1, s.t1Readers i (s.obj i).t1 addr⟩] } := by
  rw [State.release, if_neg h]

@[simp] theorem State.release_obj (i addr units j : Nat) : (s.release i addr units).obj j = s.obj j := by
  rw [State.release]
  split <;> rfl

@[simp] theorem State.releaseAll_obj (i : Nat) : (s.releaseAll i).obj i = { s.obj i with t1 := 0, units := 0 } := by
  rw [State.releaseAll, State.obj_setObj, State.release_obj]

theorem State.releaseAll_obj_ne (i j : Nat) (h : j ≠ i) : (s.releaseAll i).obj j = s.obj j := by
  rw [State.releaseAll, State.obj_setObj_ne _ _ _ _ h, State.release_obj]

theorem State.releaseAll_exts (i : Nat) (h : (s.obj i).units ≠ 0) : (s.releaseAll i).tier.exts = s.tier.exts
    ++ [⟨(s.obj i).t1, (s.obj i).units, some i, (s.obj i).ctx, (s.obj i).t1, s.t1Readers i (s.obj i).t1 (s.obj i).t1⟩] := by
  rw [State.releaseAll, State.setObj_exts, State.release_some _ _ _ _ h]
  rfl

@[simp] theorem State.releaseAll_regs (i : Nat) : (s.releaseAll i).regs = s.regs := by
  rw [State.releaseAll, State.release]
  split <;> rfl

theorem State.releaseAll_empty (i : Nat) (h : (s.obj i).units = 0) :
    s.releaseAll i = s.setObj i fun o => { o with t1 := 0, units := 0 } := by
  unfold State.releaseAll
  simp only [h]
  rfl

/-- Where no checksum waits for it, an object that leaves T1 only gives up its extent. -/
theorem State.leaveT1_unsummed (i : Nat) (h : (s.obj i).sums = []) :
    s.leaveT1 i = (s.releaseAll i).setObj i fun o => { o with sums := [] } := by
  rw [State.leaveT1, h]
  rfl

/-! ## The registers that show the tables -/

@[simp] theorem State.tierView_tier : s.tierView.tier = s.tier := by
  unfold State.tierView
  extract_lets oldFree oldUsed g free used s1 s2 s3 mu me s4
  have h3 : s3.tier = s.tier := rfl
  have h4 : s4.tier = s3.tier := by
    simp only [s4]
    split
    · rw [State.raise_tier]
    · rfl
  split
  · rw [State.raise_tier, h4, h3]
  · rw [h4, h3]

@[simp] theorem State.tierView_obj (i : Nat) : s.tierView.obj i = s.obj i := s.obj_congr (by rw [State.tierView_tier]) i

end

end Sys2Proof.Machine
end

section
/-! PROOFS. How the tier manager works on a command and answers it (R218, R220, R239). -/

namespace Sys2Proof.Machine

/-! ## The work on a command -/

/-- The registers that the answer to a command given through TIER_CMD stands in (R239). -/
def answerKeys : List Nat := [TIER_RESULT0.Q.key 0 0 0, TIER_RESULT1.Q.key 0 0 0, TIER_CMD_GO.BUSY.key 0 0 0]

/-- Only register fields, what their interrupts send, and the tier manager's tables changed. -/
def State.tierOnly (s t : State) : Prop := t = { s with regs := t.regs, irq := t.irq, out := t.out, tier := t.tier }

theorem State.tierOnly.trans {s t u : State} (h : s.tierOnly t) (g : t.tierOnly u) : s.tierOnly u := by
  unfold State.tierOnly at *
  rw [g, h]

theorem State.quiet.tierOnly {s t : State} (h : s.quiet t) : s.tierOnly t := by
  have tier : t.tier = s.tier := by rw [h]
  unfold State.tierOnly
  rw [tier]
  exact h

/-- The tier manager works on a command: it changes tables and registers, and gives no answer yet. -/
structure State.tierWork (s t : State) : Prop where
  frame : s.tierOnly t
  answer : ∀ d, ∀ k ∈ answerKeys, getK d t.regs k = getK d s.regs k

section
variable {s t u : State}

theorem State.tierWork.refl (s : State) : s.tierWork s := ⟨rfl, fun _ _ _ => rfl⟩

theorem State.tierWork.trans (h : s.tierWork t) (g : t.tierWork u) : s.tierWork u :=
  ⟨h.frame.trans g.frame, fun d k hk => (g.answer d k hk).trans (h.answer d k hk)⟩

theorem State.tierWork.wr (h : s.tierWork t) (f : Fld) (v i j r : Nat) (hk : f.key i j r ∉ answerKeys) :
    s.tierWork (t.wr f v i j r) :=
  h.trans ⟨rfl, fun d k hm => t.getK_wr_ne d f v i j r k (ne_of_mem_of_not_mem hm hk)⟩

theorem State.tierWork.bump (h : s.tierWork t) (f : Fld) (n : Nat) (hk : f.key 0 0 0 ∉ answerKeys) :
    s.tierWork (t.bump f n) := h.wr f _ 0 0 0 hk

theorem State.tierWork.raise (h : s.tierWork t) (f : Fld) (hk : f.key 0 0 0 ∉ answerKeys) : s.tierWork (t.raise f) := by
  exact h.trans ⟨(t.raise_quiet f 0 1).tierOnly, fun d k hm => t.getK_raise_ne d f 0 1 k (ne_of_mem_of_not_mem hm hk)⟩

theorem State.tierWork.setTier (h : s.tierWork t) (f : Tier → Tier) : s.tierWork (t.setTier f) :=
  h.trans ⟨rfl, fun _ _ _ => rfl⟩

theorem State.tierWork.setObj (h : s.tierWork t) (i : Nat) (f : Obj → Obj) : s.tierWork (t.setObj i f) := h.setTier _

theorem State.tierWork.ite {c : Prop} [Decidable c] (h : s.tierWork t) (g : s.tierWork u) : s.tierWork (if c then t else u) := by
  split
  · exact h
  · exact g

theorem State.tierWork.release (h : s.tierWork t) (i addr units : Nat) : s.tierWork (t.release i addr units) :=
  .ite h (h.setTier _)

theorem State.tierWork.releaseAll (h : s.tierWork t) (i : Nat) : s.tierWork (t.releaseAll i) := by
  unfold State.releaseAll
  exact (h.release i _ _).setObj i _

theorem State.tierWork.newObj (h : s.tierWork t) (i : Nat) (o : Obj) : s.tierWork (t.newObj i o) := (h.setTier _).setObj i _

theorem State.tierWork.addPin (h : s.tierWork t) (i : Nat) (pin : Bool) : s.tierWork (t.addPin i pin) := .ite (h.setObj i _) h

theorem State.tierWork.waitOn (h : s.tierWork t) (i cmd : Nat) (reply : TierReply) (pinned joined : Bool) :
    s.tierWork (t.waitOn i cmd reply pinned joined) := h.setObj i _

theorem State.tierWork.tierView (h : s.tierWork t) : s.tierWork t.tierView := by
  unfold State.tierView
  extract_lets oldFree oldUsed g free used s1 s2 s3 mu me s4
  have h3 : s.tierWork s3 := ((((h.wr _ _ _ _ _ (by decide)).wr _ _ _ _ _ (by decide)).wr _ _ _ _ _ (by decide)).wr _ _ _ _ _
    (by decide)).wr _ _ _ _ _ (by decide)
  have h4 : s.tierWork s4 := .ite (h3.raise _ (by decide)) h3
  exact .ite (h4.raise _ (by decide)) h4

end

/-! ## Taking a command -/

section
variable (s : State) (f : Nat)

/-- The state in which the command of a function is carried out: TIER_CMD is BUSY where it was given there (R239). -/
def State.taken : State := if s.rowReply f = .regs then s.wr TIER_CMD_GO.BUSY 1 else s

theorem State.rowReply_cases : s.rowReply f = .regs ∨ s.rowReply f = .direct f := by
  unfold State.rowReply
  split
  · exact .inl rfl
  · exact .inr rfl

theorem State.taken_quiet : s.quiet (s.taken f) := by
  unfold State.taken
  split
  · exact s.wr_quiet _ _ _ _ _
  · exact s.quiet_refl

/-- Of the registers only BUSY may change as a command is taken. -/
theorem State.taken_sameRegs : s.sameRegs (s.taken f) [TIER_CMD_GO.BUSY.key 0 0 0] := by
  unfold State.taken
  split
  · exact s.sameRegs_wr _ _ _ _ _
  · exact s.sameRegs_refl _

theorem State.taken_rd (g : Fld) (h : g.key 0 0 0 ≠ TIER_CMD_GO.BUSY.key 0 0 0) : (s.taken f).rd g = s.rd g :=
  State.rd_sameRegs _ _ _ (s.taken_sameRegs f) g 0 0 0 (by simpa using h)

theorem State.taken_on (g : Fld) (h : g.key 0 0 0 ≠ TIER_CMD_GO.BUSY.key 0 0 0) : (s.taken f).on g = s.on g := by
  rw [State.on, State.on, s.taken_rd f g h]

@[simp] theorem State.taken_tier : (s.taken f).tier = s.tier := by rw [s.taken_quiet f]
@[simp] theorem State.taken_rst : (s.taken f).rst = s.rst := by rw [s.taken_quiet f]
@[simp] theorem State.taken_clus : (s.taken f).clus = s.clus := by rw [s.taken_quiet f]

@[simp] theorem State.taken_obj (i : Nat) : (s.taken f).obj i = s.obj i := s.obj_congr (by rw [State.taken_tier]) i
@[simp] theorem State.taken_ctx (c : Nat) : (s.taken f).ctx c = s.ctx c := by rw [State.ctx, State.taken_tier]; rfl
@[simp] theorem State.taken_ownsCtx (g c : Nat) : (s.taken f).ownsCtx g c = s.ownsCtx g c := by
  rw [State.ownsCtx, State.taken_ctx]; rfl
@[simp] theorem State.taken_handleEntry (h : Nat) : (s.taken f).handleEntry h = s.handleEntry h := by
  rw [State.handleEntry, State.taken_obj]; rfl
@[simp] theorem State.taken_freeEntry : (s.taken f).freeEntry = s.freeEntry := by
  simp only [State.freeEntry, State.taken_tier, State.taken_obj]
@[simp] theorem State.taken_ctxUnits (c : Nat) : (s.taken f).ctxUnits c = s.ctxUnits c := by
  rw [State.ctxUnits, State.taken_tier]; rfl
@[simp] theorem State.taken_quotaFits (c units : Nat) : (s.taken f).quotaFits c units = s.quotaFits c units := by
  rw [State.quotaFits, State.taken_ctx, State.taken_ctxUnits]; rfl
@[simp] theorem State.taken_t1Readers (i base addr : Nat) : (s.taken f).t1Readers i base addr = s.t1Readers i base addr := by
  rw [State.t1Readers, State.taken_clus]; rfl
@[simp] theorem State.taken_extOf (i : Nat) : (s.taken f).extOf i = s.extOf i := by rw [State.extOf, State.taken_tier]; rfl
@[simp] theorem State.taken_findExtent (units : Nat) : (s.taken f).findExtent units = s.findExtent units := by
  simp only [State.findExtent, State.freeRanges, State.poolLimit, State.poolBase, State.heldExtents, State.taken_tier,
    s.taken_rd f TIER_POOL_LIMIT.LIMIT (by decide), s.taken_rd f TIER_POOL_BASE.BASE (by decide)]
@[simp] theorem State.taken_metaBase : (s.taken f).metaBase = s.metaBase := by
  rw [State.metaBase, s.taken_rd f _ (by decide)]; rfl
@[simp] theorem State.taken_hbmEnd : (s.taken f).hbmEnd = s.hbmEnd := by
  rw [State.hbmEnd, State.pcs, s.taken_rd f _ (by decide)]; rfl
@[simp] theorem State.taken_tierRuns : (s.taken f).tierRuns = s.tierRuns := by
  simp only [State.tierRuns, State.hub0Reset, State.taken_rst, s.taken_on f TIER_CTRL.EN (by decide),
    s.taken_on f TIER_CTRL.READY (by decide)]

/-- While the tier manager runs a command is carried out at once (R235). -/
theorem State.tierRow_runs (h : s.tierRuns = true) (c : TierCmd) :
    s.tierRow c f = (s.taken f).tierCmd c f (s.rowReply f) := by
  have hen : (s.taken f).on TIER_CTRL.EN = true := by
    rw [s.taken_on f _ (by decide)]
    simp only [State.tierRuns, Bool.and_eq_true] at h
    exact h.1.1
  show (s.taken f).tierAsk c f (s.rowReply f) = _
  rw [State.tierAsk, if_neg (by simp [hen]), if_pos (by rw [State.taken_tierRuns]; exact h)]

end

/-! ## Answering it -/

section
variable (u : State) (cmd : Nat) (r : TierRes)

/-- A failure stands in TIER_ERR before the answer is given (R220). -/
def State.tierNoted : State :=
  if r.status = stOK then u
  else
    let s := ((u.wr TIER_ERR.STATUS r.status).wr TIER_ERR.CMD cmd).wr TIER_ERR.DETAIL r.detail
    ((s.wr TIER_ERR.HANDLE r.handle).wr TIER_ERR.VALID 1).raise TIER_INT_STATUS.ERR

/-- The first quadword of a result record (R220). -/
def TierRes.q0 : Nat := r.status + r.result * 2 ^ 8 + r.detail * 2 ^ 12 + r.handle * 2 ^ 32

theorem State.tierDone_regs : u.tierDone cmd .regs r
    = (((u.tierNoted cmd r).wr TIER_RESULT0.Q r.q0).wr TIER_RESULT1.Q r.t1).wr TIER_CMD_GO.BUSY 0 := rfl

theorem State.tierDone_direct (f : Nat) : u.tierDone cmd (.direct f) r = (u.tierNoted cmd r).send (.tierResult f r.q0 r.t1) := rfl

theorem State.tierNoted_ok (handle result t1 : Nat) : u.tierNoted cmd (.ok handle result t1) = u := if_pos rfl

theorem State.tierNoted_work : u.tierWork (u.tierNoted cmd r) :=
  .ite (.refl u) (((((((State.tierWork.refl u).wr _ _ _ _ _ (by decide)).wr _ _ _ _ _ (by decide)).wr _ _ _ _ _
    (by decide)).wr _ _ _ _ _ (by decide)).wr _ _ _ _ _ (by decide)).raise _ (by decide))

theorem State.tierNoted_quiet : u.quiet (u.tierNoted cmd r) := by
  unfold State.tierNoted
  split
  · exact u.quiet_refl
  · exact ((((((u.quiet_refl).wr _ _ _ _ _).wr _ _ _ _ _).wr _ _ _ _ _).wr _ _ _ _ _).wr _ _ _ _ _).trans
      (State.raise_quiet _ _ _ _)

/-- What TIER_ERR holds of a failure (R220). -/
theorem State.tierNoted_shown {cmd : Nat} {r : TierRes} (hok : r.status ≠ stOK) (hcmd : cmd < 2 ^ 5) (hst : r.status < 2 ^ 8)
    (hdetail : r.detail < 2 ^ 4) (hhandle : r.handle < 2 ^ 32) : let t := u.tierNoted cmd r
    t.rd TIER_ERR.STATUS = r.status ∧ t.rd TIER_ERR.CMD = cmd ∧ t.rd TIER_ERR.DETAIL = r.detail
      ∧ t.rd TIER_ERR.HANDLE = r.handle ∧ t.rd TIER_ERR.VALID = 1 ∧ t.on TIER_INT_STATUS.ERR = true := by
  intro t
  simp only [t, State.tierNoted, if_neg hok]
  refine ⟨?_, ?_, ?_, ?_, ?_, State.raise_on _ _ _ rfl⟩ <;>
    simp (disch := decide) only [State.rd_raise_ne, State.rd_wr_ne, State.rd_wr_same]
  · exact Nat.mod_eq_of_lt hst
  · exact Nat.mod_eq_of_lt hcmd
  · exact Nat.mod_eq_of_lt hdetail
  · exact Nat.mod_eq_of_lt hhandle
  · rfl

/-- An answer changes no table; beyond registers it touches only what is sent, where the command does not come by a ring. -/
theorem State.tierDone_quiet (reply : TierReply) (h : ∀ rg slot, reply ≠ .ring rg slot) : u.quiet (u.tierDone cmd reply r) := by
  have noted := u.tierNoted_quiet cmd r
  cases reply with
  | regs => exact ((noted.wr _ _ _ _ _).wr _ _ _ _ _).wr _ _ _ _ _
  | ring rg slot => exact absurd rfl (h rg slot)
  | direct f => exact noted.trans rfl
  | loader => exact noted

end

section
variable {s u : State} {f : Nat} (cmd : Nat) (r : TierRes)

theorem State.rowReply_ne_ring (s : State) (f rg slot : Nat) : s.rowReply f ≠ .ring rg slot := by
  obtain h | h := s.rowReply_cases f <;> simp [h]

theorem State.tierDone_row_quiet : u.quiet (u.tierDone cmd (s.rowReply f) r) :=
  u.tierDone_quiet cmd r _ (s.rowReply_ne_ring f)

@[simp] theorem State.tierDone_row_tier : (u.tierDone cmd (s.rowReply f) r).tier = u.tier := by
  rw [State.tierDone_row_quiet (u := u) (s := s) (f := f) cmd r]

@[simp] theorem State.tierDone_row_obj (i : Nat) : (u.tierDone cmd (s.rowReply f) r).obj i = u.obj i :=
  u.obj_congr (by rw [State.tierDone_row_tier]) i

@[simp] theorem State.tierDone_row_handleOf (i : Nat) : (u.tierDone cmd (s.rowReply f) r).handleOf i = u.handleOf i := by
  rw [State.handleOf, State.tierDone_row_obj]; rfl

theorem State.tierDone_rd (g : Fld) (h : g.key 0 0 0 ∉ answerKeys) :
    (u.tierDone cmd (s.rowReply f) r).rd g = (u.tierNoted cmd r).rd g := by
  simp only [answerKeys, List.mem_cons, List.not_mem_nil, or_false, not_or] at h
  obtain ⟨h0, h1, hbusy⟩ := h
  obtain e | e := s.rowReply_cases f
  · rw [e, State.tierDone_regs, State.rd_wr_ne _ _ _ _ _ _ _ _ _ _ hbusy, State.rd_wr_ne _ _ _ _ _ _ _ _ _ _ h1,
      State.rd_wr_ne _ _ _ _ _ _ _ _ _ _ h0]
  · rw [e, State.tierDone_direct]
    rfl

/-- The answer to a command stands where its function looks for it, after whatever work (R218, R239). -/
theorem State.tierDone_said (h : (s.taken f).tierWork u) : s.tierSaid (u.tierDone cmd (s.rowReply f) r) f r.q0 r.t1 := by
  obtain e | e := s.rowReply_cases f
  · rw [e, State.tierDone_regs]
    refine ⟨fun _ => ⟨?_, ?_, State.rd_wr_same _ _ _ _ _ _⟩, fun hne => absurd e hne⟩
    · rw [State.rd_wr_ne _ _ _ _ _ _ _ _ _ _ (by decide), State.rd_wr_ne _ _ _ _ _ _ _ _ _ _ (by decide), State.rd_wr_same]
      rfl
    · rw [State.rd_wr_ne _ _ _ _ _ _ _ _ _ _ (by decide), State.rd_wr_same]
      rfl
  · have hs : s.taken f = s := if_neg (by simp [e])
    have work : s.tierWork (u.tierNoted cmd r) := (hs ▸ h).trans (u.tierNoted_work cmd r)
    rw [e, State.tierDone_direct]
    exact ⟨fun hr => by simp [e] at hr, fun _ => ⟨by simp [State.send], work.answer _ _ (by simp [answerKeys]),
      work.answer _ _ (by simp [answerKeys]), work.answer _ _ (by simp [answerKeys])⟩⟩

/-- A command that succeeds is answered with its handle and address. -/
theorem State.tierDone_ok_said (h : (s.taken f).tierWork u) (handle t1 : Nat) :
    s.tierSaid (u.tierDone cmd (s.rowReply f) (.ok handle rDone t1)) f (handle * 2 ^ 32) t1 := by
  have said := State.tierDone_said cmd (.ok handle rDone t1) h
  rwa [show (TierRes.ok handle rDone t1).q0 = handle * 2 ^ 32 by simp [TierRes.q0, TierRes.ok, rDone, stOK]] at said

theorem State.tierWork.only (h : (s.taken f).tierWork u) : s.tierOnly u := (s.taken_quiet f).tierOnly.trans h.frame

theorem State.tierWork.only_done (h : (s.taken f).tierWork u) : s.tierOnly (u.tierDone cmd (s.rowReply f) r) :=
  h.only.trans (State.tierDone_row_quiet cmd r).tierOnly

/-- A command that fails is recorded in TIER_ERR and answered, and nothing else changes (R220). -/
theorem State.tierDone_failed (s : State) (f : Nat) {cmd status detail handle : Nat} (hcmd : cmd < 2 ^ 5) (hok : status ≠ stOK)
    (hst : status < 2 ^ 8) (hdetail : detail < 2 ^ 4) (hhandle : handle < 2 ^ 32) :
    s.tierFailed ((s.taken f).tierDone cmd (s.rowReply f) (.fail status detail handle)) f cmd status detail handle := by
  have said := State.tierDone_said cmd (.fail status detail handle) (State.tierWork.refl (s.taken f))
  have quiet := (s.taken_quiet f).trans (State.tierDone_row_quiet (s := s) (f := f) cmd (.fail status detail handle))
  rw [show (TierRes.fail status detail handle).q0 = status + detail * 2 ^ 12 + handle * 2 ^ 32 by
    simp [TierRes.q0, TierRes.fail]] at said
  obtain ⟨hstatus, hcmd', hdetail', hhandle', hvalid, herr⟩ :=
    (s.taken f).tierNoted_shown (r := .fail status detail handle) hok hcmd hst hdetail hhandle
  have kept (g : Fld) (h : g.key 0 0 0 ∉ answerKeys) := State.tierDone_rd (s := s) (f := f) (u := s.taken f) cmd
    (.fail status detail handle) g h
  refine ⟨(kept _ (by decide)).trans hstatus, (kept _ (by decide)).trans hcmd', (kept _ (by decide)).trans hdetail',
    (kept _ (by decide)).trans hhandle', (kept _ (by decide)).trans hvalid, ?_, said, quiet⟩
  rw [State.on, kept _ (by decide)]
  exact herr

end

end Sys2Proof.Machine
end

section
/-! PROOFS. The commands of the tier manager while it runs, each up to the checks on its context and handle (R219, R494). -/

namespace Sys2Proof.Machine

section
variable {s : State} {f : Fin 65} {ctx : BitVec 24} (runs : s.tierRuns = true)
include runs

theorem exec_ctxCreate_runs (part : Fin 16) (quota : BitVec 40) : exec (.ctxCreate f ctx part quota) s
    = .next ((s.taken f).doCtxCreate { TierCmd.blank 0x01 ctx.toNat with part := part, quota := quota.toNat } f
        (s.rowReply f)) := congrArg _ (s.tierRow_runs f runs _)

theorem exec_ctxDestroy_runs : exec (.ctxDestroy f ctx) s
    = .next ((s.taken f).doCtxDestroy (TierCmd.blank 0x02 ctx.toNat) f (s.rowReply f)) := congrArg _ (s.tierRow_runs f runs _)

theorem exec_allocOpen_runs (len : BitVec 40) : exec (.allocOpen f ctx len) s
    = .next ((s.taken f).doAllocOpen { TierCmd.blank 0x03 ctx.toNat with length := len.toNat } f (s.rowReply f)) :=
  congrArg _ (s.tierRow_runs f runs _)

theorem exec_seal_runs (h : BitVec 32) (len : BitVec 40) (crc : Bool) : exec (.seal f ctx h len crc) s
    = .next ((s.taken f).doSeal
        { TierCmd.blank 0x04 ctx.toNat with handle := h.toNat, length := len.toNat, crc := crc } f (s.rowReply f)) :=
  congrArg _ (s.tierRow_runs f runs _)

theorem exec_adopt_runs (addr : BitVec 64) (len : BitVec 40) (pasid : BitVec 20) (pv : Bool) :
    exec (.adopt f ctx addr len pasid pv) s
      = .next ((s.taken f).doAdopt { TierCmd.blank 0x05 ctx.toNat with
          addr := addr.toNat, length := len.toNat, pasid := pasid.toNat, pv := pv } f (s.rowReply f)) :=
  congrArg _ (s.tierRow_runs f runs _)

theorem exec_evict_runs (h : BitVec 32) (addr : BitVec 64) (pasid : BitVec 20) (pv : Bool) :
    exec (.evict f ctx h addr pasid pv) s
      = .next ((s.taken f).doEvict { TierCmd.blank 0x06 ctx.toNat with
          handle := h.toNat, addr := addr.toNat, pasid := pasid.toNat, pv := pv } f (s.rowReply f)) :=
  congrArg _ (s.tierRow_runs f runs _)

theorem exec_fetch_runs (h : BitVec 32) (pin verify : Bool) : exec (.fetch f ctx h pin verify) s
    = .next ((s.taken f).doFetch
        { TierCmd.blank 0x07 ctx.toNat with handle := h.toNat, pin := pin, verify := verify } f (s.rowReply f)) :=
  congrArg _ (s.tierRow_runs f runs _)

theorem exec_unpin_runs (h : BitVec 32) : exec (.unpin f ctx h) s
    = .next ((s.taken f).doUnpin { TierCmd.blank 0x08 ctx.toNat with handle := h.toNat } f (s.rowReply f)) :=
  congrArg _ (s.tierRow_runs f runs _)

theorem exec_free_runs (h : BitVec 32) : exec (.free f ctx h) s
    = .next ((s.taken f).doFree { TierCmd.blank 0x09 ctx.toNat with handle := h.toNat } f (s.rowReply f)) :=
  congrArg _ (s.tierRow_runs f runs _)

theorem exec_releaseT2_runs (h : BitVec 32) : exec (.releaseT2 f ctx h) s
    = .next ((s.taken f).doReleaseT2 { TierCmd.blank 0x0A ctx.toNat with handle := h.toNat } f (s.rowReply f)) :=
  congrArg _ (s.tierRow_runs f runs _)

theorem exec_verify_runs (h : BitVec 32) : exec (.verify f ctx h) s
    = .next ((s.taken f).doVerify { TierCmd.blank 0x0B ctx.toNat with handle := h.toNat } f (s.rowReply f)) :=
  congrArg _ (s.tierRow_runs f runs _)

theorem exec_query_runs (h : BitVec 32) (addr : BitVec 64) : exec (.query f ctx h addr) s
    = .next ((s.taken f).doQuery { TierCmd.blank 0x0C ctx.toNat with handle := h.toNat, addr := addr.toNat } f
        (s.rowReply f)) := congrArg _ (s.tierRow_runs f runs _)

end

/-! ## Contexts and handles (R494) -/

section
variable {u : State} {c : TierCmd} {func : Nat} (reply : TierReply) (g : State → Nat → State)

theorem State.onHandle_unowned (h : u.ownsCtx func c.ctx = false) :
    u.onHandle c func reply g = u.tierDone c.cmd reply (.fail stNoContext 0 c.handle) := by
  rw [State.onHandle, if_pos (by simp [h])]

theorem State.onHandle_stale (h : u.ownsCtx func c.ctx = true)
    (hi : u.handleEntry c.handle = none ∨ ∃ i, u.handleEntry c.handle = some i ∧ (u.obj i).ctx ≠ c.ctx) :
    u.onHandle c func reply g = u.tierDone c.cmd reply (.fail stBadDescriptor 2 c.handle) := by
  rw [State.onHandle, if_neg (by simp [h])]
  obtain hi | ⟨i, hi, hc⟩ := hi
  · simp only [hi]
  · simp only [hi, if_neg hc]

theorem State.onHandle_valid {i : Nat} (h : u.ownsCtx func c.ctx = true) (hi : u.handleEntry c.handle = some i)
    (hc : (u.obj i).ctx = c.ctx) : u.onHandle c func reply g = g u i := by
  rw [State.onHandle, if_neg (by simp [h])]
  simp only [hi, if_pos hc]

end

/-- A command that ends in a failure is recorded and answered so. -/
theorem exec_tierFails {s : State} {i : Instr} {f cmd status detail handle : Nat} (hhandle : handle < 2 ^ 32)
    (run : exec i s = .next ((s.taken f).tierDone cmd (s.rowReply f) (.fail status detail handle)))
    (hcmd : cmd < 2 ^ 5 := by decide) (hok : status ≠ stOK := by decide) (hst : status < 2 ^ 8 := by decide)
    (hdetail : detail < 2 ^ 4 := by decide) : ∃ t, exec i s = .next t ∧ s.tierFailed t f cmd status detail handle :=
  ⟨_, run, s.tierDone_failed f hcmd hok hst hdetail hhandle⟩

end Sys2Proof.Machine
end

section
/-! PROOFS. Objects come to be: ALLOC_OPEN, ADOPT, SEAL and QUERY (R211, R216, R222, R224, R225, R492, R501). -/

namespace Sys2Proof.Machine

/-! ## What each makes of the tables -/

section
variable (u : State) (i : Nat)

/-- ALLOC_OPEN and ADOPT put a new object into its entry, and the registers show it. -/
def State.born (o : Obj) : State := (u.newObj i o).tierView

theorem State.born_obj (o : Obj) : (u.born i o).obj i = { o with gen := if (u.obj i).gen = 0 then 1 else (u.obj i).gen } := by
  rw [State.born, State.tierView_obj, State.newObj_obj]

theorem State.born_obj_ne (o : Obj) (j : Nat) (h : j ≠ i) : (u.born i o).obj j = u.obj j := by
  rw [State.born, State.tierView_obj, State.newObj_obj_ne _ _ _ _ h]

/-- SEAL gives back the units beyond the length, and the object is RESIDENT (R224); where a checksum is asked for, it waits. -/
def State.sealedTo (len : Nat) (crc : Bool) (reply : TierReply) : State :=
  let o := u.obj i
  let keep := cdiv len 65536
  ((u.release i (o.t1 + keep * 65536) (o.units - keep)).setObj i fun o => { o with
    state := 2, len := len, units := keep, t1 := if keep = 0 then 0 else o.t1, t2valid := false
    sums := if crc then o.sums ++ [(0x04, reply)] else o.sums }).tierView

variable (len : Nat) (crc : Bool) (reply : TierReply)

theorem State.sealedTo_obj : (u.sealedTo i len crc reply).obj i = { u.obj i with
    state := 2, len := len, units := cdiv len 65536, t1 := if cdiv len 65536 = 0 then 0 else (u.obj i).t1, t2valid := false
    sums := if crc then (u.obj i).sums ++ [(0x04, reply)] else (u.obj i).sums } := by
  rw [State.sealedTo, State.tierView_obj, State.obj_setObj, State.release_obj]

theorem State.sealedTo_obj_ne (j : Nat) (h : j ≠ i) : (u.sealedTo i len crc reply).obj j = u.obj j := by
  rw [State.sealedTo, State.tierView_obj, State.obj_setObj_ne _ _ _ _ h, State.release_obj]

theorem State.sealedTo_exts (h : cdiv len 65536 < (u.obj i).units) : (u.sealedTo i len crc reply).tier.exts = u.tier.exts
    ++ [⟨(u.obj i).t1 + cdiv len 65536 * 65536, (u.obj i).units - cdiv len 65536, some i, (u.obj i).ctx, (u.obj i).t1,
      u.t1Readers i (u.obj i).t1 ((u.obj i).t1 + cdiv len 65536 * 65536)⟩] := by
  rw [State.sealedTo, State.tierView_tier, State.setObj_exts, State.release_some _ _ _ _ (by omega)]
  rfl

theorem State.sealedTo_work : u.tierWork (u.sealedTo i len crc reply) :=
  (((State.tierWork.refl u).release i _ _).setObj i _).tierView

/-- What a SEAL leaves in the tables, whether it is answered at once or not. -/
theorem State.sealedTo_row (s : State) (f : Nat) {t : State}
    (ht : t.tier = ((s.taken f).sealedTo i len crc (s.rowReply f)).tier) :
    t.obj i = { s.obj i with
      state := 2, len := len, units := cdiv len 65536, t1 := if cdiv len 65536 = 0 then 0 else (s.obj i).t1, t2valid := false
      sums := if crc then (s.obj i).sums ++ [(0x04, s.rowReply f)] else (s.obj i).sums }
      ∧ (cdiv len 65536 < (s.obj i).units → t.tier.exts = s.tier.exts
        ++ [⟨(s.obj i).t1 + cdiv len 65536 * 65536, (s.obj i).units - cdiv len 65536, some i, (s.obj i).ctx, (s.obj i).t1,
          s.t1Readers i (s.obj i).t1 ((s.obj i).t1 + cdiv len 65536 * 65536)⟩])
      ∧ ∀ j, j ≠ i → t.obj j = s.obj j := by
  have objs (j : Nat) := ((s.taken f).sealedTo i len crc (s.rowReply f)).obj_congr (by rw [ht]) j
  refine ⟨?_, fun less => ?_, fun j hj => ?_⟩
  · rw [objs, State.sealedTo_obj, State.taken_obj]
  · rw [ht, State.sealedTo_exts _ _ _ _ _ (by rwa [State.taken_obj])]
    simp only [State.taken_obj, State.taken_tier, State.taken_t1Readers]
  · rw [objs, State.sealedTo_obj_ne _ _ _ _ _ _ hj, State.taken_obj]

theorem State.born_work (o : Obj) : u.tierWork (u.born i o) := ((State.tierWork.refl u).newObj i o).tierView

/-- The answer names the new object's handle and its address. -/
def State.bornDone (cmd : Nat) (reply : TierReply) (a : Nat) : State :=
  u.tierDone cmd reply (.ok (u.handleOf i) rDone a)

theorem State.bornDone_row (s : State) (f cmd i : Nat) (o : Obj) (a : Nat) :
    let t := ((s.taken f).born i o).bornDone i cmd (s.rowReply f) a
    t.obj i = { o with gen := if (s.obj i).gen = 0 then 1 else (s.obj i).gen } ∧ (∀ j, j ≠ i → t.obj j = s.obj j)
      ∧ s.tierSaid t f (t.handleOf i * 2 ^ 32) a ∧ s.tierOnly t := by
  have work := (s.taken f).born_work i o
  unfold State.bornDone
  refine ⟨?_, fun j hj => ?_, ?_, work.only_done _ _⟩
  · rw [State.tierDone_row_obj, State.born_obj, State.taken_obj]
  · rw [State.tierDone_row_obj, State.born_obj_ne _ _ _ _ hj, State.taken_obj]
  · rw [State.tierDone_row_handleOf]
    exact State.tierDone_ok_said cmd work _ a

end

/-! ## The commands -/

section
variable {u : State} {c : TierCmd} {func : Nat} {reply : TierReply} {i : Nat}

section
variable (owns : u.ownsCtx func c.ctx = true)
include owns

theorem State.doAllocOpen_badSize (h : ¬ (c.length ≠ 0 ∧ c.length ≤ 2 ^ 34)) :
    u.doAllocOpen c func reply = u.tierDone c.cmd reply (.fail stBadDescriptor 6) := by
  rw [State.doAllocOpen, if_neg (by simp [owns]), if_pos (by omega)]

theorem State.doAdopt_badSize (h : ¬ (c.length ≠ 0 ∧ c.length ≤ 2 ^ 34)) :
    u.doAdopt c func reply = u.tierDone c.cmd reply (.fail stBadDescriptor 6) := by
  rw [State.doAdopt, if_neg (by simp [owns]), if_pos (by omega)]

variable (size : c.length ≠ 0 ∧ c.length ≤ 2 ^ 34)
include size

theorem State.doAllocOpen_noEntry (h : u.freeEntry = none) :
    u.doAllocOpen c func reply = u.tierDone c.cmd reply (.fail stNoObjectSlot 1) := by
  rw [State.doAllocOpen, if_neg (by simp [owns]), if_neg (by omega), h]

section
variable {units : Nat} (hunits : cdiv c.length 65536 = units)
include hunits

theorem State.doAllocOpen_noRange (hi : u.freeEntry = some i) (h : u.findExtent units = none) :
    u.doAllocOpen c func reply = u.tierDone c.cmd reply (.fail stNoObjectSlot 2) := by
  rw [State.doAllocOpen, if_neg (by simp [owns]), if_neg (by omega), hi, hunits]
  simp only [h]

theorem State.doAllocOpen_noQuota {a : Nat} (hi : u.freeEntry = some i) (ha : u.findExtent units = some a)
    (h : u.quotaFits c.ctx units = false) :
    u.doAllocOpen c func reply = u.tierDone c.cmd reply (.fail stNoObjectSlot 3) := by
  rw [State.doAllocOpen, if_neg (by simp [owns]), if_neg (by omega), hi, hunits]
  simp [ha, h]

theorem State.doAllocOpen_fits {a : Nat} (hi : u.freeEntry = some i) (ha : u.findExtent units = some a)
    (h : u.quotaFits c.ctx units = true) : u.doAllocOpen c func reply =
    (u.born i { Obj.free with
      state := 1, ctx := c.ctx, len := units * 65536, units := units, t1 := a }).bornDone i c.cmd reply a := by
  rw [State.doAllocOpen, if_neg (by simp [owns]), if_neg (by omega), hi, hunits]
  simp only [ha, h]
  rfl

end

theorem State.doAdopt_noEntry (h : u.freeEntry = none) :
    u.doAdopt c func reply = u.tierDone c.cmd reply (.fail stNoObjectSlot 1) := by
  rw [State.doAdopt, if_neg (by simp [owns]), if_neg (by omega)]
  simp only [h]

theorem State.doAdopt_fits (hi : u.freeEntry = some i) : u.doAdopt c func reply =
    (u.born i { Obj.free with
      state := 4, ctx := c.ctx, len := c.length, t2valid := true, t2addr := c.addr, pasid := c.pasid
      pv := c.pv }).bornDone i c.cmd reply 0 := by
  rw [State.doAdopt, if_neg (by simp [owns]), if_neg (by omega)]
  simp only [hi]
  rfl

end

/-- The command names a valid handle of its context, which its function owns: the entry, and no failure of R494. -/
structure State.names (s : State) (func : Nat) (c : TierCmd) (i : Nat) : Prop where
  owns : s.ownsCtx func c.ctx = true
  entry : s.handleEntry c.handle = some i
  ctx : (s.obj i).ctx = c.ctx

theorem State.names.onHandle (h : u.names func c i) (g : State → Nat → State) : u.onHandle c func reply g = g u i :=
  State.onHandle_valid reply g h.owns h.entry h.ctx

theorem State.names.taken {s : State} (h : s.names func c i) : (s.taken func).names func c i :=
  ⟨by rw [State.taken_ownsCtx, h.owns], by rw [State.taken_handleEntry, h.entry], by rw [State.taken_obj, h.ctx]⟩

theorem State.names.doSeal_notOpen (h : u.names func c i) (st : (u.obj i).state ≠ 1) :
    u.doSeal c func reply = u.tierDone c.cmd reply (.fail stBadDescriptor 3 c.handle) := by
  rw [State.doSeal, h.onHandle]
  exact if_pos st

theorem State.names.doSeal_tooLong (h : u.names func c i) (st : (u.obj i).state = 1) (long : (u.obj i).len < c.length) :
    u.doSeal c func reply = u.tierDone c.cmd reply (.fail stBadDescriptor 6 c.handle) := by
  rw [State.doSeal, h.onHandle]
  exact (if_neg (by simp [st])).trans (if_pos long)

section
variable (hcmd : c.cmd = 0x04) (st : (u.obj i).state = 1) (le : c.length ≤ (u.obj i).len)
include hcmd st le

/-- SEAL of an OPEN object that is long enough waits for its checksum, where it asks for one (R224). -/
theorem State.names.doSeal_checked (h : u.names func c i) (hcrc : c.crc = true) :
    u.doSeal c func reply = u.sealedTo i c.length true reply := by
  rw [State.doSeal, h.onHandle, hcmd, hcrc]
  exact (if_neg (by simp [st])).trans ((if_neg (by omega)).trans (if_pos rfl))

theorem State.names.doSeal_answered (h : u.names func c i) (hcrc : c.crc = false) :
    u.doSeal c func reply = (u.sealedTo i c.length false reply).tierDone 0x04 reply (.ok c.handle) := by
  rw [State.doSeal, h.onHandle, hcmd, hcrc]
  exact (if_neg (by simp [st])).trans ((if_neg (by omega)).trans (if_neg (by simp)))

end

/-- Whether QUERY may write an image at an address: a line of the HBM present, outside the metadata region (R219). -/
def State.queryAt (s : State) (addr : Nat) : Prop :=
  addr % 64 = 0 ∧ addr + 64 ≤ s.hbmEnd ∧ (addr + 64 ≤ s.metaBase ∨ s.metaBase + metaSize ≤ addr)

theorem State.names.doQuery_badAddr (h : u.names func c i) (bad : ¬ u.queryAt c.addr) :
    u.doQuery c func reply = u.tierDone c.cmd reply (.fail stBadDescriptor 1 c.handle) := by
  rw [State.doQuery, h.onHandle]
  refine if_pos ?_
  unfold State.queryAt at bad
  omega

theorem State.names.doQuery (h : u.names func c i) (good : u.queryAt c.addr) : u.doQuery c func reply =
    let v := u.rangeWrite 98 (u.ctxPart (u.obj i).ctx) c.addr (u.entryImage i)
    v.tierDone c.cmd reply (.ok c.handle rDone (v.obj i).t1) := by
  rw [State.doQuery, h.onHandle]
  refine if_neg ?_
  unfold State.queryAt at good
  omega

end

/-- Settles O38, by the command and by the first of its checks that fails; a command whose checks all hold gets its entry, its
extent or its image. -/
theorem tierObjects : Obligations.TierObjects := by
  intro s f ctx len runs owns only gen fails size
  have owned : (s.taken f).ownsCtx f ctx.toNat = true := by rw [State.taken_ownsCtx, owns]
  have names {i : Nat} {h : BitVec 32} (hi : s.handleEntry h.toNat = some i) (hctx : (s.obj i).ctx = ctx.toNat) (c : TierCmd)
      (hc : c.ctx = ctx.toNat) (hh : c.handle = h.toNat) : (s.taken f).names f c i :=
    State.names.taken ⟨by rw [hc, owns], by rw [hh, hi], by rw [hc, hctx]⟩
  have entry : (s.taken f).freeEntry = s.freeEntry := s.taken_freeEntry f
  have range : (s.taken f).findExtent (cdiv len.toNat 65536) = s.findExtent (cdiv len.toNat 65536) := s.taken_findExtent f _
  have quota := s.taken_quotaFits f ctx.toNat (cdiv len.toNat 65536)
  have alloc {t} (h : _ = t) : exec (.allocOpen f ctx len) s = .next t := (exec_allocOpen_runs runs len).trans (congrArg _ h)
  have adopt {addr pasid pv t} (h : _ = t) : exec (.adopt f ctx addr len pasid pv) s = .next t :=
    (exec_adopt_runs runs addr len pasid pv).trans (congrArg _ h)
  have seal_ {h crc t} (e : _ = t) : exec (.seal f ctx h len crc) s = .next t :=
    (exec_seal_runs runs h len crc).trans (congrArg _ e)
  have query {h addr t} (e : _ = t) : exec (.query f ctx h addr) s = .next t :=
    (exec_query_runs runs h addr).trans (congrArg _ e)
  refine ⟨fun bad => exec_tierFails (by decide) (alloc (State.doAllocOpen_badSize owned bad)),
    fun good no => exec_tierFails (by decide) (alloc (State.doAllocOpen_noEntry owned good (entry.trans no))),
    fun good some no => exec_tierFails (by decide) (alloc ?allocRange),
    fun good some fits full => exec_tierFails (by decide) (alloc ?allocQuota),
    fun addr pasid pv => ⟨fun bad => exec_tierFails (by decide) (adopt (State.doAdopt_badSize owned bad)),
      fun good no => exec_tierFails (by decide) (adopt (State.doAdopt_noEntry owned good (entry.trans no)))⟩,
    fun i h crc addr hi hctx => ⟨fun st => exec_tierFails h.isLt (seal_ ?sealState),
      fun st long => exec_tierFails h.isLt (seal_ ?sealLength), fun bad => exec_tierFails h.isLt (query ?queryAddr)⟩,
    fun i a ne le hi ha fits => ?allocated, fun i addr pasid pv ne le hi => ?adopted,
    fun i h crc hi hctx st le => ?sealed, fun i h addr hi hctx aligned inside outside => ?queried⟩
  case allocRange =>
    obtain ⟨i, hi⟩ := Option.ne_none_iff_exists'.1 some
    exact State.doAllocOpen_noRange owned good rfl (entry.trans hi) (range.trans no)
  case allocQuota =>
    obtain ⟨i, hi⟩ := Option.ne_none_iff_exists'.1 some
    obtain ⟨a, ha⟩ := Option.ne_none_iff_exists'.1 fits
    exact State.doAllocOpen_noQuota owned good rfl (entry.trans hi) (range.trans ha) (quota.trans full)
  case sealState => exact (names hi hctx _ rfl rfl).doSeal_notOpen (by rwa [State.taken_obj])
  case sealLength =>
    exact (names hi hctx _ rfl rfl).doSeal_tooLong (by rwa [State.taken_obj]) (by rwa [State.taken_obj])
  case queryAddr =>
    refine (names hi hctx _ rfl rfl).doQuery_badAddr ?_
    simp only [State.queryAt, State.taken_hbmEnd, State.taken_metaBase]
    omega
  case allocated =>
    exact ⟨_, alloc (State.doAllocOpen_fits owned ⟨ne, le⟩ rfl (entry.trans hi) (range.trans ha) (quota.trans fits)),
      s.bornDone_row f _ i _ a⟩
  case adopted =>
    exact ⟨_, adopt (State.doAdopt_fits owned ⟨ne, le⟩ (entry.trans hi)), s.bornDone_row f _ i _ 0⟩
  case sealed =>
    have named := names (h := h) hi hctx
    have work (crc : Bool) := (s.taken f).sealedTo_work i len.toNat crc (s.rowReply f)
    cases crc with
    | true =>
      obtain ⟨obj, exts, others⟩ := State.sealedTo_row i len.toNat true s f rfl
      exact ⟨_, seal_ ((named _ rfl rfl).doSeal_checked rfl (by rwa [State.taken_obj]) (by rwa [State.taken_obj]) rfl),
        by rw [obj], by rw [obj], by rw [obj], by rw [obj], exts, by rw [obj], fun _ => by rw [obj]; rfl,
        fun no => (by cases no), others, (work true).only⟩
    | false =>
      obtain ⟨obj, exts, others⟩ := State.sealedTo_row i len.toNat false s f (State.tierDone_row_tier 0x04 (.ok h.toNat))
      exact ⟨_, seal_ ((named _ rfl rfl).doSeal_answered rfl (by rwa [State.taken_obj]) (by rwa [State.taken_obj]) rfl),
        by rw [obj], by rw [obj], by rw [obj], by rw [obj], exts, by rw [obj], fun no => (by cases no),
        fun _ => State.tierDone_ok_said _ (work false) _ 0, others, (work false).only_done _ _⟩
  case queried =>
    refine query (((names hi hctx _ rfl rfl).doQuery ?_).trans ?_)
    · simp only [State.queryAt, State.taken_hbmEnd, State.taken_metaBase]
      exact ⟨aligned, inside, outside⟩
    · simp only [State.ctxPart, State.entryImage, State.taken_ctx, State.taken_obj]
      rfl

end Sys2Proof.Machine
end

section
/-! PROOFS. Work of the tier manager on one entry (R216, R230), and what its registers keep. -/

namespace Sys2Proof.Machine

/-! ## Registers beside those that show the tables (R239) -/

/-- The registers that show the tables, and the interrupts of their low marks. -/
def tierViewKeys : List Nat :=
  [TIER_OBJ_USED.COUNT.key 0 0 0, TIER_CTX_USED.COUNT.key 0 0 0, TIER_T1_FREE.UNITS.key 0 0 0, TIER_T1_LARGEST.UNITS.key 0 0 0,
    TIER_ERASE_PENDING.UNITS.key 0 0 0, TIER_INT_STATUS.UNITS_LOW.key 0 0 0, TIER_INT_STATUS.TABLE_LOW.key 0 0 0]

theorem State.tierView_sameRegs (s : State) : s.sameRegs s.tierView tierViewKeys := by
  unfold State.tierView
  extract_lets oldFree oldUsed g free used s1 s2 s3 mu me s4
  have wr {t : State} (h : s.sameRegs t tierViewKeys) (f : Fld) (v : Nat) (hk : f.key 0 0 0 ∈ tierViewKeys) :
      s.sameRegs (t.wr f v) tierViewKeys :=
    s.sameRegs_trans _ _ _ h (t.sameRegs_mono _ _ _ (t.sameRegs_wr f v 0 0 0) (by simpa using hk))
  have raise {t : State} (h : s.sameRegs t tierViewKeys) (f : Fld) (hk : f.key 0 0 0 ∈ tierViewKeys) :
      s.sameRegs (t.raise f) tierViewKeys :=
    s.sameRegs_trans _ _ _ h (t.sameRegs_mono _ _ _ (t.sameRegs_raise f 0 1) (by simpa using hk))
  have h3 : s.sameRegs s3 tierViewKeys := wr (wr (wr (wr (wr (s.sameRegs_refl _) _ _ (by decide)) _ _ (by decide)) _ _
    (by decide)) _ _ (by decide)) _ _ (by decide)
  have h4 : s.sameRegs s4 tierViewKeys := by
    simp only [s4]
    split
    · exact raise h3 _ (by decide)
    · exact h3
  split
  · exact raise h4 _ (by decide)
  · exact h4

theorem State.tierView_rd (s : State) (g : Fld) (h : g.key 0 0 0 ∉ tierViewKeys) : s.tierView.rd g = s.rd g :=
  State.rd_sameRegs _ _ _ s.tierView_sameRegs g 0 0 0 h

/-! ## One entry -/

/-- The tier manager works on a command: of the entries only one may differ, which is now `o`, and `l` was released. -/
structure State.objWork (u t : State) (i : Nat) (o : Obj) (l : List Ext) : Prop where
  work : u.tierWork t
  obj : t.obj i = o
  others : ∀ j, j ≠ i → t.obj j = u.obj j
  exts : t.tier.exts = u.tier.exts ++ l

section
variable {u t v : State} {i : Nat} {o : Obj} {l : List Ext}

theorem State.objWork.refl (u : State) (i : Nat) : u.objWork u i (u.obj i) [] :=
  ⟨.refl u, rfl, fun _ _ => rfl, by simp⟩

theorem State.objWork.setObj (h : u.objWork t i o l) (f : Obj → Obj) : u.objWork (t.setObj i f) i (f o) l :=
  ⟨h.work.setObj i f, by rw [State.obj_setObj, h.obj], fun j hj => by rw [State.obj_setObj_ne _ _ _ _ hj, h.others j hj],
    h.exts⟩

/-- A step that keeps the entries and the released extents. -/
theorem State.objWork.beside (h : u.objWork t i o l) (work : u.tierWork v) (objs : v.tier.objs = t.tier.objs)
    (exts : v.tier.exts = t.tier.exts) : u.objWork v i o l :=
  ⟨work, by rw [t.obj_congr objs, h.obj], fun j hj => by rw [t.obj_congr objs, h.others j hj], by rw [exts, h.exts]⟩

theorem State.objWork.tierView (h : u.objWork t i o l) : u.objWork t.tierView i o l :=
  h.beside h.work.tierView (by rw [State.tierView_tier]) (by rw [State.tierView_tier])

theorem State.objWork.bump (h : u.objWork t i o l) (f : Fld) (n : Nat) (hk : f.key 0 0 0 ∉ answerKeys) :
    u.objWork (t.bump f n) i o l := h.beside (h.work.bump f n hk) rfl rfl

theorem State.objWork.queued (h : u.objWork t i o l) (j : Nat) :
    u.objWork (t.setTier fun r => { r with tail := r.tail ++ [j] }) i o l := h.beside (h.work.setTier _) rfl rfl

theorem State.objWork.addPin (h : u.objWork t i o l) (pin : Bool) :
    u.objWork (t.addPin i pin) i { o with pins := o.pins + b2n pin } l := by
  cases pin with
  | true => exact h.setObj fun o => { o with pins := o.pins + 1 }
  | false => exact h

theorem State.objWork.waitOn (h : u.objWork t i o l) (cmd : Nat) (reply : TierReply) (pinned joined : Bool) :
    u.objWork (t.waitOn i cmd reply pinned joined) i { o with waits := o.waits ++ [⟨cmd, reply, pinned, joined⟩] } l := h.setObj _

theorem State.objWork.releaseAll_empty (h : u.objWork t i o l) (he : o.units = 0) :
    u.objWork (t.releaseAll i) i { o with t1 := 0, units := 0 } l := by
  rw [State.releaseAll_empty _ _ (by rw [h.obj, he])]
  exact h.setObj _

theorem State.objWork.releaseAll (h : u.objWork t i o l) (he : o.units ≠ 0) :
    u.objWork (t.releaseAll i) i { o with t1 := 0, units := 0 }
      (l ++ [⟨o.t1, o.units, some i, o.ctx, o.t1, u.t1Readers i o.t1 o.t1⟩]) := by
  have clus : t.clus = u.clus := by rw [h.work.frame]
  refine ⟨h.work.releaseAll i, by rw [State.releaseAll_obj, h.obj], fun j hj => ?_, ?_⟩
  · rw [State.releaseAll_obj_ne _ _ _ hj, h.others j hj]
  · rw [State.releaseAll_exts _ _ (by rwa [h.obj]), h.exts, h.obj, List.append_assoc, State.t1Readers, clus]
    rfl

end

/-! ## From the work to the row of the table -/

section
variable {s u : State} {f i : Nat} {o : Obj} {l : List Ext}

theorem State.objWork.taken (s : State) (f i : Nat) : (s.taken f).objWork (s.taken f) i (s.obj i) [] := by
  have h := State.objWork.refl (s.taken f) i
  rwa [State.taken_obj] at h

/-- The entries other than one, and all that is neither a register, a table nor sent, hold what they held. -/
def State.onlyEntry (s t : State) (i : Nat) : Prop := (∀ j, j ≠ i → t.obj j = s.obj j) ∧ s.tierOnly t

theorem State.onlyEntry.tierView (h : s.onlyEntry u i) : s.onlyEntry u.tierView i :=
  ⟨fun j hj => by rw [State.tierView_obj, h.1 j hj], h.2.trans (State.tierWork.refl u).tierView.frame⟩

theorem State.objWork.row (h : (s.taken f).objWork u i o l) :
    u.obj i = o ∧ u.tier.exts = s.tier.exts ++ l ∧ s.onlyEntry u i :=
  ⟨h.obj, by rw [h.exts, State.taken_tier], fun j hj => by rw [h.others j hj, State.taken_obj], h.work.only⟩

/-- Work that ends in an answer. -/
theorem State.objWork.row_done (h : (s.taken f).objWork u i o l) (cmd handle : Nat) :
    let t := u.tierDone cmd (s.rowReply f) (.ok handle)
    t.obj i = o ∧ t.tier.exts = s.tier.exts ++ l ∧ s.tierSaid t f (handle * 2 ^ 32) 0 ∧ s.onlyEntry t i := by
  intro t
  have tier : t.tier = u.tier := State.tierDone_row_tier cmd _
  obtain ⟨obj, exts, others, -⟩ := h.row
  exact ⟨by rw [u.obj_congr (by rw [tier]), obj], by rw [tier, exts], State.tierDone_ok_said cmd h.work handle 0,
    fun j hj => by rw [u.obj_congr (by rw [tier]), others j hj], h.work.only_done cmd _⟩

end

end Sys2Proof.Machine
end

section
/-! PROOFS. Objects change tiers, pins and references: EVICT, FETCH, UNPIN, FREE, RELEASE_T2 and VERIFY (R219, R227, R228, R230,
R233). -/

namespace Sys2Proof.Machine

section
variable {u : State} {c : TierCmd} {func : Nat} {reply : TierReply} {i : Nat} (h : u.names func c i)
include h

/-! ## EVICT (R228) -/

theorem State.names.doEvict_open (st : (u.obj i).state = 1) :
    u.doEvict c func reply = u.tierDone c.cmd reply (.fail stBadDescriptor 3 c.handle) := by
  rw [State.doEvict, h.onHandle]
  simp only [st]

theorem State.names.doEvict_pinned (st1 : (u.obj i).state ≠ 1) (st4 : (u.obj i).state ≠ 4) (pins : 0 < (u.obj i).pins) :
    u.doEvict c func reply = u.tierDone c.cmd reply (.fail stBadDescriptor 4 c.handle) := by
  rw [State.doEvict, h.onHandle]
  simp only [pins, if_true]
  split
  · exact absurd ‹_› st1
  · rfl
  · rfl
  · exact absurd ‹_› st4
  · rfl

theorem State.names.doEvict_absent (st : (u.obj i).state = 4) :
    u.doEvict c func reply = u.tierDone c.cmd reply (.ok c.handle) := by
  rw [State.doEvict, h.onHandle]
  simp only [st]

section
variable (pins : (u.obj i).pins = 0)
include pins

theorem State.names.doEvict_turns (st : (u.obj i).state = 3 ∨ (u.obj i).state = 5) : u.doEvict c func reply =
    (u.setObj i fun o => { o with intentIn := false }).waitOn i c.cmd reply false false := by
  rw [State.doEvict, h.onHandle]
  obtain st | st := st <;> simp only [st, pins, Nat.lt_irrefl, if_false]

variable (st : (u.obj i).state = 2)
include st

theorem State.names.doEvict_nowhere (t2 : (u.obj i).t2valid = false) (addr : c.addr = 0) :
    u.doEvict c func reply = u.tierDone c.cmd reply (.fail stBadDescriptor 1 c.handle) := by
  rw [State.doEvict, h.onHandle]
  simp [st, pins, t2, addr]

theorem State.names.doEvict_atOnce (t2 : (u.obj i).t2valid = true) (addr : c.addr = 0) : u.doEvict c func reply =
    ((((u.leaveT1 i).setObj i fun o => { o with state := 4 }).bump TIER_EVICTS.COUNT 1).tierView).tierDone c.cmd reply
      (.ok c.handle) := by
  rw [State.doEvict, h.onHandle]
  simp [st, pins, t2, addr]

theorem State.names.doEvict_copies (addr : c.addr ≠ 0) : u.doEvict c func reply =
    (u.setObj i fun o => { o with
      state := 3, intentIn := false, t2valid := false, t2addr := c.addr, pasid := c.pasid, pv := c.pv }).waitOn i c.cmd reply
        false false := by
  rw [State.doEvict, h.onHandle]
  simp [st, pins, addr]

end

/-! ## FETCH (R227, R228, R233) -/

theorem State.names.doFetch_pinsFull (pin : c.pin = true) (full : 65535 ≤ (u.obj i).pins) :
    u.doFetch c func reply = u.tierDone c.cmd reply (.fail stBadDescriptor 4 c.handle) := by
  rw [State.doFetch, h.onHandle]
  exact if_pos ⟨pin, full⟩

section
variable (room : ¬ (c.pin = true ∧ 65535 ≤ (u.obj i).pins))
include room

theorem State.names.doFetch_noSum (noSum : c.verify = true ∧ (u.obj i).crc.isNone = true) :
    u.doFetch c func reply = u.tierDone c.cmd reply (.fail stBadDescriptor 3 c.handle) := by
  rw [State.doFetch, h.onHandle]
  exact (if_neg room).trans (if_pos noSum)

section
variable (sum : ¬ (c.verify = true ∧ (u.obj i).crc.isNone = true))
include sum

theorem State.names.doFetch_resident (st : (u.obj i).state = 1 ∨ (u.obj i).state = 2) :
    u.doFetch c func reply = (u.addPin i c.pin).tierDone c.cmd reply (.ok c.handle) := by
  rw [State.doFetch, h.onHandle]
  refine (if_neg room).trans ((if_neg sum).trans ?_)
  obtain st | st := st <;> simp only [st]

theorem State.names.doFetch_evicting (st : (u.obj i).state = 3) : u.doFetch c func reply =
    ((u.addPin i c.pin).setObj i fun o => { o with intentIn := true }).waitOn i c.cmd reply c.pin false := by
  rw [State.doFetch, h.onHandle]
  refine (if_neg room).trans ((if_neg sum).trans ?_)
  simp only [st]

theorem State.names.doFetch_joins (st : (u.obj i).state = 5) : u.doFetch c func reply =
    ((u.addPin i c.pin).setObj i fun o => { o with intentIn := true, verify := o.verify || c.verify }).waitOn i c.cmd reply c.pin
      true := by
  rw [State.doFetch, h.onHandle]
  refine (if_neg room).trans ((if_neg sum).trans ?_)
  simp only [st]

section
variable (st : (u.obj i).state = 4) {units : Nat} (hunits : cdiv (u.obj i).len 65536 = units)
include st hunits

theorem State.names.doFetch_noRange (range : u.findExtent units = none) :
    u.doFetch c func reply = u.tierDone c.cmd reply (.fail stNoObjectSlot 2 c.handle) := by
  rw [State.doFetch, h.onHandle]
  refine (if_neg room).trans ((if_neg sum).trans ?_)
  simp only [st, hunits, range]

variable {a : Nat} (range : u.findExtent units = some a)
include range

theorem State.names.doFetch_noQuota (quota : u.quotaFits (u.obj i).ctx units = false) :
    u.doFetch c func reply = u.tierDone c.cmd reply (.fail stNoObjectSlot 3 c.handle) := by
  rw [State.doFetch, h.onHandle]
  refine (if_neg room).trans ((if_neg sum).trans ?_)
  simp [st, hunits, range, quota]

theorem State.names.doFetch_begins (quota : u.quotaFits (u.obj i).ctx units = true) : u.doFetch c func reply =
    ((u.addPin i c.pin).setObj i fun o => { o with
      state := 5, intentIn := true, t1 := a, units := units, verify := c.verify }).tierView.waitOn i c.cmd reply c.pin false := by
  rw [State.doFetch, h.onHandle]
  refine (if_neg room).trans ((if_neg sum).trans ?_)
  simp [st, hunits, range, quota]

end

end

end

/-! ## UNPIN, FREE, RELEASE_T2 and VERIFY (R228, R230, R233) -/

theorem State.names.doUnpin_none (pins : (u.obj i).pins = 0) :
    u.doUnpin c func reply = u.tierDone c.cmd reply (.fail stBadDescriptor 4 c.handle) := by
  rw [State.doUnpin, h.onHandle]
  exact if_pos pins

theorem State.names.doUnpin (pins : 0 < (u.obj i).pins) : u.doUnpin c func reply =
    (u.setObj i fun o => { o with pins := o.pins - 1 }).tierDone c.cmd reply (.ok c.handle) := by
  rw [State.doUnpin, h.onHandle]
  exact if_neg (by omega)

theorem State.names.doFree_pinned (pins : 0 < (u.obj i).pins) :
    u.doFree c func reply = u.tierDone c.cmd reply (.fail stBadDescriptor 4 c.handle) := by
  rw [State.doFree, h.onHandle]
  exact if_pos pins

theorem State.names.doFree_named (pins : (u.obj i).pins = 0) (refs : (u.obj i).slotRefs ≠ 0) :
    u.doFree c func reply = u.tierDone c.cmd reply (.fail stBadDescriptor 5 c.handle) := by
  rw [State.doFree, h.onHandle]
  exact (if_neg (by omega)).trans (if_pos refs)

/-- FREE of an object that nothing waits for: ERASING, its extent given up, until that is erased (R230). -/
theorem State.names.doFree (pins : (u.obj i).pins = 0) (refs : (u.obj i).slotRefs = 0) (waits : (u.obj i).waits = [])
    (sums : (u.obj i).sums = []) : u.doFree c func reply =
    (((u.releaseAll i).setObj i fun o => { o with
      state := 6, sums := [], waits := [⟨c.cmd, reply, false, false⟩] }).settleErasing i ((u.obj i).units != 0)).tierView := by
  rw [State.doFree, h.onHandle]
  refine (if_neg (by omega)).trans ((if_neg (by simpa using refs)).trans ?_)
  simp only [waits, sums, List.foldl_nil]

theorem State.names.doReleaseT2_notResident (st : (u.obj i).state ≠ 2) :
    u.doReleaseT2 c func reply = u.tierDone c.cmd reply (.fail stBadDescriptor 3 c.handle) := by
  rw [State.doReleaseT2, h.onHandle]
  exact if_pos st

theorem State.names.doReleaseT2 (st : (u.obj i).state = 2) : u.doReleaseT2 c func reply =
    ((u.setObj i fun o => { o with t2valid := false }).waitOn i c.cmd reply false false).settleT2 i := by
  rw [State.doReleaseT2, h.onHandle]
  exact if_neg (by simpa using st)

theorem State.names.doVerify_noCopy (st2 : (u.obj i).state ≠ 2) (st3 : (u.obj i).state ≠ 3) :
    u.doVerify c func reply = u.tierDone c.cmd reply (.fail stBadDescriptor 3 c.handle) := by
  rw [State.doVerify, h.onHandle]
  exact if_neg (by simp [st2, st3])

theorem State.names.doVerify (st : (u.obj i).state = 2 ∨ (u.obj i).state = 3) :
    u.doVerify c func reply = u.setObj i fun o => { o with sums := o.sums ++ [(c.cmd, reply)] } := by
  rw [State.doVerify, h.onHandle]
  exact if_pos st

end

/-! ## What an ERASING entry and a RELEASE_T2 wait for (R230) -/

section
variable {u : State} {i : Nat}

theorem State.settleErasing_held (had : Bool) (h : u.extOf i = true) : u.settleErasing i had = u :=
  if_neg fun ⟨_, no, _⟩ => no h

/-- An ERASING entry with nothing left to erase and nobody reading it is FREE at its next generation, and the FREE that
waits is answered (R216, R228). -/
theorem State.settleErasing_free {w : TierWait} (st : (u.obj i).state = 6) (noExt : u.extOf i = false)
    (refs : (u.obj i).t2refs = 0) (waits : (u.obj i).waits = [w]) : u.settleErasing i false =
    (((u.setObj i Obj.erased).setTier fun t => { t with tail := t.tail ++ [i] }).tierDone w.cmd w.reply
      (.ok (i + (u.obj i).gen * 2 ^ 22))).tierView := by
  rw [State.settleErasing, if_pos ⟨st, by simp [noExt], .inr refs⟩]
  simp only [waits, List.foldl_cons, List.foldl_nil]

/-- What an entry just released is still to be erased. -/
theorem State.objWork.extOf_last {t : State} {o : Obj} {l : List Ext} {e : Ext} (h : u.objWork t i o (l ++ [e]))
    (he : e.entry = some i) : t.extOf i = true := by
  rw [State.extOf, h.exts]
  simp [he]

theorem State.objWork.extOf_same {t : State} {o : Obj} (h : u.objWork t i o []) : t.extOf i = u.extOf i := by
  rw [State.extOf, h.exts, List.append_nil]
  rfl

theorem State.settleT2_read (refs : (u.obj i).t2refs ≠ 0) : u.settleT2 i = u := if_neg refs

theorem State.settleT2_unread {w : TierWait} (refs : (u.obj i).t2refs = 0) (waits : (u.obj i).waits = [w]) (hw : w.cmd = 0x0A) :
    u.settleT2 i = let v := u.setObj i fun o => { o with waits := o.waits.filter fun w => w.cmd != 0x0A }
      v.tierDone w.cmd w.reply (.ok (v.handleOf i)) := by
  rw [State.settleT2, if_pos refs]
  simp [waits, hw]

end

/-! ## What the commands that do not fail leave -/

section
variable {s : State} {f : Fin 65} {ctx : BitVec 24} {h : BitVec 32} {i : Nat} (runs : s.tierRuns = true)
  (owns : s.ownsCtx f ctx.toNat = true) (entry : s.handleEntry h.toNat = some i) (hctx : (s.obj i).ctx = ctx.toNat)

include owns entry hctx in
theorem names_taken (c : TierCmd) (hc : c.ctx = ctx.toNat := by rfl) (hh : c.handle = h.toNat := by rfl) :
    (s.taken f).names f c i :=
  State.names.taken ⟨by rw [hc, owns], by rw [hh, entry], by rw [hc, hctx]⟩

include runs owns entry hctx

/-- EVICT of an ABSENT object is answered, and there is nothing to do (R228). -/
theorem exec_evict_absent (addr : BitVec 64) (pasid : BitVec 20) (pv : Bool) (st : (s.obj i).state = 4) :
    ∃ t, exec (.evict f ctx h addr pasid pv) s = .next t ∧ t.tier = s.tier ∧ s.tierSaid t f (h.toNat * 2 ^ 32) 0 ∧ s.quiet t := by
  obtain ⟨-, -, answered, -⟩ := (State.objWork.taken s f i).row_done 0x06 h.toNat
  exact ⟨_, (exec_evict_runs runs h addr pasid pv).trans
    (congrArg _ ((names_taken owns entry hctx _).doEvict_absent (by rwa [State.taken_obj]))),
    by rw [State.tierDone_row_tier, State.taken_tier], answered, (s.taken_quiet f).trans (State.tierDone_row_quiet _ _)⟩

/-- EVICT turns the intent of a copy that runs, and waits for it (R228). -/
theorem exec_evict_turns (addr : BitVec 64) (pasid : BitVec 20) (pv : Bool) (st : (s.obj i).state = 3 ∨ (s.obj i).state = 5)
    (pins : (s.obj i).pins = 0) : ∃ t, exec (.evict f ctx h addr pasid pv) s = .next t
      ∧ t.obj i = { s.obj i with intentIn := false, waits := (s.obj i).waits ++ [⟨6, s.rowReply f, false, false⟩] }
      ∧ s.onlyEntry t i := by
  obtain ⟨entry', -, rest⟩ := (((State.objWork.taken s f i).setObj fun o => { o with intentIn := false }).waitOn 0x06
    (s.rowReply f) false false).row
  exact ⟨_, (exec_evict_runs runs h addr pasid pv).trans (congrArg _ ((names_taken owns entry hctx _).doEvict_turns
    (by rwa [State.taken_obj]) (by rwa [State.taken_obj]))), entry', rest⟩

/-- EVICT to an address starts a copy of a RESIDENT object (R228). -/
theorem exec_evict_copies (addr : BitVec 64) (pasid : BitVec 20) (pv : Bool) (st : (s.obj i).state = 2)
    (pins : (s.obj i).pins = 0) (ne : addr ≠ 0) : ∃ t, exec (.evict f ctx h addr pasid pv) s = .next t
      ∧ t.obj i = { s.obj i with
          state := 3, intentIn := false, t2valid := false, t2addr := addr.toNat, pasid := pasid.toNat, pv := pv
          waits := (s.obj i).waits ++ [⟨6, s.rowReply f, false, false⟩] }
      ∧ s.onlyEntry t i := by
  have toNat : addr.toNat ≠ 0 := fun e => ne (BitVec.eq_of_toNat_eq e)
  obtain ⟨entry', -, rest⟩ := (((State.objWork.taken s f i).setObj fun o => { o with
    state := 3, intentIn := false, t2valid := false, t2addr := addr.toNat, pasid := pasid.toNat, pv := pv }).waitOn 0x06
      (s.rowReply f) false false).row
  exact ⟨_, (exec_evict_runs runs h addr pasid pv).trans (congrArg _ ((names_taken owns entry hctx _).doEvict_copies
    (by rwa [State.taken_obj]) (by rwa [State.taken_obj]) toNat)), entry', rest⟩

/-- EVICT of a RESIDENT object with a good T2 copy gives up its extent (R228, R230). -/
theorem exec_evict_atOnce (pasid : BitVec 20) (pv : Bool) (st : (s.obj i).state = 2) (pins : (s.obj i).pins = 0)
    (t2 : (s.obj i).t2valid = true) (units : (s.obj i).units ≠ 0) (sums : (s.obj i).sums = []) :
    ∃ t, exec (.evict f ctx h 0 pasid pv) s = .next t
      ∧ t.obj i = { s.obj i with state := 4, t1 := 0, units := 0 }
      ∧ t.tier.exts = s.tier.exts ++ [⟨(s.obj i).t1, (s.obj i).units, some i, (s.obj i).ctx, (s.obj i).t1,
        s.t1Readers i (s.obj i).t1 (s.obj i).t1⟩]
      ∧ s.counted1 t TIER_EVICTS.COUNT 1 0 ∧ s.tierSaid t f (h.toNat * 2 ^ 32) 0 ∧ s.onlyEntry t i := by
  have obj : (s.taken f).obj i = s.obj i := s.taken_obj f i
  have work := (((((State.objWork.taken s f i).releaseAll units).setObj fun o => { o with sums := [] }).setObj fun o =>
    { o with state := 4 }).bump TIER_EVICTS.COUNT 1 (by decide)).tierView
  rw [← State.leaveT1_unsummed _ _ (by rwa [obj])] at work
  obtain ⟨entry', exts, answered, rest⟩ := work.row_done 0x06 h.toNat
  refine ⟨_, (exec_evict_runs runs h 0 pasid pv).trans (congrArg _ ((names_taken owns entry hctx _).doEvict_atOnce
    (by rwa [obj]) (by rwa [obj]) (by rwa [obj]) rfl)), entry'.trans (by rw [← sums]),
    exts.trans (by rw [State.taken_t1Readers]; rfl), ?_, answered, rest⟩
  refine (State.tierDone_rd _ _ _ (by decide)).trans ?_
  rw [if_neg (by decide), State.tierNoted_ok, State.tierView_rd _ _ (by decide), State.rd_bump_same, State.setObj_rd,
    State.leaveT1_unsummed _ _ (by rwa [obj]), State.setObj_rd, State.rd, State.releaseAll_regs]
  exact congrArg (satAdd · 1 _) (s.taken_rd f TIER_EVICTS.COUNT (by decide))

theorem exec_unpin_pinned (pins : 0 < (s.obj i).pins) : ∃ t, exec (.unpin f ctx h) s = .next t
    ∧ t.obj i = { s.obj i with pins := (s.obj i).pins - 1 } ∧ s.tierSaid t f (h.toNat * 2 ^ 32) 0 ∧ s.onlyEntry t i := by
  obtain ⟨entry', -, answered, rest⟩ := ((State.objWork.taken s f i).setObj fun o => { o with pins := o.pins - 1 }).row_done 0x08
    h.toNat
  exact ⟨_, (exec_unpin_runs runs h).trans (congrArg _ ((names_taken owns entry hctx _).doUnpin (by rwa [State.taken_obj]))),
    entry', answered, rest⟩

/-- FREE of an object with an extent waits until that is erased (R230). -/
theorem exec_free_erases (pins : (s.obj i).pins = 0) (refs : (s.obj i).slotRefs = 0) (units : (s.obj i).units ≠ 0)
    (waits : (s.obj i).waits = []) (sums : (s.obj i).sums = []) : ∃ t, exec (.free f ctx h) s = .next t
      ∧ (t.obj i).state = 6 ∧ (t.obj i).units = 0 ∧ (t.obj i).waits = [⟨9, s.rowReply f, false, false⟩]
      ∧ t.tier.exts = s.tier.exts ++ [⟨(s.obj i).t1, (s.obj i).units, some i, (s.obj i).ctx, (s.obj i).t1,
        s.t1Readers i (s.obj i).t1 (s.obj i).t1⟩]
      ∧ s.onlyEntry t i := by
  have obj : (s.taken f).obj i = s.obj i := s.taken_obj f i
  have work := ((State.objWork.taken s f i).releaseAll units).setObj fun o => { o with
    state := 6, sums := [], waits := [⟨0x09, s.rowReply f, false, false⟩] }
  have held := State.settleErasing_held (((s.taken f).obj i).units != 0) (work.extOf_last rfl)
  obtain ⟨entry', exts, rest⟩ := work.tierView.row
  have freed := (names_taken owns entry hctx { TierCmd.blank 0x09 ctx.toNat with handle := h.toNat }).doFree
    (reply := s.rowReply f) (obj ▸ pins) (obj ▸ refs) (obj ▸ waits) (obj ▸ sums)
  exact ⟨_, (exec_free_runs runs h).trans (congrArg _ (freed.trans (congrArg State.tierView held))), congrArg Obj.state entry',
    congrArg Obj.units entry', congrArg Obj.waits entry', exts.trans (by rw [State.taken_t1Readers]; rfl), rest⟩

/-- FREE of an object with no extent and no reader frees its entry (R216, R228). -/
theorem exec_free_ends (pins : (s.obj i).pins = 0) (refs : (s.obj i).slotRefs = 0) (units : (s.obj i).units = 0)
    (t2refs : (s.obj i).t2refs = 0) (waits : (s.obj i).waits = []) (sums : (s.obj i).sums = []) (noExt : s.extOf i = false) :
    ∃ t, exec (.free f ctx h) s = .next t ∧ t.obj i = (s.obj i).erased ∧ t.tier.tail = s.tier.tail ++ [i]
      ∧ s.onlyEntry t i := by
  have obj : (s.taken f).obj i = s.obj i := s.taken_obj f i
  have work := ((State.objWork.taken s f i).releaseAll_empty units).setObj fun o => { o with
    state := 6, sums := [], waits := [⟨0x09, s.rowReply f, false, false⟩] }
  have had : (((s.taken f).obj i).units != 0) = false := by rw [obj, units]; rfl
  have gone := State.settleErasing_free (congrArg Obj.state work.obj) (by rwa [work.extOf_same, State.taken_extOf])
    ((congrArg Obj.t2refs work.obj).trans t2refs) (congrArg Obj.waits work.obj)
  have freed := (names_taken owns entry hctx { TierCmd.blank 0x09 ctx.toNat with handle := h.toNat }).doFree
    (reply := s.rowReply f) (obj ▸ pins) (obj ▸ refs) (obj ▸ waits) (obj ▸ sums)
  have erased := work.setObj Obj.erased
  obtain ⟨entry', -, -, rest⟩ := (erased.queued i).row_done 0x09 (i + (s.obj i).gen * 2 ^ 22)
  have tail : ((s.taken f).releaseAll i).tier.tail = s.tier.tail := by
    rw [State.releaseAll_empty _ _ (obj ▸ units), State.setObj_tail, State.taken_tier]
  have handle := congrArg (fun o : Obj => i + o.gen * 2 ^ 22) work.obj
  rw [handle] at gone
  refine ⟨_, (exec_free_runs runs h).trans (congrArg _ (freed.trans (congrArg State.tierView
    ((congrArg (State.settleErasing _ i) had).trans gone)))), ?_, ?_, rest.tierView.tierView⟩
  · rw [State.tierView_obj, State.tierView_obj]
    exact entry'
  · rw [State.tierView_tier, State.tierView_tier, State.tierDone_row_tier]
    exact congrArg (· ++ [i]) tail

/-- RELEASE_T2 of a RESIDENT object whose T2 copy no move reads drops that copy (R230). -/
theorem exec_releaseT2_ends (st : (s.obj i).state = 2) (refs : (s.obj i).t2refs = 0) (waits : (s.obj i).waits = []) :
    ∃ t, exec (.releaseT2 f ctx h) s = .next t ∧ t.obj i = { s.obj i with t2valid := false }
      ∧ s.tierSaid t f (s.handleOf i * 2 ^ 32) 0 ∧ s.onlyEntry t i := by
  have obj : (s.taken f).obj i = s.obj i := s.taken_obj f i
  have work := ((State.objWork.taken s f i).setObj fun o => { o with t2valid := false }).waitOn 0x0A (s.rowReply f) false false
  have settled := State.settleT2_unread ((congrArg Obj.t2refs work.obj).trans refs)
    ((congrArg Obj.waits work.obj).trans (congrArg (· ++ _) waits)) rfl
  have work' := work.setObj fun o => { o with waits := o.waits.filter fun w => w.cmd != 0x0A }
  obtain ⟨entry', -, answered, rest⟩ := work'.row_done 0x0A (s.handleOf i)
  have handle := congrArg (fun o : Obj => i + o.gen * 2 ^ 22) work'.obj
  have released := (names_taken owns entry hctx { TierCmd.blank 0x0A ctx.toNat with handle := h.toNat }).doReleaseT2
    (reply := s.rowReply f) (obj ▸ st)
  refine ⟨_, (exec_releaseT2_runs runs h).trans (congrArg _ (released.trans (settled.trans
    (congrArg (fun n => State.tierDone _ _ _ (.ok n)) handle)))), entry'.trans ?_, answered, rest⟩
  simp [waits]

/-- RELEASE_T2 waits while a move reads the T2 copy (R230). -/
theorem exec_releaseT2_waits (st : (s.obj i).state = 2) (refs : (s.obj i).t2refs ≠ 0) : ∃ t, exec (.releaseT2 f ctx h) s = .next t
    ∧ t.obj i = { s.obj i with t2valid := false, waits := (s.obj i).waits ++ [⟨0x0A, s.rowReply f, false, false⟩] }
    ∧ s.onlyEntry t i := by
  have work := ((State.objWork.taken s f i).setObj fun o => { o with t2valid := false }).waitOn 0x0A (s.rowReply f) false false
  have held := State.settleT2_read (mt (congrArg Obj.t2refs work.obj).symm.trans refs)
  obtain ⟨entry', -, rest⟩ := work.row
  exact ⟨_, (exec_releaseT2_runs runs h).trans (congrArg _
    (((names_taken owns entry hctx _).doReleaseT2 (by rwa [State.taken_obj])).trans held)), entry', rest⟩

/-- VERIFY starts a checksum run over the T1 copy (R233). -/
theorem exec_verify_sums (st : (s.obj i).state = 2 ∨ (s.obj i).state = 3) : ∃ t, exec (.verify f ctx h) s = .next t
    ∧ t.obj i = { s.obj i with sums := (s.obj i).sums ++ [(0x0B, s.rowReply f)] } ∧ s.onlyEntry t i := by
  obtain ⟨entry', -, rest⟩ := ((State.objWork.taken s f i).setObj fun o => { o with
    sums := o.sums ++ [(0x0B, s.rowReply f)] }).row
  exact ⟨_, (exec_verify_runs runs h).trans (congrArg _ ((names_taken owns entry hctx _).doVerify (by rwa [State.taken_obj]))),
    entry', rest⟩

/-! ### FETCH where the pins have room and there is a checksum where one is asked for -/

section
variable {pin verify : Bool} (room : pin = false ∨ (s.obj i).pins < 65535) (sum : verify = false ∨ (s.obj i).crc ≠ none)

omit runs owns entry hctx in
include room in
theorem fetch_roomy : ¬ (pin = true ∧ 65535 ≤ ((s.taken f).obj i).pins) := by
  rw [State.taken_obj]
  rintro ⟨rfl, full⟩
  obtain no | less := room
  · cases no
  · omega

omit runs owns entry hctx in
include sum in
theorem fetch_summed : ¬ (verify = true ∧ ((s.taken f).obj i).crc.isNone = true) := by
  rw [State.taken_obj]
  rintro ⟨rfl, none⟩
  obtain no | some := sum
  · cases no
  · exact some (Option.isNone_iff_eq_none.1 none)

include room sum

theorem exec_fetch_resident (st : (s.obj i).state = 1 ∨ (s.obj i).state = 2) :
    ∃ t, exec (.fetch f ctx h pin verify) s = .next t ∧ t.obj i = { s.obj i with pins := (s.obj i).pins + b2n pin }
      ∧ s.tierSaid t f (h.toNat * 2 ^ 32) 0 ∧ s.onlyEntry t i := by
  obtain ⟨entry', -, answered, rest⟩ := ((State.objWork.taken s f i).addPin pin).row_done 0x07 h.toNat
  exact ⟨_, (exec_fetch_runs runs h pin verify).trans (congrArg _ ((names_taken owns entry hctx _).doFetch_resident
    (fetch_roomy room) (fetch_summed sum) (by rwa [State.taken_obj]))), entry', answered, rest⟩

/-- FETCH turns the intent of an eviction that runs (R228). -/
theorem exec_fetch_evicting (st : (s.obj i).state = 3) : ∃ t, exec (.fetch f ctx h pin verify) s = .next t
    ∧ t.obj i = { s.obj i with pins := (s.obj i).pins + b2n pin, intentIn := true
                               waits := (s.obj i).waits ++ [⟨7, s.rowReply f, pin, false⟩] }
    ∧ s.onlyEntry t i := by
  obtain ⟨entry', -, rest⟩ := ((((State.objWork.taken s f i).addPin pin).setObj fun o => { o with intentIn := true }).waitOn 0x07
    (s.rowReply f) pin false).row
  exact ⟨_, (exec_fetch_runs runs h pin verify).trans (congrArg _ ((names_taken owns entry hctx _).doFetch_evicting
    (fetch_roomy room) (fetch_summed sum) (by rwa [State.taken_obj]))), entry', rest⟩

/-- FETCH joins a fetch that runs (R228). -/
theorem exec_fetch_joins (st : (s.obj i).state = 5) : ∃ t, exec (.fetch f ctx h pin verify) s = .next t
    ∧ t.obj i = { s.obj i with pins := (s.obj i).pins + b2n pin, intentIn := true, verify := (s.obj i).verify || verify
                               waits := (s.obj i).waits ++ [⟨7, s.rowReply f, pin, true⟩] }
    ∧ s.onlyEntry t i := by
  obtain ⟨entry', -, rest⟩ := ((((State.objWork.taken s f i).addPin pin).setObj fun o => { o with
    intentIn := true, verify := o.verify || verify }).waitOn 0x07 (s.rowReply f) pin true).row
  exact ⟨_, (exec_fetch_runs runs h pin verify).trans (congrArg _ ((names_taken owns entry hctx _).doFetch_joins
    (fetch_roomy room) (fetch_summed sum) (by rwa [State.taken_obj]))), entry', rest⟩

/-- FETCH of an ABSENT object starts a copy into an extent that its quota allows (R227). -/
theorem exec_fetch_begins {units a : Nat} (st : (s.obj i).state = 4) (hunits : cdiv (s.obj i).len 65536 = units)
    (range : s.findExtent units = some a) (quota : s.quotaFits (s.obj i).ctx units = true) :
    ∃ t, exec (.fetch f ctx h pin verify) s = .next t
      ∧ (t.obj i).state = 5 ∧ (t.obj i).intentIn = true ∧ (t.obj i).verify = verify ∧ (t.obj i).t1 = a
      ∧ (t.obj i).units = units ∧ (t.obj i).pins = (s.obj i).pins + b2n pin
      ∧ (t.obj i).waits = (s.obj i).waits ++ [⟨7, s.rowReply f, pin, false⟩] ∧ s.onlyEntry t i := by
  obtain ⟨entry', -, rest⟩ := (((State.objWork.taken s f i).addPin pin).setObj fun o => { o with
    state := 5, intentIn := true, t1 := a, units := units, verify := verify }).tierView.waitOn 0x07 (s.rowReply f) pin false |>.row
  exact ⟨_, (exec_fetch_runs runs h pin verify).trans (congrArg _ ((names_taken owns entry hctx _).doFetch_begins
    (fetch_roomy room) (fetch_summed sum) (by rwa [State.taken_obj]) (by rwa [State.taken_obj])
    ((s.taken_findExtent f _).trans range) (by rwa [State.taken_obj, State.taken_quotaFits]))),
    congrArg Obj.state entry', congrArg Obj.intentIn entry', congrArg Obj.verify entry', congrArg Obj.t1 entry',
    congrArg Obj.units entry', congrArg Obj.pins entry', congrArg Obj.waits entry', rest⟩

end

end

/-- Settles O39, by the command, the state of the object and the first check that fails; where none fails, each outcome is one
change of the object's entry, which either ends in an answer or leaves the command waiting. -/
theorem tierMoves : Obligations.TierMoves := by
  intro s f ctx h i runs owns entry hctx o said only fails
  have named (c : TierCmd) (hc : c.ctx = ctx.toNat := by rfl) (hh : c.handle = h.toNat := by rfl) : (s.taken f).names f c i :=
    names_taken owns entry hctx c hc hh
  have obj : (s.taken f).obj i = o := s.taken_obj f i
  have evict {addr pasid pv t} (e : _ = t) : exec (.evict f ctx h addr pasid pv) s = .next t :=
    (exec_evict_runs runs h addr pasid pv).trans (congrArg _ e)
  have fetch {pin verify t} (e : _ = t) : exec (.fetch f ctx h pin verify) s = .next t :=
    (exec_fetch_runs runs h pin verify).trans (congrArg _ e)
  have unpin {t} (e : _ = t) : exec (.unpin f ctx h) s = .next t := (exec_unpin_runs runs h).trans (congrArg _ e)
  have free {t} (e : _ = t) : exec (.free f ctx h) s = .next t := (exec_free_runs runs h).trans (congrArg _ e)
  have release {t} (e : _ = t) : exec (.releaseT2 f ctx h) s = .next t :=
    (exec_releaseT2_runs runs h).trans (congrArg _ e)
  have verify_ {t} (e : _ = t) : exec (.verify f ctx h) s = .next t := (exec_verify_runs runs h).trans (congrArg _ e)
  refine ⟨fun addr pasid pv => ⟨fun st => ?evictOpen, fun st1 st4 pins => ?evictPinned, fun st pins t2 addr => ?evictNowhere,
      exec_evict_absent runs owns entry hctx addr pasid pv, exec_evict_turns runs owns entry hctx addr pasid pv⟩,
    fun pin verify => ⟨fun hp full => ?fetchFull, fun room hv crc => ?fetchNoSum, fun room sum => ⟨
      exec_fetch_evicting runs owns entry hctx room sum, exec_fetch_joins runs owns entry hctx room sum,
      fun st no => ?fetchNoRange, fun st some full => ?fetchNoQuota⟩⟩,
    fun pins => ?unpinNone, fun pins => ?freePinned, fun pins refs => ?freeNamed, fun st => ?releaseState,
    fun st2 st3 => ?verifyState, exec_evict_atOnce runs owns entry hctx, exec_evict_copies runs owns entry hctx,
    fun _ _ st room sum => exec_fetch_resident runs owns entry hctx room sum st,
    fun _ _ _ st room sum => exec_fetch_begins runs owns entry hctx room sum st rfl,
    exec_unpin_pinned runs owns entry hctx, exec_free_erases runs owns entry hctx, exec_free_ends runs owns entry hctx,
    exec_releaseT2_ends runs owns entry hctx, exec_releaseT2_waits runs owns entry hctx, exec_verify_sums runs owns entry hctx⟩
  case evictOpen => exact exec_tierFails h.isLt (evict ((named _).doEvict_open (by rwa [obj])))
  case evictPinned =>
    exact exec_tierFails h.isLt (evict ((named _).doEvict_pinned (by rwa [obj]) (by rwa [obj]) (by rwa [obj])))
  case evictNowhere =>
    exact exec_tierFails h.isLt (evict ((named _).doEvict_nowhere (by rwa [obj]) (by rwa [obj]) (by rwa [obj])
      (congrArg BitVec.toNat addr)))
  case fetchFull => exact exec_tierFails h.isLt (fetch ((named _).doFetch_pinsFull hp (by rwa [obj])))
  case fetchNoSum =>
    exact exec_tierFails h.isLt (fetch ((named _).doFetch_noSum (fetch_roomy room) ⟨hv, by rw [obj, crc]; rfl⟩))
  case fetchNoRange =>
    exact exec_tierFails h.isLt (fetch ((named _).doFetch_noRange (fetch_roomy room) (fetch_summed sum) (by rwa [obj])
      (by rw [obj]) (by rwa [State.taken_findExtent])))
  case fetchNoQuota =>
    obtain ⟨a, range⟩ := Option.ne_none_iff_exists'.1 some
    exact exec_tierFails h.isLt (fetch ((named _).doFetch_noQuota (fetch_roomy room) (fetch_summed sum) (by rwa [obj])
      (by rw [obj]) ((s.taken_findExtent f _).trans range) (by rwa [obj, State.taken_quotaFits])))
  case unpinNone => exact exec_tierFails h.isLt (unpin ((named _).doUnpin_none (by rwa [obj])))
  case freePinned => exact exec_tierFails h.isLt (free ((named _).doFree_pinned (by rwa [obj])))
  case freeNamed => exact exec_tierFails h.isLt (free ((named _).doFree_named (by rwa [obj]) (by rwa [obj])))
  case releaseState => exact exec_tierFails h.isLt (release ((named _).doReleaseT2_notResident (by rwa [obj])))
  case verifyState => exact exec_tierFails h.isLt (verify_ ((named _).doVerify_noCopy (by rwa [obj]) (by rwa [obj])))

end Sys2Proof.Machine
end

section
/-! PROOFS. The memory side leaves the tier manager alone: its tables, and the registers of the blocks up to its own. -/

namespace Sys2Proof.Machine

/-- The registers of the clusters, the loaders, the movers, the landing counters and the tier manager stand below these keys. -/
def memKeys : Nat := Blk.sc.base * 64

/-- The tier manager's tables stand, and so do its registers and those of the blocks before it. -/
structure State.tierStands (s t : State) : Prop where
  tier : t.tier = s.tier
  regs : ∀ d k, k < memKeys → getK d t.regs k = getK d s.regs k

section
variable {s t u : State}

theorem State.tierStands.refl (s : State) : s.tierStands s := ⟨rfl, fun _ _ _ => rfl⟩

theorem State.tierStands.trans (h : s.tierStands t) (g : t.tierStands u) : s.tierStands u :=
  ⟨g.tier.trans h.tier, fun d k hk => (g.regs d k hk).trans (h.regs d k hk)⟩

theorem State.tierStands.ite {c : Prop} [Decidable c] (h : s.tierStands t) (g : s.tierStands u) :
    s.tierStands (if c then t else u) := by
  split
  · exact h
  · exact g

theorem State.tierStands.rd (h : s.tierStands t) (f : Fld) (i j r : Nat) (hk : f.key i j r < memKeys) :
    t.rd f i j r = s.rd f i j r := h.regs _ _ hk

theorem State.tierStands.of_sameRegs {ks : List Nat} (htier : t.tier = s.tier) (h : s.sameRegs t ks)
    (high : ∀ k ∈ ks, memKeys ≤ k) : s.tierStands t :=
  ⟨htier, fun d k hk => h d k fun hm => absurd (high k hm) (by omega)⟩

theorem foldl_tierStands {β : Type} (g : State → β → State) (h : ∀ (s : State) x, s.tierStands (g s x)) (l : List β)
    (s : State) : s.tierStands (l.foldl g s) :=
  foldl_rel State.tierStands .refl (fun _ _ _ => .trans) g l (fun s x _ => h s x) s

/-- The same for a list of updates of a state and what comes with it. -/
theorem foldl_tierStands_of {α β : Type} (π : α → State) (g : α → β → α) (h : ∀ a x, (π a).tierStands (π (g a x)))
    (l : List β) (a : α) : (π a).tierStands (π (l.foldl g a)) := by
  induction l generalizing a with
  | nil => exact .refl _
  | cons x l ih => exact (h a x).trans (ih (g a x))

end

section
variable (s : State)

/-! ## Registers, interrupts and RAS events -/

/-- A field of a block behind the tier manager's. -/
theorem Fld.memKeys_le (f : Fld) (i j r : Nat) (h : Blk.sc.base ≤ f.blk.base) : memKeys ≤ f.key i j r := by
  have : Blk.sc.base * 64 ≤ f.addr i j * 64 := Nat.mul_le_mul_right 64 (by unfold Fld.addr; omega)
  unfold memKeys Fld.key
  omega

theorem State.wr_tierStands (f : Fld) (v i j r : Nat) (h : Blk.sc.base ≤ f.blk.base := by decide) :
    s.tierStands (s.wr f v i j r) :=
  .of_sameRegs rfl (s.sameRegs_wr f v i j r) (by simpa using f.memKeys_le i j r h)

theorem State.bump_tierStands (f : Fld) (n i j : Nat) (h : Blk.sc.base ≤ f.blk.base := by decide) :
    s.tierStands (s.bump f n i j) := s.wr_tierStands f _ i j 0 h

theorem State.raise_tierStands (f : Fld) (i mask : Nat) (h : Blk.sc.base ≤ f.blk.base := by decide) :
    s.tierStands (s.raise f i mask) :=
  .of_sameRegs (s.raise_tier f i mask) (s.sameRegs_raise f i mask) (by simpa using f.memKeys_le i 0 0 h)

theorem State.rasEvent_tierStands (status block unit loc : Nat) (kind : RasKind) (detail : Nat) :
    s.tierStands (s.rasEvent status block unit loc kind detail) :=
  .of_sameRegs (s.rasEvent_tier _ _ _ _ _ _) (s.rasEvent_sameRegs _ _ _ _ _ _) (by decide)

theorem State.cores_tierStands (w : Cores) : s.tierStands { s with cores := w } := ⟨rfl, fun _ _ _ => rfl⟩

theorem State.mem_tierStands (w : MemSys) : s.tierStands { s with mem := w } := ⟨rfl, fun _ _ _ => rfl⟩

/-! ## The harts' counters -/

theorem State.setCore_tierStands (h : Nat) (f : Core → Core) : s.tierStands (s.setCore h f) :=
  s.cores_tierStands _

theorem State.setHpm_tierStands (h n v : Nat) : s.tierStands (s.setHpm h n v) := s.cores_tierStands _

theorem State.hpmAdd_tierStands (h n k : Nat) : s.tierStands (s.hpmAdd h n k) := by
  unfold State.hpmAdd
  extract_lets v e s1 s2 x
  have h1 : s.tierStands s1 := s.setHpm_tierStands h n v
  exact .ite (.refl s) (.ite ((h1.trans (s1.setHpm_tierStands _ _ _)).trans (s2.cores_tierStands _)) h1)

theorem State.hpmEvent_tierStands (h ev k : Nat) : s.tierStands (s.hpmEvent h ev k) :=
  foldl_tierStands _ (fun s _ => .ite (s.hpmAdd_tierStands _ _ _) (.refl s)) _ s

/-! ## Memory, its tables, the coherent domain -/

theorem State.setCoh_tierStands (f : Coh → Coh) : s.tierStands (s.setCoh f) := ⟨rfl, fun _ _ _ => rfl⟩

theorem State.post_tierStands (m : Msg) : s.tierStands (s.post m) := s.setCoh_tierStands _

theorem State.take_tierStands (m : Msg) : s.tierStands (s.take m) := s.setCoh_tierStands _

theorem State.setPoison_tierStands (line : Nat) (b : Bool) : s.tierStands (s.setPoison line b) :=
  ⟨rfl, fun _ _ _ => rfl⟩

theorem State.putLine_tierStands (line : Nat) (data : List Byte) (p : Bool) : s.tierStands (s.putLine line data p) :=
  ⟨rfl, fun _ _ _ => rfl⟩

theorem State.setErr_tierStands (line v : Nat) : s.tierStands (s.setErr line v) := s.mem_tierStands _

theorem State.setSc_tierStands (m : SMap ScLine) : s.tierStands (s.setSc m) := s.mem_tierStands _

theorem State.stamped_tierStands : s.tierStands s.stamped := s.mem_tierStands _

theorem State.wakePc_tierStands (pc : Nat) : s.tierStands (s.wakePc pc) := s.mem_tierStands _

theorem State.scPut_tierStands (hub set way : Nat) (l : ScLine) : s.tierStands (s.scPut hub set way l) :=
  s.setSc_tierStands _

theorem State.charge_tierStands (line p : Nat) : s.tierStands (s.charge line p) :=
  .ite (.refl s) ((s.bump_tierStands _ _ _ _).trans (State.mem_tierStands _ _))

/-! ## HBM (R311, R314) -/

theorem State.hbmUncorr_tierStands (line : Nat) : s.tierStands (s.hbmUncorr line) := by
  unfold State.hbmUncorr
  extract_lets p n s1 s2 s3
  have h1 : s.tierStands s1 := (s.bump_tierStands _ _ _ _).trans (State.wr_tierStands _ _ _ _ _ _)
  have h2 : s1.tierStands s2 := ((s1.wr_tierStands _ _ _ _ _).trans (State.wr_tierStands _ _ _ _ _ _)).trans
    (State.wr_tierStands _ _ _ _ _ _)
  have h3 : s2.tierStands s3 := (s2.wr_tierStands _ _ _ _ _).trans (State.raise_tierStands _ _ _ _)
  exact ((h1.trans h2).trans h3).trans (.ite ⟨rfl, fun _ _ _ => rfl⟩ (.refl s3))

theorem State.hbmRead_tierStands (line upset : Nat) : s.tierStands (s.hbmRead line upset).st := by
  unfold State.hbmRead
  split
  · exact .refl s
  · extract_lets e n s1 s2
    have h1 : s.tierStands s1 := s.wakePc_tierStands _
    split
    · exact (h1.trans (s1.setErr_tierStands line 2)).trans (State.hbmUncorr_tierStands _ line)
    · exact h1.trans (.ite ((s1.setErr_tierStands line 0).trans (State.bump_tierStands _ _ _ _ _)) (.refl s1))

theorem State.hbmStore_tierStands (line : Nat) : s.tierStands (s.hbmStore line) :=
  .ite (s.rasEvent_tierStands _ _ _ _ _ _) ((s.wakePc_tierStands _).trans (State.setErr_tierStands _ _ _))

/-! ## The system caches (R321 to R330) -/

theorem State.wayDisabled_tierStands (hub way : Nat) : s.tierStands (s.wayDisabled hub way) := by
  unfold State.wayDisabled
  extract_lets s1 s2 k m s3
  have h1 : s.tierStands s1 := s.wr_tierStands _ _ _ _ _
  have h2 : s1.tierStands s2 := s1.wr_tierStands _ _ _ _ _
  have h3 : s2.tierStands s3 := s2.mem_tierStands _
  exact ((h1.trans h2).trans h3).trans ((s3.raise_tierStands _ _ _).trans (State.rasEvent_tierStands _ _ _ _ _ _ _))

theorem State.disableWay_tierStands (hub way : Nat) : s.tierStands (s.disableWay hub way) :=
  .ite (s.wayDisabled_tierStands hub way) (.ite (.refl s) ((s.wr_tierStands _ _ _ _ _).trans (State.mem_tierStands _ _)))

theorem State.scCorrected_tierStands (hub way : Nat) : s.tierStands (s.scCorrected hub way) := by
  unfold State.scCorrected
  extract_lets s1 k times m s2 th
  have h1 : s.tierStands s1 := s.bump_tierStands _ _ _ _
  have h2 : s1.tierStands s2 := s1.mem_tierStands _
  exact (h1.trans h2).trans (.ite (s2.disableWay_tierStands hub way) (.refl s2))

theorem State.scUncorrected_tierStands (hub way : Nat) : s.tierStands (s.scUncorrected hub way) := by
  unfold State.scUncorrected
  extract_lets k again m s1
  have h1 : s.tierStands s1 := s.mem_tierStands _
  exact h1.trans (.ite (s1.disableWay_tierStands hub way) (.refl s1))

theorem State.scDirtyBad_tierStands (hub way line : Nat) : s.tierStands (s.scDirtyBad hub way line) := by
  unfold State.scDirtyBad
  extract_lets s1
  have h1 : s.tierStands s1 := ((s.setPoison_tierStands line true).trans (State.bump_tierStands _ _ _ _ _)).trans
    (State.raise_tierStands _ _ _ _)
  exact (h1.trans (s1.hbmStore_tierStands line)).trans (State.scUncorrected_tierStands _ hub way)

theorem State.scWriteBack_tierStands (hub way line : Nat) : s.tierStands (s.scWriteBack hub way line) := by
  unfold State.scWriteBack
  split
  · exact s.hbmStore_tierStands line
  · exact (s.scCorrected_tierStands hub way).trans (State.hbmStore_tierStands _ line)
  · exact s.scDirtyBad_tierStands hub way line

theorem State.scEvict_tierStands (hub set way : Nat) : s.tierStands (s.scEvict hub set way) := by
  unfold State.scEvict
  split
  · exact .refl s
  · exact .trans (.ite (s.scWriteBack_tierStands hub way _) (.refl s)) (State.setSc_tierStands _ _)

theorem State.scInstall_tierStands (line way : Nat) (dirty pf : Bool) : s.tierStands (s.scInstall line way dirty pf) := by
  unfold State.scInstall
  extract_lets hub set s1 through s2
  have h1 : s.tierStands s1 := (s.scEvict_tierStands hub set way).trans (State.stamped_tierStands _)
  have h2 : s1.tierStands s2 := .ite (s1.hbmStore_tierStands line) (.refl s1)
  exact .ite (.ite (s.hbmStore_tierStands line) (.refl s)) ((h1.trans h2).trans (s2.scPut_tierStands _ _ _ _))

theorem State.prefetchLine_tierStands (hub part line : Nat) : s.tierStands (s.prefetchLine hub part line) := by
  unfold State.prefetchLine
  extract_lets set ws age r s1
  clear_value ws
  split
  · exact .refl s
  · split
    · exact .refl s
    · have hr : s.tierStands r.st := (s.charge_tierStands line part).trans (State.hbmRead_tierStands _ line 0)
      have h1 : r.st.tierStands s1 := .ite (r.st.setPoison_tierStands line true) (.refl r.st)
      exact ((hr.trans h1).trans (s1.scInstall_tierStands line _ false true)).trans (State.bump_tierStands _ _ _ _ _)

theorem State.train_tierStands (stream part line : Nat) : s.tierStands (s.train stream part line) := by
  unfold State.train
  refine .ite (.refl s) (foldl_tierStands _ (fun s hub => ?_) _ s)
  refine .ite ?_ (.refl s)
  extract_lets s1 ts mine r others oldest others' m s2
  have h1 : s.tierStands s1 := s.stamped_tierStands
  have h2 : s1.tierStands s2 := s1.mem_tierStands _
  exact (h1.trans h2).trans (.ite (foldl_tierStands _
    (fun s k => .ite (s.prefetchLine_tierStands hub part _) (.refl s)) _ s2) (.refl s2))

theorem State.scMiss_tierStands (line stream part : Nat) : s.tierStands (s.scMiss line stream part).st :=
  (s.bump_tierStands _ _ _ _).trans (State.train_tierStands _ stream part line)

theorem State.scHit_tierStands (line way : Nat) (l : ScLine) : s.tierStands (s.scHit line way l).st := by
  unfold State.scHit
  extract_lets hub s1 s2
  have h1 : s.tierStands s1 := (s.bump_tierStands _ _ _ _).trans (State.stamped_tierStands _)
  have h2 : s1.tierStands s2 := .ite (s1.bump_tierStands _ _ _ _) (.refl s1)
  exact (h1.trans h2).trans (s2.scPut_tierStands _ _ _ _)

theorem State.scLookup_tierStands (line stream part : Nat) (err : Option Nat) :
    s.tierStands (s.scLookup line stream part err).st := by
  unfold State.scLookup
  extract_lets hub again
  have hagain (t : State) : t.tierStands (again t).st := by
    simp only [again]
    split
    · exact t.scHit_tierStands line _ _
    · exact t.scMiss_tierStands line stream part
  split
  · exact s.scMiss_tierStands line stream part
  · split
    · exact s.scHit_tierStands line _ _
    · exact (s.scCorrected_tierStands hub _).trans (hagain _)
    · split
      · exact ((s.scPut_tierStands _ _ _ _).trans (State.scDirtyBad_tierStands _ hub _ line)).trans (hagain _)
      · exact (((s.setSc_tierStands _).trans (State.bump_tierStands _ _ _ _ _)).trans
          (State.scUncorrected_tierStands _ hub _)).trans (State.scMiss_tierStands _ line stream part)

/-! ## A home's reads and writes of HBM lines -/

theorem State.homeFetch_tierStands (line stream part upset : Nat) (way : Option Nat) :
    s.tierStands (s.homeFetch line stream part upset way).st := by
  unfold State.homeFetch
  split
  · exact .refl s
  · split
    · exact .refl s
    · extract_lets r
      have hr : s.tierStands r.st := (s.charge_tierStands line part).trans (State.hbmRead_tierStands _ line upset)
      split
      · exact hr
      · exact (hr.trans (.ite (r.st.setPoison_tierStands line true) (.refl r.st))).trans
          (State.scInstall_tierStands _ line _ false false)

theorem State.homeWrite_tierStands (line stream part : Nat) (data : List Byte) (poison : Bool) :
    s.tierStands (s.homeWrite line stream part data poison) := by
  unfold State.homeWrite
  extract_lets hub set s1
  have h1 : s.tierStands s1 := s.putLine_tierStands line data poison
  have store : s1.tierStands ((s1.charge line part).hbmStore line) :=
    (s1.charge_tierStands line part).trans (State.hbmStore_tierStands _ line)
  refine .ite (s.rasEvent_tierStands _ _ _ _ _ _) (h1.trans (.ite (.refl s1) ?_))
  split
  · refine (s1.stamped_tierStands).trans (.ite ?_ (State.scPut_tierStands _ _ _ _ _))
    exact ((State.charge_tierStands _ line part).trans (State.hbmStore_tierStands _ line)).trans
      (State.scPut_tierStands _ _ _ _ _)
  · split
    · exact s1.scInstall_tierStands line _ true false
    · exact store

/-! ## The homes' tables (R285 to R303) -/

theorem State.dirStats_tierStands (n : Nat) : s.tierStands (s.dirStats n) := by
  unfold State.dirStats
  extract_lets mine busy s1
  have h1 : s.tierStands s1 := (s.wr_tierStands _ _ _ _ _).trans (State.wr_tierStands _ _ _ _ _ _)
  exact h1.trans (.ite (s1.wr_tierStands _ _ _ _ _) (.refl s1))

theorem State.setEntry_tierStands (k : Nat) (e : Option DirEnt) : s.tierStands (s.setEntry k e) :=
  (s.setCoh_tierStands _).trans (State.dirStats_tierStands _ _)

theorem State.putHostLine_tierStands (k : Nat) (data : List Byte) (p : Bool) : s.tierStands (s.putHostLine k data p) :=
  ⟨rfl, fun _ _ _ => rfl⟩

theorem State.homeStore_tierStands (k stream : Nat) (data : List Byte) (p : Bool) :
    s.tierStands (s.homeStore k stream data p) :=
  .ite ((s.putHostLine_tierStands k data p).trans (State.setCoh_tierStands _ _)) (s.homeWrite_tierStands _ _ _ _ _)

theorem State.giveBack_tierStands (k : Nat) : s.tierStands (s.giveBack k) :=
  .ite (.ite (.refl s) ((s.setCoh_tierStands _).trans (State.setCoh_tierStands _ _))) (.refl s)

theorem State.leaveEntry_tierStands (k : Nat) (e : DirEnt) : s.tierStands (s.leaveEntry k e) :=
  .ite ((s.setEntry_tierStands k none).trans (State.giveBack_tierStands _ k)) (s.setEntry_tierStands k (some e))

/-! ## The lines of the cores (R288) -/

theorem State.setLine_tierStands (k a : Nat) (l : CLine) : s.tierStands (s.setLine k a l) := s.setCoh_tierStands _

theorem State.lineTaken_tierStands (k h : Nat) : s.tierStands (s.lineTaken k h) :=
  .trans (.ite (s.setCore_tierStands h _) (.refl s)) (.ite (State.setCore_tierStands _ h _) (.refl _))

theorem State.snooped_tierStands (k h : Nat) (kind : SnpKind) : s.tierStands (s.snooped k h kind).1 := by
  unfold State.snooped
  extract_lets l r s1 s2
  have h1 : s.tierStands s1 := s.setLine_tierStands k h _
  have h2 : s1.tierStands s2 := by
    simp only [s2]
    split
    · exact s1.lineTaken_tierStands k h
    · exact s1.lineTaken_tierStands k h
    · exact .refl s1
  split
  · exact s.setLine_tierStands k h _
  · exact h1.trans h2

theorem State.snoopNow_tierStands (k h : Nat) (kind : SnpKind) : s.tierStands (s.snoopNow k h kind).1 := by
  unfold State.snoopNow
  extract_lets s1 r
  have h1 : s.tierStands s1 := (s.bump_tierStands _ _ _ _).trans (State.hpmEvent_tierStands _ h 6 1)
  have hr : s.tierStands r.1 := h1.trans (s1.snooped_tierStands k h kind)
  clear_value r
  split
  · exact hr
  · exact hr
  · split
    · exact ((hr.trans (r.1.take_tierStands _)).trans (State.bump_tierStands _ _ _ _ _)).trans (State.post_tierStands _ _)
    · exact hr

/-! ## The engines' accesses (R274, R282, R284, R292) -/

theorem State.touchFar_tierStands (k stream : Nat) : s.tierStands (s.touchFar k stream) :=
  .ite (.refl s) ⟨rfl, fun _ _ _ => rfl⟩

theorem State.engineInv_tierStands (k stream : Nat) : s.tierStands (s.engineInv k stream).1 := by
  unfold State.engineInv
  extract_lets s1
  have h1 : s.tierStands s1 := s.touchFar_tierStands k stream
  clear_value s1
  split
  · exact h1
  · extract_lets r
    have hr : s1.tierStands r.1 := by
      simp only [r]
      generalize DirEnt.holders _ = l
      refine foldl_tierStands_of Prod.fst _ ?_ l (s1, none)
      intro p a
      split
      · exact .refl p.1
      · dsimp only
        exact p.1.snoopNow_tierStands k a .snpInv
    clear_value r
    exact (h1.trans hr).trans (r.1.setEntry_tierStands k none)

theorem State.memRead_tierStands (line stream part : Nat) :
    let l := s.scLookup line stream part none
    s.tierStands (l.st.homeFetch line stream part 0 l.way).st :=
  (s.scLookup_tierStands line stream part none).trans (State.homeFetch_tierStands _ line stream part 0 _)

theorem State.engineMerge_tierStands (k stream part : Nat) (full : Bool) (f : List Byte → List Byte) :
    s.tierStands (s.engineMerge k stream part full f) := by
  unfold State.engineMerge
  extract_lets r l old
  have hr : s.tierStands r.1 := s.engineInv_tierStands k stream
  have hold : r.1.tierStands old.st := by
    simp only [old]
    split
    · exact .refl r.1
    · exact r.1.memRead_tierStands (keyAddr k) stream part
  clear_value r old
  exact .ite ((hr.trans (State.bump_tierStands _ _ _ _ _ (by split <;> decide))).trans
    (State.homeWrite_tierStands _ _ _ _ _ _))
    ((hr.trans hold).trans (State.homeWrite_tierStands _ _ _ _ _ _))

theorem State.engineRead_tierStands (k stream part : Nat) : s.tierStands (s.engineRead k stream part).st := by
  unfold State.engineRead
  extract_lets s1 mem
  have h1 : s.tierStands s1 := (s.setCoh_tierStands _).trans (State.touchFar_tierStands _ k stream)
  have hmem (t : State) : t.tierStands (mem t).st := t.memRead_tierStands (keyAddr k) stream part
  refine h1.trans ?_
  clear_value mem s1
  split
  · split
    · split
      · exact hmem s1
      · extract_lets r st gone s2
        have h2 : s1.tierStands s2 := s1.snoopNow_tierStands k _ .snpCur
        refine h2.trans ?_
        clear_value r s2
        split
        · exact .ite (.trans (.ite (s2.homeStore_tierStands k stream _ _) (.refl s2))
            (State.leaveEntry_tierStands _ k _)) (.refl s2)
        · exact .trans (.ite (s2.leaveEntry_tierStands k _) (.refl s2)) (hmem _)
    · exact hmem s1
  · exact hmem s1

theorem State.rangeRead_tierStands (addr n stream part : Nat) : s.tierStands (s.rangeRead addr n stream part).st := by
  unfold State.rangeRead
  split
  · exact .refl s
  · refine foldl_tierStands_of LineRead.st _ (fun p k => ?_) _ ⟨s, [], false⟩
    exact p.st.engineRead_tierStands k stream part

/-! ## Lines in bulk, and the tables in HBM (R210, R213, R232) -/

theorem State.engineWrite_tierStands (k stream part off : Nat) (bytes : List Byte) :
    s.tierStands (s.engineWrite k stream part off bytes) := s.engineMerge_tierStands k stream part _ _

theorem State.chargeBytes_tierStands (hub p n : Nat) : s.tierStands (s.chargeBytes hub p n) :=
  (s.bump_tierStands _ n hub p).trans (State.mem_tierStands _ _)

theorem State.zeroHbm_tierStands (addr len part : Nat) : s.tierStands (s.zeroHbm addr len part) := by
  unfold State.zeroHbm
  extract_lets s1 m s2
  have h1 : s.tierStands s1 := foldl_tierStands _ (fun s k => s.engineWrite_tierStands k _ part 0 _) _ s
  have h2 : s1.tierStands s2 := ⟨rfl, fun _ _ _ => rfl⟩
  exact ((h1.trans h2).trans (s2.chargeBytes_tierStands 0 part _)).trans (State.chargeBytes_tierStands _ 1 part _)

theorem State.readTable_tierStands (x : TableRead) (line : Nat) : x.st.tierStands (s.readTable x line).st := by
  unfold State.readTable
  extract_lets m a was r x1 i j gone
  have h1 : x.st.tierStands x1.st := x.st.rangeRead_tierStands a 64 98 0
  split
  · exact h1
  · split
    · exact h1
    · exact h1

theorem State.readTables_tierStands : s.tierStands s.readTables.st := by
  unfold State.readTables
  extract_lets all
  exact foldl_tierStands_of TableRead.st _ (fun x line => s.readTable_tierStands x line) _ all

end

end Sys2Proof.Machine
end

section
/-! PROOFS. Contexts of the tier manager, and what is asked of every command before it is carried out (R212, R214, R235, R494). -/

namespace Sys2Proof.Machine

/-! ## The table of contexts (R214) -/

section
variable {α : Type} (m : SMap α) (x : Nat)

theorem find_insK_same (v : α) : (insK m x v).find? (·.1 = x) = some (x, v) := by
  induction m with
  | nil => simp [insK]
  | cons e m ih =>
    rw [insK]
    split
    · simp
    · split
      · simp
      · rw [List.find?_cons_of_neg (by simpa using ‹¬ e.1 = x›), ih]

theorem find_insK_ne (v : α) (y : Nat) (h : y ≠ x) : (insK m x v).find? (·.1 = y) = m.find? (·.1 = y) := by
  induction m with
  | nil => simp [insK, h.symm]
  | cons e m ih =>
    obtain ⟨k, w⟩ := e
    rw [insK]
    split
    · simp [List.find?_cons, h.symm]
    · split
      case isTrue he => simp [he, h.symm]
      · rw [List.find?_cons, List.find?_cons, ih]

theorem find_eraseK_same : (eraseK m x).find? (·.1 = x) = none := by
  induction m with
  | nil => rfl
  | cons e m ih =>
    rw [eraseK]
    split
    · exact ih
    · rw [List.find?_cons_of_neg (by simpa using ‹¬ e.1 = x›), ih]

theorem find_eraseK_ne (y : Nat) (h : y ≠ x) : (eraseK m x).find? (·.1 = y) = m.find? (·.1 = y) := by
  induction m with
  | nil => rfl
  | cons e m ih =>
    obtain ⟨k, w⟩ := e
    rw [eraseK]
    split
    case isTrue he => rw [ih, List.find?_cons_of_neg (by simpa [he] using h.symm)]
    · rw [List.find?_cons, List.find?_cons, ih]

end

section
variable (s : State) (c : Nat)

theorem State.ctx_congr {t : State} (h : t.tier.ctxs = s.tier.ctxs) : t.ctx c = s.ctx c := by rw [State.ctx, State.ctx, h]

theorem State.ctx_created (r : Ctx) :
    (s.setTier fun t => { t with ctxs := insK t.ctxs c r }).ctx c = some r := by
  rw [State.ctx, State.setTier_tier, find_insK_same]
  rfl

theorem State.ctx_created_ne (r : Ctx) (d : Nat) (h : d ≠ c) :
    (s.setTier fun t => { t with ctxs := insK t.ctxs c r }).ctx d = s.ctx d := by
  rw [State.ctx, State.setTier_tier, find_insK_ne _ _ _ _ h]
  rfl

theorem State.ctx_destroyed : (s.setTier fun t => { t with ctxs := eraseK t.ctxs c }).ctx c = none := by
  rw [State.ctx, State.setTier_tier, find_eraseK_same]
  rfl

theorem State.ctx_destroyed_ne (d : Nat) (h : d ≠ c) :
    (s.setTier fun t => { t with ctxs := eraseK t.ctxs c }).ctx d = s.ctx d := by
  rw [State.ctx, State.setTier_tier, find_eraseK_ne _ _ _ h]
  rfl

end

/-! ## CTX_CREATE and CTX_DESTROY (R214) -/

section
variable {u : State} {c : TierCmd} {func : Nat} {reply : TierReply}

theorem State.doCtxCreate_reserved (h : c.ctx = 0xFFFFFF) :
    u.doCtxCreate c func reply = u.tierDone c.cmd reply (.fail stBadDescriptor 1) := if_pos h

theorem State.doCtxCreate_exists (h : c.ctx ≠ 0xFFFFFF) (some : (u.ctx c.ctx).isSome = true) :
    u.doCtxCreate c func reply = u.tierDone c.cmd reply (.fail stBadDescriptor 3) := (if_neg h).trans (if_pos some)

theorem State.doCtxCreate_full (h : c.ctx ≠ 0xFFFFFF) (free : u.ctx c.ctx = none) (full : tierContexts ≤ u.tier.ctxs.length) :
    u.doCtxCreate c func reply = u.tierDone c.cmd reply (.fail stNoContext 0) :=
  (if_neg h).trans ((if_neg (by simp [free])).trans (if_pos full))

theorem State.doCtxCreate_creates (h : c.ctx ≠ 0xFFFFFF) (free : u.ctx c.ctx = none)
    (room : u.tier.ctxs.length < tierContexts) : u.doCtxCreate c func reply
      = (u.setTier fun t => { t with ctxs := insK t.ctxs c.ctx ⟨func, c.part, c.quota⟩ }).tierView.tierDone c.cmd reply (.ok 0) :=
  (if_neg h).trans ((if_neg (by simp [free])).trans (if_neg (by omega)))

theorem State.doCtxDestroy_unowned (h : u.ownsCtx func c.ctx = false) :
    u.doCtxDestroy c func reply = u.tierDone c.cmd reply (.fail stNoContext 0) := if_pos (by simp [h])

theorem State.doCtxDestroy_zero (h : u.ownsCtx func c.ctx = true) (zero : c.ctx = 0) :
    u.doCtxDestroy c func reply = u.tierDone c.cmd reply (.fail stBadDescriptor 1) :=
  (if_neg (by simp [h])).trans (if_pos zero)

theorem State.doCtxDestroy_used (h : u.ownsCtx func c.ctx = true) (ne : c.ctx ≠ 0)
    (used : (u.tier.objs.any fun e => e.2.state != 0 && e.2.ctx == c.ctx) = true) :
    u.doCtxDestroy c func reply = u.tierDone c.cmd reply (.fail stBadDescriptor 5) :=
  (if_neg (by simp [h])).trans ((if_neg ne).trans (if_pos used))

theorem State.doCtxDestroy_removes (h : u.ownsCtx func c.ctx = true) (ne : c.ctx ≠ 0)
    (unused : (u.tier.objs.any fun e => e.2.state != 0 && e.2.ctx == c.ctx) = false) : u.doCtxDestroy c func reply
      = (u.setTier fun t => { t with ctxs := eraseK t.ctxs c.ctx }).tierView.tierDone c.cmd reply (.ok 0) :=
  (if_neg (by simp [h])).trans ((if_neg ne).trans (if_neg (by simp [unused])))

end

/-- Work that only replaces the contexts is answered with OK. -/
theorem State.newCtxs_done (s : State) (f cmd : Nat) (g : SMap Ctx → SMap Ctx) :
    let v := (s.taken f).setTier fun t => { t with ctxs := g t.ctxs }
    let t := v.tierView.tierDone cmd (s.rowReply f) (.ok 0)
    (∀ d, t.ctx d = v.ctx d) ∧ t.tier.objs = s.tier.objs ∧ s.tierSaid t f 0 0 ∧ s.tierOnly t := by
  intro v t
  have work : (s.taken f).tierWork v.tierView := ((State.tierWork.refl _).setTier _).tierView
  have tier : t.tier = v.tier := (State.tierDone_row_tier cmd _).trans v.tierView_tier
  refine ⟨fun d => v.ctx_congr d (by rw [tier]), ?_, ?_, work.only_done cmd _⟩
  · rw [tier]
    exact (congrArg Tier.objs (s.taken_tier f) :)
  · have said := State.tierDone_ok_said cmd work 0 0
    rwa [Nat.zero_mul] at said

section
variable {s : State} {f : Fin 65} {ctx : BitVec 24} (runs : s.tierRuns = true)
include runs

theorem exec_ctxCreate_creates (part : Fin 16) (quota : BitVec 40) (h : ctx.toNat ≠ 0xFFFFFF) (free : s.ctx ctx.toNat = none)
    (room : s.tier.ctxs.length < tierContexts) : ∃ t, exec (.ctxCreate f ctx part quota) s = .next t
      ∧ t.ctx ctx.toNat = some ⟨f, part, quota.toNat⟩ ∧ (∀ d, d ≠ ctx.toNat → t.ctx d = s.ctx d)
      ∧ t.tier.objs = s.tier.objs ∧ s.tierSaid t f 0 0 ∧ s.tierOnly t := by
  obtain ⟨ctxs, objs, said, only⟩ := s.newCtxs_done f 0x01 fun m => insK m ctx.toNat ⟨f, part, quota.toNat⟩
  exact ⟨_, (exec_ctxCreate_runs runs part quota).trans (congrArg _ (State.doCtxCreate_creates h
    (by rwa [State.taken_ctx]) (by rwa [State.taken_tier]))), (ctxs _).trans (State.ctx_created _ _ _),
    fun d hd => (ctxs d).trans ((State.ctx_created_ne _ _ _ _ hd).trans (s.taken_ctx f d)), objs, said, only⟩

theorem exec_ctxDestroy_removes (owns : s.ownsCtx f ctx.toNat = true) (ne : ctx.toNat ≠ 0)
    (unused : (s.tier.objs.any fun e => e.2.state != 0 && e.2.ctx == ctx.toNat) = false) :
    ∃ t, exec (.ctxDestroy f ctx) s = .next t
      ∧ t.ctx ctx.toNat = none ∧ (∀ d, d ≠ ctx.toNat → t.ctx d = s.ctx d)
      ∧ t.tier.objs = s.tier.objs ∧ s.tierSaid t f 0 0 ∧ s.tierOnly t := by
  obtain ⟨ctxs, objs, said, only⟩ := s.newCtxs_done f 0x02 fun m => eraseK m ctx.toNat
  exact ⟨_, (exec_ctxDestroy_runs runs).trans (congrArg _ (State.doCtxDestroy_removes (by rwa [State.taken_ownsCtx]) ne
    (by rwa [State.taken_tier]))), (ctxs _).trans (State.ctx_destroyed _ _),
    fun d hd => (ctxs d).trans ((State.ctx_destroyed_ne _ _ _ hd).trans (s.taken_ctx f d)), objs, said, only⟩

theorem exec_ctxCreate_exists (part : Fin 16) (quota : BitVec 40) (h : ctx.toNat ≠ 0xFFFFFF)
    (some : (s.ctx ctx.toNat).isSome = true) :
    ∃ t, exec (.ctxCreate f ctx part quota) s = .next t ∧ s.tierFailed t f 1 stBadDescriptor 3 0 :=
  exec_tierFails (by decide) ((exec_ctxCreate_runs runs part quota).trans
    (congrArg _ (State.doCtxCreate_exists h (by rwa [State.taken_ctx]))))

theorem exec_ctxCreate_reserved (part : Fin 16) (quota : BitVec 40) (h : ctx.toNat = 0xFFFFFF) :
    ∃ t, exec (.ctxCreate f ctx part quota) s = .next t ∧ s.tierFailed t f 1 stBadDescriptor 1 0 :=
  exec_tierFails (by decide) ((exec_ctxCreate_runs runs part quota).trans (congrArg _ (State.doCtxCreate_reserved h)))

theorem exec_ctxCreate_full (part : Fin 16) (quota : BitVec 40) (h : ctx.toNat ≠ 0xFFFFFF) (free : s.ctx ctx.toNat = none)
    (full : tierContexts ≤ s.tier.ctxs.length) :
    ∃ t, exec (.ctxCreate f ctx part quota) s = .next t ∧ s.tierFailed t f 1 stNoContext 0 0 :=
  exec_tierFails (by decide) ((exec_ctxCreate_runs runs part quota).trans
    (congrArg _ (State.doCtxCreate_full h (by rwa [State.taken_ctx]) (by rwa [State.taken_tier]))))

theorem exec_ctxDestroy_unowned (h : s.ownsCtx f ctx.toNat = false) :
    ∃ t, exec (.ctxDestroy f ctx) s = .next t ∧ s.tierFailed t f 2 stNoContext 0 0 :=
  exec_tierFails (by decide) ((exec_ctxDestroy_runs runs).trans
    (congrArg _ (State.doCtxDestroy_unowned (by rwa [State.taken_ownsCtx]))))

theorem exec_ctxDestroy_zero (owns : s.ownsCtx f ctx.toNat = true) (zero : ctx.toNat = 0) :
    ∃ t, exec (.ctxDestroy f ctx) s = .next t ∧ s.tierFailed t f 2 stBadDescriptor 1 0 :=
  exec_tierFails (by decide) ((exec_ctxDestroy_runs runs).trans
    (congrArg _ (State.doCtxDestroy_zero (by rwa [State.taken_ownsCtx]) zero)))

theorem exec_ctxDestroy_used (owns : s.ownsCtx f ctx.toNat = true) (ne : ctx.toNat ≠ 0)
    (used : (s.tier.objs.any fun e => e.2.state != 0 && e.2.ctx == ctx.toNat) = true) :
    ∃ t, exec (.ctxDestroy f ctx) s = .next t ∧ s.tierFailed t f 2 stBadDescriptor 5 0 :=
  exec_tierFails (by decide) ((exec_ctxDestroy_runs runs).trans
    (congrArg _ (State.doCtxDestroy_used (by rwa [State.taken_ownsCtx]) ne (by rwa [State.taken_tier]))))

end

/-! ## Commands as they are given (R212, R235, R494) -/

section
variable (f : Fin 65) (ctx : BitVec 24) (h : BitVec 32) (len : BitVec 40) (addr : BitVec 64) (pasid : BitVec 20) (a b : Bool)
  (part : Fin 16) (quota : BitVec 40)

/-- The commands that name a handle, each with its number. -/
def handleCommands : List (Instr × Nat) :=
  [(.seal f ctx h len a, 4), (.evict f ctx h addr pasid a, 6), (.fetch f ctx h a b, 7), (.unpin f ctx h, 8),
    (.free f ctx h, 9), (.releaseT2 f ctx h, 10), (.verify f ctx h, 11), (.query f ctx h addr, 12)]

/-- The commands that name none. -/
def otherCommands : List (Instr × Nat) :=
  [(.ctxCreate f ctx part quota, 1), (.ctxDestroy f ctx, 2), (.allocOpen f ctx len, 3), (.adopt f ctx addr len pasid a, 5)]

end

/-- A command of a function gives the tier manager a record with this number, context and handle. -/
structure TierCmd.given (c : TierCmd) (i : Instr) (f cmd ctx handle : Nat) : Prop where
  run : ∀ s, exec i s = .next (s.tierRow c f)
  number : c.cmd = cmd
  few : cmd < 2 ^ 5
  ctx : c.ctx = ctx
  handle : c.handle = handle

section
variable {f : Fin 65} {ctx : BitVec 24} {h : BitVec 32} {len : BitVec 40} {addr : BitVec 64} {pasid : BitVec 20} {a b : Bool}
  {part : Fin 16} {quota : BitVec 40} {i : Instr} {cmd : Nat}

theorem handleCommands_given (hm : (i, cmd) ∈ handleCommands f ctx h len addr pasid a b) :
    ∃ c : TierCmd, c.given i f cmd ctx.toNat h.toNat
      ∧ ∀ s : State, s.tierRuns = true → ∃ g, exec i s = .next ((s.taken f).onHandle c f (s.rowReply f) g) := by
  simp only [handleCommands, List.mem_cons, List.not_mem_nil, or_false] at hm
  obtain ⟨rfl, rfl⟩ | ⟨rfl, rfl⟩ | ⟨rfl, rfl⟩ | ⟨rfl, rfl⟩ | ⟨rfl, rfl⟩ | ⟨rfl, rfl⟩ | ⟨rfl, rfl⟩ | ⟨rfl, rfl⟩ := hm
  · exact ⟨_, ⟨fun _ => rfl, rfl, by decide, rfl, rfl⟩, fun _ runs => ⟨_, exec_seal_runs runs h len a⟩⟩
  · exact ⟨_, ⟨fun _ => rfl, rfl, by decide, rfl, rfl⟩, fun _ runs => ⟨_, exec_evict_runs runs h addr pasid a⟩⟩
  · exact ⟨_, ⟨fun _ => rfl, rfl, by decide, rfl, rfl⟩, fun _ runs => ⟨_, exec_fetch_runs runs h a b⟩⟩
  · exact ⟨_, ⟨fun _ => rfl, rfl, by decide, rfl, rfl⟩, fun _ runs => ⟨_, exec_unpin_runs runs h⟩⟩
  · exact ⟨_, ⟨fun _ => rfl, rfl, by decide, rfl, rfl⟩, fun _ runs => ⟨_, exec_free_runs runs h⟩⟩
  · exact ⟨_, ⟨fun _ => rfl, rfl, by decide, rfl, rfl⟩, fun _ runs => ⟨_, exec_releaseT2_runs runs h⟩⟩
  · exact ⟨_, ⟨fun _ => rfl, rfl, by decide, rfl, rfl⟩, fun _ runs => ⟨_, exec_verify_runs runs h⟩⟩
  · exact ⟨_, ⟨fun _ => rfl, rfl, by decide, rfl, rfl⟩, fun _ runs => ⟨_, exec_query_runs runs h addr⟩⟩

theorem handleCommands_not_other (hm : (i, cmd) ∈ handleCommands f ctx h len addr pasid a b) :
    (i, cmd) ∉ otherCommands f ctx len addr pasid a part quota := by
  have number : cmd ∈ [4, 6, 7, 8, 9, 10, 11, 12] := List.mem_map_of_mem (f := Prod.snd) hm
  intro ho
  have other : cmd ∈ [1, 2, 3, 5] := List.mem_map_of_mem (f := Prod.snd) ho
  simp only [List.mem_cons, List.not_mem_nil, or_false] at number other
  omega

theorem otherCommands_given (hm : (i, cmd) ∈ otherCommands f ctx len addr pasid a part quota) :
    ∃ c : TierCmd, c.given i f cmd ctx.toNat 0 := by
  simp only [otherCommands, List.mem_cons, List.not_mem_nil, or_false] at hm
  obtain ⟨rfl, rfl⟩ | ⟨rfl, rfl⟩ | ⟨rfl, rfl⟩ | ⟨rfl, rfl⟩ := hm
  all_goals exact ⟨_, fun _ => rfl, rfl, by decide, rfl, rfl⟩

/-- Of the commands that name no handle all but CTX_CREATE ask for a context of the function (R494). -/
theorem otherCommands_unowned (hm : (i, cmd) ∈ otherCommands f ctx len addr pasid a part quota) (ne : cmd ≠ 1) {s : State}
    (runs : s.tierRuns = true) (no : s.ownsCtx f ctx.toNat = false) :
    exec i s = .next ((s.taken f).tierDone cmd (s.rowReply f) (.fail stNoContext 0 0)) := by
  have unowned : ¬ (s.taken f).ownsCtx f ctx.toNat = true := by simp [no]
  simp only [otherCommands, List.mem_cons, List.not_mem_nil, or_false] at hm
  obtain ⟨-, rfl⟩ | ⟨rfl, rfl⟩ | ⟨rfl, rfl⟩ | ⟨rfl, rfl⟩ := hm
  · exact absurd rfl ne
  · exact (exec_ctxDestroy_runs runs).trans (congrArg _ (if_pos unowned))
  · exact (exec_allocOpen_runs runs len).trans (congrArg _ (if_pos unowned))
  · exact (exec_adopt_runs runs addr len pasid a).trans (congrArg _ (if_pos unowned))

end

section
variable (s : State) (c : TierCmd) (f : Nat)

theorem State.tierRow_disabled (h : s.on TIER_CTRL.EN = false) :
    s.tierRow c f = (s.taken f).tierDone c.cmd (s.rowReply f) (.fail stBadDescriptor 3 c.handle) := by
  have off : (s.taken f).on TIER_CTRL.EN = false := (s.taken_on f _ (by decide)).trans h
  show (s.taken f).tierAsk c f (s.rowReply f) = _
  rw [State.tierAsk, if_pos (by simp [off])]

theorem State.tierRow_waits (h : s.on TIER_CTRL.EN = true) (runs : s.tierRuns = false) :
    s.tierRow c f = (s.taken f).setTier fun t => { t with waiting := t.waiting ++ [(c, f, s.rowReply f)] } := by
  have on : (s.taken f).on TIER_CTRL.EN = true := (s.taken_on f _ (by decide)).trans h
  show (s.taken f).tierAsk c f (s.rowReply f) = _
  rw [State.tierAsk, if_neg (by simp [on]), if_neg (by simp [runs])]

/-- A command given through TIER_CMD makes it BUSY (R239). -/
theorem State.taken_busy (h : s.rowReply f = .regs) : (s.taken f).rd TIER_CMD_GO.BUSY = 1 := by
  rw [State.taken, if_pos h, State.rd_wr_same]
  rfl

theorem State.taken_onlyRegs : s.taken f = { s with regs := (s.taken f).regs } := by
  unfold State.taken
  split
  · rfl
  · rfl

end

section
variable {s : State} {i : Instr} {f cmd ctx handle : Nat} {c : TierCmd} (given : c.given i f cmd ctx handle)
include given

/-- A command given while the tier manager is disabled fails (R212). -/
theorem TierCmd.given.disabled (hhandle : handle < 2 ^ 32) (hen : s.on TIER_CTRL.EN = false) :
    ∃ t, exec i s = .next t ∧ s.tierFailed t f cmd stBadDescriptor 3 handle := by
  obtain ⟨run, rfl, few, -, rfl⟩ := given
  exact exec_tierFails hhandle ((run s).trans (congrArg _ (s.tierRow_disabled c f hen))) few

/-- A command given before the tier manager runs waits (R235). -/
theorem TierCmd.given.waits (hen : s.on TIER_CTRL.EN = true) (hruns : s.tierRuns = false) : ∃ t w, exec i s = .next t
    ∧ t.tier = { s.tier with waiting := s.tier.waiting ++ [(w, f, s.rowReply f)] } ∧ w.cmd = cmd ∧ w.ctx = ctx
    ∧ w.handle = handle ∧ (s.rowReply f = .regs → t.rd TIER_CMD_GO.BUSY = 1) ∧ t = { s with regs := t.regs, tier := t.tier } := by
  obtain ⟨run, rfl, -, rfl, rfl⟩ := given
  refine ⟨_, c, (run s).trans (congrArg _ (s.tierRow_waits c f hen hruns)), ?_, rfl, rfl, rfl, s.taken_busy f, ?_⟩
  · rw [State.setTier_tier, State.taken_tier]
  · rw [s.taken_onlyRegs f]
    rfl

end

section
variable {s : State} {i : Instr} {f cmd ctx handle : Nat} {c : TierCmd} (given : c.given i f cmd ctx handle)
  (hhandle : handle < 2 ^ 32) {g : State → Nat → State} (run : exec i s = .next ((s.taken f).onHandle c f (s.rowReply f) g))
include given hhandle run

theorem TierCmd.given.unowned (no : s.ownsCtx f ctx = false) :
    ∃ t, exec i s = .next t ∧ s.tierFailed t f cmd stNoContext 0 handle := by
  obtain ⟨-, rfl, few, rfl, rfl⟩ := given
  exact exec_tierFails hhandle (run.trans (congrArg _ (State.onHandle_unowned _ _ (by rwa [State.taken_ownsCtx])))) few

/-- The handle names no entry, or one of another context (R494). -/
theorem TierCmd.given.stale (owns : s.ownsCtx f ctx = true)
    (bad : s.handleEntry handle = none ∨ ∃ e, s.handleEntry handle = some e ∧ (s.obj e).ctx ≠ ctx) :
    ∃ t, exec i s = .next t ∧ s.tierFailed t f cmd stBadDescriptor 2 handle := by
  obtain ⟨-, rfl, few, rfl, rfl⟩ := given
  refine exec_tierFails hhandle (run.trans (congrArg _ (State.onHandle_stale _ _ (by rwa [State.taken_ownsCtx]) ?_))) few
  simpa only [State.taken_handleEntry, State.taken_obj] using bad

end

/-- Contexts, and the checks before a command is carried out: each command's record, by whether the tier manager is enabled,
runs, owns the context and knows the handle; then CTX_CREATE and CTX_DESTROY by their first check that fails. -/
theorem tierContexts_stated : Stated.TierContexts := by
  refine ⟨fun s f ctx h len addr pasid a b part quota i cmd => ?_, fun s f ctx runs => ⟨?_, ?_, ?_, ?_, ?_, ?_⟩⟩
  · intro onHandle others fails named
    have given (hm : (i, cmd) ∈ onHandle ++ others) : ∃ c : TierCmd, c.given i f cmd ctx.toNat named := by
      by_cases ho : (i, cmd) ∈ others
      · have hn : named = 0 := if_pos ho
        rw [hn]
        exact otherCommands_given ho
      · have hn : named = h.toNat := if_neg ho
        obtain ⟨c, hc, -⟩ := handleCommands_given ((List.mem_append.1 hm).resolve_right ho)
        exact ⟨c, hn ▸ hc⟩
    have small : named < 2 ^ 32 := by
      simp only [named]
      split
      · decide
      · exact h.isLt
    refine ⟨fun hm hen => ?_, fun hm hen runs => ?_, fun runs no hm ne => ?_, fun runs owns hm bad => ?_⟩
    · obtain ⟨c, hc⟩ := given hm
      exact hc.disabled small hen
    · obtain ⟨c, hc⟩ := given hm
      exact hc.waits hen runs
    · obtain hm | ho := List.mem_append.1 hm
      · have hn : named = h.toNat := if_neg (handleCommands_not_other hm)
        obtain ⟨c, hc, run⟩ := handleCommands_given hm
        obtain ⟨g, run⟩ := run s runs
        rw [hn]
        exact hc.unowned h.isLt run no
      · have hn : named = 0 := if_pos ho
        obtain ⟨c, hc⟩ := otherCommands_given ho
        rw [hn]
        exact exec_tierFails (by decide) (otherCommands_unowned ho ne runs no) hc.few
    · obtain ⟨c, hc, run⟩ := handleCommands_given hm
      obtain ⟨g, run⟩ := run s runs
      exact hc.stale h.isLt run owns bad
  · exact exec_ctxCreate_creates runs
  · intro part quota ne some
    obtain ⟨t, run, status, -, detail, -, -, err, -, quiet⟩ := exec_ctxCreate_exists runs part quota ne some
    exact ⟨t, run, by rw [quiet], status, detail, err, quiet⟩
  · exact fun part quota => ⟨exec_ctxCreate_reserved runs part quota, exec_ctxCreate_full runs part quota⟩
  · exact fun owns => ⟨exec_ctxDestroy_zero runs owns, exec_ctxDestroy_used runs owns⟩
  · exact exec_ctxDestroy_removes runs
  · intro no
    obtain ⟨t, run, status, -, -, -, -, -, -, quiet⟩ := exec_ctxDestroy_unowned runs no
    exact ⟨t, run, by rw [quiet], status, quiet⟩

end Sys2Proof.Machine
end

section
/-! PROOFS. The tier manager is enabled, becomes ready and is disabled (R210, R212, R213). -/

namespace Sys2Proof.Machine

/-! ## A write of TIER_CTRL (R212) -/

/-- The registers as an enabling write leaves them. -/
def State.enabled (s : State) (mode share : Nat) : State :=
  ((((s.wr TIER_CTRL.EN 1).wr TIER_CTRL.MODE mode).wr TIER_CTRL.READY 0).wr TIER_CTRL.ERASE_SHARE share).wr
    TIER_CTRL.REJECT stOK

theorem State.enabled_rds (s : State) (mode share : Nat) : let t := s.enabled mode share
    t.on TIER_CTRL.EN = true ∧ t.on TIER_CTRL.READY = false ∧ t.rd TIER_CTRL.MODE = mode % 2 ∧ t.rd TIER_CTRL.REJECT = stOK := by
  intro t
  refine ⟨?_, ?_, ?_, ?_⟩ <;>
    simp (disch := decide) only [t, State.enabled, State.on, State.rd_wr_ne, State.rd_wr_same] <;> rfl

section
variable {s : State} {recover : Bool} {share : Nat}

theorem State.tierOn_refused (off : s.on TIER_CTRL.EN = false) (bad : s.tierReject = stBadDescriptor) :
    s.tierOn recover share = s.wr TIER_CTRL.REJECT stBadDescriptor := if_pos ⟨by simp [off], bad⟩

theorem State.tierOn_noShare (h : s.on TIER_CTRL.EN = true ∨ s.tierReject = stOK) :
    s.tierOn recover 0 = s.wr TIER_CTRL.REJECT stZeroWindow := by
  refine (if_neg ?_).trans (if_pos rfl)
  rintro ⟨off, bad⟩
  obtain on | ok := h
  · exact off on
  · exact absurd (ok.symm.trans bad) (by decide)

/-- A write that finds the tier manager enabled changes MODE and ERASE_SHARE alone. -/
theorem State.tierOn_enabled (on : s.on TIER_CTRL.EN = true) (h : share ≠ 0) : s.tierOn recover share
    = ((s.wr TIER_CTRL.MODE (b2n recover)).wr TIER_CTRL.ERASE_SHARE share).wr TIER_CTRL.REJECT stOK :=
  (if_neg (by simp [on])).trans ((if_neg h).trans (if_pos on))

section
variable (off : s.on TIER_CTRL.EN = false) (ok : s.tierReject = stOK) (h : share ≠ 0)
include off ok h

theorem State.tierOn_recover :
    s.tierOn true share = (s.enabled 1 share).setTier fun t => { t with recovering := true } := by
  have on : ¬ s.on TIER_CTRL.EN = true := by simp [off]
  have good : ¬ s.tierReject ≠ stOK := fun ne => ne ok
  have notBad : ¬ (¬ s.on TIER_CTRL.EN ∧ s.tierReject = stBadDescriptor) := fun ⟨_, bad⟩ =>
    absurd (ok.symm.trans bad) (by decide)
  exact (if_neg notBad).trans ((if_neg h).trans ((if_neg on).trans ((if_pos rfl).trans (if_neg good))))

/-- FRESH: the region is zeroed and gets its header, the tables are empty but for context 0, and the pool is to be erased. -/
theorem State.tierOn_fresh : ∃ u, (s.enabled 0 share).tierStands u ∧ s.tierOn false share
    = (u.setTier fun _ => ⟨[], [(0, ⟨0, 0, 2 ^ 40 - 1⟩)], 0, [],
        [⟨u.poolBase, (u.poolLimit - u.poolBase) / 65536, none, 0, u.poolBase, 0⟩], [], false⟩).tierView := by
  have on : ¬ s.on TIER_CTRL.EN = true := by simp [off]
  have good : ¬ s.tierReject ≠ stOK := fun ne => ne ok
  have notBad : ¬ (¬ s.on TIER_CTRL.EN ∧ s.tierReject = stBadDescriptor) := fun ⟨_, bad⟩ =>
    absurd (ok.symm.trans bad) (by decide)
  exact ⟨_, ((s.enabled 0 share).zeroHbm_tierStands _ metaSize 0).trans (State.engineWrite_tierStands _ _ 98 0 0 _),
    (if_neg notBad).trans ((if_neg h).trans ((if_neg on).trans ((if_neg (by decide)).trans (if_neg good))))⟩

end

end

/-! ## TIER_DISABLE (R210, R212) -/

/-- What the tables' lines hold depends on the tables and where they stand alone. -/
theorem State.tableLines_regs (s : State) (r : SMap Nat) (h : { s with regs := r }.metaBase = s.metaBase) :
    { s with regs := r }.tableLines = s.tableLines := by
  unfold State.tableLines
  rw [h]
  rfl

theorem State.putTables_regs (s : State) (r : SMap Nat) (h : { s with regs := r }.metaBase = s.metaBase) :
    { s with regs := r }.putTables = { s with regs := r, hbm := s.putTables.hbm, hbmPoison := s.putTables.hbmPoison } := by
  unfold State.putTables
  rw [State.tableLines_regs s r h, h]

/-! ## TIER_READY (R212, R213) -/

/-- The tier manager is READY and takes up the commands that waited. -/
def State.tierUp (s : State) : State := ((s.wr TIER_CTRL.READY 1).raise TIER_INT_STATUS.READY).tierView.tierResume

/-- Bad tables switch the tier manager off. -/
def State.tierBad (s : State) (why : Nat) : State := ((s.wr TIER_CTRL.EN 0).wr TIER_CTRL.READY 0).wr TIER_CTRL.REJECT why

theorem State.tierBad_tier (s : State) (why : Nat) : (s.tierBad why).tier = s.tier := rfl

theorem State.tierBad_rds (s : State) (why : Nat) :
    (s.tierBad why).on TIER_CTRL.EN = false ∧ (s.tierBad why).rd TIER_CTRL.REJECT = why % 2 ^ TIER_CTRL.REJECT.width := by
  refine ⟨?_, State.rd_wr_same _ _ _ _ _ _⟩
  simp (disch := decide) only [State.tierBad, State.on, State.rd_wr_ne, State.rd_wr_same]
  rfl

theorem State.setTier_rd (s : State) (g : Tier → Tier) (f : Fld) (i j r : Nat) : (s.setTier g).rd f i j r = s.rd f i j r := rfl

theorem State.tierResume_idle (s : State) (h : s.tier.waiting = []) :
    s.tierResume = s.setTier fun t => { t with waiting := [] } := by
  rw [State.tierResume, h]
  rfl

/-- Where no command waited, the entries, the extents and the contexts stand. -/
theorem State.tierUp_idle (s : State) (h : s.tier.waiting = []) : s.tierUp.on TIER_CTRL.READY = true
    ∧ s.tierUp.on TIER_INT_STATUS.READY = true ∧ s.tierUp.tier = { s.tier with waiting := [] } := by
  have tier : (((s.wr TIER_CTRL.READY 1).raise TIER_INT_STATUS.READY).tierView).tier = s.tier := by
    rw [State.tierView_tier, State.raise_tier]
    rfl
  rw [State.tierUp, State.tierResume_idle _ (by rw [tier, h])]
  refine ⟨?_, ?_, by rw [State.setTier_tier, tier]⟩
  · rw [State.on, State.setTier_rd, State.tierView_rd _ _ (by decide), State.rd_raise_ne _ _ _ _ _ _ _ _ (by decide),
      State.rd_wr_same]
    rfl
  · rw [State.on, State.setTier_rd, State.tierView_rd _ _ (by decide)]
    exact State.raise_on _ _ 0 rfl

section
variable {s : State}

theorem exec_tierReady_rests (h : s.on TIER_CTRL.EN = false ∨ s.on TIER_CTRL.READY = true ∨ s.hub0Reset = true) :
    exec .tierReady s = .next s := by
  show execTierReady s = _
  have rests : ¬ s.on TIER_CTRL.EN ∨ s.on TIER_CTRL.READY ∨ s.hub0Reset := h.imp_left (by simp)
  rw [execTierReady, if_pos rests]

/-- The pool after the erase that FRESH begins (R212, R232). -/
def State.poolErased (s : State) : State :=
  s.tier.exts.foldl (fun s e => if e.entry.isNone then s.zeroHbm e.addr (e.units * 65536) 0 else s) s

omit s in
theorem State.poolErased_tierStands (s : State) : s.tierStands s.poolErased := by
  unfold State.poolErased
  refine foldl_tierStands _ (fun t e => ?_) _ s
  split
  · exact t.zeroHbm_tierStands e.addr (e.units * 65536) 0
  · exact .refl t

variable (en : s.on TIER_CTRL.EN = true) (ready : s.on TIER_CTRL.READY = false) (reset : s.hub0Reset = false)
include en ready reset

theorem exec_tierReady_erased (fresh : s.tier.recovering = false) : exec .tierReady s
    = .next (s.poolErased.setTier fun t => { t with exts := t.exts.filter fun e => e.entry.isSome }).tierUp := by
  have begun : ¬ (¬ s.on TIER_CTRL.EN ∨ s.on TIER_CTRL.READY ∨ s.hub0Reset) := by simp [en, ready, reset]
  show execTierReady s = _
  rw [execTierReady, if_neg begun]
  dsimp only
  rw [if_pos (by simp [fresh])]
  rfl

theorem exec_tierReady_poisoned (recover : s.tier.recovering = true) (poison : s.metaPoisoned = true) :
    exec .tierReady s = .next (s.tierBad stEcc) := by
  have begun : ¬ (¬ s.on TIER_CTRL.EN ∨ s.on TIER_CTRL.READY ∨ s.hub0Reset) := by simp [en, ready, reset]
  show execTierReady s = _
  rw [execTierReady, if_neg begun]
  dsimp only
  rw [if_neg (by simp [recover]), if_pos poison]
  rfl

/-- The tables that RECOVER found good, with nothing that reads them (R213, R236). -/
def Tier.recovered (t : Tier) (x : TableRead) : Tier :=
  { t with
    objs := (x.objs.map fun (e : Nat × Obj) =>
      (e.1, e.2.recovered (x.exts.any fun y => y.entry == some e.1))).filter fun e => decide (e.2 ≠ Obj.free)
    ctxs := x.ctxs.foldl (fun m c => insK m c.1 c.2.1) []
    exts := x.exts.map fun e => { e with refs := 0 }
    cursor := 0, tail := [] }

section
variable (recover : s.tier.recovering = true) (clean : s.metaPoisoned = false) (read : s.readTables.poison = false)
  (header : (s.readTables.st.rangeRead (s.headerLine * 64) 64 98 0).poison = false)
include recover clean read header

theorem exec_tierReady_good (hdr : (s.readTables.st.rangeRead (s.headerLine * 64) 64 98 0).data = s.tierHeader)
    (good : s.readTables.good = true) : exec .tierReady s
    = .next ((s.readTables.st.rangeRead (s.headerLine * 64) 64 98 0).st.setTier fun t => t.recovered s.readTables).tierUp := by
  have begun : ¬ (¬ s.on TIER_CTRL.EN ∨ s.on TIER_CTRL.READY ∨ s.hub0Reset) := by simp [en, ready, reset]
  show execTierReady s = _
  rw [execTierReady, if_neg begun]
  dsimp only
  rw [if_neg (by simp [recover]), if_neg (by simp [clean]), read, header, if_neg (by decide : ¬ (false || false) = true),
    if_pos (show _ ∧ _ from ⟨hdr, good⟩), if_pos rfl]
  rfl

theorem exec_tierReady_bad (bad : (s.readTables.st.rangeRead (s.headerLine * 64) 64 98 0).data ≠ s.tierHeader
      ∨ s.readTables.good = false) :
    exec .tierReady s = .next ((s.readTables.st.rangeRead (s.headerLine * 64) 64 98 0).st.tierBad stBadDescriptor) := by
  have begun : ¬ (¬ s.on TIER_CTRL.EN ∨ s.on TIER_CTRL.READY ∨ s.hub0Reset) := by simp [en, ready, reset]
  have no : ¬ ((s.readTables.st.rangeRead (s.headerLine * 64) 64 98 0).data = s.tierHeader ∧ s.readTables.good = true) := by
    rintro ⟨hdr, good⟩
    obtain ne | bad := bad
    · exact ne hdr
    · simp [bad] at good
  show execTierReady s = _
  rw [execTierReady, if_neg begun]
  dsimp only
  rw [if_neg (by simp [recover]), if_neg (by simp [clean]), read, header, if_neg (by decide : ¬ (false || false) = true),
    if_neg no, if_neg (by decide)]
  rfl

end

end

/-! ## The commands -/

section
variable {s : State} {o : Origin} (direct : s.direct o)
include direct

theorem exec_tierEnableFresh_direct (share : Fin 16) :
    exec (.tierEnableFresh o share) s = .next (s.tierOn false share) := congrArg _ (s.asReg_direct o _ _ direct)

theorem exec_tierEnableRecover_direct (share : Fin 16) :
    exec (.tierEnableRecover o share) s = .next (s.tierOn true share) := congrArg _ (s.asReg_direct o _ _ direct)

theorem exec_tierDisable_direct :
    exec (.tierDisable o) s = .next (if s.on TIER_CTRL.EN then s.tierOff else s) := congrArg _ (s.asReg_direct o _ _ direct)

end

/-- A rejected write changes REJECT alone. -/
theorem State.reject_only (s : State) (why : Nat) : let t := s.wr TIER_CTRL.REJECT why
    t.rd TIER_CTRL.REJECT = why % 2 ^ TIER_CTRL.REJECT.width ∧ s.sameRegs t [TIER_CTRL.REJECT.key 0 0 0]
      ∧ t = { s with regs := t.regs } :=
  ⟨State.rd_wr_same _ _ _ _ _ _, s.sameRegs_wr _ _ _ _ _, rfl⟩

theorem State.reject_on (s : State) (why : Nat) : (s.wr TIER_CTRL.REJECT why).on TIER_CTRL.EN = s.on TIER_CTRL.EN := by
  rw [State.on, State.rd_wr_ne _ _ _ _ _ _ _ _ _ _ (by decide)]
  rfl

/-- The registers of TIER_CTRL behind what the memory side and the tables' view do. -/
theorem State.tierStands.view_rd {s t : State} (h : s.tierStands t) (g : Tier → Tier) (f : Fld)
    (low : f.key 0 0 0 < memKeys) (hk : f.key 0 0 0 ∉ tierViewKeys) : (t.setTier g).tierView.rd f = s.rd f :=
  (State.tierView_rd _ f hk).trans (h.rd f 0 0 0 low)

section
variable {s : State} {share : Nat} (off : s.on TIER_CTRL.EN = false) (ok : s.tierReject = stOK) (h : share ≠ 0)
include off ok h

theorem State.tierOn_fresh_shown : let t := s.tierOn false share
    t.on TIER_CTRL.EN = true ∧ t.on TIER_CTRL.READY = false ∧ t.rd TIER_CTRL.REJECT = stOK ∧ t.tier.objs = []
      ∧ t.tier.ctxs = [(0, ⟨0, 0, 2 ^ 40 - 1⟩)] ∧ t.tier.exts.length = 1 := by
  intro t
  obtain ⟨u, stands, ht⟩ := State.tierOn_fresh off ok h
  obtain ⟨en, ready, -, reject⟩ := s.enabled_rds 0 share
  simp only [t, ht, State.tierView_tier]
  refine ⟨?_, ?_, (stands.view_rd _ _ (by decide) (by decide)).trans reject, rfl, rfl, rfl⟩
  · rw [State.on, stands.view_rd _ _ (by decide) (by decide)]
    exact en
  · rw [State.on, stands.view_rd _ _ (by decide) (by decide)]
    exact ready

theorem State.tierOn_recover_shown : let t := s.tierOn true share
    t.on TIER_CTRL.EN = true ∧ t.on TIER_CTRL.READY = false ∧ t.rd TIER_CTRL.MODE = 1 ∧ t.rd TIER_CTRL.REJECT = stOK
      ∧ t = { s with regs := t.regs, tier := { s.tier with recovering := true } } := by
  intro t
  obtain ⟨en, ready, mode, reject⟩ := s.enabled_rds 1 share
  simp only [t, State.tierOn_recover off ok h]
  exact ⟨en, ready, mode, reject, rfl⟩

end

/-- A write that finds the tier manager enabled is taken, and changes MODE and ERASE_SHARE alone. -/
theorem State.tierOn_enabled_shown {s : State} {recover : Bool} (share : Fin 16) (en : s.on TIER_CTRL.EN = true)
    (h : share.val ≠ 0) : let t := s.tierOn recover share
    t.rd TIER_CTRL.MODE = b2n recover ∧ t.rd TIER_CTRL.ERASE_SHARE = share ∧ t.rd TIER_CTRL.REJECT = stOK
      ∧ s.sameRegs t [TIER_CTRL.MODE.key 0 0 0, TIER_CTRL.ERASE_SHARE.key 0 0 0, TIER_CTRL.REJECT.key 0 0 0]
      ∧ t = { s with regs := t.regs } := by
  intro t
  simp only [t, State.tierOn_enabled en h]
  refine ⟨?_, ?_, ?_, ((s.sameRegs_wr _ _ _ _ _).wr _ _ _ _ _).wr _ _ _ _ _, rfl⟩
  all_goals simp (disch := decide) only [State.rd_wr_ne, State.rd_wr_same]
  · cases recover <;> rfl
  · exact Nat.mod_eq_of_lt share.isLt
  · rfl

/-- TIER_DISABLE while no object holds T1 leaves the tables in their region. -/
theorem State.tierOff_idle {s : State} (idle : s.tierIdle = true) : let t := s.tierOff
    t.on TIER_CTRL.EN = false ∧ t.on TIER_CTRL.READY = false ∧ t.rd TIER_CTRL.REJECT = stOK
      ∧ t = { s with regs := t.regs, hbm := s.putTables.hbm, hbmPoison := s.putTables.hbmPoison } := by
  intro t
  have ht : t = (s.tierBad stOK).putTables := if_neg (by simp [idle])
  have base : (s.tierBad stOK).metaBase = s.metaBase := by
    simp (disch := decide) only [State.metaBase, State.tierBad, State.rd_wr_ne]
  have put := s.putTables_regs (s.tierBad stOK).regs base
  obtain ⟨en, reject⟩ := s.tierBad_rds stOK
  rw [ht]
  refine ⟨en, ?_, reject, put⟩
  show (s.tierBad stOK).on TIER_CTRL.READY = false
  simp (disch := decide) only [State.tierBad, State.on, State.rd_wr_ne, State.rd_wr_same]
  rfl

theorem Obj.recovered_unread (o : Obj) (ext : Bool) :
    (o.recovered ext).t1refs = 0 ∧ (o.recovered ext).t2refs = 0 ∧ (o.recovered ext).slotRefs = 0 := by
  unfold Obj.recovered
  split
  · exact ⟨rfl, rfl, rfl⟩
  · exact ⟨rfl, rfl, rfl⟩

/-- Nothing reads the recovered extents and entries (R236). -/
theorem Tier.recovered_unread (t : Tier) (x : TableRead) : (∀ e ∈ (t.recovered x).exts, e.refs = 0)
    ∧ ∀ e ∈ (t.recovered x).objs, e.2.t1refs = 0 ∧ e.2.t2refs = 0 ∧ e.2.slotRefs = 0 := by
  refine ⟨fun e he => ?_, fun e he => ?_⟩
  · obtain ⟨y, -, rfl⟩ := List.mem_map.1 he
    rfl
  · obtain ⟨y, -, rfl⟩ := List.mem_map.1 (List.mem_of_mem_filter he)
    exact Obj.recovered_unread _ _

/-- The tier manager takes up recovered tables. -/
theorem State.tierUp_recovered (u : State) (x : TableRead) (waiting : u.tier.waiting = []) :
    let t := (u.setTier fun t => t.recovered x).tierUp
    t.on TIER_CTRL.READY = true ∧ (∀ e ∈ t.tier.exts, e.refs = 0)
      ∧ ∀ e ∈ t.tier.objs, e.2.t1refs = 0 ∧ e.2.t2refs = 0 ∧ e.2.slotRefs = 0 := by
  intro t
  obtain ⟨on, -, up⟩ := (u.setTier fun t => t.recovered x).tierUp_idle waiting
  refine ⟨on, ?_⟩
  rw [up]
  exact u.tier.recovered_unread x

section
variable {s : State} (en : s.on TIER_CTRL.EN = true) (ready : s.on TIER_CTRL.READY = false) (reset : s.hub0Reset = false)
include en ready reset

/-- The erase of FRESH is done. -/
theorem exec_tierReady_starts (fresh : s.tier.recovering = false) (waiting : s.tier.waiting = []) :
    ∃ t, exec .tierReady s = .next t ∧ t.on TIER_CTRL.READY = true ∧ t.on TIER_INT_STATUS.READY = true
      ∧ (∀ e ∈ t.tier.exts, e.entry.isSome = true) ∧ t.tier.objs = s.tier.objs := by
  have tier := s.poolErased_tierStands.tier
  obtain ⟨on, int, up⟩ := (s.poolErased.setTier fun t => { t with exts := t.exts.filter fun e => e.entry.isSome }).tierUp_idle
    ((congrArg Tier.waiting tier).trans waiting)
  refine ⟨_, exec_tierReady_erased en ready reset fresh, on, int, ?_, ?_⟩
  · rw [up]
    exact fun e he => (List.mem_filter.1 he).2
  · rw [up]
    exact (congrArg Tier.objs tier :)

variable (recover : s.tier.recovering = true) (clean : s.metaPoisoned = false) (read : s.readTables.poison = false)
  (header : (s.readTables.st.rangeRead (s.headerLine * 64) 64 98 0).poison = false)
include recover clean read header

/-- RECOVER found the tables good. -/
theorem exec_tierReady_recovers (waiting : s.tier.waiting = [])
    (hdr : (s.readTables.st.rangeRead (s.headerLine * 64) 64 98 0).data = s.tierHeader) (good : s.readTables.good = true) :
    ∃ t, exec .tierReady s = .next t ∧ t.on TIER_CTRL.READY = true
      ∧ (∀ e ∈ t.tier.exts, e.refs = 0) ∧ (∀ e ∈ t.tier.objs, e.2.t1refs = 0 ∧ e.2.t2refs = 0 ∧ e.2.slotRefs = 0) := by
  have tier := (s.readTables_tierStands.trans (s.readTables.st.rangeRead_tierStands (s.headerLine * 64) 64 98 0)).tier
  exact ⟨_, exec_tierReady_good en ready reset recover clean read header hdr good,
    State.tierUp_recovered _ s.readTables (by rw [tier, waiting])⟩

/-- RECOVER found them bad. -/
theorem exec_tierReady_rejects (bad : (s.readTables.st.rangeRead (s.headerLine * 64) 64 98 0).data ≠ s.tierHeader
      ∨ s.readTables.good = false) : ∃ t, exec .tierReady s = .next t ∧ t.on TIER_CTRL.EN = false
        ∧ t.rd TIER_CTRL.REJECT = stBadDescriptor ∧ t.tier = s.readTables.st.tier := by
  have readHeader := s.readTables.st.rangeRead_tierStands (s.headerLine * 64) 64 98 0
  obtain ⟨off, reject⟩ := (s.readTables.st.rangeRead (s.headerLine * 64) 64 98 0).st.tierBad_rds stBadDescriptor
  exact ⟨_, exec_tierReady_bad en ready reset recover clean read header bad, off, reject,
    (State.tierBad_tier _ _).trans readHeader.tier⟩

end

/-- Enabling, READY and disabling, by what the registers hold and what the tables' region reads. -/
theorem tierControl_stated : Stated.TierControl := by
  intro s o share direct
  have nat {x : Fin 16} (h : x ≠ 0) : x.val ≠ 0 := fun e => h (Fin.ext e)
  refine ⟨fun off ok h => ⟨_, exec_tierEnableFresh_direct direct share, State.tierOn_fresh_shown off ok (nat h)⟩,
    fun off ok h => ⟨_, exec_tierEnableRecover_direct direct share, State.tierOn_recover_shown off ok (nat h)⟩,
    fun off bad => ⟨_, (exec_tierEnableFresh_direct direct share).trans (congrArg _ (State.tierOn_refused off bad)),
      (s.reject_on _).trans off, s.reject_only _⟩,
    fun off bad => ⟨_, (exec_tierEnableRecover_direct direct share).trans (congrArg _ (State.tierOn_refused off bad)),
      (s.reject_on _).trans off, s.reject_only _⟩,
    fun h i hi => ?noShare, fun en h recover => ?enabled, fun off => ?disabled, exec_tierReady_rests, fun en idle => ?disables,
    fun en busy => ?busy, exec_tierReady_starts, fun en ready reset recover poison => ?poisoned,
    fun en ready reset recover clean read waiting => ?checked⟩
  case noShare =>
    obtain rfl | rfl := List.mem_pair.1 hi
    · exact ⟨_, (exec_tierEnableFresh_direct direct 0).trans (congrArg _ (State.tierOn_noShare h)), s.reject_only _⟩
    · exact ⟨_, (exec_tierEnableRecover_direct direct 0).trans (congrArg _ (State.tierOn_noShare h)), s.reject_only _⟩
  case enabled =>
    cases recover with
    | true => exact ⟨_, exec_tierEnableRecover_direct direct share, State.tierOn_enabled_shown share en (nat h)⟩
    | false => exact ⟨_, exec_tierEnableFresh_direct direct share, State.tierOn_enabled_shown share en (nat h)⟩
  case disabled => exact (exec_tierDisable_direct direct).trans (congrArg _ (if_neg (by simp [off])))
  case disables => exact ⟨_, (exec_tierDisable_direct direct).trans (congrArg _ (if_pos en)), State.tierOff_idle idle⟩
  case busy =>
    obtain ⟨reject, -, rest⟩ := s.reject_only stBadDescriptor
    exact ⟨_, (exec_tierDisable_direct direct).trans (congrArg _ ((if_pos en).trans (if_pos (by simp [busy])))),
      (s.reject_on _).trans en, reject, rest⟩
  case poisoned => exact ⟨_, exec_tierReady_poisoned en ready reset recover poison, s.tierBad_rds stEcc⟩
  case checked =>
    intro r header
    exact ⟨exec_tierReady_recovers en ready reset recover clean read header waiting,
      exec_tierReady_rejects en ready reset recover clean read header⟩

/-- Settles O41 by its two parts. -/
theorem tierTables : Obligations.TierTables := ⟨tierContexts_stated, tierControl_stated⟩

end Sys2Proof.Machine
end

section
/-! PROOFS. A hart's record, its registers, its counters and its lines: what each update of them changes, and what it leaves
(R250, R257, R273, R276). -/

namespace Sys2Proof.Machine

section
variable (s : State)

/-! ## Records and integer registers -/

theorem State.core_setCore_ne {h j : Nat} (f : Core → Core) (ne : j ≠ h) : (s.setCore h f).core j = s.core j :=
  getK_setK_ne _ _ _ _ _ _ ne

@[simp] theorem State.xreg_setCore (h : Nat) (f : Core → Core) (j r : Nat) : (s.setCore h f).xreg j r = s.xreg j r := rfl

@[simp] theorem State.line_setCore (h : Nat) (f : Core → Core) (k j : Nat) : (s.setCore h f).line k j = s.line k j := rfl

theorem State.setXreg_only (h r v : Nat) :
    s.setXreg h r v = { s with cores := { s.cores with xregs := (s.setXreg h r v).cores.xregs } } := by
  unfold State.setXreg
  split <;> rfl

@[simp] theorem State.core_setXreg (h r v j : Nat) : (s.setXreg h r v).core j = s.core j := by
  rw [s.setXreg_only]; rfl

@[simp] theorem State.line_setXreg (h r v k j : Nat) : (s.setXreg h r v).line k j = s.line k j := by
  rw [s.setXreg_only]; rfl

@[simp] theorem State.coh_setXreg (h r v : Nat) : (s.setXreg h r v).coh = s.coh := by
  rw [s.setXreg_only]

theorem State.xreg_setXreg_same (h r v : Nat) : (s.setXreg h r v).xreg h r = if r = 0 then 0 else v % 2 ^ 64 := by
  unfold State.setXreg State.xreg
  split
  · rfl
  · exact getK_setK_same _ _ _ _

/-- The same of a register that a command names. -/
theorem State.xreg_setXreg_fin (h : Nat) (r : Fin 32) (v : Nat) :
    (s.setXreg h r v).xreg h r = if r = 0 then 0 else v % 2 ^ 64 := by
  rw [s.xreg_setXreg_same]
  exact if_congr (by rw [Fin.ext_iff]; rfl) rfl rfl

theorem State.xreg_setXreg_ne {h r q : Nat} (v : Nat) (ne : q ≠ r) : (s.setXreg h r v).xreg h q = s.xreg h q := by
  have other (v : Nat) : getK 0 (setK 0 s.cores.xregs (h * 32 + r) v) (h * 32 + q) = getK 0 s.cores.xregs (h * 32 + q) :=
    getK_setK_ne _ _ _ _ _ _ (by omega)
  unfold State.setXreg
  split
  · rfl
  · simp only [State.xreg, other]

end

/-! ## What stays within a hart, and within the harts and their lines -/

/-- Nothing but the harts' records differs. -/
def State.coreOnly (s t : State) : Prop := t = { s with cores := { s.cores with core := t.cores.core } }

/-- Nothing but the harts' records and performance counters differs. -/
def State.recordSide (s t : State) : Prop :=
  t = { s with cores := { s.cores with core := t.cores.core, hpm := t.cores.hpm } }

/-- Nothing but the harts and the coherent domain differs. -/
def State.hartSide (s t : State) : Prop := t = { s with coh := t.coh, cores := t.cores }

section
variable {s t u : State}

theorem State.recordSide.refl (s : State) : s.recordSide s := rfl

theorem State.recordSide.trans (h : s.recordSide t) (g : t.recordSide u) : s.recordSide u := by
  unfold State.recordSide at *
  exact g.trans (by rw [h])

theorem State.hartSide.refl (s : State) : s.hartSide s := rfl

theorem State.hartSide.trans (h : s.hartSide t) (g : t.hartSide u) : s.hartSide u := by
  unfold State.hartSide at *
  exact g.trans (by rw [h])

theorem State.hartSide.ite {c : Prop} [Decidable c] (h : s.hartSide t) (g : s.hartSide u) :
    s.hartSide (if c then t else u) := by
  split
  · exact h
  · exact g

theorem State.setCore_hartSide (h : Nat) (f : Core → Core) : s.hartSide (s.setCore h f) := rfl

theorem State.setXreg_hartSide (h r v : Nat) : s.hartSide (s.setXreg h r v) := by
  rw [s.setXreg_only]; rfl

theorem State.setCoh_hartSide (f : Coh → Coh) : s.hartSide (s.setCoh f) := rfl

theorem State.setLine_hartSide (k h : Nat) (l : CLine) : s.hartSide (s.setLine k h l) := rfl

theorem State.post_hartSide (m : Msg) : s.hartSide (s.post m) := rfl

theorem State.take_hartSide (m : Msg) : s.hartSide (s.take m) := rfl

end

/-! ## Performance counters (R242, R273) -/

/-- Nothing but performance counters differs, and the pending bit that an overflow of one sets. -/
structure State.tallied (s t : State) : Prop where
  only : s.recordSide t
  core : ∀ j, ∃ m, t.core j = { s.core j with mip := m }

section
variable {s t u : State}

theorem State.tallied.refl (s : State) : s.tallied s := ⟨rfl, fun j => ⟨(s.core j).mip, rfl⟩⟩

theorem State.tallied.trans (h : s.tallied t) (g : t.tallied u) : s.tallied u where
  only := h.only.trans g.only
  core j := by
    obtain ⟨m, hm⟩ := g.core j
    obtain ⟨n, hn⟩ := h.core j
    exact ⟨m, by rw [hm, hn]⟩

theorem State.setHpm_tallied (h n v : Nat) : s.tallied (s.setHpm h n v) := ⟨rfl, fun j => ⟨(s.core j).mip, rfl⟩⟩

/-- The pending bits of a hart change. -/
theorem State.setMipBits_tallied (h : Nat) (f : Nat → Nat) : s.tallied (s.setCore h fun c => { c with mip := f c.mip }) where
  only := rfl
  core j := by
    by_cases hj : j = h
    · subst hj; exact ⟨_, s.core_setCore _ _⟩
    · exact ⟨(s.core j).mip, s.core_setCore_ne _ hj⟩

theorem State.hpmAdd_tallied (h n k : Nat) : s.tallied (s.hpmAdd h n k) := by
  unfold State.hpmAdd
  extract_lets v e s1 s2 x
  have h1 : s.tallied s1 := State.setHpm_tallied h n v
  split
  · exact .refl s
  · split
    · exact (h1.trans (State.setHpm_tallied _ _ _)).trans (State.setMipBits_tallied h fun m => setBit m 13 true)
    · exact h1

theorem State.hpmEvent_tallied (s : State) (h ev k : Nat) : s.tallied (s.hpmEvent h ev k) := by
  refine foldl_rel State.tallied .refl (fun _ _ _ => .trans) _ _ (fun s i _ => ?_) s
  split
  · exact State.hpmAdd_tallied _ _ _
  · exact .refl s

theorem State.recordSide.hartSide (h : s.recordSide t) : s.hartSide t := by
  unfold State.recordSide at h
  rw [h]; rfl

theorem State.recordSide.coh (h : s.recordSide t) : t.coh = s.coh := by rw [h]

theorem State.recordSide.line (h : s.recordSide t) (k j : Nat) : t.line k j = s.line k j := by rw [h]; rfl

theorem State.recordSide.xreg (h : s.recordSide t) (j r : Nat) : t.xreg j r = s.xreg j r := by rw [h]; rfl

end

section
variable (s : State) (h ev k : Nat)

@[simp] theorem State.hpmEvent_coh : (s.hpmEvent h ev k).coh = s.coh := (s.hpmEvent_tallied h ev k).only.coh

@[simp] theorem State.hpmEvent_line (l j : Nat) : (s.hpmEvent h ev k).line l j = s.line l j :=
  (s.hpmEvent_tallied h ev k).only.line l j

@[simp] theorem State.hpmEvent_xreg (j r : Nat) : (s.hpmEvent h ev k).xreg j r = s.xreg j r :=
  (s.hpmEvent_tallied h ev k).only.xreg j r

@[simp] theorem State.hpmEvent_buf (j : Nat) : ((s.hpmEvent h ev k).core j).buf = (s.core j).buf := by
  obtain ⟨m, hm⟩ := (s.hpmEvent_tallied h ev k).core j; rw [hm]

@[simp] theorem State.hpmEvent_going (j : Nat) : ((s.hpmEvent h ev k).core j).going = (s.core j).going := by
  obtain ⟨m, hm⟩ := (s.hpmEvent_tallied h ev k).core j; rw [hm]

@[simp] theorem State.hpmEvent_pend (j : Nat) : ((s.hpmEvent h ev k).core j).pend = (s.core j).pend := by
  obtain ⟨m, hm⟩ := (s.hpmEvent_tallied h ev k).core j; rw [hm]

theorem State.hpmEvent_hartSide : s.hartSide (s.hpmEvent h ev k) := (s.hpmEvent_tallied h ev k).only.hartSide

end

/-! ## Lines (R276) -/

section
variable (s : State)

theorem State.line_setLine_same (k h : Nat) (l : CLine) : (s.setLine k h l).line k h = l := getK_setK_same _ _ _ _

theorem State.line_setLine_ne {k q h : Nat} (l : CLine) (ne : q ≠ k) : (s.setLine k h l).line q h = s.line q h :=
  getK_setK_ne _ _ _ _ _ _ (by omega)

@[simp] theorem State.core_setLine (k h : Nat) (l : CLine) (j : Nat) : (s.setLine k h l).core j = s.core j := rfl
@[simp] theorem State.xreg_setLine (k h : Nat) (l : CLine) (j r : Nat) : (s.setLine k h l).xreg j r = s.xreg j r := rfl
@[simp] theorem State.net_setLine (k h : Nat) (l : CLine) : (s.setLine k h l).coh.net = s.coh.net := rfl

@[simp] theorem State.core_post (m : Msg) (j : Nat) : (s.post m).core j = s.core j := rfl
@[simp] theorem State.xreg_post (m : Msg) (j r : Nat) : (s.post m).xreg j r = s.xreg j r := rfl
@[simp] theorem State.line_post (m : Msg) (k h : Nat) : (s.post m).line k h = s.line k h := rfl
@[simp] theorem State.net_post (m : Msg) : (s.post m).coh.net = s.coh.net ++ [m] := rfl

@[simp] theorem State.core_take (m : Msg) (j : Nat) : (s.take m).core j = s.core j := rfl
@[simp] theorem State.xreg_take (m : Msg) (j r : Nat) : (s.take m).xreg j r = s.xreg j r := rfl
@[simp] theorem State.line_take (m : Msg) (k h : Nat) : (s.take m).line k h = s.line k h := rfl
@[simp] theorem State.net_take (m : Msg) : (s.take m).coh.net = s.coh.net.erase m := rfl

section
variable (k h : Nat) (kind : ReqKind) (token : Option Nat)

@[simp] theorem State.core_request (j : Nat) : (s.request k h kind token).core j = s.core j := rfl
@[simp] theorem State.xreg_request (j r : Nat) : (s.request k h kind token).xreg j r = s.xreg j r := rfl
@[simp] theorem State.line_request (q j : Nat) : (s.request k h kind token).line q j = s.line q j := rfl
@[simp] theorem State.net_request :
    (s.request k h kind token).coh.net = s.coh.net ++ [.req k ⟨kind, some h, h, token, false⟩] := rfl
theorem State.request_hartSide : s.hartSide (s.request k h kind token) := rfl

end

/-- A line that a core lacks is asked for to be read (R290). -/
theorem State.needRead_missing {k h : Nat} (a : Option Access) (room : s.l2Full h = false) (lacks : (s.line k h).st = .i) :
    s.needRead k h a
      = ((s.setLine k h { s.line k h with st := .isD, miss := a }).request k h .rds).hpmEvent h 5 := by
  unfold State.needRead
  extract_lets l
  rw [if_neg (by simp [room]), show l.st = .i from lacks]

end

/-! ## Instructions of a hart that is free -/

theorem next_onHart {s t : State} {h : Nat} {f : State → State} (free : s.hartFree h = true) (does : f s = t) :
    (.next (s.onHart h f) : Answer) = .next t := by
  rw [State.onHart, if_pos free, does]

theorem State.barred_iff (s : State) (h a n : Nat) (write : Bool) :
    s.barred h a n write = true ↔ tooHigh a = true ∨ s.pmpLets h a n write = false := by
  simp [State.barred]

end Sys2Proof.Machine
end

section
/-! PROOFS. CORE_LOAD: of cacheable, of uncached and of I/O memory (R242, R246, R252, R255, R290). -/

namespace Sys2Proof.Machine

/-! ## Bytes that carry their place in an access -/

/-- Among bytes by place, that of a place is the one the place gave. -/
theorem find?_filterMap_place {g : Nat → Option (Nat × Byte)} (place : ∀ j x, g j = some x → x.1 = j) {l : List Nat} {i : Nat}
    (mem : i ∈ l) : (l.filterMap g).find? (fun x => x.1 == i) = g i := by
  rw [List.find?_filterMap]
  cases found : l.find? fun j => (g j).any fun x => x.1 == i with
  | none =>
    have lacks := List.find?_eq_none.1 found i mem
    cases gi : g i with
    | none => rfl
    | some x => simp [gi, place i x gi] at lacks
  | some j =>
    have gives := List.find?_some found
    cases gj : g j with
    | none => simp [gj] at gives
    | some x =>
      have hj : j = i := by simpa [gj, place j x gj] using gives
      rw [← hj]; rfl

/-- The bytes of an access in order, from those that some source gives. -/
theorem inOrder_filterMap (n : Nat) (f : Nat → Option Byte) :
    inOrder n ((List.range n).filterMap fun i => (f i).map fun b => (i, b)) = (List.range n).map fun i => (f i).getD 0 := by
  have place (j : Nat) (x : Nat × Byte) (hx : ((f j).map fun b => (j, b)) = some x) : x.1 = j := by
    obtain ⟨b, -, rfl⟩ := Option.map_eq_some_iff.1 hx; rfl
  refine List.map_congr_left fun i hi => ?_
  rw [find?_filterMap_place place hi]
  cases f i <;> rfl

/-! ## Loads of main memory -/

section
variable {s : State} {h rd a n : Nat} {signed : Bool}

/-- A load that every byte is at hand for completes. -/
theorem State.tryLoad_complete {acc : Access} (whole : ((List.range n).filterMap fun i => s.coreByte h (a + i)).length = n)
    (clean : s.coreBad h a n = false) : s.tryLoad h rd a n signed acc
      = s.setXreg h rd (loadValue n signed ((List.range n).filterMap fun i => s.coreByte h (a + i))) :=
  (if_pos whole).trans (if_neg (by simp [clean]))

theorem State.tryLoad_poisoned {acc : Access} (whole : ((List.range n).filterMap fun i => s.coreByte h (a + i)).length = n)
    (bad : s.coreBad h a n = true) : s.tryLoad h rd a n signed acc = s.consumePoison h 5 a :=
  (if_pos whole).trans (if_pos bad)

theorem State.tryLoad_missing {acc : Access} {i : Nat}
    (short : ((List.range n).filterMap fun i => s.coreByte h (a + i)).length ≠ n)
    (first : ((List.range n).find? fun i => (s.coreByte h (a + i)).isNone) = some i) :
    s.tryLoad h rd a n signed acc = s.needRead (hbmKey (a + i)) h (some acc) :=
  (if_neg short).trans (by rw [first])

theorem State.loadUncached_hartSide : s.hartSide (s.loadUncached h rd a n signed false) := by
  unfold State.loadUncached
  rw [if_neg (by simp)]
  split
  · exact State.setXreg_hartSide _ _ _
  · exact State.post_hartSide _

/-- The buffer supplies the whole of an uncached load. -/
theorem State.loadUncached_supplied (all : ∀ i, i < n → ∃ b, bufByte (s.core h).buf (a + i) = some b) :
    s.loadUncached h rd a n signed false
      = s.setXreg h rd (loadValue n signed ((List.range n).map fun i => (bufByte (s.core h).buf (a + i)).getD 0)) := by
  have none (k : Nat) : lacks (s.core h).buf a n k = false := by
    refine List.any_eq_false.2 fun i hi => ?_
    obtain ⟨b, hb⟩ := all i (List.mem_range.1 hi)
    simp [hb]
  have nothing : (keysOf a n).filter (lacks (s.core h).buf a n) = [] := List.filter_eq_nil_iff.2 fun k _ => by simp [none k]
  unfold State.loadUncached
  rw [if_neg (by simp), nothing]
  exact congrArg (fun l => s.setXreg h rd (loadValue n signed l)) (inOrder_filterMap n fun i => bufByte (s.core h).buf (a + i))

/-- The lines that have the bytes which the buffer lacks are read at their homes, one after another (R252). -/
theorem State.loadUncached_asks {k : Nat} {more : List Nat} (need : (keysOf a n).filter (lacks (s.core h).buf a n) = k :: more) :
    s.loadUncached h rd a n signed false = (s.setCore h fun c => { c with pend := some ⟨.load rd a n signed, k :: more,
      (List.range n).filterMap fun i => (bufByte (s.core h).buf (a + i)).map fun b => (i, b)⟩ }).post
        (.req k ⟨.rdcur, none, h, none, false⟩) := by
  unfold State.loadUncached
  rw [if_neg (by simp), need]

theorem State.loadUncached_ordered (waits : (s.core h).ioStores = true) : s.loadUncached h rd a n signed true = s :=
  if_pos ⟨rfl, waits⟩

theorem State.loadUncached_io (none : (s.core h).ioStores = false) :
    s.loadUncached h rd a n signed true = s.loadUncached h rd a n signed false := by
  unfold State.loadUncached
  rw [if_neg (by simp [none]), if_neg (by simp)]

end

/-! ## The command -/

section
variable {s : State} {h : Fin 96} (free : s.hartFree h = true) (rd : Fin 32) (addr : BitVec 64) (size : Fin 4) (signed : Bool)
include free

theorem exec_coreLoad_barred (p : Pbmt) (bar : s.barred h addr.toNat (2 ^ size.val) false = true) :
    exec (.coreLoad h rd addr size signed p) s = .next (s.trap h 5 addr.toNat) :=
  next_onHart free (if_pos bar)

variable (ok : s.barred h addr.toNat (2 ^ size.val) false = false)
include ok

section
variable (main : s.rangeOf addr.toNat (2 ^ size.val) = .main)
include main

theorem exec_coreLoad_cached : exec (.coreLoad h rd addr size signed .none) s
    = .next (s.tryLoad h rd addr.toNat (2 ^ size.val) signed (.load rd addr.toNat (2 ^ size.val) signed)) :=
  next_onHart free ((if_neg (by simp [ok])).trans (by rw [main]))

theorem exec_coreLoad_uncached : exec (.coreLoad h rd addr size signed .nc) s
    = .next (s.loadUncached h rd addr.toNat (2 ^ size.val) signed false) :=
  next_onHart free ((if_neg (by simp [ok])).trans (by rw [main]))

theorem exec_coreLoad_ordered : exec (.coreLoad h rd addr size signed .io) s
    = .next (s.loadUncached h rd addr.toNat (2 ^ size.val) signed true) :=
  next_onHart free ((if_neg (by simp [ok])).trans (by rw [main]))

/-- A load through IO waits while I/O stores do, and is an uncached one then. -/
theorem exec_coreLoad_mapped_io : exec (.coreLoad h rd addr size signed .io) s
    = if (s.core h).ioStores then .next s else exec (.coreLoad h rd addr size signed .nc) s := by
  rw [exec_coreLoad_ordered free rd addr size signed ok main, exec_coreLoad_uncached free rd addr size signed ok main]
  cases waits : (s.core h).ioStores with
  | true => exact congrArg _ (State.loadUncached_ordered waits)
  | false => exact congrArg _ (State.loadUncached_io waits)

end

theorem exec_coreLoad_io (p : Pbmt) (io : s.rangeOf addr.toNat (2 ^ size.val) ≠ .main) :
    exec (.coreLoad h rd addr size signed p) s = .next (s.loadIo h rd addr.toNat (2 ^ size.val) signed) := by
  refine next_onHart free ((if_neg (by simp [ok])).trans ?_)
  split
  · exact absurd ‹_› io
  · exact absurd ‹_› io
  · exact absurd ‹_› io
  · rfl

end

/-- What the answer of a register, of a window or of nothing leaves of a load. -/
theorem State.ioLoaded_answers (u : State) (h rd a n : Nat) (signed : Bool) :
    (u.resp.poison = true → u.ioLoaded h rd a n signed = u.consumePoison h 5 a) ∧
    (u.resp.poison = false → u.ioLoaded h rd a n signed = u.setXreg h rd (loadValue n signed u.resp.data)) :=
  ⟨fun poison => if_pos poison, fun clean => if_neg (by simp [clean])⟩

/-- Settles O42, by the mapping and range of the load, and by which of its bytes are at hand. -/
theorem coreLoads : Obligations.CoreLoads := by
  intro s h rd addr size signed free a n bytes main
  refine ⟨fun ⟨ok, hr⟩ whole clean => ?complete, fun ⟨ok, hr⟩ whole bad => ?poisoned, fun i ⟨ok, hr⟩ short first lacks room => ?missing,
    fun ⟨ok, hr⟩ => ?uncached, fun p ok hr odd => ?misaligned, fun ⟨ok, hr⟩ => exec_coreLoad_mapped_io free rd addr size signed ok hr,
    fun p ok hr aligned => ?io, fun p bar => ?barred⟩
  case complete =>
    refine ⟨_, (exec_coreLoad_cached free rd addr size signed ok hr).trans (congrArg _ (State.tryLoad_complete whole clean)),
      s.xreg_setXreg_fin _ _ _, fun r _ ne => s.xreg_setXreg_ne _ ne, s.setXreg_only _ _ _⟩
  case poisoned =>
    exact (exec_coreLoad_cached free rd addr size signed ok hr).trans (congrArg _ (State.tryLoad_poisoned whole bad))
  case missing =>
    refine ⟨_, (exec_coreLoad_cached free rd addr size signed ok hr).trans
      (congrArg _ ((State.tryLoad_missing short first).trans (State.needRead_missing _ _ room lacks))), ?_, ?_, ?_⟩
    · rw [State.hpmEvent_line, State.line_request]
      exact s.line_setLine_same _ _ _
    · rw [State.hpmEvent_coh]; rfl
    · exact ((State.setLine_hartSide _ _ _).trans (State.request_hartSide _ _ _ _ _)).trans (State.hpmEvent_hartSide _ _ _ _)
  case uncached =>
    refine ⟨_, exec_coreLoad_uncached free rd addr size signed ok hr, State.loadUncached_hartSide, fun all => ?_, fun k more need => ?_⟩
    · have supplied := State.loadUncached_supplied (rd := rd) (signed := signed) all
      rw [supplied]
      exact ⟨s.coh_setXreg _ _ _, s.xreg_setXreg_fin _ _ _⟩
    · rw [State.loadUncached_asks need]
      exact ⟨congrArg Core.pend (s.core_setCore h fun c => { c with pend := _ }), rfl⟩
  case misaligned => 
    exact (exec_coreLoad_io free rd addr size signed ok p hr).trans (congrArg _ (if_pos odd))
  case io =>
    have loads := (exec_coreLoad_io free rd addr size signed ok p hr).trans (congrArg _ (if_neg (not_not_intro aligned)))
    refine ⟨fun waits => loads.trans (congrArg _ (if_pos waits)), fun first => ?_⟩
    replace loads := loads.trans (congrArg _ (if_neg (by simp [first])))
    have answered (u : State) (gives : exec (.coreLoad h rd addr size signed p) s = .next (u.ioLoaded h rd a n signed)) :
        (u.resp.poison = true → exec (.coreLoad h rd addr size signed p) s = .next (u.consumePoison h 5 a)) ∧
        (u.resp.poison = false → ∃ t, exec (.coreLoad h rd addr size signed p) s = .next t
          ∧ t.xreg h rd = (if rd = 0 then 0 else loadValue n signed u.resp.data % 2 ^ 64)
          ∧ t = { u with cores := { u.cores with xregs := t.cores.xregs } }) := by
      obtain ⟨bad, good⟩ := u.ioLoaded_answers h rd a n signed
      refine ⟨fun poison => gives.trans (congrArg _ (bad poison)), fun clean => ⟨_, gives.trans (congrArg _ (good clean)), ?_, ?_⟩⟩
      · exact u.xreg_setXreg_fin _ _ _
      · exact u.setXreg_only _ _ _
    refine ⟨fun window => answered _ ?_, fun register => answered _ ?_, fun none => answered _ ?_, fun site inside => ?_⟩
    · rw [loads, window]
    · rw [loads, register]
    · rw [loads, none]
    · refine ⟨s.setCore h fun c => { c with pend := some ⟨.load rd a n signed, [], []⟩ }, ?_, congrArg Core.pend (s.core_setCore h _), rfl⟩
      rw [loads, site]
      exact congrArg _ (if_pos inside)
  case barred => exact exec_coreLoad_barred free rd addr size signed p ((s.barred_iff _ _ _ _).2 bar)

end Sys2Proof.Machine
end

section
/-! PROOFS. Where the statement about atomics fails: the operand size of an AMO performed at the home (R256, R284). -/

namespace Sys2Proof.Machine

/-- An AMO that goes far asks the home with its size as the encoding has it, the binary logarithm of its bytes. -/
theorem exec_amo_far {s : State} {h : Fin 96} {op : AmoOp} {rd rs : Fin 32} {addr : BitVec 64} {size : Fin 5}
    (free : s.hartFree h = true) (empty : (s.core h).buf = []) (legal : amoReserved op size rd rs = false)
    (aligned : addr.toNat % 2 ^ size.val = 0) (ok : s.barred h addr.toNat (2 ^ size.val) true = false)
    (main : s.rangeOf addr.toNat (2 ^ size.val) = .main) (far : s.goesFar h (hbmKey addr.toNat) (2 ^ size.val) = true) :
    let x := s.operand h rs (2 ^ size.val)
    let cmp := s.operand h rd (2 ^ size.val)
    exec (.amo h op rd rs addr size .none) s = .next (s.amoFar h (hbmKey addr.toNat) (some h.val) op addr.toNat size x cmp
      (.amo op rd addr.toNat (2 ^ size.val) x cmp)) := by
  refine next_onHart free ?_
  simp [legal, aligned, ok, main, empty, far]

theorem State.amoFar_net (s : State) (h k : Nat) (agent : Option Nat) (op : AmoOp) (addr size rs cmp : Nat) (acc : Access) :
    (s.amoFar h k agent op addr size rs cmp acc).coh.net
      = s.coh.net ++ [.req k ⟨.atomf op (addr % 64) size rs cmp, agent, h, none, false⟩] := by
  rw [State.amoFar, State.net_post, State.setCore_coh, State.hpmEvent_coh]

/-- Hart 0 is in RUN with matomic forcing every AMO far, all else as after reset. -/
def farHart : State := (State.reset.setCore 0 fun c => { c with power := 0 }).wr matomic.MODE 2 0

/-- An AMO of a doubleword at address 0. -/
def farAddr : BitVec 64 := 0
def farSize : Fin 5 := 3

theorem farHart_goes : farHart.hartFree (0 : Fin 96) = true ∧ (farHart.core (0 : Fin 96)).buf = []
    ∧ amoReserved .add farSize (1 : Fin 32) (2 : Fin 32) = false ∧ farAddr.toNat % 2 ^ farSize.val = 0
    ∧ farHart.barred (0 : Fin 96) farAddr.toNat (2 ^ farSize.val) true = false
    ∧ farHart.rangeOf farAddr.toNat (2 ^ farSize.val) = .main
    ∧ farHart.goesFar (0 : Fin 96) (hbmKey farAddr.toNat) (2 ^ farSize.val) = true := by decide +kernel

/-- Refutes O44: the statement has an AMO of 8 bytes that goes far ask its home for an atomic of size 8. The message carries the
encoded size, here 3, from which the home takes the bytes, so that no message of size 8 is sent. -/
theorem not_coreAtomics : ¬ Obligations.CoreAtomics := by
  rintro ⟨-, atomics⟩
  obtain ⟨free, empty, legal, aligned, ok, main, far⟩ := farHart_goes
  obtain ⟨amo, -⟩ := atomics farHart 0 1 2 farAddr free empty
  obtain ⟨-, asks⟩ := amo .add farSize legal aligned ok main
  obtain ⟨t, ht, -, net, -⟩ := asks far
  have sent := (exec_amo_far free empty legal aligned ok main far).symm.trans ht
  rw [← Host.Outcome.next.inj sent, State.amoFar_net] at net
  have message := List.append_cancel_left net
  injection message with req
  injection req with _ req
  injection req with kind
  injection kind with _ _ size
  exact absurd size (by decide)

end Sys2Proof.Machine
end

section
/-! PROOFS. FENCE and the cache-block operations (R242, R245 to R247, R255). -/

namespace Sys2Proof.Machine

/-! ## A line is given up (R277, R290) -/

/-- The state a line that is given up goes to, and the Put that says so. -/
def CLine.gives (l : CLine) (discard : Bool) : Option (CState × ReqKind) :=
  match l.st with
  | .s => some (.siA, .puts)
  | .e => some (.eiA, .pute)
  | .o => some (.oiA, .putm l.data l.poison)
  | .m => some (if discard then (.eiA, .pute) else (.miA, .putm l.data l.poison))
  | _ => .none

theorem State.giveUp_eq {s : State} {k h : Nat} {discard : Bool} {st : CState} {put : ReqKind} (room : s.l2Full h = false)
    (gives : (s.line k h).gives discard = some (st, put)) :
    s.giveUp k h discard = (s.setLine k h { s.line k h with st := st }).request k h put := by
  unfold State.giveUp
  extract_lets l
  rw [if_neg (by simp [room])]
  change l.gives discard = some (st, put) at gives
  clear_value l
  obtain ⟨st', _, _, _, _, _⟩ := l
  cases st'
  case m => cases discard <;> cases gives <;> rfl
  all_goals cases gives <;> rfl

/-- A core's reservation of a line ends. -/
def State.unreserved (s : State) (k h : Nat) : State :=
  if (s.core h).resv = some k then s.setCore h fun c => { c with resv := none } else s

/-- A core gave a line up to a state with a Put, holds no reservation of it, and nothing else but its record changed. -/
def State.gaveUp (s t : State) (k h : Nat) (st : CState) (put : ReqKind) : Prop :=
  t.line k h = { s.line k h with st := st } ∧ t.coh.net = s.coh.net ++ [.req k ⟨put, some h, h, none, false⟩]
    ∧ (t.core h).resv ≠ some k ∧ t = { s with coh := t.coh, cores := { s.cores with core := t.cores.core } }

section
variable (s : State) (k h : Nat)

theorem State.unreserved_coreOnly : s.coreOnly (s.unreserved k h) := by
  unfold State.unreserved
  split <;> rfl

theorem State.unreserved_coh : (s.unreserved k h).coh = s.coh := by rw [s.unreserved_coreOnly]

theorem State.unreserved_resv : ((s.unreserved k h).core h).resv ≠ some k := by
  unfold State.unreserved
  split
  · rw [s.core_setCore]; exact nofun
  · assumption

end

/-- A line given up after the reservation of it has ended. -/
theorem State.giveUp_gaveUp {s : State} {k h : Nat} {discard : Bool} {st : CState} {put : ReqKind} (room : s.l2Full h = false)
    (gives : (s.line k h).gives discard = some (st, put)) : s.gaveUp ((s.unreserved k h).giveUp k h discard) k h st put := by
  have coh := s.unreserved_coh k h
  have line : (s.unreserved k h).line k h = s.line k h := by unfold State.line; rw [coh]
  have room' : (s.unreserved k h).l2Full h = false := by
    unfold State.l2Full State.linesOf; rw [coh]; exact room
  rw [State.giveUp_eq room' (line ▸ gives), line]
  refine ⟨State.line_setLine_same _ _ _ _, ?_, s.unreserved_resv k h, ?_⟩
  · rw [State.net_request, State.net_setLine, coh]
  · have only := s.unreserved_coreOnly k h
    unfold State.coreOnly at only
    rw [only]; rfl

/-! ## Cache blocks (R245) -/

section
variable {s : State} {h addr : Nat} {discard : Bool}

theorem State.cboOn_barred (write : s.barred h (addr / 64 * 64) 64 true = true) (read : s.barred h (addr / 64 * 64) 64 false = true) :
    s.cboOn h addr discard = s.trap h 7 addr :=
  if_pos (by rw [write, read]; rfl)

/-- A block waits for the stores buffered to it, and for another core's copy in transition. -/
theorem State.cboOn_waits (ok : s.barred h (addr / 64 * 64) 64 true = false ∨ s.barred h (addr / 64 * 64) 64 false = false)
    (waits : s.rangeOf (addr / 64 * 64) 64 ≠ .main
      ∨ ((s.core h).buf.any fun e => e.cached && e.line == addr / 64) = true
      ∨ (s.otherCores (hbmKey addr) h ≠ [] ∧ s.lineFree (hbmKey addr) = false)) : s.cboOn h addr discard = s := by
  unfold State.cboOn
  extract_lets a k others
  rw [if_neg (by rcases ok with ok | ok <;> simp [a, ok])]
  split
  · rfl
  · next main =>
    split
    · rfl
    · next unbuffered =>
      obtain ⟨shared, busy⟩ := (waits.resolve_left main).resolve_left unbuffered
      exact if_pos (by simp [others, k, shared, busy])

/-- A block that no other core holds is given up. -/
theorem State.cboOn_alone (ok : s.barred h (addr / 64 * 64) 64 true = false) (main : s.rangeOf (addr / 64 * 64) 64 = .main)
    (alone : s.otherCores (hbmKey addr) h = [])
    (unbuffered : ((s.core h).buf.any fun e => e.cached && e.line == addr / 64) = false) :
    s.cboOn h addr discard = (s.unreserved (hbmKey addr) h).giveUp (hbmKey addr) h discard := by
  unfold State.cboOn
  simp [ok, main, alone, unbuffered, State.unreserved]

end

/-! ## The commands -/

section
variable {s : State} {h : Fin 96} {addr : BitVec 64} (free : s.hartFree h = true)
include free

theorem exec_cboInval_discards {mmode : Bool} {cbie : Fin 4} (may : mmode = true ∨ cbie.val = 3) :
    exec (.cboInval h addr mmode cbie) s = .next (s.cboOn h addr.toNat true) :=
  next_onHart free (if_pos may)

theorem exec_cboInval_flushes : exec (.cboInval h addr false 1) s = .next (s.cboOn h addr.toNat false) :=
  next_onHart free ((if_neg (by decide)).trans (if_pos rfl))

theorem exec_cboInval_traps {cbie : Fin 4} (reserved : cbie = 0 ∨ cbie = 2) :
    exec (.cboInval h addr false cbie) s = .next (s.trap h 2 0) := by
  obtain rfl | rfl := reserved
  all_goals exact next_onHart free ((if_neg (by decide)).trans (if_neg (by decide)))

theorem exec_cboClean : exec (.cboClean h addr) s = .next (s.cboOn h addr.toNat false) := next_onHart free rfl

theorem exec_cboFlush : exec (.cboFlush h addr) s = .next (s.cboOn h addr.toNat false) := next_onHart free rfl

/-- CLEAN, FLUSH and INVAL in M-mode work on the block, and differ in what becomes of dirty data. -/
theorem exec_cbo {i : Instr} (cbo : i ∈ [Instr.cboClean h addr, .cboFlush h addr, .cboInval h addr true 0]) :
    ∃ discard, exec i s = .next (s.cboOn h addr.toNat discard) := by
  simp only [List.mem_cons, List.not_mem_nil, or_false] at cbo
  obtain rfl | rfl | rfl := cbo
  · exact ⟨false, exec_cboClean free⟩
  · exact ⟨false, exec_cboFlush free⟩
  · exact ⟨true, exec_cboInval_discards free (.inl rfl)⟩

theorem exec_cboZero_barred
    (bar : s.barred h (addr.toNat / 64 * 64) 64 true = true ∨ s.rangeOf (addr.toNat / 64 * 64) 64 ≠ .main) :
    exec (.cboZero h addr) s = .next (s.trap h 7 addr.toNat) :=
  next_onHart free (if_pos bar)

variable (ok : s.barred h (addr.toNat / 64 * 64) 64 true = false) (main : s.rangeOf (addr.toNat / 64 * 64) 64 = .main)
include ok main

theorem exec_cboZero_full (full : 64 ≤ (s.core h).buf.length) : exec (.cboZero h addr) s = .next s :=
  next_onHart free ((if_neg (by simp [ok, main])).trans (if_pos full))

/-- CBO.ZERO buffers 64 zero bytes. -/
theorem exec_cboZero_buffers (room : (s.core h).buf.length < 64) :
    exec (.cboZero h addr) s = .next (s.setCore h fun c => { c with buf := c.buf ++ [⟨addr.toNat / 64 * 64 / 64,
      (List.range 64).map fun i => (i, (0 : Byte)), none, false, true, false⟩] }) :=
  next_onHart free ((if_neg (by simp [ok, main])).trans (if_neg (Nat.not_le.2 room)))

end

/-- The youngest entry supplies the bytes it has, and the earlier ones the others. -/
theorem bufByte_append (buf : List SbEnt) (e : SbEnt) (main : e.io = none) (a : Nat) :
    bufByte (buf ++ [e]) a
      = if e.line = a / 64 then ((e.bytes.find? (·.1 = a % 64)).map (·.2)).or (bufByte buf a) else bufByte buf a := by
  unfold bufByte
  rw [List.foldl_append, List.foldl_cons, List.foldl_nil, main]
  dsimp only
  congr 1
  cases e.bytes.find? (·.1 = a % 64) <;> rfl

/-- A line of zeros has a zero at each offset. -/
theorem zeros_find : ∀ i < 64, ((List.range 64).map fun j => (j, (0 : Byte))).find? (·.1 = i) = some (i, 0) := by decide

/-- Settles O45: each operation on the state its line is in, and what makes it wait or trap. -/
theorem coreBlocks : Obligations.CoreBlocks := by
  intro s h addr free a k l
  have given (ok : s.barred h (a / 64 * 64) 64 true = false) (main : s.rangeOf (a / 64 * 64) 64 = .main)
      (alone : s.otherCores k h = []) (room : s.l2Full h = false)
      (unbuffered : ((s.core h).buf.any fun e => e.cached && e.line == a / 64) = false) {discard : Bool} {st : CState}
      {put : ReqKind} (gives : l.gives discard = some (st, put)) : s.gaveUp (s.cboOn h a discard) k h st put := by
    rw [State.cboOn_alone ok main alone unbuffered]
    exact State.giveUp_gaveUp room gives
  refine ⟨fun waits => ?fences, fun empty p q => ?empty, fun p q other => ?other, fun ok main room => ?zeros,
    fun ok main alone room unbuffered dirty => ?dirty, fun st st' put i states cbo ok main alone room unbuffered held => ?held,
    fun i cbo => ⟨fun write read => ?barred, fun ok waits => ?waits⟩, exec_cboZero_barred free,
    fun ok main full => exec_cboZero_full free ok main full, fun cbie => ?mmode, ?same3, ?same1,
    exec_cboInval_traps free (.inl rfl), exec_cboInval_traps free (.inr rfl)⟩
  case fences =>
    exact ⟨_, next_onHart free (if_pos (by simpa using waits)), s.core_setCore _ _, rfl⟩
  case empty => exact next_onHart free (if_neg (by simp [empty]))
  case other => exact next_onHart free (if_neg (by rcases other with rfl | rfl <;> simp))
  case zeros =>
    refine ⟨_, exec_cboZero_buffers free ok main room, ?_, fun i hi => ?_, rfl⟩
    · rw [s.core_setCore, List.length_append]; rfl
    · rw [s.core_setCore, bufByte_append _ _ rfl, if_pos (by dsimp only [a]; omega),
        show (a / 64 * 64 + i) % 64 = i by omega, zeros_find i hi]
      rfl
  case dirty =>
    intro gives
    have put : l.gives false = some (.miA, .putm l.data l.poison) := by simp only [CLine.gives, dirty]; rfl
    have drop : l.gives true = some (.eiA, .pute) := by simp only [CLine.gives, dirty]; rfl
    exact ⟨⟨_, exec_cboClean free, given ok main alone room unbuffered put⟩,
      ⟨_, exec_cboFlush free, given ok main alone room unbuffered put⟩,
      fun cbie => ⟨_, exec_cboInval_discards free (.inl rfl), given ok main alone room unbuffered drop⟩,
      ⟨_, exec_cboInval_flushes free, given ok main alone room unbuffered put⟩⟩
  case held =>
    obtain ⟨discard, runs⟩ := exec_cbo free cbo
    refine ⟨_, runs, given ok main alone room unbuffered ?_⟩
    simp only [List.mem_cons, List.not_mem_nil, or_false] at states
    obtain ⟨rfl, rfl, rfl⟩ | ⟨rfl, rfl, rfl⟩ | ⟨rfl, rfl, rfl⟩ := states
    all_goals simp only [CLine.gives, held]
  case barred =>
    obtain ⟨discard, runs⟩ := exec_cbo free cbo
    exact runs.trans (congrArg _ (State.cboOn_barred write read))
  case waits =>
    obtain ⟨discard, runs⟩ := exec_cbo free cbo
    exact runs.trans (congrArg _ (State.cboOn_waits ok waits))
  case mmode =>
    rw [exec_cboInval_discards free (.inl rfl), exec_cboInval_discards free (.inl rfl)]
  case same3 => rw [exec_cboInval_discards free (.inr rfl), exec_cboInval_discards free (.inl rfl)]
  case same1 => rw [exec_cboInval_flushes free, exec_cboFlush free]

end Sys2Proof.Machine
end

section
/-! PROOFS. A core's L2 answers snoops, takes grants and completes what the homes gave it (R252, R255, R276, R288, R289, R297). -/

namespace Sys2Proof.Machine

/-! ## Tables -/

theorem filter_insK {α : Type} {p : Nat × α → Bool} {x : Nat} (out : ∀ v, p (x, v) = false) (m : SMap α) (v : α) :
    (insK m x v).filter p = m.filter p := by
  induction m with
  | nil => simp [insK, out]
  | cons e m ih =>
    obtain ⟨k, w⟩ := e
    simp only [insK]
    split
    · rw [List.filter_cons_of_neg (by simp [out])]
    · split
      · next hk => subst hk; rw [List.filter_cons_of_neg (by simp [out]), List.filter_cons_of_neg (by simp [out])]
      · rw [List.filter_cons, List.filter_cons, ih]

theorem filter_eraseK {α : Type} {p : Nat × α → Bool} {x : Nat} (out : ∀ v, p (x, v) = false) (m : SMap α) :
    (eraseK m x).filter p = m.filter p := by
  induction m with
  | nil => rfl
  | cons e m ih =>
    obtain ⟨k, w⟩ := e
    simp only [eraseK]
    split
    · next hk => subst hk; rw [ih, List.filter_cons_of_neg (by simp [out])]
    · rw [List.filter_cons, List.filter_cons, ih]

/-- What a filter leaves of a table does not depend on a key that it drops. -/
theorem filter_setK {α : Type} [DecidableEq α] {p : Nat × α → Bool} {x : Nat} (out : ∀ v, p (x, v) = false) (d : α) (m : SMap α)
    (v : α) : (setK d m x v).filter p = m.filter p := by
  unfold setK
  split
  · exact filter_eraseK out m
  · exact filter_insK out m v

/-! ## Sets of the L2, and sleep -/

/-- The other lines of a line's set stand when the line changes. -/
theorem State.l2Set_setLine (s : State) (k : Nat) (h : Fin 96) (l : CLine) : (s.setLine k h l).l2Set k h = s.l2Set k h := by
  unfold State.l2Set State.linesOf
  rw [List.filter_map, List.filter_filter, List.filter_map, List.filter_filter]
  refine congrArg (fun m => (m.map fun e : Nat × CLine => (e.1 / 128, e.2)).map (·.1)) (filter_setK (fun v => ?_) _ _ _)
  have key : (k * 128 + h.val) / 128 = k := by omega
  simp [key]

theorem State.l2Room_free {s : State} {k h : Nat} (room : (s.l2Set k h).length < 16) : s.l2Room k h = s := if_pos room

/-- A core that is not going to sleep has no sleep to settle. -/
theorem State.settleSleep_awake {s : State} {h : Nat} (awake : (s.core h).going = none) : s.settleSleep h = s := by
  unfold State.settleSleep
  rw [awake]

/-! ## Snoops (R288) -/

theorem State.lineTaken_coreOnly (s : State) (k h : Nat) : s.coreOnly (s.lineTaken k h) := by
  unfold State.lineTaken
  extract_lets s1
  have h1 : s.coreOnly s1 := by simp only [s1]; split <;> rfl
  split
  · unfold State.coreOnly at *; rw [h1]; rfl
  · exact h1

theorem Core.predRise_going (c : Core) (k : Nat) : (c.predRise k).going = c.going := by
  unfold Core.predRise
  split <;> rfl

theorem State.lineTaken_going (s : State) (k h : Nat) : ((s.lineTaken k h).core h).going = (s.core h).going := by
  unfold State.lineTaken
  extract_lets s1
  have h1 : (s1.core h).going = (s.core h).going := by
    simp only [s1]
    split
    · rw [s.core_setCore]
    · rfl
  split
  · rw [State.core_setCore, ← h1]
    exact Core.predRise_going _ _
  · exact h1

/-- A snoop for a writable copy takes the line from a core, or its copy from being the only one. -/
def State.takenBy (s : State) (k h : Nat) (kd : SnpKind) : State :=
  match kd with
  | .snpX | .snpInv => s.lineTaken k h
  | _ => s

section
variable {s : State} {k h : Nat} {kd : SnpKind}

theorem State.snooped_holds {st : CState} (table : snoopTable (s.line k h).st kd = (st, .hold)) :
    s.snooped k h kd = (s.setLine k h { s.line k h with held := some kd }, .hold, s.line k h) := by
  unfold State.snooped
  extract_lets l r
  rw [show r = (st, .hold) from table]

theorem State.snooped_eq {st : CState} {ans : SnpAns} (table : snoopTable (s.line k h).st kd = (st, ans)) (answers : ans ≠ .hold) :
    s.snooped k h kd = ((s.setLine k h ((s.line k h).after st)).takenBy k h kd, ans, s.line k h) := by
  cases ans with
  | hold => exact absurd rfl answers
  | rsp _ _ => simp only [State.snooped, table]; rfl
  | rspd _ _ => simp only [State.snooped, table]; rfl

/-- A core that answers a snoop has the line in the table's state; beyond that only its record may differ. -/
theorem State.snooped_answers {st : CState} {ans : SnpAns} (table : snoopTable (s.line k h).st kd = (st, ans))
    (answers : ans ≠ .hold) : ∃ t, s.snooped k h kd = (t, ans, s.line k h)
      ∧ (s.setLine k h ((s.line k h).after st)).coreOnly t ∧ (t.core h).going = (s.core h).going := by
  refine ⟨_, State.snooped_eq table answers, ?_, ?_⟩
  · cases kd
    case snpX => exact State.lineTaken_coreOnly _ _ _
    case snpInv => exact State.lineTaken_coreOnly _ _ _
    all_goals rfl
  · cases kd
    case snpX => exact State.lineTaken_going _ _ _
    case snpInv => exact State.lineTaken_going _ _ _
    all_goals rfl

/-- What the answer of a snoop leaves in the line, in the channels and of the core's way to sleep. -/
structure State.answered (s t : State) (k h : Nat) (st : CState) (m : Msg) : Prop where
  line : t.line k h = (s.line k h).after st
  net : t.coh.net = s.coh.net ++ [m]
  going : (t.core h).going = (s.core h).going
  only : s.hartSide t

theorem State.snooped_posted {st : CState} {t : State} (only : (s.setLine k h ((s.line k h).after st)).coreOnly t)
    (going : (t.core h).going = (s.core h).going) (m : Msg) : s.answered (t.post m) k h st m where
  line := by
    unfold State.coreOnly at only
    rw [only]
    exact s.line_setLine_same _ _ _
  net := by
    unfold State.coreOnly at only
    rw [State.net_post, only]; rfl
  going := going
  only := by
    unfold State.coreOnly at only
    rw [only]; rfl

theorem State.snoopCore_rsp {st : CState} {st' : LState} {wb : Bool} (table : snoopTable (s.line k h).st kd = (st, .rsp st' wb)) :
    s.answered (s.snoopCore k h kd) k h st (.rsp k h st' wb) := by
  obtain ⟨t, ht, only, going⟩ := State.snooped_answers table nofun
  unfold State.snoopCore
  rw [ht]
  exact State.snooped_posted only going _

theorem State.snoopCore_rspd {st : CState} {st' : LState} {dirty : Bool}
    (table : snoopTable (s.line k h).st kd = (st, .rspd st' dirty)) : s.answered (s.snoopCore k h kd) k h st
      (.rspd k h st' (s.line k h).data dirty (s.line k h).poison) := by
  obtain ⟨t, ht, only, going⟩ := State.snooped_answers table nofun
  unfold State.snoopCore
  rw [ht]
  exact State.snooped_posted only going _

theorem State.snoopCore_holds {st : CState} (table : snoopTable (s.line k h).st kd = (st, .hold)) :
    s.snoopCore k h kd = s.setLine k h { s.line k h with held := some kd } := by
  unfold State.snoopCore
  rw [State.snooped_holds table]

theorem State.snoopCore_hartSide (s : State) (k h : Nat) (kd : SnpKind) : s.hartSide (s.snoopCore k h kd) := by
  cases table : snoopTable (s.line k h).st kd with
  | mk st ans =>
    cases ans with
    | hold => rw [State.snoopCore_holds table]; exact State.setLine_hartSide _ _ _
    | rsp _ _ => exact (State.snoopCore_rsp table).only
    | rspd _ _ => exact (State.snoopCore_rspd table).only

/-- A modified line answers every snoop (R288). -/
theorem State.snoopCore_modified (dirty : (s.line k h).st = .m) :
    ∃ m, s.answered (s.snoopCore k h kd) k h (snoopTable .m kd).1 m := by
  cases kd
  all_goals exact ⟨_, State.snoopCore_rspd (by rw [dirty]; rfl)⟩

end

/-! ## Grants and completed Puts (R288, R289) -/

section
variable {s : State} {k : Nat} {h : Fin 96} {st : CState} {d : List Byte} {p : Bool}
  (noMiss : (s.line k h).miss = none) (room : (s.l2Set k h).length < 16) (awake : (s.core h).going = none)
include noMiss room awake

/-- A grant that no access and no snoop waited for enters the line in the granted state. -/
theorem State.granted_alone (free : (s.line k h).held = none) : s.granted k h st d p = s.setLine k h ⟨st, d, p, none, none, none⟩ := by
  unfold State.granted
  simp only [noMiss, free]
  rw [State.l2Room_free (by rw [s.l2Set_setLine]; exact room)]
  exact State.settleSleep_awake awake

/-- A writable grant that a snoop waited for is taken, and then the snoop is answered. -/
theorem State.granted_snooped {kd : SnpKind} (waits : (s.line k h).held = some kd) :
    ∃ m, (s.granted k h .m d p).line k h = (CLine.mk .m d p none none none).after (snoopTable .m kd).1
      ∧ (s.granted k h .m d p).coh.net = s.coh.net ++ [m] ∧ s.hartSide (s.granted k h .m d p) := by
  obtain ⟨m, ans⟩ := State.snoopCore_modified (s := s.setLine k h ⟨.m, d, p, none, none, none⟩) (k := k) (h := h) (kd := kd)
    (by rw [s.line_setLine_same])
  have granted : s.granted k h .m d p = (s.setLine k h ⟨.m, d, p, none, none, none⟩).snoopCore k h kd := by
    unfold State.granted
    simp only [noMiss, waits]
    rw [State.l2Room_free (by rw [s.l2Set_setLine]; exact room)]
    exact State.settleSleep_awake (ans.going.trans awake)
  rw [granted]
  exact ⟨m, by rw [ans.line, s.line_setLine_same], ans.net, (State.setLine_hartSide _ _ _).trans ans.only⟩

end

/-! ## Data for uncached and far accesses (R252, R255, R256) -/

theorem leNat_lt (l : List Byte) : leNat l < 2 ^ (8 * l.length) := by
  induction l with
  | nil => exact Nat.one_pos
  | cons b l ih =>
    have pow : 2 ^ (8 * (b :: l).length) = 256 * 2 ^ (8 * l.length) := by rw [List.length_cons, Nat.mul_succ, Nat.pow_add]; omega
    have := b.isLt
    rw [pow, leNat]
    omega

theorem length_leBytes (n v : Nat) : (leBytes n v).length = n := by
  induction n generalizing v with
  | zero => rfl
  | succ n ih => rw [leBytes, List.length_cons, ih]

theorem leNat_leBytes {n v : Nat} (hv : v < 2 ^ (8 * n)) : leNat (leBytes n v) = v := by
  induction n generalizing v with
  | zero => exact (Nat.lt_one_iff.1 hv).symm
  | succ n ih =>
    have pow : 2 ^ (8 * (n + 1)) = 256 * 2 ^ (8 * n) := by rw [Nat.mul_succ, Nat.pow_add]; omega
    have rest : leNat (leBytes n (v / 256)) = v / 256 := ih (by omega)
    have low : (BitVec.ofNat 8 v).toNat = v % 256 := BitVec.toNat_ofNat v 8
    rw [leBytes, leNat, rest, low]
    omega

/-- A far AMO returns the bytes of the line it worked on, sign-extended. -/
theorem loadValue_old (d : List Byte) (off n : Nat) :
    loadValue n true (leBytes n (leNat ((d.drop off).take n))) = wrap (sext (leNat ((d.drop off).take n)) (8 * n)) 64 := by
  have fits : leNat ((d.drop off).take n) < 2 ^ (8 * n) :=
    Nat.lt_of_lt_of_le (leNat_lt _) (Nat.pow_le_pow_right Nat.two_pos (Nat.mul_le_mul_left 8 (List.length_take_le _ _)))
  unfold loadValue
  rw [List.take_of_length_le (Nat.le_of_eq (length_leBytes _ _)), leNat_leBytes fits]
  rfl

theorem wrap_lt (x : Int) (w : Nat) : wrap x w < 2 ^ w := by
  unfold wrap
  have pos : (0 : Int) < ((2 ^ w : Nat) : Int) := Int.natCast_pos.2 (Nat.two_pow_pos w)
  have := Int.emod_lt_of_pos x pos
  have := Int.emod_nonneg x (Int.ne_of_gt pos)
  omega

/-- The bytes of a line that a load still lacked, by place. -/
def lineBytes (k a n : Nat) (d : List Byte) (got : List (Nat × Byte)) : List (Nat × Byte) :=
  (List.range n).filterMap fun i =>
    if hbmKey (a + i) = k ∧ ¬ (got.any fun x => x.1 == i) then some (i, d.getD ((a + i) % 64) 0) else none

/-- A load's bytes in order: those it had, and those of the line. -/
theorem inOrder_lineBytes (k a n : Nat) (d : List Byte) (got : List (Nat × Byte)) :
    inOrder n (got ++ lineBytes k a n d got) = (List.range n).map fun i => match got.find? fun b => b.1 == i with
      | some b => b.2
      | none => if hbmKey (a + i) = k then d.getD ((a + i) % 64) 0 else 0 := by
  refine List.map_congr_left fun i hi => ?_
  have place (j : Nat) (x : Nat × Byte)
      (hx : (if hbmKey (a + j) = k ∧ ¬ (got.any fun x => x.1 == j) then some (j, d.getD ((a + j) % 64) 0) else none) = some x) :
      x.1 = j := by
    split at hx
    · cases hx; rfl
    · cases hx
  rw [List.find?_append, lineBytes, find?_filterMap_place place hi]
  cases had : got.find? fun b => b.1 == i with
  | some b => rfl
  | none =>
    have lacked : (got.any fun x => x.1 == i) = false := by
      rw [List.any_eq_false]; exact fun x hx => List.find?_eq_none.1 had x hx
    simp only [lacked]
    by_cases of : hbmKey (a + i) = k <;> simp [of]

/-! ### What the data do to the access in progress -/

section
variable {s : State} {h k : Nat} {d : List Byte} {p : Bool}

/-- Data that no access awaits are dropped. -/
theorem State.coreData_dropped
    (stray : (s.core h).pend = none ∨ ∃ q, (s.core h).pend = some q ∧ q.need.head? ≠ some k) : s.coreData h k d p = s := by
  unfold State.coreData
  obtain none | ⟨q, hq, other⟩ := stray
  · rw [none]
  · rw [hq]; exact if_pos other

variable {rd a n : Nat} {signed : Bool} {need : List Nat} {got : List (Nat × Byte)}

theorem State.coreData_poisoned (waits : (s.core h).pend = some ⟨.load rd a n signed, need, got⟩) (next : need.head? = some k) :
    s.coreData h k d true = (s.setCore h fun c => { c with pend := none }).consumePoison h 5 a := by
  unfold State.coreData
  rw [waits]
  exact (if_neg (not_not_intro next)).trans (if_pos rfl)

/-- The last line of a load completes it. -/
theorem State.coreData_completes (waits : (s.core h).pend = some ⟨.load rd a n signed, [k], got⟩) :
    s.coreData h k d false = (s.setCore h fun c => { c with pend := none }).setXreg h rd
      (loadValue n signed (inOrder n (got ++ lineBytes k a n d got))) := by
  unfold State.coreData
  rw [waits]
  exact (if_neg (not_not_intro rfl)).trans (if_neg Bool.false_ne_true)

/-- Another line of it is read next. -/
theorem State.coreData_more {k2 : Nat} {more : List Nat} (waits : (s.core h).pend = some ⟨.load rd a n signed, k :: k2 :: more, got⟩) :
    s.coreData h k d false = (s.setCore h fun c => { c with pend := some ⟨.load rd a n signed, k2 :: more,
      got ++ lineBytes k a n d got⟩ }).post (.req k2 ⟨.rdcur, none, h, none, false⟩) := by
  unfold State.coreData
  rw [waits]
  exact (if_neg (not_not_intro rfl)).trans (if_neg Bool.false_ne_true)

/-- A far AMO of up to 8 bytes completes with the old value. -/
theorem State.coreData_amo {op : AmoOp} {rs cmp : Nat} (waits : (s.core h).pend = some ⟨.amo op rd a n rs cmp, [k], got⟩)
    (small : n ≤ 8) : s.coreData h k d false = (s.setCore h fun c => { c with pend := none }).setXreg h rd
      (wrap (sext (leNat ((d.drop (a % 64)).take n)) (8 * n)) 64) := by
  unfold State.coreData
  rw [waits, ← loadValue_old]
  exact ((if_neg (not_not_intro rfl)).trans (if_neg Bool.false_ne_true)).trans (if_neg (by omega))

end

/-! ## The commands -/

section
variable {s : State} (l : Line) (h : Fin 96)

theorem exec_cmpd (d : List Byte) (p : Bool) :
    exec (.cmpd l ⟨none, h⟩ d p) s = .next ((s.take (.cmpd l.key h d p)).coreData h l.key d p) :=
  congrArg Host.Outcome.next (if_pos h.isLt)

/-- A Put that a line awaits completes it (R288). -/
theorem exec_cmpput_ends (awake : (s.core h).going = none) (gave : (s.line l.key h).st = .miA ∨ (s.line l.key h).st = .oiA
      ∨ (s.line l.key h).st = .eiA ∨ (s.line l.key h).st = .siA ∨ (s.line l.key h).st = .iiA) :
    exec (.cmpput l h) s = .next ((s.take (.cmpput l.key h)).setLine l.key h CLine.none) := by
  refine congrArg Host.Outcome.next ?_
  rw [State.line_take]
  rcases gave with st | st | st | st | st
  all_goals rw [st]; exact State.settleSleep_awake awake

/-- A request that a Retry refused is sent again with its token (R297). -/
theorem exec_retry_again {kind : ReqKind} (tok : Fin 8192) (waits : (s.line l.key h).st = .isD ∧ kind = .rds
      ∨ (s.line l.key h).st = .imD ∧ kind = .rdx
      ∨ ((s.line l.key h).st = .smA ∨ (s.line l.key h).st = .omA ∨ (s.line l.key h).st = .imA) ∧ kind = .upg) :
    exec (.retry l h tok) s = .next (((s.take (.retry l.key h tok)).setLine l.key h
      { s.line l.key h with token := some tok.val }).request l.key h kind (some tok.val)) := by
  refine congrArg Host.Outcome.next ?_
  rw [State.line_take]
  rcases waits with ⟨st, rfl⟩ | ⟨st, rfl⟩ | ⟨st | st | st, rfl⟩
  all_goals simp only [st]

/-- A stable line awaits neither. -/
theorem exec_stable_drops (stable : (s.line l.key h).st.stable = true) :
    exec (.cmpput l h) s = .next (s.take (.cmpput l.key h)) ∧
      ∀ tok, exec (.retry l h tok) s = .next (s.take (.retry l.key h tok)) := by
  cases st : (s.line l.key h).st
  all_goals rw [st] at stable
  case i | s | e | o | m =>
    refine ⟨congrArg Host.Outcome.next ?_, fun tok => congrArg Host.Outcome.next ?_⟩
    all_goals rw [State.line_take, st]
  all_goals exact absurd stable Bool.false_ne_true

end

/-- What the snoop of a core leaves, by what the table gives for its line. -/
theorem State.snoopCore_shows (s : State) (k h : Nat) (kd : SnpKind) :
    let x := s.line k h
    let t := s.snoopCore k h kd
    (∀ st st' wb, snoopTable x.st kd = (st, .rsp st' wb) → t.line k h = x.after st
      ∧ t.coh.net = s.coh.net ++ [.rsp k h st' wb])
    ∧ (∀ st st' dirty, snoopTable x.st kd = (st, .rspd st' dirty) → t.line k h = x.after st
      ∧ t.coh.net = s.coh.net ++ [.rspd k h st' x.data dirty x.poison])
    ∧ (∀ st, snoopTable x.st kd = (st, .hold) → t.line k h = { x with held := some kd } ∧ t.coh.net = s.coh.net) := by
  refine ⟨fun st st' wb table => ?_, fun st st' dirty table => ?_, fun st table => ?_⟩
  · have ans := State.snoopCore_rsp table
    exact ⟨ans.line, ans.net⟩
  · have ans := State.snoopCore_rspd table
    exact ⟨ans.line, ans.net⟩
  · rw [State.snoopCore_holds table]
    exact ⟨s.line_setLine_same _ _ _, rfl⟩

/-- A grant that a line awaits alone is entered. -/
theorem State.granted_shows {s : State} {k : Nat} {h : Fin 96} (m : Msg) (st : CState) (d : List Byte) (p : Bool)
    (awake : (s.core h).going = none) (noMiss : (s.line k h).miss = none) (free : (s.line k h).held = none)
    (room : (s.l2Set k h).length < 16) :
    let t := (s.take m).granted k h st d p
    t.line k h = ⟨st, d, p, none, none, none⟩ ∧ t.coh.net = s.coh.net.erase m ∧ t = { s with coh := t.coh } := by
  intro t
  have entered : t = (s.take m).setLine k h ⟨st, d, p, none, none, none⟩ := State.granted_alone noMiss room awake free
  rw [entered]
  exact ⟨State.line_setLine_same _ _ _ _, rfl, rfl⟩

/-- Settles O48, by the message and the state the line is in. -/
theorem linesOfCores : Obligations.LinesOfCores := by
  intro s l h awake k x only coh
  have put (m : Msg) : ((s.take m).setLine k h CLine.none).line k h = CLine.none := State.line_setLine_same _ _ _ _
  refine ⟨fun c kd snoop hkd => ?snoops, fun d p noMiss free room => ?grants, fun gave => ?puts, fun tok kind waits => ?retries,
    fun rd a n signed got d waits => ?loads, fun d p => ⟨fun other => ?readStray, fun other other' => ?writeStray⟩,
    fun other other' => ?keptStray, fun d p kd noMiss held st room => ?snooped, exec_stable_drops l h, fun d p stray => ?stray,
    fun rd a n signed got d need waits next => ?poisoned, fun rd a n signed got d k2 waits => ?more,
    fun op rd a n rs cmp got d waits small => ?amo⟩
  case snoops =>
    have runs : exec c.1 s = .next (s.snoopArrives l kd h) := by
      subst hkd
      obtain rfl | rfl | rfl | rfl := snoop
      all_goals rfl
    obtain ⟨u, hu⟩ : ∃ u, (s.take (.snp k kd h)).hpmEvent h 6 = u := ⟨_, rfl⟩
    have line : u.line k h = x := hu ▸ State.hpmEvent_line _ _ _ _ _ _
    have net : u.coh.net = s.coh.net.erase (.snp k kd h) := hu ▸ congrArg Coh.net (State.hpmEvent_coh _ _ _ _)
    have side : s.hartSide u := hu ▸ (State.take_hartSide _).trans (State.hpmEvent_hartSide _ _ _ _)
    have arrives := State.snoopCore_shows u k h kd
    rw [line, net] at arrives
    have taken : s.snoopArrives l kd h = u.snoopCore k h kd := congrArg (State.snoopCore · k h kd) hu
    exact ⟨_, taken ▸ runs, side.trans (State.snoopCore_hartSide _ _ _ _), arrives⟩
  case grants =>
    refine ⟨fun st => ⟨_, congrArg Host.Outcome.next (if_pos st), State.granted_shows _ _ _ _ awake noMiss free room⟩,
      fun st => ⟨_, congrArg Host.Outcome.next (if_pos st), State.granted_shows _ _ _ _ awake noMiss free room⟩,
      fun st => ⟨_, congrArg Host.Outcome.next (if_pos st), State.granted_shows _ _ _ _ awake noMiss free room⟩,
      fun st => ⟨_, congrArg Host.Outcome.next (if_pos st), State.granted_shows _ _ _ _ awake noMiss free room⟩⟩
  case puts => exact ⟨_, exec_cmpput_ends l h awake gave, put _, rfl, rfl⟩
  case retries => exact ⟨_, exec_retry_again l h tok waits, State.line_setLine_same _ _ _ _, rfl, rfl⟩
  case loads =>
    refine ⟨_, (exec_cmpd l h d false).trans (congrArg _ (State.coreData_completes waits)), ?_, ?_, ?_⟩
    · rw [State.core_setXreg, State.core_setCore]
    · exact (State.xreg_setXreg_same _ _ _ _).trans
        (congrArg (fun b => if rd = 0 then 0 else loadValue n signed b % 2 ^ 64) (inOrder_lineBytes k a n d got))
    · exact ((State.take_hartSide _).trans (State.setCore_hartSide _ _)).trans (State.setXreg_hartSide _ _ _)
  case readStray => exact ⟨congrArg Host.Outcome.next (if_neg other), congrArg Host.Outcome.next (if_neg other)⟩
  case writeStray => exact congrArg Host.Outcome.next (if_neg (not_or.2 ⟨other, other'⟩))
  case keptStray => exact congrArg Host.Outcome.next (if_neg (not_or.2 ⟨other, other'⟩))
  case snooped =>
    obtain ⟨m, line, net, side⟩ := State.granted_snooped (s := s.take (.gnt k h .m d p)) (d := d) (p := p) noMiss room awake held
    exact ⟨_, congrArg Host.Outcome.next (if_pos (.inl st)), line, by rw [net, List.length_append]; rfl,
      (State.take_hartSide _).trans side⟩
  case stray => exact (exec_cmpd l h d p).trans (congrArg _ (State.coreData_dropped stray))
  case poisoned => exact (exec_cmpd l h d true).trans (congrArg _ (State.coreData_poisoned waits next))
  case more =>
    refine ⟨_, (exec_cmpd l h d false).trans (congrArg _ (State.coreData_more waits)), ?_, rfl, fun b => rfl⟩
    rw [State.core_post, State.core_setCore]
    rfl
  case amo =>
    refine ⟨_, (exec_cmpd l h d false).trans (congrArg _ (State.coreData_amo waits small)), ?_, ?_, ?_⟩
    · rw [State.core_setXreg, State.core_setCore]
    · rw [State.xreg_setXreg_same, Nat.mod_eq_of_lt (wrap_lt _ _)]
    · exact ((State.take_hartSide _).trans (State.setCore_hartSide _ _)).trans (State.setXreg_hartSide _ _ _)

end Sys2Proof.Machine
end

section
/-! PROOFS. Sleep and wake of a hart (R253, R268, R269). -/

namespace Sys2Proof.Machine

/-! ## Tables and bits -/

theorem getK_dropRange_in {α : Type} (d : α) (m : SMap α) {lo hi k : Nat} (hlo : lo ≤ k) (hhi : k < hi) :
    getK d (dropRange m lo hi) k = d := by
  induction m with
  | nil => rfl
  | cons e m ih =>
    obtain ⟨x, v⟩ := e
    unfold dropRange at ih ⊢
    rw [List.filter_cons]
    split
    · next kept =>
      have ne : x ≠ k := by have : x < lo ∨ hi ≤ x := by simpa using kept
                            omega
      simp only [getK, if_neg ne, ih]
    · exact ih

theorem getK_dropRange_out {α : Type} (d : α) (m : SMap α) {lo hi k : Nat} (out : k < lo ∨ hi ≤ k) :
    getK d (dropRange m lo hi) k = getK d m k := by
  induction m with
  | nil => rfl
  | cons e m ih =>
    obtain ⟨x, v⟩ := e
    unfold dropRange at ih ⊢
    rw [List.filter_cons]
    split
    · simp only [getK, ih]
    · next dropped =>
      have ne : x ≠ k := by rintro rfl; exact dropped (by simpa using out)
      simp only [getK, if_neg ne, ih]

theorem State.csr_congr {s t : State} {h j n : Nat}
    (same : ∀ d, getK d t.cores.csrs (csrKey h n) = getK d s.cores.csrs (csrKey j n)) : t.csr h n = s.csr j n := by
  unfold State.csr
  simp only [same]

/-- The fields of a hart's CSRs have keys of their own. -/
theorem Fld.csr_key_ne {f g : Fld} (h : Nat) (apart : g.blk = f.blk ∧ g.off * 64 + g.lo ≠ f.off * 64 + f.lo) :
    g.key h 0 0 ≠ f.key h 0 0 := by
  obtain ⟨blk, ne⟩ := apart
  simp only [Fld.key, Fld.addr, blk]
  omega

/-! ## The way to sleep (R269) -/

section
variable {s : State} {h : Nat}

theorem State.settleSleep_waits {d : Nat} (going : (s.core h).going = some d) (waits : (s.core h).buf ≠ []) :
    s.settleSleep h = s := by
  unfold State.settleSleep
  rw [going]
  exact if_pos (by simpa using waits)

/-- With the buffer empty and no line outstanding the state is entered, and left at once where a wake is due. -/
theorem State.settleSleep_enters {d : Nat} (going : (s.core h).going = some d) (empty : (s.core h).buf = [])
    (none : d = 2 → s.linesOf h = []) (still : ((s.linesOf h).any fun e => decide (d = 2) || !e.2.st.stable) = false)
    (calm : (s.core h).wakeDue = false) :
    s.settleSleep h = s.setCore h fun c => { c with power := d + 1, going := .none, wakeDue := false } := by
  have given : (if d = 2 then (s.linesOf h).foldl (fun (s : State) e => s.giveUp e.1 h) s else s) = s := by
    split
    · next off => rw [none off]; rfl
    · rfl
  unfold State.settleSleep
  rw [going]
  simp only [empty, List.isEmpty_nil, not_true_eq_false, if_false, given, still, calm, Bool.false_eq_true]

end

/-! ## WFI -/

section
variable {s : State} {h : Fin 96}

theorem exec_wfi_rests (rests : s.hartFree h = false ∨ s.interruptDue h = true) : exec (.wfi h) s = .next s := by
  refine congrArg Host.Outcome.next ?_
  unfold State.onHart
  split
  · next free => exact if_pos (rests.resolve_left (by simp [free]))
  · rfl

variable (free : s.hartFree h = true) (calm : s.interruptDue h = false)
include free calm

theorem exec_wfi_waits (deep : s.rd mcorepwr.DEEP h = 0) :
    exec (.wfi h) s = .next (s.setCore h fun c => { c with power := 1 }) :=
  next_onHart free ((if_neg (by simp [calm])).trans (by rw [deep]; rfl))

theorem exec_wfi_deep {d : Nat} (deep : s.rd mcorepwr.DEEP h = d) (ne : d ≠ 0) :
    exec (.wfi h) s = .next ((s.setCore h fun c => { c with going := some d, wakeDue := false }).settleSleep h) := by
  refine next_onHart free ((if_neg (by simp [calm])).trans ?_)
  rw [deep]
  cases d with
  | zero => exact absurd rfl ne
  | succ d => rfl

/-- WFI enters RETAIN or OFF where nothing is outstanding. -/
theorem exec_wfi_sleeps {d : Nat} (deep : s.rd mcorepwr.DEEP h = d) (ne : d ≠ 0) (empty : (s.core h).buf = [])
    (none : d = 2 → s.linesOf h = []) (still : ((s.linesOf h).any fun e => decide (d = 2) || !e.2.st.stable) = false) :
    ∃ t, exec (.wfi h) s = .next t ∧ (t.core h).power = d + 1 ∧ (t.core h).going = .none
      ∧ t = { s with cores := { s.cores with core := t.cores.core } } := by
  let u := s.setCore h fun c => { c with going := some d, wakeDue := false }
  have record : u.core h = { s.core h with going := some d, wakeDue := false } := s.core_setCore _ _
  have enters : u.settleSleep h = u.setCore h fun c => { c with power := d + 1, going := .none, wakeDue := false } :=
    State.settleSleep_enters (by rw [record]) (by rw [record]; exact empty) none still (by rw [record])
  refine ⟨_, (exec_wfi_deep free calm deep ne).trans (congrArg _ enters), ?_, ?_, rfl⟩
  all_goals rw [State.core_setCore]

end

/-! ## Wake (R268) -/

section
variable {s : State} {h : Fin 96} {src : WakeSource}

theorem exec_coreWake_rests (settled : (s.core h).going = none)
    (rests : (s.core h).power = 0 ∨ ((s.core h).power = 1 ∨ (s.core h).power = 2) ∧ s.interruptDue h = false
      ∨ ((s.core h).power = 3 ∧ s.wakesOff h src = false) ∨ ((s.core h).power = 4 ∧ src ≠ .hawkmoth)) :
    exec (.coreWake h src) s = .next s := by
  refine congrArg Host.Outcome.next ?_
  simp only [settled]
  rcases rests with run | ⟨wait | retain, calm⟩ | ⟨off, stays⟩ | ⟨held, other⟩
  · simp only [run]
  · simp only [wait, calm]; rfl
  · simp only [retain, calm]; rfl
  · simp only [off, stays]; rfl
  · simp only [held]; exact if_neg other

/-- A wake that comes on the way to sleep is kept for afterwards (R269). -/
theorem exec_coreWake_late {d : Nat} (going : (s.core h).going = some d)
    (due : (if d = 2 then s.wakesOff h src else s.interruptDue h) = true) :
    exec (.coreWake h src) s = .next (s.setCore h fun c => { c with wakeDue := true }) := by
  refine congrArg Host.Outcome.next ?_
  simp only [going]
  split at due
  · next off => subst off; exact if_pos due
  · next retain =>
    split
    · next off => exact absurd (Option.some.inj off) retain
    · exact if_pos due
    all_goals contradiction

theorem exec_coreWake_released (settled : (s.core h).going = none) (held : (s.core h).power = 4)
    (may : s.board.boot = .running ∧ ¬ s.hartsReset ∧ ¬ s.rst.groupsOff.contains (h.val / 8)) :
    exec (.coreWake h .hawkmoth) s
      = .next (s.setCore h fun c => { c with power := 0, vector := Config.resetVector h % 2 ^ 64 }) := by
  refine congrArg Host.Outcome.next ?_
  simp only [settled, held]
  exact (if_pos trivial).trans (if_pos may)

/-- A core wakes from WAIT or RETAIN for an enabled interrupt. -/
theorem exec_coreWake_wakes (settled : (s.core h).going = none) (asleep : (s.core h).power = 1 ∨ (s.core h).power = 2)
    (due : s.interruptDue h = true) : exec (.coreWake h src) s
      = .next ((s.wr mcorepwr.LAST ((s.core h).power - 1) h).setCore h fun c => { c with power := 0 }) := by
  refine congrArg Host.Outcome.next ?_
  simp only [settled]
  have exits : s.exitSleep h = (s.wr mcorepwr.LAST ((s.core h).power - 1) h).setCore h fun c => { c with power := 0 } :=
    if_neg (by omega)
  rw [← exits]
  rcases asleep with wait | retain
  · simp only [wait, due, if_true]
  · simp only [retain, due, if_true]

theorem exec_coreWake_starts (settled : (s.core h).going = none) (off : (s.core h).power = 3) (wakes : s.wakesOff h src = true) :
    exec (.coreWake h src) s = .next (s.exitSleep h) := by
  refine congrArg Host.Outcome.next ?_
  simp only [settled, off]
  exact if_pos wakes

end

/-! ## The start from OFF (R268) -/

/-- The registers of a hart that starts from OFF: LAST names OFF, and FIRED and FREQ stand. -/
def State.offRegs (s : State) (h : Nat) : State :=
  (((s.resetBlock .csr h 0x10000).wr mwdog.FIRED (s.rd mwdog.FIRED h) h).wr mcoreinfo.FREQ (s.rd mcoreinfo.FREQ h) h).wr
    mcorepwr.LAST 2 h

section
variable (s : State) (h : Nat)

theorem State.offRegs_last : (s.offRegs h).rd mcorepwr.LAST h = 2 := State.rd_wr_same _ _ _ _ _ _

theorem State.offRegs_fired : (s.offRegs h).rd mwdog.FIRED h = s.rd mwdog.FIRED h % 2 ^ mwdog.FIRED.width := by
  unfold State.offRegs
  rw [State.rd_wr_ne (g := mwdog.FIRED) (h := Fld.csr_key_ne h (by decide)),
    State.rd_wr_ne (g := mwdog.FIRED) (h := Fld.csr_key_ne h (by decide)), State.rd_wr_same]

/-- The architectural state is lost, and the machine timer's comparator and interrupt are not. -/
theorem State.exitSleep_off {s : State} {h : Nat} (off : (s.core h).power = 3) :
    s.exitSleep h = ({ s.offRegs h with cores := { s.cores with
      xregs := dropRange s.cores.xregs (h * 32) (h * 32 + 32)
      hpm := dropRange s.cores.hpm (h * 64) (h * 64 + 64)
      csrs := dropRange s.cores.csrs (h * 4096) (h * 4096 + 4096)
      cmp := dropRange s.cores.cmp (h * 4 + 1) (h * 4 + 3) } } : State).setCore h fun c =>
        { Core.held with power := 0, vector := c.vector, mip := c.mip &&& 0x80 } := if_pos off

end

/-- WFI and CORE_WAKE, by the state of the hart and what is due. -/
theorem coreSleep_stated : Stated.CoreSleep := by
  intro s h
  refine ⟨exec_wfi_rests, fun free calm deep waits => ?buffered, fun free calm deep empty none => ?off,
    fun src settled rests => exec_coreWake_rests settled rests, fun src d going due => ?late,
    fun settled held boot harts group => ?released, fun free calm deep => ?wait, fun free calm deep empty still => ?retain,
    fun src settled asleep due => ?wakes, fun src settled off wakes => ?starts⟩
  case buffered =>
    let u := s.setCore h fun c => { c with going := some (s.rd mcorepwr.DEEP h), wakeDue := false }
    have record : u.core h = { s.core h with going := some (s.rd mcorepwr.DEEP h), wakeDue := false } := s.core_setCore _ _
    have stays : u.settleSleep h = u := State.settleSleep_waits (by rw [record]) (by rw [record]; exact waits)
    exact ⟨u, (exec_wfi_deep free calm rfl deep).trans (congrArg _ stays), record, rfl⟩
  case off => exact exec_wfi_sleeps free calm deep (by decide) empty (fun _ => none) (by rw [none]; rfl)
  case late => exact ⟨_, exec_coreWake_late going due, s.core_setCore _ _, rfl⟩
  case released => exact ⟨_, exec_coreWake_released settled held ⟨boot, by rw [harts]; exact Bool.false_ne_true,
    by rw [group]; exact Bool.false_ne_true⟩, s.core_setCore _ _, rfl⟩
  case wait => exact ⟨_, exec_wfi_waits free calm deep, s.core_setCore _ _, rfl⟩
  case retain => exact exec_wfi_sleeps free calm deep (by decide) empty (fun two => absurd two (by decide)) (by simpa using still)
  case wakes =>
    have fits : ((s.core h).power - 1) % 2 ^ mcorepwr.LAST.width = (s.core h).power - 1 :=
      Nat.mod_eq_of_lt (by show _ < 2 ^ 2; omega)
    exact ⟨_, exec_coreWake_wakes settled asleep due, State.core_setCore _ _ _, (s.rd_wr_same _ _ _ _ _).trans fits,
      s.sameRegs_wr _ _ _ _ _, rfl⟩
  case starts =>
    refine ⟨_, (exec_coreWake_starts settled off wakes).trans (congrArg _ (State.exitSleep_off off)), ?_, ?_, s.offRegs_last h,
      s.offRegs_fired h, fun r hr => ?_, fun n hn => ?_, ?_, ?_, ?_, rfl⟩
    · rw [State.core_setCore]
    · rw [State.core_setCore]; rfl
    · show (if r = 0 then 0 else _) = 0
      split
      · rfl
      · exact getK_dropRange_in _ _ (by omega) (by omega)
    · exact State.csr_congr fun d => getK_dropRange_in _ _ (by unfold csrKey; omega) (by unfold csrKey; omega)
    · exact getK_dropRange_in _ _ (by simp [timerNo]) (by simp [timerNo])
    · exact getK_dropRange_in _ _ (by simp [timerNo]) (by simp [timerNo])
    · exact getK_dropRange_out _ _ (by simp [timerNo])

end Sys2Proof.Machine
end

section
/-! PROOFS. Interrupts, timers, the watchdog and the debug halt of a hart (R253, R254, R257, R265 to R267, R270, R471). -/

namespace Sys2Proof.Machine

/-! ## Bits that are set -/

theorem testBit_add_two_pow {x i k : Nat} (clear : x.testBit i = false) (ne : k ≠ i) : (x + 2 ^ i).testBit k = x.testBit k := by
  obtain below | above := Nat.lt_or_gt_of_ne ne
  · rw [Nat.add_comm, Nat.testBit_two_pow_add_gt below]
  · obtain ⟨j, rfl⟩ := Nat.exists_eq_add_of_lt above
    have even : x / 2 ^ i % 2 = 0 := by
      rw [Nat.testBit_eq_decide_div_mod_eq] at clear
      have := of_decide_eq_false clear
      omega
    have half : (x + 2 ^ i) / 2 ^ (i + 1) = x / 2 ^ (i + 1) := by
      rw [Nat.pow_succ, ← Nat.div_div_eq_div_mul, ← Nat.div_div_eq_div_mul, Nat.add_div_right _ (Nat.two_pow_pos i)]
      omega
    have shift (y : Nat) : y.testBit (i + j + 1) = (y / 2 ^ (i + 1)).testBit j := by
      rw [Nat.testBit_div_two_pow]
      exact congrArg y.testBit (by omega)
    rw [shift, shift, half]

theorem bit_setBit_same (x i : Nat) : bit (setBit x i true) i = true := by
  unfold setBit
  split
  · assumption
  · next clear =>
    rw [bit_eq_testBit] at clear ⊢
    rw [if_pos rfl, Nat.add_comm, Nat.testBit_two_pow_add_eq, Bool.eq_false_of_not_eq_true clear]
    rfl

theorem bit_setBit_ne {x i k : Nat} (ne : k ≠ i) : bit (setBit x i true) k = bit x k := by
  unfold setBit
  split
  · rfl
  · next clear =>
    rw [bit_eq_testBit] at clear
    rw [if_pos rfl, bit_eq_testBit, bit_eq_testBit, testBit_add_two_pow (Bool.eq_false_of_not_eq_true clear) ne]

/-- An identity that a file has becomes pending in it, and nothing else changes (R266). -/
theorem State.imsicSet_sets {s : State} {file ident : Nat} (named : ident ≠ 0) (top : ident ≤ imsicTop file) :
    (s.imsicSet file ident).eip file = setBit (s.eip file) ident true
      ∧ s.imsicSet file ident = { s with irq := { s.irq with imsic := (s.imsicSet file ident).irq.imsic } } := by
  unfold State.imsicSet
  rw [if_neg (by omega)]
  exact ⟨getK_setK_same _ _ _ _, rfl⟩

/-! ## CSRs that an interrupt writes (R254) -/

theorem State.csr_putCsr_same {s : State} {h n v : Nat} {i : CsrInfo} (held : csrInfo n = some i) (plain : i.fixed = 0) :
    (s.putCsr h n v).csr h n = v := by
  unfold State.csr State.putCsr
  simp only [held, plain, Nat.or_zero]
  exact getK_setK_same _ _ _ _

theorem State.core_putCsr (s : State) (h n v j : Nat) : (s.putCsr h n v).core j = s.core j := rfl

theorem State.csr_putCsr_ne (s : State) (h v : Nat) {n m : Nat} (ne : m ≠ n) : (s.putCsr h n v).csr h m = s.csr h m :=
  State.csr_congr fun _ => getK_setK_ne _ _ _ _ _ _ (by unfold csrKey; omega)

/-- An interrupt that mideleg keeps at the M level is taken there. -/
theorem State.takeInterrupt_kept {s : State} {h cause : Nat} (fits : cause < 2 ^ 64)
    (kept : cause < 2 ^ 63 ∨ 2 ^ 63 + 64 ≤ cause ∨ bit (s.csr h 0x303) (cause - 2 ^ 63) = false) :
    s.takeInterrupt h cause = s.setCore h fun c => { c with mcause := cause, mtval := 0, fenced := false } := by
  refine if_pos ?_
  rw [Bool.not_eq_true, Bool.and_eq_false_iff, Bool.and_eq_false_iff, decide_eq_false_iff_not, decide_eq_false_iff_not]
  by_cases exception : cause < 2 ^ 63
  · exact .inl (.inl (by omega))
  · have number : cause % 2 ^ 63 = cause - 2 ^ 63 := by omega
    rw [number]
    obtain small | other | clear := kept
    · exact absurd small exception
    · exact .inl (.inr (by omega))
    · exact .inr clear

/-- One that mideleg delegates is taken at the S level. -/
theorem State.takeInterrupt_delegated {s : State} {h cause i : Nat} (hi : i < 64) (is : cause = 2 ^ 63 + i)
    (delegated : bit (s.csr h 0x303) i = true) (notGuest : bit (s.csr h 0x603) i = false) :
    s.takeInterrupt h cause = ((s.setCore h fun c => { c with fenced := false }).putCsr h 0x142 cause).putCsr h 0x143 0 := by
  have number : cause % 2 ^ 63 = i := by omega
  have interrupt : 2 ^ 63 ≤ cause := by omega
  unfold State.takeInterrupt
  rw [number]
  refine (if_neg ?_).trans (if_neg ?_)
  · rw [decide_eq_true interrupt, decide_eq_true hi, delegated]; exact not_not_intro rfl
  · exact (congrArg (· = true) notGuest).mpr_not Bool.false_ne_true

/-! ## A hart that goes on with one record changed -/

section
variable {s : State} {h : Fin 96}

theorem setCore_shows {i : Instr} {f : Core → Core} {d : Core} (runs : exec i s = .next (s.setCore h f)) (gives : f (s.core h) = d) :
    ∃ t, exec i s = .next t ∧ t.core h = d ∧ (∀ j, j ≠ h.val → t.core j = s.core j)
      ∧ t = { s with cores := { s.cores with core := t.cores.core } } :=
  ⟨_, runs, (s.core_setCore _ _).trans gives, fun _ ne => s.core_setCore_ne _ ne, rfl⟩

theorem exec_kick (free : s.hartFree h = true) :
    exec (.kick h) s = .next (s.setCore h fun c => { c with dog := 0, expired := false }) := next_onHart free rfl

theorem exec_flush (free : s.hartFree h = true) : exec (.flush h) s = .next (s.setCore h fun c => { c with pred := [] }) :=
  next_onHart free rfl

theorem onHart_busy {i : Instr} {f : State → State} (runs : exec i s = .next (s.onHart h f)) (busy : s.hartFree h = false) :
    exec i s = .next s :=
  runs.trans (congrArg _ (if_neg (by simp [busy])))

theorem State.hartIdle_awake (idle : s.hartIdle h = true) : (s.core h).going = none := by
  unfold State.hartIdle at idle
  simp only [Bool.and_eq_true, Option.isNone_iff_eq_none] at idle
  exact idle.1.1.1.2

/-! ## Interrupts -/

theorem exec_interrupt_busy (busy : s.hartIdle h = false) (rnmi : Bool) (cause : BitVec 64) :
    exec (.interrupt h rnmi cause) s = .next s :=
  congrArg Host.Outcome.next (if_pos (by simp [busy]))

variable (idle : s.hartIdle h = true)
include idle

theorem exec_interrupt (cause : BitVec 64) : exec (.interrupt h false cause) s = .next (s.takeInterrupt h cause.toNat) :=
  congrArg Host.Outcome.next ((if_neg (not_not_intro idle)).trans (if_neg Bool.false_ne_true))

theorem exec_interrupt_rnmi (cause : BitVec 64) :
    exec (.interrupt h true cause) s = .next (s.setCore h fun c => { c with mncause := cause.toNat, fenced := false }) :=
  congrArg Host.Outcome.next ((if_neg (not_not_intro idle)).trans (if_pos rfl))

/-! ## The debug halt (R253, R471) -/

/-- A halt is reported at once with an empty buffer, and else waits for it. -/
theorem exec_debugHalt (opened : bit (s.rd SEC_STATUS.DEBUG) 1 = true) : ∃ t, exec (.debugHalt h) s = .next t
    ∧ t.core h = { s.core h with debug := if (s.core h).buf.isEmpty then 2 else 1, fenced := false }
    ∧ (∀ j, j ≠ h.val → t.core j = s.core j) ∧ t = { s with cores := { s.cores with core := t.cores.core } } := by
  let u := s.setCore h fun c => { c with debug := 1, fenced := false }
  have record : u.core h = { s.core h with debug := 1, fenced := false } := s.core_setCore _ _
  have others (j : Nat) (ne : j ≠ h.val) : u.core j = s.core j := s.core_setCore_ne _ ne
  have runs : exec (.debugHalt h) s = .next (u.settleCore h) := congrArg Host.Outcome.next (if_pos ⟨opened, idle⟩)
  cases empty : (s.core h).buf.isEmpty with
  | false =>
    have waits : u.settleCore h = u := if_neg (by rw [record]; simpa using empty)
    rw [waits] at runs
    exact ⟨u, runs, record, others, rfl⟩
  | true =>
    have reported : u.settleCore h = u.setCore h fun c => { c with fenced := false, debug := if c.debug = 1 then 2 else c.debug } := by
      unfold State.settleCore
      rw [if_pos (by rw [record]; exact empty), record]
      refine (congrArg (State.settleSleep · h) (if_pos rfl)).trans (State.settleSleep_awake ?_)
      rw [State.core_setCore, record]
      exact s.hartIdle_awake idle
    rw [reported] at runs
    refine ⟨_, runs, ?_, fun j ne => (u.core_setCore_ne _ ne).trans (others j ne), rfl⟩
    rw [u.core_setCore, record]
    rfl

end

/-! ## Timers (R267) -/

theorem exec_timerCompare {s : State} (h : Fin 96) (k : TimerKind) : exec (.timerCompare h k) s = .next (s.setCore h fun c =>
    { c with mip := setBit c.mip (timerBit k) (decide (s.comparator h k ≤ s.cores.mtime)) }) := rfl

/-! ## The watchdog (R270) -/

section
variable {s : State} {h : Fin 96}

theorem exec_coreWatchdog_rests (rests : s.on mwdog.EN h = false ∨ (s.core h).power ≠ 0 ∨ (s.core h).dog < s.dogPeriod h) :
    exec (.coreWatchdog h) s = .next s := by
  refine congrArg Host.Outcome.next (if_pos ?_)
  rintro ⟨on, run, due⟩
  obtain off | other | early := rests
  · exact Bool.false_ne_true (off.symm.trans on)
  · exact other run
  · omega

variable (on : s.on mwdog.EN h = true) (run : (s.core h).power = 0) (due : s.dogPeriod h ≤ (s.core h).dog)
include on run due

theorem exec_coreWatchdog_first (first : (s.core h).expired = false) : exec (.coreWatchdog h) s
    = .next ((s.wr mwdog.FIRED 1 h).setCore h fun c =>
        { c with mncause := 0x8000000000000100, dog := 0, expired := true, fenced := false }) :=
  congrArg Host.Outcome.next ((if_neg (not_not_intro ⟨on, run, due⟩)).trans (if_pos (by simp [first])))

theorem exec_coreWatchdog_second (second : (s.core h).expired = true) : exec (.coreWatchdog h) s
    = .next (((s.setCore h fun c => { c with dog := 0 }).rasEvent stCounterTimeout 16 h 0 .uncorr).countedReset (dCore, 0) 1
        stCounterTimeout) :=
  congrArg Host.Outcome.next ((if_neg (not_not_intro ⟨on, run, due⟩)).trans (if_neg (not_not_intro second)))

end

/-- The events of a hart, by what the hart and the registers allow. -/
theorem coreEvents_stated : Stated.CoreEvents := by
  intro s h c core
  refine ⟨fun cause idle => ⟨fun kept => ?kept, fun i hi is delegated notGuest => ?delegated,
      setCore_shows (exec_interrupt_rnmi idle cause) rfl⟩,
    fun o f id agent some_ top => ?imsic, fun k => setCore_shows (exec_timerCompare h k) rfl, fun on run due first => ?first,
    fun on run due second => exec_coreWatchdog_second on run due second, exec_coreWatchdog_rests,
    fun busy => ⟨onHart_busy rfl busy, onHart_busy rfl busy⟩, fun busy => ⟨?halted, exec_interrupt_busy busy⟩, fun locked => ?locked,
    fun o f id refused => ?refused, fun free => setCore_shows (exec_kick free) rfl,
    fun free => setCore_shows (exec_flush free) rfl, fun opened idle => exec_debugHalt idle opened⟩
  case kept =>
    exact setCore_shows ((exec_interrupt idle cause).trans (congrArg _ (State.takeInterrupt_kept cause.isLt kept))) rfl
  case delegated =>
    refine ⟨_, (exec_interrupt idle cause).trans (congrArg _ (State.takeInterrupt_delegated hi is delegated notGuest)), ?_, ?_, ?_,
      rfl⟩
    · rw [State.csr_putCsr_ne _ _ _ (by decide)]
      exact State.csr_putCsr_same (i := { mask := all64 }) rfl rfl
    · exact State.csr_putCsr_same (i := { mask := all64 }) rfl rfl
    · rw [State.core_putCsr, State.core_putCsr, State.core_setCore]
  case imsic =>
    have named : id.toNat ≠ 0 := fun zero => some_ (BitVec.eq_of_toNat_eq zero)
    obtain ⟨eip, only⟩ := State.imsicSet_sets (s := s) named top
    refine ⟨_, congrArg Host.Outcome.next (if_pos agent), ?_, fun k ne => ?_, only⟩
    · rw [eip, bit_setBit_same]
    · rw [eip, bit_setBit_ne ne]
  case first =>
    exact ⟨_, exec_coreWatchdog_first on run due first, (s.rd_wr_same mwdog.FIRED 1 h 0 0).trans (by decide),
      State.core_setCore _ _ _, rfl⟩
  case halted => exact congrArg Host.Outcome.next (if_neg (by simp [busy]))
  case locked => exact congrArg Host.Outcome.next (if_neg (by simp [locked]))
  case refused =>
    refine congrArg Host.Outcome.next ?_
    split
    · next agent =>
      refine if_pos ((refused.resolve_left (by simp [agent])).imp_left fun zero => ?_)
      rw [zero]; rfl
    · rfl

/-- Settles O46 by its two parts. -/
theorem coreWaking : Obligations.CoreWaking := ⟨coreSleep_stated, coreEvents_stated⟩

end Sys2Proof.Machine
end

section
/-! PROOFS. Stores of a hart: what the store buffer supplies once they have retired (R246, R250, R252). -/

namespace Sys2Proof.Machine

/-! ## A part of a store enters the buffer -/

/-- An entry supplies the bytes that a store put into it, and the others as before. -/
theorem find?_merged (new old : List (Nat × Byte)) (off : Nat) :
    (new ++ old.filter fun p => !new.any fun q => q.1 == p.1).find? (·.1 = off)
      = (new.find? (·.1 = off)).or (old.find? (·.1 = off)) := by
  rw [List.find?_append, List.find?_filter]
  cases found : new.find? (·.1 = off) with
  | some p => rfl
  | none =>
    have lacks : (new.any fun q => q.1 == off) = false := by
      rw [List.any_eq_false]; exact fun q hq => by simpa using List.find?_eq_none.1 found q hq
    refine congrArg (fun f => old.find? f) (funext fun p => ?_)
    by_cases hp : p.1 = off
    · simp [hp, lacks]
    · simp [hp]

/-- An entry that a later store to its line has merged into. -/
def withBytes (e : SbEnt) (new : List (Nat × Byte)) : SbEnt :=
  { e with bytes := new ++ e.bytes.filter fun p => !new.any fun q => q.1 == p.1 }

/-- What a byte reads once a part of a store lies over what the buffer held. -/
def overlaid (line : Nat) (bytes : List (Nat × Byte)) (old : Option Byte) (b : Nat) : Option Byte :=
  if line = b / 64 then ((bytes.find? (·.1 = b % 64)).map (·.2)).or old else old

theorem State.setCore_recordSide (s : State) (h : Nat) (f : Core → Core) : s.recordSide (s.setCore h f) := rfl

section
variable (s : State) (h line : Nat) (bytes : List (Nat × Byte)) (nc : Bool)

/-- A part of a store supplies its bytes, whether it merged or took an entry. -/
theorem State.bufferStore_supplies (b : Nat) : bufByte ((s.bufferStore h line bytes nc).core h).buf b
    = overlaid line bytes (bufByte (s.core h).buf b) b := by
  unfold State.bufferStore
  cases last : (s.core h).buf.getLast? with
  | none =>
    have empty := List.getLast?_eq_none_iff.1 last
    dsimp only
    rw [s.core_setCore, empty]
    exact bufByte_append [] _ rfl b
  | some e =>
    obtain ⟨init, whole⟩ := List.getLast?_eq_some_iff.1 last
    dsimp only
    split
    · next merges =>
      have kind : (e.io = none ∧ e.line = line) := by
        simp only [mergesInto, Bool.and_eq_true, Option.isNone_iff_eq_none, beq_iff_eq] at merges
        exact merges.1.1
      rw [State.core_setCore]
      dsimp only
      rw [State.hpmEvent_buf, whole, List.dropLast_concat, bufByte_append init e kind.1]
      refine (bufByte_append init (withBytes e bytes) (show e.io = none from kind.1) b).trans ?_
      simp only [withBytes, overlaid, kind.2]
      split
      · rw [find?_merged, Option.map_or, Option.or_assoc]
      · rfl
    · rw [s.core_setCore]
      exact bufByte_append _ _ rfl b

theorem State.bufferStore_recordSide : s.recordSide (s.bufferStore h line bytes nc) := by
  unfold State.bufferStore
  split
  · split
    · exact (s.hpmEvent_tallied h 4 1).only.trans (State.setCore_recordSide _ h _)
    · exact s.setCore_recordSide h _
  · exact s.setCore_recordSide h _

end

/-! ## The parts of a store -/

/-- The byte of a store at an address. -/
def storeByte (a : Nat) (bytes : List Byte) (b : Nat) : Option Byte := if a ≤ b then bytes[b - a]? else none

theorem find?_zipIdx (bytes : List Byte) (a b k : Nat) :
    (bytes.zipIdx k).find? (fun p => a + p.2 = b) = if a + k ≤ b then bytes[b - a - k]?.map fun x => (x, b - a) else none := by
  induction bytes generalizing k with
  | nil => simp
  | cons x bytes ih =>
    rw [List.zipIdx_cons, List.find?_cons]
    by_cases here : a + k = b
    · have place : b - a = k := by omega
      simp [here, place]
    · rw [decide_eq_false here, ih]
      by_cases later : a + k < b
      · have next : b - a - k = b - a - (k + 1) + 1 := by omega
        rw [if_pos (by omega), if_pos (by omega), next, List.getElem?_cons_succ]
      · rw [if_neg (by omega), if_neg (by omega)]

/-- The part of a store that lies in a line. -/
def storePart (a : Nat) (bytes : List Byte) (line : Nat) : List (Nat × Byte) :=
  ((bytes.zipIdx.map fun (p : Byte × Nat) => (a + p.2, p.1)).filter fun p => p.1 / 64 == line).map
    fun (p : Nat × Byte) => (p.1 % 64, p.2)

theorem storePart_find (a : Nat) (bytes : List Byte) (b : Nat) :
    ((storePart a bytes (b / 64)).find? (·.1 = b % 64)).map (·.2) = storeByte a bytes b := by
  have same (x : Nat) : decide ((a + x) / 64 = b / 64 ∧ (a + x) % 64 = b % 64) = decide (a + x = b) :=
    decide_eq_decide.2 (by omega)
  unfold storePart
  rw [List.find?_map, List.find?_filter, List.find?_map]
  simp only [Function.comp_def, beq_iff_eq, decide_eq_true_iff, same]
  rw [find?_zipIdx, storeByte, Nat.add_zero, Nat.sub_zero]
  split
  · cases bytes[b - a]? <;> rfl
  · rfl

theorem storeParts_eq (a : Nat) (bytes : List Byte) : storeParts a bytes
    = if a / 64 = (a + bytes.length - 1) / 64 then [(a / 64, storePart a bytes (a / 64))]
      else [(a / 64, storePart a bytes (a / 64)), (a / 64 + 1, storePart a bytes (a / 64 + 1))] := rfl

theorem overlaid_storePart (a : Nat) (bytes : List Byte) (line : Nat) (old : Option Byte) (b : Nat) :
    overlaid line (storePart a bytes line) old b = if line = b / 64 then (storeByte a bytes b).or old else old := by
  unfold overlaid
  split
  · next here => rw [here, storePart_find]
  · rfl

/-- The addresses that a store has bytes for. -/
theorem storeByte_none {a : Nat} {bytes : List Byte} {b : Nat} (out : b < a ∨ a + bytes.length ≤ b) : storeByte a bytes b = none := by
  unfold storeByte
  split
  · exact List.getElem?_eq_none (by omega)
  · rfl

section
variable {s : State} {h a : Nat} {bytes : List Byte} {nc : Bool}

/-- A store of at most a line that finds room is found byte by byte (R250, R252). -/
theorem State.storeMain_supplies (room : (s.core h).buf.length + (s.core h).storeNeeds (storeParts a bytes) nc ≤ 64)
    (short : bytes.length ≤ 64) (some_ : bytes ≠ []) (b : Nat) :
    bufByte ((s.storeMain h a bytes nc).core h).buf b = (storeByte a bytes b).or (bufByte (s.core h).buf b) := by
  have len : 0 < bytes.length := List.length_pos_iff.2 some_
  unfold State.storeMain
  extract_lets parts
  rw [if_neg (Nat.not_lt.2 room), show parts = _ from storeParts_eq a bytes]
  by_cases one : a / 64 = (a + bytes.length - 1) / 64
  · rw [if_pos one, List.foldl_cons, List.foldl_nil, State.bufferStore_supplies, overlaid_storePart]
    split
    · rfl
    · rw [storeByte_none (by omega), Option.none_or]
  · rw [if_neg one, List.foldl_cons, List.foldl_cons, List.foldl_nil, State.bufferStore_supplies, State.bufferStore_supplies,
      overlaid_storePart, overlaid_storePart]
    by_cases first : a / 64 = b / 64
    · rw [if_pos first, if_neg (by omega)]
    · rw [if_neg first]
      split
      · rfl
      · rw [storeByte_none (by omega), Option.none_or]

theorem State.storeMain_recordSide (s : State) (h a : Nat) (bytes : List Byte) (nc : Bool) :
    s.recordSide (s.storeMain h a bytes nc) := by
  unfold State.storeMain
  extract_lets parts
  split
  · exact .refl s
  · exact foldl_rel State.recordSide .refl (fun _ _ _ => .trans) _ _ (fun s p _ => s.bufferStore_recordSide h p.1 p.2 nc) s

/-- A strongly ordered store takes an entry of its own. -/
theorem State.storeIo_room (room : (s.core h).buf.length < 64) : s.storeIo h a bytes
    = s.setCore h fun c => { c with buf := c.buf ++ [⟨a / 64, [], some (a, bytes), false, false, false⟩] } :=
  if_neg (Nat.not_le.2 room)

end

/-! ## The command -/

section
variable {s : State} {h : Fin 96} (free : s.hartFree h = true) (rs : Fin 32) (addr : BitVec 64) (size : Fin 4)
include free

theorem exec_coreStore_barred (p : Pbmt) (bar : s.barred h addr.toNat (2 ^ size.val) true = true) :
    exec (.coreStore h rs addr size p) s = .next (s.trap h 7 addr.toNat) :=
  next_onHart free (if_pos bar)

variable (ok : s.barred h addr.toNat (2 ^ size.val) true = false)
include ok

theorem exec_coreStore_main (main : s.rangeOf addr.toNat (2 ^ size.val) = .main) {p : Pbmt} (hp : p = .none ∨ p = .nc) :
    exec (.coreStore h rs addr size p) s
      = .next (s.storeMain h addr.toNat (leBytes (2 ^ size.val) (s.xreg h rs)) (p == .nc)) := by
  refine next_onHart free ((if_neg (by simp [ok])).trans ?_)
  rw [main]
  obtain rfl | rfl := hp
  all_goals rfl

/-- A store through IO, or to an I/O range at its alignment, is a strongly ordered one. -/
theorem exec_coreStore_ordered {p : Pbmt} (ordered : (s.rangeOf addr.toNat (2 ^ size.val) = .main ∧ p = .io)
      ∨ (s.rangeOf addr.toNat (2 ^ size.val) ≠ .main ∧ addr.toNat % 2 ^ size.val = 0)) :
    exec (.coreStore h rs addr size p) s = .next (s.storeIo h addr.toNat (leBytes (2 ^ size.val) (s.xreg h rs))) := by
  refine next_onHart free ((if_neg (by simp [ok])).trans ?_)
  obtain ⟨main, rfl⟩ | ⟨io, aligned⟩ := ordered
  · rw [main]
  · split
    · exact absurd ‹_› io
    · exact absurd ‹_› io
    · rfl
    · exact if_neg (not_not_intro aligned)

theorem exec_coreStore_misaligned (p : Pbmt) (io : s.rangeOf addr.toNat (2 ^ size.val) ≠ .main)
    (odd : addr.toNat % 2 ^ size.val ≠ 0) : exec (.coreStore h rs addr size p) s = .next (s.trap h 6 addr.toNat) := by
  refine next_onHart free ((if_neg (by simp [ok])).trans ?_)
  split
  · exact absurd ‹_› io
  · exact absurd ‹_› io
  · exact absurd ‹_› io
  · exact if_pos odd

end

/-- Stores of a hart, by the mapping and range of the store and the room of the buffer. -/
theorem coreStores_stated : Stated.CoreStores := by
  intro s h rs addr size free a n bytes only
  have length : bytes.length = n := length_leBytes _ _
  have small : n ≤ 64 := (Nat.pow_le_pow_right Nat.two_pos (by omega : size.val ≤ 6)).trans (by decide)
  have pos : 0 < n := Nat.two_pow_pos _
  have entry (i : Instr) (runs : exec i s = .next (s.storeIo h a bytes)) (room : (s.core h).buf.length < 64) :
      ∃ t, exec i s = .next t
        ∧ (t.core h).buf = (s.core h).buf ++ [⟨a / 64, [], some (a, bytes), false, false, false⟩] ∧ only t :=
    ⟨_, runs.trans (congrArg _ (State.storeIo_room room)), by rw [s.core_setCore], rfl⟩
  refine ⟨fun p hp ok main room => ?supplied, fun ok main room => ?mapped, fun p ok io aligned room => ?io, fun p ok io odd => ?misaligned,
    fun p hp ok main full => ?full, fun p ok ordered full => ?fullIo, fun p bar => ?barred⟩
  case supplied =>
    have supplies := State.storeMain_supplies room (by omega) (fun none => by rw [none] at length; exact absurd length (by simp; omega))
    refine ⟨_, exec_coreStore_main free rs addr size ok main hp, fun i hi => ?_, fun b out => ?_, s.storeMain_recordSide _ _ _ _⟩
    · have here : storeByte a bytes (a + i) = some (bytes.getD i 0) := by
        rw [storeByte, if_pos (Nat.le_add_right a i), Nat.add_sub_cancel_left, List.getD_eq_getElem?_getD,
          List.getElem?_eq_getElem (by omega)]
        rfl
      rw [supplies, here, Option.some_or]
    · rw [supplies, storeByte_none (by omega), Option.none_or]
  case mapped => exact entry _ (exec_coreStore_ordered free rs addr size ok (.inl ⟨main, rfl⟩)) room
  case io => exact entry _ (exec_coreStore_ordered free rs addr size ok (.inr ⟨io, aligned⟩)) room
  case misaligned => exact exec_coreStore_misaligned free rs addr size ok p io odd
  case full => exact (exec_coreStore_main free rs addr size ok main hp).trans (congrArg _ (if_pos full))
  case fullIo => exact (exec_coreStore_ordered free rs addr size ok ordered).trans (congrArg _ (if_pos full))
  case barred => exact exec_coreStore_barred free rs addr size p ((s.barred_iff _ _ _ _).2 bar)

end Sys2Proof.Machine
end

section
/-! PROOFS. The drain of a hart's store buffer, and stores that fail late (R251, R254, R255). -/

namespace Sys2Proof.Machine

/-! ## The first entries' lines are asked for (R251) -/

/-- A hart has asked for lines: its buffer and what it does stand, and so do the lines it may write; it may write no other. -/
structure State.asked (s t : State) (h : Nat) : Prop where
  only : s.hartSide t
  buf : (t.core h).buf = (s.core h).buf
  going : (t.core h).going = (s.core h).going
  writable : ∀ k, (s.line k h).st.writable = true → t.line k h = s.line k h
  none : ∀ k, (s.line k h).st.writable = false → (t.line k h).st.writable = false

section
variable {s t u : State} {h : Nat}

theorem State.asked.refl (s : State) (h : Nat) : s.asked s h := ⟨rfl, rfl, rfl, fun _ _ => rfl, fun _ => id⟩

theorem State.asked.trans (a : s.asked t h) (b : t.asked u h) : s.asked u h where
  only := a.only.trans b.only
  buf := b.buf.trans a.buf
  going := b.going.trans a.going
  writable k hk := (b.writable k (by rwa [a.writable k hk])).trans (a.writable k hk)
  none k hk := b.none k (a.none k hk)

/-- A line that the hart may not write goes into a transition. -/
theorem State.setLine_asked {k : Nat} {l : CLine} (cannot : (s.line k h).st.writable = false) (transient : l.st.writable = false) :
    s.asked (s.setLine k h l) h where
  only := s.setLine_hartSide k h l
  buf := rfl
  going := rfl
  writable q hq := s.line_setLine_ne l (by rintro rfl; exact absurd hq (by simp [cannot]))
  none q hq := by
    by_cases same : q = k
    · rwa [same, s.line_setLine_same]
    · rwa [s.line_setLine_ne l same]

theorem State.request_asked (s : State) (k h : Nat) (kind : ReqKind) : s.asked (s.request k h kind) h :=
  ⟨s.request_hartSide k h kind none, rfl, rfl, fun _ _ => rfl, fun _ => id⟩

theorem State.askedFor_asked {k : Nat} {st : CState} {a : Option Access} {kind : ReqKind}
    (cannot : (s.line k h).st.writable = false) (transient : st.writable = false) :
    s.asked ((s.setLine k h { s.line k h with st := st, miss := a }).request k h kind) h :=
  (State.setLine_asked (l := { s.line k h with st := st, miss := a }) cannot transient).trans (State.request_asked _ k h kind)

theorem State.hpmEvent_asked (s : State) (h ev k : Nat) : s.asked (s.hpmEvent h ev k) h :=
  ⟨s.hpmEvent_hartSide h ev k, s.hpmEvent_buf h ev k h, s.hpmEvent_going h ev k h, fun q _ => s.hpmEvent_line h ev k q h,
    fun q hq => by rwa [s.hpmEvent_line]⟩

theorem State.needWrite_asked (s : State) (k h : Nat) (a : Option Access) : s.asked (s.needWrite k h a) h := by
  unfold State.needWrite
  extract_lets l
  have cannot {st : CState} (is : l.st = st) (no : st.writable = false) : (s.line k h).st.writable = false := is ▸ no
  split
  · exact .refl s h
  · split
    · next st => exact (State.askedFor_asked (cannot st rfl) rfl).trans (State.hpmEvent_asked _ h 5 1)
    · next st => exact State.askedFor_asked (cannot st rfl) rfl
    · next st => exact State.askedFor_asked (cannot st rfl) rfl
    · exact .refl s h

theorem State.askWritable_asked (s : State) (h : Nat) : s.asked (s.askWritable h) h := by
  refine foldl_rel (State.asked · · h) (State.asked.refl · h) (fun _ _ _ => .trans) _ _ (fun s e _ => ?_) s
  split
  · exact s.needWrite_asked _ h _
  · exact .refl s h

end

/-- The entries of a buffer once its head has begun to drain. -/
theorem State.beginHead_buf {s : State} {h : Nat} {e : SbEnt} {rest : List SbEnt} (head : (s.core h).buf = e :: rest) :
    (s.beginHead h).core h = { s.core h with buf := { e with begun := true } :: rest } := by
  unfold State.beginHead
  rw [s.core_setCore]
  dsimp only
  rw [head]

theorem State.beginHead_hartSide (s : State) (h : Nat) : s.hartSide (s.beginHead h) := s.setCore_hartSide h _

theorem State.line_beginHead (s : State) (h k j : Nat) : (s.beginHead h).line k j = s.line k j := s.line_setCore h _ k j

/-! ## The head leaves the buffer -/

section
variable {s : State} {h : Nat}

theorem State.settleCore_awake (awake : (s.core h).going = none) :
    s.coreOnly (s.settleCore h) ∧ ((s.settleCore h).core h).buf = (s.core h).buf := by
  unfold State.settleCore
  extract_lets c t
  split
  · have kept : s.coreOnly t ∧ (t.core h).buf = (s.core h).buf ∧ (t.core h).going = none := by
      unfold t
      split
      · exact ⟨rfl, by rw [s.core_setCore], by rw [s.core_setCore]; exact awake⟩
      · exact ⟨rfl, rfl, awake⟩
    obtain ⟨only, buf, still⟩ := kept
    rw [State.settleSleep_awake still]
    exact ⟨only, buf⟩
  · exact ⟨rfl, rfl⟩

theorem State.coreOnly.recordSide {t : State} (only : s.coreOnly t) : s.recordSide t := by
  unfold State.coreOnly at only
  rw [only]; rfl

theorem State.popStore_awake (awake : (s.core h).going = none) :
    s.recordSide (s.popStore h) ∧ ((s.popStore h).core h).buf = (s.core h).buf.drop 1 := by
  obtain ⟨only, buf⟩ := State.settleCore_awake (s := s.setCore h fun c => { c with buf := c.buf.drop 1 }) (h := h)
    (by rw [s.core_setCore]; exact awake)
  exact ⟨(s.setCore_recordSide h _).trans only.recordSide, buf.trans (by rw [s.core_setCore])⟩

end

/-! ## STORE_BUFFER_DRAIN -/

section
variable {s : State} {h : Nat} {e : SbEnt} {rest : List SbEnt} (head : (s.core h).buf = e :: rest)
include head

/-- A cacheable head is written into its line, where the hart may write that. -/
theorem State.drainCached_written (cached : e.cached = true) (may : (s.line (lineKey false e.line) h).st.writable = true) :
    s.drainCached h = (s.setLine (lineKey false e.line) h { s.line (lineKey false e.line) h with
      st := .m, data := e.onto (s.line (lineKey false e.line) h).data,
      poison := (s.line (lineKey false e.line) h).poison && !e.zero }).popStore h := by
  unfold State.drainCached
  rw [head]
  exact if_pos (by simp [cached, may])

theorem State.drainCached_waits (cannot : (s.line (lineKey false e.line) h).st.writable = false) : s.drainCached h = s := by
  unfold State.drainCached
  rw [head]
  exact if_neg (by simp [cannot])

end

section
variable {s : State} {h : Fin 96} {e : SbEnt} {rest : List SbEnt} (head : (s.core h).buf = e :: rest)
include head

theorem exec_drain_cached (main : e.io = none) (cacheable : e.nc = false) :
    exec (.storeBufferDrain h) s = .next (((s.askWritable h).beginHead h).drainCached h) := by
  show (.next _ : Answer) = _
  rw [head]
  simp only [main, cacheable, Bool.false_eq_true, if_false]

theorem exec_drain_io {a : Nat} {bytes : List Byte} (io : e.io = some (a, bytes)) {p : State × Bool}
    (performs : ((s.askWritable h).beginHead h).performIo h a bytes = p) :
    exec (.storeBufferDrain h) s = .next (if p.2 then p.1.popStore h else p.1) := by
  show (.next _ : Answer) = _
  rw [head]
  simp only [io, performs]

/-- An I/O head that was performed leaves the buffer. -/
theorem exec_drain_performed {a : Nat} {bytes : List Byte} (io : e.io = some (a, bytes)) {t : State}
    (performs : ((s.askWritable h).beginHead h).performIo h a bytes = (t, true)) :
    exec (.storeBufferDrain h) s = .next (t.popStore h) := exec_drain_io head io performs

theorem exec_drain_nc (main : e.io = none) (uncached : e.nc = true) {p : State × Bool}
    (stores : (if ((s.askWritable h).beginHead h).orderedOpen h none then ((s.askWritable h).beginHead h, false)
      else ((s.askWritable h).beginHead h).storeHome h (e.line * 64) [lineKey false e.line] fun v part =>
        v.engineMerge (lineKey false e.line) h part (e.bytes.length == 64) e.onto) = p) :
    exec (.storeBufferDrain h) s = .next (if p.2 then p.1.popStore h else p.1) := by
  show (.next _ : Answer) = _
  rw [head]
  simp only [main, uncached, if_true, stores]

/-- The head begins to drain once the lines are asked for. -/
theorem State.begun_buf : (((s.askWritable h).beginHead h).core h).buf = { e with begun := true } :: rest := by
  rw [State.beginHead_buf ((s.askWritable_asked h).buf.trans head)]

theorem State.begun_going : (((s.askWritable h).beginHead h).core h).going = (s.core h).going := by
  rw [State.beginHead_buf ((s.askWritable_asked h).buf.trans head)]
  exact (s.askWritable_asked h).going

end

/-- An I/O store waits for the hart's earlier ones. -/
theorem State.performIo_waits {s : State} {h : Fin 96} {a : Nat} {bytes : List Byte} (turn : s.orderedOpen h none = true) :
    s.performIo h a bytes = (s, false) := if_pos turn

/-- A store to registers is that register's write. -/
theorem State.performIo_register {s : State} {h : Fin 96} {a : Nat} {bytes : List Byte} (turn : s.orderedOpen h none = false)
    (register : s.rangeOf a bytes.length = .register) :
    s.performIo h a bytes = (s.writeReg (hartOrigin h) a bytes.length (leNat bytes), true) := by
  unfold State.performIo
  extract_lets n o
  rw [if_neg (by simp [turn]), show s.rangeOf a n = .register from register]

theorem State.performIo_unmapped {s : State} {h : Fin 96} {a : Nat} {bytes : List Byte} (turn : s.orderedOpen h none = false)
    (unmapped : s.rangeOf a bytes.length = .unmapped) :
    s.performIo h a bytes = ((s.unmapped (hartOrigin h) a bytes.length true).storeFailed h a stBadDescriptor, true) := by
  unfold State.performIo
  extract_lets n o
  rw [if_neg (by simp [turn]), show s.rangeOf a n = .unmapped from unmapped]

/-! ## Late failures (R254, R272) -/

section
variable (s : State) (h addr status : Nat)

theorem State.rd_setMip (b : Nat) (f : Fld) (i j r : Nat) : (s.setMip h b).rd f i j r = s.rd f i j r := rfl

theorem State.setMip_pending (b : Nat) : bit ((s.setMip h b).core h).mip b = true := by
  unfold State.setMip
  rw [s.core_setCore]
  exact bit_setBit_same _ b

theorem State.storeFailed_first (free : s.on mbuserr.VALID h = false) : s.storeFailed h addr status
    = (((s.wr mbuserr.ADDR (addr % 2 ^ 40) h).wr mbuserr.STATUS status h).wr mbuserr.VALID 1 h).setMip h 24 := by
  unfold State.storeFailed
  rw [if_neg (by simp [free])]

theorem State.storeFailed_more (taken : s.on mbuserr.VALID h = true) :
    s.storeFailed h addr status = (s.wr mbuserr.MORE 1 h).setMip h 24 := by
  unfold State.storeFailed
  rw [if_pos taken]

end

/-- A cacheable head whose line the hart may write leaves its bytes there. -/
theorem drain_written {s : State} {h : Fin 96} {e : SbEnt} {rest : List SbEnt} (head : (s.core h).buf = e :: rest)
    (main : e.io = none) (cacheable : e.nc = false) (awake : (s.core h).going = none)
    (may : (s.line (lineKey false e.line) h).st.writable = true) : ∃ t, exec (.storeBufferDrain h) s = .next t
      ∧ t.line (lineKey false e.line) h = { s.line (lineKey false e.line) h with
          st := .m, data := e.onto (s.line (lineKey false e.line) h).data,
          poison := (s.line (lineKey false e.line) h).poison && !e.zero }
      ∧ (t.core h).buf = rest ∧ s.hartSide t := by
  have asked := s.askWritable_asked h
  have line : ((s.askWritable h).beginHead h).line (lineKey false e.line) h = s.line (lineKey false e.line) h :=
    (State.line_beginHead _ _ _ _).trans (asked.writable _ may)
  have drains := State.drainCached_written (State.begun_buf head)
    (show SbEnt.cached { e with begun := true } = true by simp [SbEnt.cached, main, cacheable])
    (show (((s.askWritable h).beginHead h).line (lineKey false e.line) h).st.writable = true by rw [line]; exact may)
  dsimp only at drains
  rw [line] at drains
  refine ⟨_, (exec_drain_cached head main cacheable).trans (congrArg _ drains), ?_⟩
  obtain ⟨only, buf⟩ := State.popStore_awake (h := h) (s := ((s.askWritable h).beginHead h).setLine (lineKey false e.line) h
    { s.line (lineKey false e.line) h with
      st := .m, data := e.onto (s.line (lineKey false e.line) h).data,
      poison := (s.line (lineKey false e.line) h).poison && !e.zero }) ((State.begun_going head).trans awake)
  refine ⟨?_, buf.trans ?_, asked.only.trans ?_⟩
  · exact (only.line _ _).trans (State.line_setLine_same _ _ _ _)
  · rw [State.core_setLine, State.begun_buf head]; rfl
  · exact ((State.beginHead_hartSide _ h).trans (State.setLine_hartSide _ h _)).trans only.hartSide

theorem exec_uncachedStoreFail (s : State) (h : Fin 96) (a : BitVec 40) (st : Fin 17) :
    exec (.uncachedStoreFail h a st) s = .next (s.storeFailed h a.toNat st) := rfl

/-- The first failure of a store is recorded whole. -/
theorem storeFail_first {s : State} {h : Fin 96} (a : BitVec 40) (st : Fin 17) (free : s.on mbuserr.VALID h = false) :
    ∃ t, exec (.uncachedStoreFail h a st) s = .next t
      ∧ t.rd mbuserr.ADDR h = a.toNat ∧ t.rd mbuserr.STATUS h = st ∧ t.on mbuserr.VALID h = true
      ∧ bit (t.core h).mip 24 = true
      ∧ s.sameRegs t [mbuserr.ADDR.key h 0 0, mbuserr.STATUS.key h 0 0, mbuserr.VALID.key h 0 0]
      ∧ t = { s with regs := t.regs, cores := { s.cores with core := t.cores.core } } := by
  refine ⟨_, (exec_uncachedStoreFail s h a st).trans (congrArg _ (s.storeFailed_first h a.toNat st free)), ?_, ?_, ?_,
    State.setMip_pending _ h 24, ?_, rfl⟩
  · rw [State.rd_setMip, State.rd_wr_beside _ _ _ _ _ (by decide), State.rd_wr_beside _ _ _ _ _ (by decide), State.rd_wr_same]
    have := a.isLt
    show a.toNat % 2 ^ 40 % 2 ^ 40 = a.toNat
    omega
  · rw [State.rd_setMip, State.rd_wr_beside _ _ _ _ _ (by decide), State.rd_wr_same]
    show st.val % 2 ^ 8 = st.val
    omega
  · rw [State.on, State.rd_setMip, State.rd_wr_same]
    rfl
  · exact ((s.sameRegs_wr mbuserr.ADDR (a.toNat % 2 ^ 40) h 0 0).wr mbuserr.STATUS st h 0 0).wr mbuserr.VALID 1 h 0 0

/-- A failure that finds one recorded says that more have come. -/
theorem storeFail_more {s : State} {h : Fin 96} (a : BitVec 40) (st : Fin 17) (taken : s.on mbuserr.VALID h = true) :
    ∃ t, exec (.uncachedStoreFail h a st) s = .next t
      ∧ t.rd mbuserr.MORE h = 1 ∧ bit (t.core h).mip 24 = true ∧ s.sameRegs t [mbuserr.MORE.key h 0 0]
      ∧ t = { s with regs := t.regs, cores := { s.cores with core := t.cores.core } } :=
  ⟨_, (exec_uncachedStoreFail s h a st).trans (congrArg _ (s.storeFailed_more h a.toNat st taken)),
    s.rd_wr_same mbuserr.MORE 1 h 0 0, State.setMip_pending _ h 24, s.sameRegs_wr mbuserr.MORE 1 h 0 0, rfl⟩

/-- The drain of the store buffer by its head's kind, and late failures by mbuserr. -/
theorem coreDrains_stated : Stated.CoreDrains := by
  intro s h
  refine ⟨fun e rest head main cacheable awake => drain_written head main cacheable awake, fun empty => ?empty, fun e rest head => ?waits,
    fun a st => storeFail_first a st, fun a st => storeFail_more a st⟩
  case empty =>
    show (.next _ : Answer) = _
    rw [empty]
  case waits =>
    extract_lets u
    refine ⟨fun main cacheable cannot => ?cached, fun a bytes io turn => ?turn, fun a bytes io turn register => ?register,
      fun a bytes io turn unmapped => ?unmapped, fun main uncached => ?nc⟩
    case cached =>
      have still : (u.line (lineKey false e.line) h).st.writable = false := by
        rw [State.line_beginHead]
        exact (s.askWritable_asked h).none _ cannot
      have waits : u.drainCached h = u := State.drainCached_waits (e := { e with begun := true }) (State.begun_buf head) still
      exact (exec_drain_cached head main cacheable).trans (congrArg _ waits)
    case turn => exact exec_drain_io head io (State.performIo_waits turn)
    case register => exact exec_drain_performed head io (State.performIo_register turn register)
    case unmapped => exact exec_drain_performed head io (State.performIo_unmapped turn unmapped)
    case nc =>
      have merges (turn : u.orderedOpen h none = false) := exec_drain_nc head main uncached (if_neg (by simpa using turn))
      exact ⟨fun turn => exec_drain_nc head main uncached (p := (u, false)) (if_pos turn),
        fun turn no => (merges turn).trans (congrArg _ (if_neg (by simpa using no))),
        fun turn yes => (merges turn).trans (congrArg _ (if_pos yes))⟩

/-- Settles O43 by its two parts. -/
theorem coreWrites : Obligations.CoreWrites := ⟨coreStores_stated, coreDrains_stated⟩

end Sys2Proof.Machine
end

section
/-! PROOFS. What 10 ns change of the time bases, the harts' counters, the Cocoon site and an activation: no memory, no move and
no completion record (R37, R155, R156, R267, R382). -/

namespace Sys2Proof.Machine

/-- Nothing differs but register fields and what their interrupts send, the harts' records and counters, the beat monitors, the
Cocoon site, the boot selector and the terminals. -/
def State.ticked (s t : State) : Prop :=
  t = { s with regs := t.regs, irq := t.irq, out := t.out, beats := t.beats, coc := t.coc, trust := t.trust, board := t.board
               cores := { s.cores with core := t.cores.core, hpm := t.cores.hpm } }

section
variable {s t u : State}

theorem State.ticked.refl (s : State) : s.ticked s := rfl

theorem State.ticked.trans (h : s.ticked t) (g : t.ticked u) : s.ticked u := by
  unfold State.ticked at *
  exact g.trans (by rw [h])

theorem State.ticked.ite {c : Prop} [Decidable c] (h : s.ticked t) (g : s.ticked u) : s.ticked (if c then t else u) := by
  split
  · exact h
  · exact g

theorem State.quiet.ticked (h : s.quiet t) : s.ticked t := by
  unfold State.quiet at h
  rw [h]; rfl

theorem State.recordSide.ticked (h : s.recordSide t) : s.ticked t := by
  unfold State.recordSide at h
  rw [h]; rfl

theorem foldl_ticked {β : Type} (g : State → β → State) (h : ∀ (s : State) x, s.ticked (g s x)) (l : List β) (s : State) :
    s.ticked (l.foldl g s) :=
  foldl_rel State.ticked .refl (fun _ _ _ => .trans) g l (fun s x _ => h s x) s

end

section
variable (s : State)

/-! ## The time bases and beat monitors (R155, R156) -/

theorem State.tickTimers_quiet : s.quiet s.tickTimers := foldl_quiet _ (fun s _ => s.wr_quiet _ _ _ _ _) _ s

theorem State.beatMeasure_quiet (d : Nat) : s.quiet (s.beatMeasure d) :=
  ((s.wr_quiet _ _ _ _ _).wr _ _ _ _ _).wr _ _ _ _ _

theorem State.linkRates_quiet : s.quiet s.linkRates := foldl_quiet _ (fun s _ => s.wr_quiet _ _ _ _ _) _ s

theorem State.cluBeats_quiet (n c : Nat) : s.quiet (s.cluBeats n c) := by
  have stall (t : State) (b : Bool) (f : Fld) : t.quiet (if b then t.bump f n c else t) := by
    split
    · exact t.wr_quiet _ _ _ _ _
    · exact t.quiet_refl
  unfold State.cluBeats
  split
  · extract_lets s1 xs
    have counted : s.quiet s1 := s.wr_quiet _ _ _ _ _
    split
    · exact counted
    · exact (counted.trans (stall s1 _ _)).trans (stall _ _ _)
  · exact s.quiet_refl

theorem State.tickBeats_ticked (d : Nat) : s.ticked (s.tickBeats d) := by
  unfold State.tickBeats
  extract_lets was now b s1 n
  have monitored : s.ticked s1 := rfl
  exact monitored.trans (.ite (.refl s1) (foldl_quiet _ (fun s _ => s.cluBeats_quiet _ _) _ s1).ticked)

/-! ## The harts' counters (R267, R270, R273) -/

theorem State.tickDog_recordSide (h : Nat) : s.recordSide (s.tickDog h) := by
  unfold State.tickDog
  split
  · exact s.setCore_recordSide h fun c => { c with dog := c.dog + 1 }
  · exact .refl s

theorem State.recordSide.event {s t : State} (k : s.recordSide t) (c : Prop) [Decidable c] (h ev n : Nat) :
    s.recordSide (if c then t.hpmEvent h ev n else t) := by
  split
  · exact k.trans (t.hpmEvent_tallied h ev n).only
  · exact k

theorem State.tickCore_recordSide (h : Nat) : s.recordSide (s.tickCore h) := by
  unfold State.tickCore
  extract_lets x n s1 s2
  split
  · have counted : s.recordSide s1 := by
      refine State.recordSide.trans ?_ (State.hpmAdd_tallied h 0 n).only
      split
      · exact s.tickDog_recordSide h
      · exact .refl s
    exact (counted.event _ h 3 n).event _ h 9 n
  · exact .refl s

/-! ## The Cocoon site (R382, R386) -/

theorem State.setCoc_ticked (f : Coc → Coc) : s.ticked (s.setCoc f) := rfl

theorem State.send_quiet (o : Out) : s.quiet (s.send o) := rfl

theorem State.offer_quiet (limit : Nat) : s.quiet (s.offer limit) :=
  ((s.wr_quiet _ _ _ _ _).wr _ _ _ _ _).trans (State.send_quiet _ _)

theorem State.cocErr_quiet (status source addr : Nat) : s.quiet (s.cocErr status source addr) :=
  (((((s.wr_quiet _ _ _ _ _).wr _ _ _ _ _).wr _ _ _ _ _).wr _ _ _ _ _)).trans (State.raise_quiet _ _ _ _)

theorem State.siteAgree_quiet (d : List Byte) : s.quiet (s.siteAgree d) :=
  ((((s.wr_quiet _ _ _ _ _).wr _ _ _ _ _).wr _ _ _ _ _).wr _ _ _ _ _).wr _ _ _ _ _

theorem State.siteTrained_ticked (d : List Byte) : s.ticked (s.siteTrained d) := by
  unfold State.siteTrained
  extract_lets s1 s2
  have found : s.ticked s2 := (s.setCoc_ticked _).trans (foldl_quiet _ (fun s j => s.wr_quiet _ _ _ _ _) _ s1).ticked
  refine found.trans (.ite ?_ ?_)
  · exact (s2.setCoc_ticked _).trans ((((State.wr_quiet _ _ _ _ _ _).wr _ _ _ _ _).trans (State.cocErr_quiet _ _ _ _)).ticked)
  · exact (((s2.siteAgree_quiet d).wr _ _ _ _ _).trans (State.offer_quiet _ _)).ticked

theorem State.siteSettle_ticked : s.ticked s.siteSettle := by
  unfold State.siteSettle
  split
  · exact s.siteTrained_ticked _
  · exact .refl s

/-! ## The end of an activation (R37) -/

theorem State.activateEnd_ticked : s.ticked s.activateEnd := by
  cases ha : s.board.activating with
  | none =>
    have rests : s.activateEnd = s := by unfold State.activateEnd; rw [ha]
    rw [rests]
    exact .refl s
  | some h => rw [s.activateEnd_eq h ha]; rfl

end

end Sys2Proof.Machine
end

section
/-! PROOFS. What the part does of itself leaves the clock and the harts' time: memory, the homes, the movers' read-ahead and the
rings' records (R194, R267, R274 to R330, R357). -/

namespace Sys2Proof.Machine

/-- The clock and the harts' time. -/
def State.time (s : State) : Nat × Nat := (s.clock, s.cores.mtime)

@[simp] theorem ite_time (c : Prop) [Decidable c] (s t : State) : (if c then s else t).time = if c then s.time else t.time :=
  apply_ite State.time c s t

@[simp] theorem foldl_time {β : Type} (g : State → β → State) (h : ∀ (s : State) x, (g s x).time = s.time) (l : List β)
    (s : State) : (l.foldl g s).time = s.time := by
  induction l generalizing s with
  | nil => rfl
  | cons x l ih => exact (ih _).trans (h s x)

/-- The same for a list of updates of a state and what comes with it. -/
theorem foldl_time_of {α β : Type} (π : α → State) (g : α → β → α) (h : ∀ a x, (π (g a x)).time = (π a).time) (l : List β)
    (a : α) : (π (l.foldl g a)).time = (π a).time := by
  induction l generalizing a with
  | nil => rfl
  | cons x l ih => exact (ih _).trans (h a x)

section
variable (s : State)

/-! ## Registers, interrupts and RAS events -/

@[simp] theorem State.wr_time (f : Fld) (v i j r : Nat) : (s.wr f v i j r).time = s.time := rfl
@[simp] theorem State.bump_time (f : Fld) (n i j : Nat) : (s.bump f n i j).time = s.time := rfl
@[simp] theorem State.raise_time (f : Fld) (i mask : Nat) : (s.raise f i mask).time = s.time := by simp [State.time]
@[simp] theorem State.rasEvent_time (status block unit loc : Nat) (kind : RasKind) (detail : Nat) :
    (s.rasEvent status block unit loc kind detail).time = s.time := by simp [State.time]
@[simp] theorem State.msix_time (f v : Nat) : (s.msix f v).time = s.time := by
  unfold State.msix
  extract_lets c
  split
  · rfl
  · split
    · split <;> rfl
    · rfl

/-! ## The harts -/

@[simp] theorem State.setCore_time (h : Nat) (f : Core → Core) : (s.setCore h f).time = s.time := rfl
@[simp] theorem State.hpmEvent_time (h ev k : Nat) : (s.hpmEvent h ev k).time = s.time := by
  rw [State.time, (s.hpmEvent_tallied h ev k).only]; rfl

/-! ## Memory and the coherent domain -/

@[simp] theorem State.mem_time (m : MemSys) : State.time { s with mem := m } = s.time := rfl
@[simp] theorem State.setCoh_time (f : Coh → Coh) : (s.setCoh f).time = s.time := rfl
@[simp] theorem State.post_time (m : Msg) : (s.post m).time = s.time := rfl
@[simp] theorem State.take_time (m : Msg) : (s.take m).time = s.time := rfl
@[simp] theorem State.setPoison_time (line : Nat) (b : Bool) : (s.setPoison line b).time = s.time := rfl
@[simp] theorem State.putLine_time (line : Nat) (data : List Byte) (p : Bool) : (s.putLine line data p).time = s.time := rfl
@[simp] theorem State.setErr_time (line v : Nat) : (s.setErr line v).time = s.time := rfl
@[simp] theorem State.setSc_time (m : SMap ScLine) : (s.setSc m).time = s.time := rfl
@[simp] theorem State.stamped_time : s.stamped.time = s.time := rfl
@[simp] theorem State.wakePc_time (pc : Nat) : (s.wakePc pc).time = s.time := rfl
@[simp] theorem State.scPut_time (hub set way : Nat) (l : ScLine) : (s.scPut hub set way l).time = s.time := rfl
@[simp] theorem State.charge_time (line p : Nat) : (s.charge line p).time = s.time := by
  unfold State.charge
  split <;> rfl

/-! ## HBM (R311, R314) -/

@[simp] theorem State.hbmUncorr_time (line : Nat) : (s.hbmUncorr line).time = s.time := by
  unfold State.hbmUncorr
  extract_lets p n s1 s2 s3
  have logged : s3.time = s.time := by simp [s3, s2, s1]
  clear_value s3
  split
  · exact logged
  · exact logged

@[simp] theorem State.hbmRead_time (line upset : Nat) : (s.hbmRead line upset).st.time = s.time := by
  unfold State.hbmRead
  split
  · rfl
  · extract_lets e n s1 s2
    split
    · simp [s1]
    · simp [s2, s1]

@[simp] theorem State.hbmStore_time (line : Nat) : (s.hbmStore line).time = s.time := by simp [State.hbmStore]

/-! ## The system caches (R321 to R330) -/

@[simp] theorem State.wayDisabled_time (hub way : Nat) : (s.wayDisabled hub way).time = s.time := by
  unfold State.wayDisabled
  extract_lets s1 s2 k m s3
  exact (State.rasEvent_time _ _ _ _ _ _ _).trans ((State.raise_time _ _ _ _).trans rfl)

@[simp] theorem State.disableWay_time (hub way : Nat) : (s.disableWay hub way).time = s.time := by
  unfold State.disableWay
  split
  · simp
  · split <;> rfl

@[simp] theorem State.scCorrected_time (hub way : Nat) : (s.scCorrected hub way).time = s.time := by
  unfold State.scCorrected
  extract_lets s1 k times m s2 th
  have counted : s2.time = s.time := rfl
  simp [counted]

@[simp] theorem State.scUncorrected_time (hub way : Nat) : (s.scUncorrected hub way).time = s.time := by
  simp [State.scUncorrected]

@[simp] theorem State.scDirtyBad_time (hub way line : Nat) : (s.scDirtyBad hub way line).time = s.time := by
  simp [State.scDirtyBad]

@[simp] theorem State.scWriteBack_time (hub way line : Nat) : (s.scWriteBack hub way line).time = s.time := by
  unfold State.scWriteBack
  split <;> simp

@[simp] theorem State.scEvict_time (hub set way : Nat) : (s.scEvict hub set way).time = s.time := by
  unfold State.scEvict
  split
  · rfl
  · simp

@[simp] theorem State.scInstall_time (line way : Nat) (dirty pf : Bool) : (s.scInstall line way dirty pf).time = s.time := by
  simp [State.scInstall]

@[simp] theorem State.prefetchLine_time (hub part line : Nat) : (s.prefetchLine hub part line).time = s.time := by
  unfold State.prefetchLine
  extract_lets set ws age r s1
  clear_value ws
  split
  · rfl
  · split
    · rfl
    · simp [s1, r]

@[simp] theorem State.train_time (stream part line : Nat) : (s.train stream part line).time = s.time := by
  simp [State.train]

@[simp] theorem State.scMiss_time (line stream part : Nat) : (s.scMiss line stream part).st.time = s.time := by
  simp [State.scMiss]

@[simp] theorem State.scHit_time (line way : Nat) (l : ScLine) : (s.scHit line way l).st.time = s.time := by
  simp [State.scHit]

@[simp] theorem State.scLookup_time (line stream part : Nat) (err : Option Nat) :
    (s.scLookup line stream part err).st.time = s.time := by
  unfold State.scLookup
  extract_lets hub again
  have looks (t : State) : (again t).st.time = t.time := by
    unfold again
    split <;> simp
  split
  · simp
  · split
    · simp
    · simp [looks]
    · split <;> simp [looks]

/-! ## A home's reads and writes of HBM lines -/

@[simp] theorem State.homeFetch_time (line stream part upset : Nat) (way : Option Nat) :
    (s.homeFetch line stream part upset way).st.time = s.time := by
  unfold State.homeFetch
  split
  · rfl
  · split
    · rfl
    · split <;> simp

@[simp] theorem State.homeWrite_time (line stream part : Nat) (data : List Byte) (poison : Bool) :
    (s.homeWrite line stream part data poison).time = s.time := by
  unfold State.homeWrite
  extract_lets hub set s1
  have put : s1.time = s.time := rfl
  split
  · exact s.rasEvent_time _ _ _ _ _ _
  · split
    · rfl
    · split
      · split
        · exact (State.scPut_time _ _ _ _ _).trans ((State.hbmStore_time _ _).trans (State.charge_time _ _ _))
        · rfl
      · split <;> simp [put]

/-! ## The homes' tables and snoops (R285 to R303) -/

@[simp] theorem State.dirStats_time (n : Nat) : (s.dirStats n).time = s.time := by simp [State.dirStats]
@[simp] theorem State.setEntry_time (k : Nat) (e : Option DirEnt) : (s.setEntry k e).time = s.time := by simp [State.setEntry]
@[simp] theorem State.setTxn_time (k : Nat) (t : Txn) : (s.setTxn k t).time = s.time := by simp [State.setTxn]
@[simp] theorem State.snoopAgent_time (k : Nat) (p : Nat × SnpKind) : (s.snoopAgent k p).time = s.time := by
  simp [State.snoopAgent]
@[simp] theorem State.snoopAll_time (k : Nat) (t : Txn) (l : List (Nat × SnpKind)) : (s.snoopAll k t l).time = s.time := by
  simp [State.snoopAll]
@[simp] theorem State.putHostLine_time (k : Nat) (data : List Byte) (p : Bool) : (s.putHostLine k data p).time = s.time := rfl
@[simp] theorem State.homeStore_time (k stream : Nat) (data : List Byte) (p : Bool) :
    (s.homeStore k stream data p).time = s.time := by simp [State.homeStore]
@[simp] theorem State.giveBack_time (k : Nat) : (s.giveBack k).time = s.time := by simp [State.giveBack]
@[simp] theorem State.leaveEntry_time (k : Nat) (e : DirEnt) : (s.leaveEntry k e).time = s.time := by simp [State.leaveEntry]

/-! ## The lines of the cores (R288) -/

@[simp] theorem State.lineTaken_time (k h : Nat) : (s.lineTaken k h).time = s.time := by simp [State.lineTaken]

@[simp] theorem State.snoopNow_time (k h : Nat) (kind : SnpKind) : (s.snoopNow k h kind).1.time = s.time := by
  have snooped (t : State) : (t.snooped k h kind).1.time = t.time := by
    unfold State.snooped
    extract_lets l r s1 s2
    split
    · rfl
    · show s2.time = _
      unfold s2
      split
      · exact s1.lineTaken_time k h
      · exact s1.lineTaken_time k h
      · rfl
  unfold State.snoopNow
  extract_lets s1 r
  have answered : r.1.time = s.time := by simp [r, s1, snooped]
  clear_value r
  split
  · exact answered
  · exact answered
  · split
    · simp [answered]
    · exact answered

/-! ## The engines' accesses (R274, R282, R284, R292) -/

@[simp] theorem State.touchFar_time (k stream : Nat) : (s.touchFar k stream).time = s.time := by
  unfold State.touchFar
  split <;> rfl

@[simp] theorem State.engineInv_time (k stream : Nat) : (s.engineInv k stream).1.time = s.time := by
  unfold State.engineInv
  extract_lets s1
  have touched : s1.time = s.time := s.touchFar_time k stream
  clear_value s1
  split
  · exact touched
  · simp only [State.setEntry_time]
    refine (foldl_time_of Prod.fst _ (fun p a => ?_) _ (s1, none)).trans touched
    split
    · rfl
    · dsimp only
      exact p.1.snoopNow_time k a .snpInv

@[simp] theorem State.engineMerge_time (k stream part : Nat) (full : Bool) (f : List Byte → List Byte) :
    (s.engineMerge k stream part full f).time = s.time := by
  unfold State.engineMerge
  extract_lets r l old
  have snooped : r.1.time = s.time := s.engineInv_time k stream
  have read : old.st.time = s.time := by
    unfold old
    split
    · exact snooped
    · simp [l, snooped]
  clear_value r old
  simp [State.scWrites, snooped, read]

@[simp] theorem State.engineRead_time (k stream part : Nat) : (s.engineRead k stream part).st.time = s.time := by
  unfold State.engineRead
  extract_lets s1 mem
  have touched : s1.time = s.time := State.touchFar_time _ k stream
  have reads (t : State) : (mem t).st.time = t.time := by simp [mem]
  clear_value mem s1
  split
  · split
    · split
      · simp [reads, touched]
      · extract_lets r st gone s2
        have snooped : s2.time = s.time := (s1.snoopNow_time k _ .snpCur).trans touched
        clear_value r s2
        split <;> simp [reads, snooped]
    · simp [reads, touched]
  · simp [reads, touched]

@[simp] theorem State.prepare_time (ks : List Nat) (write : Bool) : (s.prepare ks write).1.time = s.time := by
  unfold State.prepare
  split
  · rfl
  · extract_lets held
    split
    · rfl
    · simp [State.askHostCopy]

@[simp] theorem State.rangeRead_time (addr n stream part : Nat) : (s.rangeRead addr n stream part).st.time = s.time := by
  unfold State.rangeRead
  split
  · rfl
  · refine foldl_time_of LineRead.st _ (fun p k => ?_) _ ⟨s, [], false⟩
    exact p.st.engineRead_time k stream part

@[simp] theorem State.rangeWrite_time (stream part addr : Nat) (bytes : List Byte) :
    (s.rangeWrite stream part addr bytes).time = s.time := by
  simp [State.rangeWrite, State.engineWrite]

/-! ## Scratchpads (R62, R71, R72) -/

@[simp] theorem State.setClu_time (c : Nat) (f : Clu → Clu) : (s.setClu c f).time = s.time := rfl
@[simp] theorem State.setBankPwr_time (c b v : Nat) : (s.setBankPwr c b v).time = s.time := by simp [State.setBankPwr]
@[simp] theorem State.allBanksOn_time (c : Nat) : (s.allBanksOn c).time = s.time := by simp [State.allBanksOn]
@[simp] theorem State.cancelOff_time (c : Nat) : (s.cancelOff c).time = s.time := by simp [State.cancelOff]
@[simp] theorem State.countWake_time (c b : Nat) : (s.countWake c b).time = s.time := by simp [State.countWake]

@[simp] theorem State.execFollow_time (c : Nat) : (s.execFollow c).time = s.time := by
  unfold State.execFollow
  split
  · rw [s.execUpdate_quiet]; rfl
  · rfl

@[simp] theorem State.wakeCluster_time (c : Nat) : (s.wakeCluster c).time = s.time := by
  unfold State.wakeCluster
  rw [State.execFollow_time, State.raise_time, State.bump_time, State.allBanksOn_time, State.wr_time, State.wr_time]

@[simp] theorem State.touch_time (c off n : Nat) : (s.touch c off n).time = s.time := by
  simp [State.touch, State.touchBank, State.wakeBank]
@[simp] theorem State.countCorrected_time (c off syn : Nat) : (s.countCorrected c off syn).time = s.time := by
  simp [State.countCorrected]

theorem State.readWords_time (c : Nat) (offs : List Nat) : (s.readWords c offs).st.time = s.time := by
  induction offs generalizing s with
  | nil => rfl
  | cons off rest ih =>
    unfold State.readWords
    extract_lets w s1 r
    have counted : s1.time = s.time := by
      unfold s1
      split <;> simp
    split
    · rfl
    · exact (ih s1).trans counted

@[simp] theorem State.spadRead_time (c off n : Nat) : (s.spadRead c off n).st.time = s.time := by
  unfold State.spadRead
  split
  · rfl
  · exact (State.readWords_time _ c _).trans (s.touch_time c off n)

/-! ## Host memory (R348 to R350) -/

@[simp] theorem State.host_time (w : HostPort) : State.time { s with host := w } = s.time := rfl
@[simp] theorem State.hostMem_time (w : List (Nat × Byte)) : State.time { s with hostMem := w } = s.time := rfl

@[simp] theorem State.translated_time (func pasid addr n : Nat) : (s.translated func pasid addr n).time = s.time := by
  have page (t : State) (p : Nat) : (t.pageIn func pasid p).time = t.time := by
    unfold State.pageIn
    split <;> rfl
  simp [State.translated, page]

@[simp] theorem State.hostRefuses_time (func pasid addr : Nat) : (s.hostRefuses func pasid addr).time = s.time := by
  simp [State.hostRefuses]

@[simp] theorem State.hostRead_time (func pasid addr n : Nat) : (s.hostRead func pasid addr n).1.time = s.time := by
  simp [State.hostRead]

@[simp] theorem State.hostWrite_time (func pasid addr : Nat) (bytes : List Byte) :
    (s.hostWrite func pasid addr bytes).time = s.time := (s.translated_time func pasid addr _)

/-! ## The movers read ahead (R194) -/

@[simp] theorem State.setMove_time (c m : Nat) (f : Move → Move) : (s.setMove c m f).time = s.time := rfl

@[simp] theorem State.readSource_time (c m : Nat) (v : Move) (sd : Side2) (off : Int) (n : Nat) (denied : Bool) :
    (s.readSource c m v sd off n denied).1.time = s.time := by
  cases sd with
  | spad d base =>
    simp only [State.readSource]
    split
    · rfl
    · split <;> simp [State.spadEvent]
  | hbm base =>
    simp only [State.readSource]
    split
    · simp
    · split <;> simp
  | host base =>
    simp only [State.readSource]
    split
    · rfl
    · split
      · split <;> simp
      · simp
  | peer mod spad base => rfl
  | none => rfl

@[simp] theorem State.readAheadUnit_time (c m k : Nat) : (s.readAheadUnit c m k).time = s.time := by
  unfold State.readAheadUnit
  split
  · rfl
  · extract_lets dst r d u held rd
    have read : rd.1.time = s.time := s.readSource_time c m _ _ _ _ _
    clear_value rd
    split
    · rfl
    · split <;> exact read

@[simp] theorem State.readAhead_time (c m : Nat) : (s.readAhead c m).time = s.time := by
  unfold State.readAhead
  split
  · rfl
  · simp

theorem State.tickMovers_time : s.tickMovers.time = s.time := by simp [State.tickMovers]

/-! ## The rings' records (R357, R358, R360) -/

@[simp] theorem State.setRing_time (r : Nat) (f : Ring → Ring) : (s.setRing r f).time = s.time := rfl
@[simp] theorem State.ringDisabled_time (r : Nat) : (s.ringDisabled r).time = s.time := by simp [State.ringDisabled]
@[simp] theorem State.ringSettle_time (r : Nat) : (s.ringSettle r).time = s.time := by simp [State.ringSettle]
@[simp] theorem State.ringDue_time (r : Nat) : (s.ringDue r).time = s.time := by simp [State.ringDue, State.ringMsix]
@[simp] theorem State.recordNext_time (r : Nat) : (s.recordNext r).time = s.time := by simp [State.recordNext]
@[simp] theorem State.recordDone_time (c : RingRec) : (s.recordDone c).time = s.time := by simp [State.recordDone]

@[simp] theorem State.writeRecord_time (c : RingRec) : (s.writeRecord c).1.time = s.time := by
  unfold State.writeRecord
  split
  · simp
  · extract_lets a bytes p
    have ready : p.1.time = s.time := s.prepare_time _ true
    split
    · split <;> simp [ready]
    · simp

theorem State.flushRecords_time (held l : List RingRec) : (s.flushRecords held l).time = s.time := by
  induction l generalizing s held with
  | nil => rfl
  | cons c rest ih =>
    unfold State.flushRecords
    simp [ih]

theorem State.flushAll_time : s.flushAll.time = s.time := by simp [State.flushAll, State.flushRecords_time]

end

end Sys2Proof.Machine
end

section
/-! PROOFS. An empty queue: 10 ns pass (R267). -/

namespace Sys2Proof.Machine

section
variable {s t u : State}

theorem State.ticked.time (h : s.ticked t) : t.time = s.time := by
  unfold State.ticked at h
  rw [h]; rfl

/-- The memories, the clusters and the host port stand. -/
def State.storeStands (s t : State) : Prop := s.sameStore t ∧ t.clus = s.clus ∧ t.host = s.host

theorem State.storeStands.trans (h : s.storeStands t) (g : t.storeStands u) : s.storeStands u := by
  obtain ⟨store, clus, host⟩ := h
  obtain ⟨store', clus', host'⟩ := g
  exact ⟨store.trans store', clus'.trans clus, host'.trans host⟩

theorem State.ticked.storeStands (h : s.ticked t) : s.storeStands t := by
  unfold State.ticked at h
  rw [h]
  exact ⟨⟨rfl, rfl, rfl, rfl⟩, rfl, rfl⟩

/-- Where no mover is in a move there is nothing to read ahead (R194). -/
theorem State.tickMovers_rests (rest : ∀ c, (s.clu c).mov0.cur = none ∧ (s.clu c).mov1.cur = none) : s.tickMovers = s := by
  have idle (c m : Nat) : s.readAhead c m = s := by
    have none : (s.mover c m).cur = none := by
      unfold State.mover
      split
      · exact (rest c).1
      · exact (rest c).2
    unfold State.readAhead
    rw [none]
  unfold State.tickMovers
  induction s.clus.map (·.1) with
  | nil => rfl
  | cons c l ih => rw [List.foldl_cons, idle, idle, ih]

theorem State.flushAll_rests (empty : s.host.compq = []) : s.flushAll = s := if_pos (by simp [empty])

end

/-- The counters and monitors once the clock and the harts' time have advanced; `State.idle_eq` ties it to the model. -/
def State.tallies (s : State) : State :=
  let s := if s.clock % 100 = 0 then ((List.range 4).foldl State.beatMeasure s).linkRates else s
  let s := (List.range 4).foldl State.tickBeats s
  (s.cores.core.map (·.1)).foldl State.tickCore s

/-- The harts' time advances. -/
def State.mtimeNext (s : State) : State := { s with cores := { s.cores with mtime := (s.cores.mtime + 1) % 2 ^ 64 } }

theorem State.idle_eq {s : State} (powered : s.board.powered = true) : s.idle
    = (State.tickTimers { s.activateEnd with clock := s.clock + 1 }).mtimeNext.tallies.tickMovers.flushAll.siteSettle :=
  if_neg (not_not_intro powered)

theorem State.tallies_ticked (s : State) : s.ticked s.tallies := by
  unfold State.tallies
  extract_lets s1 s2
  have rates : s.ticked s1 := .ite ((foldl_quiet _ (fun s d => s.beatMeasure_quiet d) _ _).trans (State.linkRates_quiet _)).ticked
    (.refl s)
  have beats : s1.ticked s2 := foldl_ticked _ (fun s d => s.tickBeats_ticked d) _ _
  exact (rates.trans beats).trans (foldl_ticked _ (fun s h => (s.tickCore_recordSide h).ticked) _ _)

/-- What 10 ns leave before the movers and the records: the clock and the harts' time have advanced. -/
theorem State.idle_ticks {s : State} (powered : s.board.powered = true) :
    ∃ u, s.idle = u.tickMovers.flushAll.siteSettle ∧ u.time = (s.clock + 1, (s.cores.mtime + 1) % 2 ^ 64) ∧ s.storeStands u := by
  have ended := s.activateEnd_ticked
  have timers : State.ticked { s.activateEnd with clock := s.clock + 1 }
      (State.tickTimers { s.activateEnd with clock := s.clock + 1 }) := (State.tickTimers_quiet _).ticked
  have began : s.activateEnd.storeStands { s.activateEnd with clock := s.clock + 1 } := ⟨⟨rfl, rfl, rfl, rfl⟩, rfl, rfl⟩
  have mtime : s.activateEnd.cores.mtime = s.cores.mtime := (Prod.ext_iff.1 ended.time).2
  have idle := s.idle_eq powered
  generalize State.tickTimers _ = t at timers idle
  have advanced : t.storeStands t.mtimeNext := ⟨⟨rfl, rfl, rfl, rfl⟩, rfl, rfl⟩
  have counts := t.mtimeNext.tallies_ticked
  obtain ⟨clockT, mtimeT⟩ := Prod.ext_iff.1 timers.time
  refine ⟨t.mtimeNext.tallies, idle, counts.time.trans ?_, ?_⟩
  · exact Prod.ext clockT (congrArg (fun m => (m + 1) % 2 ^ 64) (mtimeT.trans mtime))
  · exact (((ended.storeStands.trans began).trans timers.storeStands).trans advanced).trans counts.storeStands

/-- Settles O2: the clock and the harts' time stand through what the part does of itself, and the memories where it has nothing
to read ahead and no record to write. -/
theorem idleTicks : Obligations.IdleTicks := by
  intro s empty
  refine ⟨fun powered => ?powered, fun off => ?off⟩
  case powered =>
    obtain ⟨u, idle, time, store⟩ := State.idle_ticks powered
    have kept : s.idle.time = u.time := by
      rw [idle, (State.siteSettle_ticked _).time, State.flushAll_time, State.tickMovers_time]
    obtain ⟨clock, mtime⟩ := Prod.ext_iff.1 (kept.trans time)
    refine ⟨s.idle, step_idle s empty, clock, mtime, fun records moves => ?_⟩
    obtain ⟨same, clus, host⟩ := store
    have still : u.tickMovers.flushAll = u := by
      rw [State.tickMovers_rests fun c => ?_, State.flushAll_rests (by rw [host, records])]
      unfold State.clu
      rw [clus]
      exact moves c
    rw [idle, still]
    exact same.trans u.siteSettle_ticked.storeStands.1
  case off =>
    refine (step_idle s empty).trans (congrArg _ ?_)
    unfold State.idle
    exact if_pos (by simp [off])

end Sys2Proof.Machine
end
